-- ==== Sys2Proof/Word.lean ====
section
/-! DEFINITION. The word types of the module and their plainest arithmetic. -/

namespace Sys2Proof

/-- One octet of a buffer, a frame or a memory. -/
abbrev Byte := BitVec 8

/-- A 32-bit register or control word (R252, R427). -/
abbrev Word := BitVec 32

/-- An 8-byte register (R428). -/
abbrev Dword := BitVec 64

/-- A table with one value per index: pairs of index and value in rising index order, holding no pair whose
value is the default of its index. The canonical form is `Machine.Tab.wf`. -/
abbrev Tab (α : Type) := List (Nat × α)

/-- A byte memory: the bytes that differ from what an unlisted address reads as (00h). -/
abbrev Memory := Tab Byte

end Sys2Proof
end

