-- ==== Sys2Proof/Syntax.lean ====
section
/-! DEFINITION. The commands of the block: one constructor for each row of spec/opcode_table.json.

A row that the host, a pin, a bus or another part of the vehicle sends has no time operand and takes effect at the
present cycle. A row whose instant the module's own clock gives carries `dt`, the fast-clock cycles (R15) since the
command before it; the meaning first lets the clock run on by `dt` and then looks whether the row is due. -/

namespace Sys2Proof

/-- Levels at the strap contacts of J1 (R413, R414). -/
structure Straps where
  mgr        : Bool
  slotId     : BitVec 5
  profileSel : BitVec 2
  deriving DecidableEq, Repr

/-- What the reads of host memory for one ring entry returned (R253, R275, R276): `none` is a failed read (R269). The
distribution set that a CONSIST_CFG names (R308) follows its record, from byte 512 of the payload. -/
structure FetchRead where
  entry   : Option (List Byte)
  payload : Option Memory
  auth    : Option (List Byte)
  deriving DecidableEq, Repr

/-- What the receiver of a lane finds wrong with a frame (R221 step 1; counters 04, 12 and 13 of R248). -/
inductive RxError where
  | none | fcs | assembly | smd
  deriving DecidableEq, Repr

/-- A frame as a lane's receiver delivers it (R221): octets from the first DA octet to the end of the payload, and, for
a frame received in fragments, the cycles from the first bit after the start frame delimiter of its first fragment to
its end (R176). -/
structure RxFrame where
  octets : List Byte
  err    : RxError
  frag   : Option Nat
  deriving DecidableEq, Repr

/-- The fields of a gPTP Sync or Follow_Up message that R173 names, in 2^-16 ns, and logMessageInterval. -/
structure PtpMsg where
  seqId   : BitVec 16
  twoStep : Bool
  origin  : Nat
  corr    : Int
  logInt  : BitVec 8
  deriving DecidableEq, Repr

/-- A received Biarn frame (R298): the octets from the first DA octet to the end of PAYLOAD with any VLAN tag
left out, the 16 octets of TAG, and the VLAN tag, 4 octets or none. -/
structure BiarnFrame where
  octets : List Byte
  tag    : List Byte
  vlan   : List Byte
  deriving DecidableEq, Repr

/-- What a calibration procedure measured on a cell (R147, R149): the mean hold drives, and the results that the
procedure derives from them. -/
structure CalMeasure where
  driveBar   : Int
  driveCross : Int
  stiffness : Nat
  linOffset : Int
  deriving DecidableEq, Repr

/-- The flash operation that ends (R287). -/
inductive FlashOp where
  | cfgStore | imageWrite | keySet | wearSummary | auditEntry
  deriving DecidableEq, Repr

/-- The master that makes an internal register access (R344): 0 is the supervisor pair, 2 carries the host. -/
abbrev Master := Fin 8

/-- The traffic classes of the matrix (R347). -/
inductive TrafficClass where
  | bulk | control | locked
  deriving DecidableEq, Repr

/-- A transaction that a master puts to the matrix (R344, R347, R350): its class and identifier, the internal address,
the bytes still to move, and for a write their values. `first` and `rest` place a LOCKED access in its sequence: it is
the first, and so many follow it. -/
structure BusReq where
  master : Master
  cls    : TrafficClass
  id     : Fin 32
  addr   : Nat
  len    : Nat
  write  : Bool
  data   : List Byte
  first  : Bool
  rest   : Nat
  deriving DecidableEq, Repr

/-- A write that a master makes to a register of the matrix or of a DMA channel, and the transactions that masters have
put to the matrix since the last such row; they are outstanding until a row serves them (R344, R350; assumption 64). -/
structure BusAccess where
  by_    : Master
  others : List BusReq
  deriving DecidableEq, Repr

/-- One row of spec/opcode_table.json. -/
inductive Instr where
  -- start, resets and host function
  | powerUp (straps : Straps) (vin10mV : BitVec 16)
  | endpointReady (dt : Nat)
  | vinDropOut
  | rstNAssert
  | rstNRelease
  | modrst (value : Word)
  | perstNAssert
  | perstNRelease (dt : Nat)
  | functionLevelReset
  | busMasterEnableClear
  | busMasterEnableSet
  | d3hotEntry
  | d0Return
  -- stabling and wake
  | stabling (dt : Nat)
  | stabled (dt : Nat)
  | closingSummaryTimeout (dt : Nat)
  | wakeIn (dt : Nat)
  | stableReqNRelease (dt : Nat)
  | wakeTimer (dt : Nat)
  | testEnActive
  | testEnInactive
  -- test access port
  | makerPrivateInstruction (code : Byte)
  | bypass (code : Byte)
  | pinTakingEnd (dt : Nat)
  | smbRefused (isWrite : Bool) (code : Byte)
  -- supervisor
  | supervisorWdt (dt : Nat)
  | lockstepMismatch (dt : Nat)
  | supervisorReturn (dt : Nat)
  | trialEnd (dt : Nat)
  | supervisorWaitExpiry (dt : Nat) (ring : Fin 16)
  -- faults
  | faultFire (dt : Nat) (src : Fin 96) (detail : BitVec 16) (stopped : Bool)
  | levelSourceEnd (dt : Nat) (src : Fin 96)
  | errNPulseEnd (dt : Nat)
  | stickyClear (k : Fin 3) (mask : Word)
  | severityWrite (k : Fin 12) (value : Word)
  | errForce (value : Word)
  | errRelease (value : Word)
  | allClr (value : Word)
  | parkRelease (mask : Word)
  | isolationRelease (mask : Word)
  | fltSel (value : Word)
  | faultInject (ring : Fin 16)
  | faultInjectHold (ring : Fin 16)
  | faultInjectEnd (ring : Fin 16)
  | injectionExpiry (dt : Nat) (src : Fin 96)
  -- register accesses
  | timeSnap (dt : Nat)
  | lowWordRead (offset : Nat)
  | registerWrite (offset : Nat) (size : Nat) (value : Dword)
  -- roles
  | secGrantRequest (dt : Nat) (value : Word) (flashOk : Bool)
  | revoke (value : Word)
  | grantExpiry (dt : Nat)
  | deniedWriteAudit (dt : Nat)
  | secKeySel (value : Word)
  -- command opcodes, at the head of a command ring
  | nop (ring : Fin 16)
  | mapLoad (ring : Fin 16)
  | mapLoadComplete (ring : Fin 16)
  | mapRoute (ring : Fin 16)
  | routeDone (dt : Nat)
  | mapApply (ring : Fin 16)
  | mapApplyPreparation (dt : Nat) (ring : Fin 16)
  | mapCancel (ring : Fin 16)
  | mapRead (ring : Fin 16)
  | mapFree (ring : Fin 16)
  | failAdd (ring : Fin 16)
  | failRemove (ring : Fin 16)
  | profileWrite (ring : Fin 16)
  | profileWriteField (ring : Fin 16)
  | profileRead (ring : Fin 16)
  | loopSetpoint (ring : Fin 16)
  | calProbe (ring : Fin 16)
  | calSweep (ring : Fin 16)
  | calReset (ring : Fin 16)
  | calComplete (dt : Nat) (cell : Fin 2048) (meas : CalMeasure)
  | bankLoad (ring : Fin 16)
  | patternStart (ring : Fin 16)
  | patternSwap (ring : Fin 16)
  | patternStop (ring : Fin 16)
  | timeStep (ring : Fin 16)
  | timeStepToSource (ring : Fin 16)
  | laneConfig (ring : Fin 16)
  | streamWrite (ring : Fin 16)
  | streamRead (ring : Fin 16)
  | cfgStore (ring : Fin 16)
  | auditRead (ring : Fin 16)
  | keySet (ring : Fin 16)
  | keyClear (ring : Fin 16)
  | imageWrite (ring : Fin 16)
  | imageActivate (ring : Fin 16)
  | imageQuery (ring : Fin 16)
  | consistConfigure (ring : Fin 16)
  | consistDistribute (ring : Fin 16)
  | consistSwap (ring : Fin 16)
  -- rings
  | ringStart (ring : Fin 160)
  | ringReset (ring : Fin 160)
  | ringResetComplete (ring : Fin 160)
  | doorbell (ring : Fin 144) (value : Word)
  | eventDoorbell (ring : Fin 16) (value : Word)
  | pollTimer (dt : Nat) (ring : Fin 144) (control : Option Word)
  | entryFetch (dt : Nat) (ring : Fin 144) (reads : List FetchRead) (flashOk : Bool)
  | holdoffExpiry (dt : Nat) (ring : Fin 160)
  -- endpoint
  | transmitEntry (dt : Nat) (ring : Fin 64)
  | frameStart (dt : Nat) (lane : Fin 8)
  | frameSent (dt : Nat) (lane : Fin 8)
  | txNofit (dt : Nat) (lane : Fin 8) (queue : Fin 8)
  | frameReceive (dt : Nat) (lane : Fin 8) (frame : RxFrame)
  | blockLockChange (dt : Nat) (lane : Fin 8) (lock fecLock : Bool)
  | linkUp (dt : Nat) (lane : Fin 8)
  | linkDown (dt : Nat) (lane : Fin 8)
  | preemptVerify (dt : Nat) (lane : Fin 8) (response : Bool)
  | shaperRefill (dt : Nat) (lane : Fin 8) (queue : Fin 8)
  | eptShapeWrite (lane : Fin 8) (queue : Fin 8) (value : Dword)
  | pacedRelease (dt : Nat) (ctx : Fin 4096)
  | calendarSlot (dt : Nat)
  | overflowMove (dt : Nat)
  | policeCredit (dt : Nat) (ctx : Fin 4096)
  | recoveryReset (dt : Nat) (ctx : Fin 4096)
  | slotRelease (dt : Nat) (ctx : Fin 4096)
  | laneReset (mask : Word)
  | eptStrSel (value : Word)
  -- time
  | sync (dt : Nat) (inst : Fin 2) (lane : Fin 8) (msg : PtpMsg)
  | followUp (dt : Nat) (inst : Fin 2) (lane : Fin 8) (msg : PtpMsg)
  | timeJump
  | linkDelayExchange (dt : Nat) (lane : Fin 8) (meanDelay : Int) (rateRatio : Int)
  | syncTransmit (dt : Nat) (inst : Fin 2) (lane : Fin 8)
  | announceTransmit (dt : Nat) (inst : Fin 2) (lane : Fin 8) (body : List Byte)
  | holdover (dt : Nat)
  | holdoverDrift (dt : Nat)
  | timeCtrlWrite (value : Word)
  | driftLimWrite (value : Word)
  | timeDomCfgWrite (inst : Fin 2) (value : Word)
  | ppsIn (dt : Nat)
  | ppsInLoss (dt : Nat)
  | ppsOut (dt : Nat)
  | ppsOutPulseEnd (dt : Nat)
  | step (dt : Nat)
  | stepLapsed (dt : Nat)
  -- schedule
  | rowBoundary (dt : Nat)
  | gateEvent (dt : Nat) (lane : Fin 8)
  | bankStart (dt : Nat)
  | bankSwap (dt : Nat)
  | bankEnd (dt : Nat)
  | failQuietStart (dt : Nat)
  | failQuietEnd (dt : Nat)
  | holdStart (dt : Nat)
  | holdEnd (dt : Nat)
  -- fabric
  | castOnOrder (dt : Nat)
  | castOnComplete (dt : Nat) (chamber : Fin 32)
  | bindOff (dt : Nat) (chamber : Fin 32)
  | bindOffComplete (dt : Nat) (chamber : Fin 32)
  | fabChCtrlWrite (chamber : Fin 32) (value : Word)
  | stagingStitch (dt : Nat) (cell : Fin 2048)
  | revert (dt : Nat) (cell : Fin 2048)
  | sequencerArmed (dt : Nat)
  | circuitChangeStart (dt : Nat)
  | guardIntervalEnd (dt : Nat)
  | changeComplete (dt : Nat)
  -- loops
  | mSample (dt : Nat) (cell : Fin 2048) (y : Word)
  | droppedStitch (dt : Nat) (cell : Fin 2048)
  | settleTimeout (dt : Nat) (cell : Fin 2048)
  | cellFailed (cell : Fin 2048)
  | oSample (dt : Nat) (cell : Fin 2048) (tap0 tap1 : Word)
  | handoverRetry (dt : Nat) (cell : Fin 2048) (tap0 tap1 : Word)
  | lightLoss (dt : Nat) (cell : Fin 2048)
  | bSample (dt : Nat) (cell : Fin 2048)
  | balanceSettled (cell : Fin 2048)
  | oscDetect (cell : Fin 2048)
  | loopProfileIdx (chamber : Fin 32) (value : Word)
  | loopSel (dt : Nat) (chamber : Fin 32) (value : Word)
  | fabCellSel (value : Word)
  | periodIn (dt : Nat)
  | estimatorEdge (dt : Nat)
  | periodLockLoss (dt : Nat)
  | fadeEnd (dt : Nat)
  | binVisitEnd (dt : Nat)
  | flowstoneClear (chamber : Fin 32) (value : Word)
  | polarityReversal (dt : Nat) (elem : Fin 4096)
  | fabPolCfgWrite (value : Word)
  | driftProbe (dt : Nat) (cell : Fin 2048)
  | wearLevel (elem : Fin 4096)
  | wearRate (dt : Nat) (elem : Fin 4096)
  | wearSummary (dt : Nat)
  | wearSummaryNow (value : Word)
  | fabDripSel (value : Word)
  | traceTick (dt : Nat) (chamber : Fin 32)
  | traceArm (chamber : Fin 32) (value : Word)
  | swtrig (chamber : Fin 32) (value : Word)
  | traceDone (chamber : Fin 32)
  | historyCopy
  | fabHistCtrlWrite (value : Word)
  -- chamber stops
  | engineLoss (dt : Nat) (chamber : Fin 32)
  | chamberReset (mask : Word)
  | analogHoldExpiry (dt : Nat) (chamber : Fin 32)
  | chamberResetComplete (dt : Nat) (chamber : Fin 32)
  -- consists
  | heartbeatInterval (dt : Nat)
  | heartbeat (dt : Nat) (lane : Fin 8) (frame : BiarnFrame)
  | memberLost (dt : Nat) (slot : Fin 32)
  | mgrLost (dt : Nat)
  | promotion (dt : Nat)
  | consistLeft (dt : Nat) (consist : Word)
  | claim (dt : Nat) (lane : Fin 8) (frame : BiarnFrame)
  | claimRound (dt : Nat)
  | claimEnd (dt : Nat)
  | couple (dt : Nat) (lane : Fin 8) (frame : BiarnFrame)
  | couplingStep (dt : Nat)
  | couplingLimit (dt : Nat)
  | ready (dt : Nat) (lane : Fin 8) (frame : BiarnFrame)
  | release (dt : Nat) (lane : Fin 8) (frame : BiarnFrame)
  | distData (dt : Nat) (lane : Fin 8) (frame : BiarnFrame)
  | distResult (dt : Nat) (lane : Fin 8) (frame : BiarnFrame)
  | distResendTimeout (dt : Nat)
  | swap (dt : Nat) (lane : Fin 8) (frame : BiarnFrame)
  | swapResult (dt : Nat) (lane : Fin 8) (frame : BiarnFrame)
  | biarnRefused (dt : Nat)
  | authBurst (dt : Nat)
  -- internal bus matrix, DMA, interrupts
  | dmaStart (acc : BusAccess) (ch : Fin 16) (value : Word)
  | dmaAbort (acc : BusAccess) (ch : Fin 16) (value : Word)
  | dmaTrigger (trig : BitVec 6) (level : Bool)
  | dmaBurst
  | lockBrk (dt : Nat)
  | remapWrite (acc : BusAccess) (value : Word)
  | remapSwitch
  | irqClaim (by_ : Master)
  | irqComplete (by_ : Master) (value : Word)
  | irqSetpend (by_ : Master) (k : Fin 4) (mask : Word)
  | irqPendClear (by_ : Master) (k : Fin 4) (mask : Word)
  | irqSrcCfgWrite (by_ : Master) (src : Fin 128) (value : Word)
  -- test block
  | selfTestStart (value : Word)
  | selfTestStop (value : Word)
  | selfTestEnd (dt : Nat)
  | tstModeWrite (adcRaw : Bool) (value : Word)
  -- endings
  | bankLoadChecked (dt : Nat) (bank : Fin 4)
  | flashOperationDone (dt : Nat) (op : FlashOp) (ok : Bool)
  | watchdogHalfTime (dt : Nat)
  | pewakeNTimeout (dt : Nat)
  | instanceValidTimeout (dt : Nat) (inst : Fin 2)
  | badAlignRead (offset : Nat) (size : Nat)
  -- test access port and SMBus, rows without operands (the compiler gives no tag above 244 to a constructor with fields)
  | tapReset
  | extest
  | samplePreload
  | idcode
  | clamp
  | highz
  | smbState
  | smbUnitId
  | smbVin
  | smbTcase
  | smbTdie
  | smbPinStatus
  | smbRev
  deriving DecidableEq, Repr

end Sys2Proof
end

