-- ==== Sys2Proof/Config.lean ====
section
/-! DEFINITION. What one module's manufacture fixes and what the manual leaves open: constants without a body, so that
no proof can see a value. Each names the assumption-log entry that declares it. -/

namespace Sys2Proof.Config

/-- A byte that the manual leaves open, by the number of free values taken before (assumption 3). -/
opaque freeByte : Nat → Byte

/-- A number that the manual leaves open, by the number of free values taken before (assumption 3). -/
opaque freeNat : Nat → Nat

/-- Whether an Ed25519 signature verifies under the image key of the boot ROM (R400; assumption 9): message, signature. -/
opaque imageSigned : List Byte → List Byte → Bool

/-- Octets of the clockIdentity that the module's gPTP messages carry (R172, R175; assumption 32). -/
opaque clockIdentity : Nat → Byte

/-- Contents of the boot ROM, by offset (R346; assumption 10). -/
opaque bootRom : Nat → Byte

/-- Relpety calibration of a cell (R144; assumption 11): sense span, position of BAR and CROSS in Q16.16 nm, hold
drives in Q2.30, stiffness scale. `true` selects CROSS. -/
opaque calPos : Nat → Bool → Word

opaque calDrive : Nat → Bool → Word

/-- Gains of a cell's two taps, which refer their readings to the cell input (R105), each less 1: a gain is positive
(assumption 11). -/
opaque tapGain : Nat → Bool → Nat

/-- Calibrated balance drive, leakage target and sign `dir` of a cell's state (R108, R117, R144; assumption 11). -/
opaque calBal : Nat → Bool → Word

opaque calLeak : Nat → Bool → Word

opaque calDir : Nat → Bool → Bool

/-- The trajectory plan of a stitch (R101; assumption 12): cell, target state, ticks since the start. Position in
Q16.16 nm, feed-forward drive in Q2.30, and drive sequence word. -/
opaque trajPos : Nat → Bool → Nat → Word

opaque trajDrive : Nat → Bool → Nat → Word

/-- The band-pass filter of the period estimator (R134; assumption 61): its next state for a sample in 2^-16 nm, and the
output of a state. -/
opaque bandPass : Nat → Int → Nat

opaque bandOut : Nat → Int

/-- The chamber that owns a 512-byte block of SRAM in loop state or calibration, by offset divided by 512; none where no
one chamber does (R464; assumption 66). -/
opaque sramOwner : Nat → Option Nat

/-- What stands for the number of modules of the stack in the compatibility profile (R318; assumption 67). -/
opaque stackSize : Nat

/-- Number of ticks of the trajectory of a cell (R101; assumption 12). -/
opaque trajLen : Nat → Bool → Nat

end Sys2Proof.Config
end

