-- ==== Sys2Proof/Machine/Tab.lean ====
section
/-! DEFINITION. Tables and byte memories: reading, writing, and the canonical form. -/

namespace Sys2Proof.Machine

/-- The value at index `k`, with `d` what an unlisted index reads as. -/
def tget {α : Type} (d : Nat → α) : Tab α → Nat → α
  | [], k => d k
  | (j, v) :: t, k => if j = k then v else tget d t k

/-- The table without index `k`. -/
def tdel {α : Type} (t : Tab α) (k : Nat) : Tab α := t.filter fun p => decide (p.1 ≠ k)

/-- List `v` at index `k`, before the first higher index. -/
def tins {α : Type} : Tab α → Nat → α → Tab α
  | [], k, v => [(k, v)]
  | (j, w) :: t, k, v => if k < j then (k, v) :: (j, w) :: t else (j, w) :: tins t k v

/-- Write `v` at index `k`; a default value is not listed. -/
def tset {α : Type} [DecidableEq α] (d : Nat → α) (t : Tab α) (k : Nat) (v : α) : Tab α :=
  if v = d k then tdel t k else tins (tdel t k) k v

/-- Change the value at index `k`. -/
def tmod {α : Type} [DecidableEq α] (d : Nat → α) (t : Tab α) (k : Nat) (f : α → α) : Tab α :=
  tset d t k (f (tget d t k))

/-- Change every listed value. -/
def tmapAll {α : Type} [DecidableEq α] (d : Nat → α) (t : Tab α) (f : α → α) : Tab α :=
  (t.map fun p => (p.1, f p.2)).filter fun p => decide (p.2 ≠ d p.1)

/-- Indices rise strictly from `lo` and no listed value is its default. -/
def twfFrom {α : Type} [DecidableEq α] (d : Nat → α) : Nat → Tab α → Bool
  | _, [] => true
  | lo, (k, v) :: t => decide (lo ≤ k) && decide (v ≠ d k) && twfFrom d (k + 1) t

/-- The canonical form of a table. -/
def Tab.wf {α : Type} [DecidableEq α] (d : Nat → α) (t : Tab α) : Bool := twfFrom d 0 t

/-! Byte memories. A byte that nothing has written reads 00h (DESIGN CHOICE, assumption 4). -/

def memDefault : Nat → Byte := fun _ => 0#8

/-- The canonical form of a memory. -/
def Memory.wf (m : Memory) : Bool := Tab.wf memDefault m

def rd (m : Memory) (a : Nat) : Byte := tget memDefault m a

def wr (m : Memory) (a : Nat) (b : Byte) : Memory := tset memDefault m a b

/-- `n` bytes from address `a`. -/
def rdBytes (m : Memory) (a : Nat) : Nat → List Byte
  | 0 => []
  | n + 1 => rd m a :: rdBytes m (a + 1) n

/-- Write a list of bytes from address `a` upward. -/
def wrBytes (m : Memory) (a : Nat) : List Byte → Memory
  | [] => m
  | b :: bs => wrBytes (wr m a b) (a + 1) bs

/-- The memory without its bytes from `a` to `a + n - 1`. -/
def clearBytes (m : Memory) (a n : Nat) : Memory := m.filter fun p => p.1 < a || a + n ≤ p.1

/-- The bytes of `src` from `a` to `a + n - 1` replace those of `m` from `b`. -/
def copyIn (m : Memory) (b : Nat) (src : Memory) (a n : Nat) : Memory :=
  m.filter (fun p => p.1 < b) ++
    ((src.filter fun p => a ≤ p.1 && p.1 < a + n).map fun p => (p.1 - a + b, p.2)) ++
    m.filter (fun p => b + n ≤ p.1)

end Sys2Proof.Machine
end

