-- ==== Sys2Proof/Machine/Operands.lean ====
section
/-! DEFINITION. Fields of words, byte orders, and the fixed-point arithmetic of the loops and the servo. -/

namespace Sys2Proof.Machine

/-- Bits `hi` to `lo` of a number. -/
def bits (n hi lo : Nat) : Nat := n / 2 ^ lo % 2 ^ (hi + 1 - lo)

/-- Bits `hi` to `lo` of a word. -/
def fld (w : Word) (hi lo : Nat) : Nat := bits w.toNat hi lo

/-- Bit `i` of a word. -/
def bit (w : Word) (i : Nat) : Bool := w.getLsbD i

/-- 1 for true, shifted to bit `i`. -/
def at_ (b : Bool) (i : Nat) : Nat := if b then 2 ^ i else 0

/-- The word with value `n`, modulo 2^32. -/
def w32 (n : Nat) : Word := BitVec.ofNat 32 n

/-- The number of a little-endian byte string (R5). -/
def leNat : List Byte → Nat
  | [] => 0
  | b :: bs => b.toNat + 256 * leNat bs

/-- `n` bytes of a number, little-endian (R5). -/
def leBytes : Nat → Nat → List Byte
  | 0, _ => []
  | n + 1, v => BitVec.ofNat 8 v :: leBytes n (v / 256)

/-- The number of a byte string in network order. -/
def beNat (bs : List Byte) : Nat := bs.foldl (fun a b => a * 256 + b.toNat) 0

/-- `n` bytes of a number in network order. -/
def beBytes (n v : Nat) : List Byte := (leBytes n v).reverse

/-- Bytes `a` to `a + n - 1` of a byte string as a little-endian number; absent bytes read 0. -/
def lef (bs : List Byte) (a n : Nat) : Nat := leNat ((bs.drop a).take n)

/-- Bytes `a` to `a + n - 1` of a byte string in network order. -/
def bef (bs : List Byte) (a n : Nat) : Nat := beNat ((bs.drop a).take n)

/-- Byte `a` of a byte string; 0 where absent. -/
def byteAt (bs : List Byte) (a : Nat) : Nat := (bs.getD a 0#8).toNat

/-- All bytes from `a`, `n` of them, are 0. -/
def allZero (bs : List Byte) (a n : Nat) : Bool := ((bs.drop a).take n).all (· = 0#8)

/-- `n` zero bytes. -/
def zeros (n : Nat) : List Byte := List.replicate n 0#8

/-- Bytes `src` put at offset `a` of `bs`. -/
def putBytes (bs : List Byte) (a : Nat) (src : List Byte) : List Byte :=
  bs.take a ++ src ++ bs.drop (a + src.length)

/-- Memory bytes laid over a list from address 0. -/
def memOfList (bs : List Byte) : Memory := wrBytes [] 0 bs

/-- Two's-complement value of the low `n` bits. -/
def signed (n : Nat) (v : Nat) : Int :=
  let x := v % 2 ^ n
  if x < 2 ^ (n - 1) then (x : Int) else (x : Int) - 2 ^ n

/-- The low `n` bits of an integer. -/
def unsigned (n : Nat) (v : Int) : Nat := (v % 2 ^ n).toNat

/-- Confine an integer to a range. -/
def clampI (v lo hi : Int) : Int := max lo (min v hi)

/-- Saturation to 32-bit signed (R98). -/
def sat32 (v : Int) : Int := clampI v (-2147483648) 2147483647

/-- Saturation to 64-bit signed (R98). -/
def sat64 (v : Int) : Int := clampI v (-9223372036854775808) 9223372036854775807

/-- Arithmetic right shift. -/
def asr (v : Int) (n : Nat) : Int := v / 2 ^ n

/-- Absolute value as a number. -/
def mag (v : Int) : Nat := v.natAbs

/-- The signed value of a 32-bit word. -/
def sw (w : Word) : Int := w.toInt

/-- A number that stops at a largest value. -/
def satN (v top : Nat) : Nat := min v top

/-- Members of a list that a bit mask names: the indices below `n` whose bit is 1. -/
def maskList (m n : Nat) : List Nat := (List.range n).filter fun i => m.testBit i

/-- The mask of a list of bit numbers. -/
def maskOf (l : List Nat) : Nat := l.foldl (fun a i => a ||| 2 ^ i) 0

/-- Insert into a list that is kept in ascending order of a key. -/
def insertBy {α : Type} (key : α → Nat) (x : α) : List α → List α
  | [] => [x]
  | y :: ys => if key x < key y then x :: y :: ys else y :: insertBy key x ys

/-- The least of a list by a key. -/
def minBy {α : Type} (key : α → Nat) : List α → Option α
  | [] => none
  | x :: xs => match minBy key xs with
    | none => some x
    | some y => if key y < key x then some y else some x

end Sys2Proof.Machine
end

