-- ==== Sys2Proof/Machine/Crypto.lean ====
section
/-! DEFINITION. The digests of the roles and of the audit log: SHA-256 (FIPS 180-4), HMAC-SHA-256 (R276, R324) and
the CRC-32 of IEEE 802.3 (R330). -/

namespace Sys2Proof.Machine

/-- Round constants of SHA-256. -/
def shaK0 : List Word :=
  [0x428A2F98#32, 0x71374491#32, 0xB5C0FBCF#32, 0xE9B5DBA5#32, 0x3956C25B#32, 0x59F111F1#32, 0x923F82A4#32, 0xAB1C5ED5#32,
   0xD807AA98#32, 0x12835B01#32, 0x243185BE#32, 0x550C7DC3#32, 0x72BE5D74#32, 0x80DEB1FE#32, 0x9BDC06A7#32, 0xC19BF174#32,
   0xE49B69C1#32, 0xEFBE4786#32, 0x0FC19DC6#32, 0x240CA1CC#32, 0x2DE92C6F#32, 0x4A7484AA#32, 0x5CB0A9DC#32, 0x76F988DA#32,
   0x983E5152#32, 0xA831C66D#32, 0xB00327C8#32, 0xBF597FC7#32, 0xC6E00BF3#32, 0xD5A79147#32, 0x06CA6351#32, 0x14292967#32]

def shaK1 : List Word :=
  [0x27B70A85#32, 0x2E1B2138#32, 0x4D2C6DFC#32, 0x53380D13#32, 0x650A7354#32, 0x766A0ABB#32, 0x81C2C92E#32, 0x92722C85#32,
   0xA2BFE8A1#32, 0xA81A664B#32, 0xC24B8B70#32, 0xC76C51A3#32, 0xD192E819#32, 0xD6990624#32, 0xF40E3585#32, 0x106AA070#32,
   0x19A4C116#32, 0x1E376C08#32, 0x2748774C#32, 0x34B0BCB5#32, 0x391C0CB3#32, 0x4ED8AA4A#32, 0x5B9CCA4F#32, 0x682E6FF3#32,
   0x748F82EE#32, 0x78A5636F#32, 0x84C87814#32, 0x8CC70208#32, 0x90BEFFFA#32, 0xA4506CEB#32, 0xBEF9A3F7#32, 0xC67178F2#32]

/-- Initial hash value of SHA-256. -/
def shaInit : List Word :=
  [0x6A09E667#32, 0xBB67AE85#32, 0x3C6EF372#32, 0xA54FF53A#32, 0x510E527F#32, 0x9B05688C#32, 0x1F83D9AB#32, 0x5BE0CD19#32]

/-- One word of the message schedule from the 16 words before it, oldest first. -/
def shaNext (w : List Word) : Word :=
  let a := w.getD 1 0#32
  let b := w.getD 14 0#32
  let s0 := a.rotateRight 7 ^^^ a.rotateRight 18 ^^^ a >>> 3
  let s1 := b.rotateRight 17 ^^^ b.rotateRight 19 ^^^ b >>> 10
  w.getD 0 0#32 + s0 + w.getD 9 0#32 + s1

/-- One round on the eight working words with schedule word `w` and constant `k`. -/
def shaRound (v : List Word) (k w : Word) : List Word :=
  match v with
  | [a, b, c, d, e, f, g, h] =>
    let s1 := e.rotateRight 6 ^^^ e.rotateRight 11 ^^^ e.rotateRight 25
    let ch := (e &&& f) ^^^ (~~~e &&& g)
    let t1 := h + s1 + ch + k + w
    let s0 := a.rotateRight 2 ^^^ a.rotateRight 13 ^^^ a.rotateRight 22
    let mj := (a &&& b) ^^^ (a &&& c) ^^^ (b &&& c)
    [t1 + (s0 + mj), a, b, c, d + t1, e, f, g]
  | _ => v

/-- The rounds of one block: `win` holds the next 16 schedule words. -/
def shaRounds : List Word → List Word → List Word → List Word
  | [], _, v => v
  | k :: ks, win, v => shaRounds ks (win.tail ++ [shaNext win]) (shaRound v k (win.getD 0 0#32))

/-- The 16 words of a 64-byte block, big-endian. -/
def shaWords : Nat → List Byte → List Word
  | 0, _ => []
  | n + 1, bs => w32 (beNat (bs.take 4)) :: shaWords n (bs.drop 4)

def shaBlock (h : List Word) (blk : List Byte) : List Word :=
  List.zipWith (· + ·) h (shaRounds (shaK0 ++ shaK1) (shaWords 16 blk) h)

/-- The padded message in `n` blocks. -/
def shaBlocks : Nat → List Byte → List Word → List Word
  | 0, _, h => h
  | n + 1, bs, h => shaBlocks n (bs.drop 64) (shaBlock h (bs.take 64))

/-- SHA-256 of a byte string. -/
def sha256 (m : List Byte) : List Byte :=
  let n := (m.length + 9 + 63) / 64
  let msg := m ++ [0x80#8] ++ zeros (n * 64 - m.length - 9) ++ beBytes 8 (8 * m.length)
  (shaBlocks n msg shaInit).flatMap fun w => beBytes 4 w.toNat

/-- HMAC-SHA-256 (R276). -/
def hmac (key m : List Byte) : List Byte :=
  let k := (if key.length > 64 then sha256 key else key)
  let k64 := k ++ zeros (64 - k.length)
  sha256 (k64.map (· ^^^ 0x5C#8) ++ sha256 (k64.map (· ^^^ 0x36#8) ++ m))

/-- Eight bit steps of the CRC-32 of IEEE 802.3, reflected. -/
def crcStep : Nat → Word → Word
  | 0, c => c
  | n + 1, c => crcStep n (if c.getLsbD 0 then (c >>> 1) ^^^ 0xEDB88320#32 else c >>> 1)

/-- CRC-32 (IEEE 802.3 polynomial) of a byte string. -/
def crc32 (bs : List Byte) : Word :=
  ~~~(bs.foldl (fun c b => crcStep 8 (c ^^^ b.setWidth 32)) 0xFFFFFFFF#32)

end Sys2Proof.Machine
end

