-- ==== Sys2Proof/Machine/Regs.lean ====
section
/-! DEFINITION. The register map of BAR0 (R425, R433): one constructor per register or register array, with its
offset, its writable and write-1-to-clear bits, its value at reset and its reset domain, as the register tables of
the manual give them. -/

namespace Sys2Proof.Machine

/-- Reset domains (R431). `supRestart` is "module reset and supervisor restart". -/
inductive Dom where
  | constant | powerUp | moduleReset | supRestart | flr | strap
  deriving DecidableEq, Repr

/-- The registers, in the order of the manual's chapters. An arrayed register is one constructor (R433). -/
inductive Reg where
  | fabFailStatus | fabFail | fabMapStatus | fabStitchCfg | fabChCtrl | fabChStatus
  | fabCellSel | fabCellStatus | fabWearCfg | loopProfileIdx | loopSel | loopLstat
  | loopLpos | loopLsp | loopLtgt | loopLtrim | loopLdrv | loopLprof
  | loopEvt | fabPeriodCfg | fabPeriodStatus | loopFlowCfg | loopOdetCfg | loopOdetStatus
  | fabDriftCfg | fabDriftStatus | fabPolCfg | fabDripSel | fabDrip | fabWearSumCfg
  | loopTrcCtrl | loopTrcLevel | loopTrcStatus | loopTrcSel | fabHistBase | fabHistCtrl
  | fabHistWr | fabSpoolStatus | timeSnap | timeInc | timeCtrl | timeStatus
  | timeJumpTh | timeDrift | timeServo | timeDomCfg | timeDomOffset | timeAsym
  | timePpsCfg | timePpsIn | timeTodNext | schedCfg | schedStatus | schedBankStatus
  | schedRowcnt | eptCfg | eptMac | eptStatus | eptPreempt | eptShape
  | eptWheelStatus | eptCnt | eptStrSel | eptStrCnt | ringBase | ringCfg
  | ringPoll | ringCtrl | ringStatus | ringIdx | ringErr | ringLost
  | ringDb | ringErrSum | ringEvtRoute | cascRoleStatus | cascTrainStatus | cascTmId
  | cascConsistId | cascBiarnCnt | cascStackStatus | secGrantBlock | secGrantCtrl | secGrantStatus
  | secKeySel | secKeyCtr | secKeyPresent | secOprMap | secOprCfg | secAuditSeq
  | fltSticky | fltActive | fltSev | fltErrCfg | fltCtrl | fltStatus
  | fltPark | fltIsol | fltSel | fltInfo | fltInfoTime | sysBusmxCtrl
  | sysBusmxStatus | sysBusmxDeft | dmaSrc | dmaDst | dmaLink | dmaCount
  | dmaCtrl | dmaStatus | dmaErraddr | irqSrcCfg | irqPend | irqSetpend
  | irqActive | irqClaim | irqComplete | pwrStatus | pwrMon | pwrStableCfg
  | pwrStableTime | sysUnitId | sysProfile | sysProfileReq | sysResetCause | sysCtrl
  | sysChrst | sysLanerst | sysId | sysOrder | sysBuild | sysMfg
  | sysFwVer | sysRomVer | sysCfgGen | sysStrap | sysPins | sysCap
  | sysHostAcc | sysScratch | tstMode | tstAdcRaw | tstStCtrl | tstStStatus
  | tstStErr | tstStPwr
  deriving DecidableEq, Repr

/-- Where the instances of a register lie and what a write may change. `step1`, `n1` count the outer instances
(chamber, lane, ring), `step2`, `n2` the inner ones; `rw` and `w1c` are the RW (or RWS, WO) and W1C bits and `reset`
the value at reset of those bits; `stored` marks "loaded from the installer configuration store". -/
structure RegInfo where
  base   : Nat
  step1  : Nat
  n1     : Nat
  step2  : Nat
  n2     : Nat
  bytes  : Nat
  rw     : Nat
  w1c    : Nat
  reset  : Nat
  dom    : Dom
  stored : Bool
  deriving DecidableEq, Repr

def Reg.info : Reg → RegInfo
  | .fabFailStatus => ⟨0x30100, 0x4, 1, 0x4, 1, 4, 0, 0x20, 0, .moduleReset, false⟩
  | .fabFail => ⟨0x30140, 0x4, 16, 0x4, 1, 4, 0, 0, 0, .moduleReset, false⟩
  | .fabMapStatus => ⟨0x30000, 0x4, 1, 0x4, 1, 4, 0, 0, 0, .moduleReset, false⟩
  | .fabStitchCfg => ⟨0x30010, 0x4, 1, 0x4, 1, 4, 0x1FFF3FF, 0, 0x1648320, .moduleReset, true⟩
  | .fabChCtrl => ⟨0x30200, 0x4, 32, 0x4, 1, 4, 0xFF07, 0, 0xA04, .moduleReset, true⟩
  | .fabChStatus => ⟨0x30280, 0x4, 32, 0x4, 1, 4, 0, 0, 0, .moduleReset, false⟩
  | .fabCellSel => ⟨0x30020, 0x4, 1, 0x4, 1, 4, 0x7FF, 0, 0, .flr, false⟩
  | .fabCellStatus => ⟨0x30024, 0x4, 1, 0x4, 1, 4, 0, 0x180000, 0, .moduleReset, false⟩
  | .fabWearCfg => ⟨0x30030, 0x4, 1, 0x4, 1, 4, 0xFFFF, 0, 0, .moduleReset, true⟩
  | .loopProfileIdx => ⟨0x40000, 0x1000, 32, 0x1000, 1, 4, 0x8000FFFF, 0, 0x4000, .moduleReset, true⟩
  | .loopSel => ⟨0x40010, 0x1000, 32, 0x1000, 1, 4, 0x3F, 0, 0, .flr, false⟩
  | .loopLstat => ⟨0x40014, 0x1000, 32, 0x1000, 1, 4, 0, 0, 0, .moduleReset, false⟩
  | .loopLpos => ⟨0x40018, 0x1000, 32, 0x1000, 1, 4, 0, 0, 0, .moduleReset, false⟩
  | .loopLsp => ⟨0x4001C, 0x1000, 32, 0x1000, 1, 4, 0, 0, 0, .moduleReset, false⟩
  | .loopLtgt => ⟨0x40020, 0x1000, 32, 0x1000, 1, 4, 0, 0, 0, .moduleReset, false⟩
  | .loopLtrim => ⟨0x40024, 0x1000, 32, 0x1000, 1, 4, 0, 0, 0, .moduleReset, false⟩
  | .loopLdrv => ⟨0x40028, 0x1000, 32, 0x1000, 1, 4, 0, 0, 0, .moduleReset, false⟩
  | .loopLprof => ⟨0x4002C, 0x1000, 32, 0x1000, 1, 4, 0, 0, 0, .moduleReset, false⟩
  | .loopEvt => ⟨0x40030, 0x1000, 32, 0x1000, 1, 4, 0, 0x7, 0, .moduleReset, false⟩
  | .fabPeriodCfg => ⟨0x30050, 0x4, 1, 0x4, 1, 4, 0xC03F1FFF, 0, 0x80010064, .moduleReset, true⟩
  | .fabPeriodStatus => ⟨0x30054, 0x4, 1, 0x4, 1, 4, 0, 0x10000000, 0, .moduleReset, false⟩
  | .loopFlowCfg => ⟨0x40040, 0x1000, 32, 0x1000, 1, 4, 0xBFFEFFFF, 0, 0x25840001, .moduleReset, true⟩
  | .loopOdetCfg => ⟨0x40044, 0x1000, 32, 0x1000, 1, 4, 0xFFFFFFFF, 0, 0x68100004, .moduleReset, true⟩
  | .loopOdetStatus => ⟨0x40048, 0x1000, 32, 0x1000, 1, 4, 0, 0xE0000000, 0, .moduleReset, false⟩
  | .fabDriftCfg => ⟨0x30070, 0x4, 1, 0x4, 1, 4, 0xC0FFFFFF, 0, 0xC010293C, .moduleReset, true⟩
  | .fabDriftStatus => ⟨0x30074, 0x4, 1, 0x4, 1, 4, 0, 0x80000000, 0, .moduleReset, false⟩
  | .fabPolCfg => ⟨0x30040, 0x4, 1, 0x4, 1, 4, 0x8000FFFF, 0, 0x800003E8, .moduleReset, true⟩
  | .fabDripSel => ⟨0x30060, 0x4, 1, 0x4, 1, 4, 0xFFF, 0, 0, .flr, false⟩
  | .fabDrip => ⟨0x30064, 0x8, 1, 0x8, 1, 8, 0, 0, 0, .moduleReset, false⟩
  | .fabWearSumCfg => ⟨0x3006C, 0x4, 1, 0x4, 1, 4, 0xFF, 0, 0xA, .moduleReset, true⟩
  | .loopTrcCtrl => ⟨0x40050, 0x1000, 32, 0x1000, 1, 4, 0x3FF00FFF, 0, 0x800, .moduleReset, false⟩
  | .loopTrcLevel => ⟨0x40054, 0x1000, 32, 0x1000, 1, 4, 0xFFFFFFFF, 0, 0, .moduleReset, false⟩
  | .loopTrcStatus => ⟨0x40058, 0x1000, 32, 0x1000, 1, 4, 0, 0x20000000, 0, .moduleReset, false⟩
  | .loopTrcSel => ⟨0x40060, 0x1000, 32, 0x4, 4, 4, 0x3FF, 0, 0, .moduleReset, false⟩
  | .fabHistBase => ⟨0x30080, 0x8, 1, 0x8, 1, 8, 0xFFFFFFFFFFFFF000, 0, 0, .flr, false⟩
  | .fabHistCtrl => ⟨0x30088, 0x4, 1, 0x4, 1, 4, 0xC000003F, 0, 0xC, .flr, false⟩
  | .fabHistWr => ⟨0x30090, 0x8, 1, 0x8, 1, 8, 0, 0, 0, .flr, false⟩
  | .fabSpoolStatus => ⟨0x30098, 0x4, 1, 0x4, 1, 4, 0, 0, 0, .moduleReset, false⟩
  | .timeSnap => ⟨0x8020, 0x14, 1, 0x14, 1, 20, 0, 0, 0, .moduleReset, false⟩
  | .timeInc => ⟨0x8008, 0x4, 1, 0x4, 1, 4, 0, 0, 0, .moduleReset, false⟩
  | .timeCtrl => ⟨0x8000, 0x4, 1, 0x4, 1, 4, 0xC0000003, 0, 0x80000000, .moduleReset, true⟩
  | .timeStatus => ⟨0x8004, 0x4, 1, 0x4, 1, 4, 0, 0xF800000, 0, .moduleReset, false⟩
  | .timeJumpTh => ⟨0x800C, 0x4, 1, 0x4, 1, 4, 0xFFFFF, 0, 0x3E8, .moduleReset, true⟩
  | .timeDrift => ⟨0x8010, 0x4, 1, 0x4, 1, 4, 0xFF00FFFF, 0, 0x140000FA, .moduleReset, true⟩
  | .timeServo => ⟨0x8014, 0x4, 1, 0x4, 1, 4, 0x1FFF1FFF, 0, 0x11010D01, .moduleReset, true⟩
  | .timeDomCfg => ⟨0x8100, 0x40, 2, 0x40, 1, 4, 0xEE7FFFFF, 0x10000000, 0x26000000, .moduleReset, true⟩
  | .timeDomOffset => ⟨0x8104, 0x40, 2, 0x40, 1, 4, 0, 0, 0, .moduleReset, false⟩
  | .timeAsym => ⟨0x8200, 0x4, 8, 0x4, 1, 4, 0xFFFFFFFF, 0, 0, .moduleReset, true⟩
  | .timePpsCfg => ⟨0x8060, 0x4, 1, 0x4, 1, 4, 0xE00FFFFF, 0, 0x400186A0, .moduleReset, true⟩
  | .timePpsIn => ⟨0x8064, 0x4, 1, 0x4, 1, 4, 0xFFFF, 0x80000000, 0, .moduleReset, true⟩
  | .timeTodNext => ⟨0x8068, 0x8, 1, 0x8, 1, 8, 0xFFFFFFFFFFFF, 0, 0, .moduleReset, false⟩
  | .schedCfg => ⟨0xC000, 0x4, 1, 0x4, 1, 4, 0x83FFFF00, 0, 0x800, .moduleReset, true⟩
  | .schedStatus => ⟨0xC004, 0x4, 1, 0x4, 1, 4, 0, 0x1100000, 0, .moduleReset, false⟩
  | .schedBankStatus => ⟨0xC010, 0x4, 4, 0x4, 1, 4, 0, 0, 0, .moduleReset, false⟩
  | .schedRowcnt => ⟨0xC020, 0x4, 1, 0x4, 1, 4, 0, 0, 0, .moduleReset, false⟩
  | .eptCfg => ⟨0x10000, 0x1000, 8, 0x1000, 1, 4, 0xC3FFBFFF, 0, 0x2E005F2, .moduleReset, true⟩
  | .eptMac => ⟨0x10008, 0x1000, 8, 0x1000, 1, 8, 0xFFFFFFFFFFFF, 0, 0, .moduleReset, true⟩
  | .eptStatus => ⟨0x10010, 0x1000, 8, 0x1000, 1, 4, 0, 0x10000000, 0, .moduleReset, false⟩
  | .eptPreempt => ⟨0x10018, 0x1000, 8, 0x1000, 1, 4, 0x80FF00FF, 0, 0x800A00FF, .moduleReset, true⟩
  | .eptShape => ⟨0x10040, 0x1000, 8, 0x8, 8, 8, 0x800FFFFF0000FFFF, 0, 0x5F2, .moduleReset, true⟩
  | .eptWheelStatus => ⟨0x18008, 0x4, 1, 0x4, 1, 4, 0, 0x80000000, 0, .moduleReset, false⟩
  | .eptCnt => ⟨0x10100, 0x1000, 8, 0x8, 16, 8, 0, 0, 0, .moduleReset, false⟩
  | .eptStrSel => ⟨0x18000, 0x4, 1, 0x4, 1, 4, 0xFFF, 0, 0, .flr, false⟩
  | .eptStrCnt => ⟨0x18010, 0x4, 14, 0x4, 1, 4, 0, 0, 0, .moduleReset, false⟩
  | .ringBase => ⟨0x20000, 0x40, 160, 0x40, 1, 8, 0xFFFFFFFFFFFFF000, 0, 0, .flr, false⟩
  | .ringCfg => ⟨0x20008, 0x40, 160, 0x40, 1, 4, 0xFFFCFF7F, 0, 0x8000101, .flr, false⟩
  | .ringPoll => ⟨0x2000C, 0x40, 160, 0x40, 1, 4, 0xFF00FFFF, 0, 0x64, .flr, false⟩
  | .ringCtrl => ⟨0x20010, 0x40, 160, 0x40, 1, 4, 0, 0, 0, .flr, false⟩
  | .ringStatus => ⟨0x20014, 0x40, 160, 0x40, 1, 4, 0, 0xE000000, 0, .flr, false⟩
  | .ringIdx => ⟨0x20018, 0x40, 160, 0x40, 1, 4, 0, 0, 0, .flr, false⟩
  | .ringErr => ⟨0x2001C, 0x40, 160, 0x40, 1, 4, 0, 0, 0, .flr, false⟩
  | .ringLost => ⟨0x20020, 0x40, 160, 0x40, 1, 4, 0, 0, 0, .flr, false⟩
  | .ringDb => ⟨0x80000, 0x8, 160, 0x8, 1, 8, 0x1FFFF, 0, 0, .flr, false⟩
  | .ringErrSum => ⟨0x22800, 0x4, 5, 0x4, 1, 4, 0, 0, 0, .flr, false⟩
  | .ringEvtRoute => ⟨0x22840, 0x4, 4, 0x4, 1, 4, 0xFFFFFFFF, 0, 0, .flr, false⟩
  | .cascRoleStatus => ⟨0x60000, 0x4, 1, 0x4, 1, 4, 0, 0x6000000, 0, .moduleReset, false⟩
  | .cascTrainStatus => ⟨0x60004, 0x4, 1, 0x4, 1, 4, 0, 0, 0, .moduleReset, false⟩
  | .cascTmId => ⟨0x60008, 0x8, 1, 0x8, 1, 8, 0, 0, 0, .moduleReset, false⟩
  | .cascConsistId => ⟨0x60010, 0x4, 1, 0x4, 1, 4, 0, 0, 0, .moduleReset, false⟩
  | .cascBiarnCnt => ⟨0x60020, 0x4, 6, 0x4, 1, 4, 0, 0, 0, .moduleReset, false⟩
  | .cascStackStatus => ⟨0x60040, 0x4, 1, 0x4, 1, 4, 0, 0, 0, .moduleReset, false⟩
  | .secGrantBlock => ⟨0x2000, 0x40, 1, 0x40, 1, 64, 0xFFFFFFFF, 0, 0, .flr, false⟩
  | .secGrantCtrl => ⟨0x2040, 0x4, 1, 0x4, 1, 4, 0xFF, 0, 0x3C, .flr, false⟩
  | .secGrantStatus => ⟨0x2044, 0x4, 1, 0x4, 1, 4, 0, 0x10000000, 0, .flr, false⟩
  | .secKeySel => ⟨0x2050, 0x4, 1, 0x4, 1, 4, 0x3F, 0, 0, .flr, false⟩
  | .secKeyCtr => ⟨0x2058, 0x8, 1, 0x8, 1, 8, 0, 0, 0, .moduleReset, false⟩
  | .secKeyPresent => ⟨0x2060, 0x4, 2, 0x4, 1, 4, 0, 0, 0, .moduleReset, false⟩
  | .secOprMap => ⟨0x2100, 0x4, 32, 0x4, 1, 4, 0xFFFFFFFF, 0, 0, .moduleReset, true⟩
  | .secOprCfg => ⟨0x2180, 0x4, 1, 0x4, 1, 4, 0x1F, 0, 0, .moduleReset, true⟩
  | .secAuditSeq => ⟨0x2190, 0x4, 1, 0x4, 1, 4, 0, 0, 0, .moduleReset, false⟩
  | .fltSticky => ⟨0x3000, 0x4, 3, 0x4, 1, 4, 0, 0xFFFFFFFF, 0, .moduleReset, false⟩
  | .fltActive => ⟨0x3010, 0x4, 3, 0x4, 1, 4, 0, 0, 0, .moduleReset, false⟩
  | .fltSev => ⟨0x3020, 0x4, 12, 0x4, 1, 4, 0xFFFFFFFF, 0, 0, .moduleReset, true⟩
  | .fltErrCfg => ⟨0x3060, 0x4, 1, 0x4, 1, 4, 0xC00000FF, 0, 0x40000002, .moduleReset, true⟩
  | .fltCtrl => ⟨0x3064, 0x4, 1, 0x4, 1, 4, 0x40000000, 0, 0, .moduleReset, false⟩
  | .fltStatus => ⟨0x3068, 0x4, 1, 0x4, 1, 4, 0, 0x10000000, 0, .moduleReset, false⟩
  | .fltPark => ⟨0x306C, 0x4, 1, 0x4, 1, 4, 0, 0xFFFFFFFF, 0, .moduleReset, false⟩
  | .fltIsol => ⟨0x3070, 0x4, 1, 0x4, 1, 4, 0, 0xFF, 0, .moduleReset, false⟩
  | .fltSel => ⟨0x3074, 0x4, 1, 0x4, 1, 4, 0x7F, 0, 0, .flr, false⟩
  | .fltInfo => ⟨0x3078, 0x8, 1, 0x8, 1, 8, 0, 0, 0, .moduleReset, false⟩
  | .fltInfoTime => ⟨0x3080, 0x8, 1, 0x8, 1, 8, 0, 0, 0, .moduleReset, false⟩
  | .sysBusmxCtrl => ⟨0x400, 0x4, 1, 0x4, 1, 4, 0x1, 0, 0, .supRestart, false⟩
  | .sysBusmxStatus => ⟨0x404, 0x4, 1, 0x4, 1, 4, 0, 0xE0000000, 0, .moduleReset, false⟩
  | .sysBusmxDeft => ⟨0x408, 0x4, 1, 0x4, 1, 4, 0, 0, 0, .moduleReset, false⟩
  | .dmaSrc => ⟨0x5000, 0x40, 16, 0x40, 1, 4, 0xFFFFFFFF, 0, 0, .moduleReset, false⟩
  | .dmaDst => ⟨0x5004, 0x40, 16, 0x40, 1, 4, 0xFFFFFFFF, 0, 0, .moduleReset, false⟩
  | .dmaLink => ⟨0x5010, 0x40, 16, 0x40, 1, 4, 0xFFFFFFFF, 0, 0, .moduleReset, false⟩
  | .dmaCount => ⟨0x5008, 0x40, 16, 0x40, 1, 4, 0xFFFFFF, 0, 0, .moduleReset, false⟩
  | .dmaCtrl => ⟨0x500C, 0x40, 16, 0x40, 1, 4, 0x3FFE7F0F, 0, 0x180008, .moduleReset, false⟩
  | .dmaStatus => ⟨0x5014, 0x40, 16, 0x40, 1, 4, 0, 0x1000000, 0, .moduleReset, false⟩
  | .dmaErraddr => ⟨0x5018, 0x40, 16, 0x40, 1, 4, 0, 0, 0, .moduleReset, false⟩
  | .irqSrcCfg => ⟨0x4000, 0x4, 128, 0x4, 1, 4, 0xEF000000, 0, 0, .supRestart, false⟩
  | .irqPend => ⟨0x4200, 0x4, 4, 0x4, 1, 4, 0, 0, 0, .supRestart, false⟩
  | .irqSetpend => ⟨0x4210, 0x4, 4, 0x4, 1, 4, 0, 0, 0, .supRestart, false⟩
  | .irqActive => ⟨0x4230, 0x4, 4, 0x4, 1, 4, 0, 0, 0, .supRestart, false⟩
  | .irqClaim => ⟨0x4240, 0x4, 1, 0x4, 1, 4, 0, 0, 0, .supRestart, false⟩
  | .irqComplete => ⟨0x4244, 0x4, 1, 0x4, 1, 4, 0x7F, 0, 0, .supRestart, false⟩
  | .pwrStatus => ⟨0x1000, 0x4, 1, 0x4, 1, 4, 0, 0x18000000, 0, .moduleReset, false⟩
  | .pwrMon => ⟨0x1004, 0x4, 1, 0x4, 1, 4, 0, 0, 0, .moduleReset, false⟩
  | .pwrStableCfg => ⟨0x1008, 0x4, 1, 0x4, 1, 4, 0xE00007FF, 0, 0x2000003C, .moduleReset, true⟩
  | .pwrStableTime => ⟨0x100C, 0x4, 1, 0x4, 1, 4, 0, 0, 0, .moduleReset, false⟩
  | .sysUnitId => ⟨0x10, 0x8, 1, 0x8, 1, 8, 0, 0, 0, .moduleReset, false⟩
  | .sysProfile => ⟨0x20, 0x4, 1, 0x4, 1, 4, 0, 0, 0, .moduleReset, false⟩
  | .sysProfileReq => ⟨0x24, 0x4, 1, 0x4, 1, 4, 0x3FFFF, 0, 0, .moduleReset, true⟩
  | .sysResetCause => ⟨0x28, 0x4, 1, 0x4, 1, 4, 0, 0xFC000000, 0x80000000, .powerUp, false⟩
  | .sysCtrl => ⟨0x30, 0x4, 1, 0x4, 1, 4, 0, 0, 0, .moduleReset, false⟩
  | .sysChrst => ⟨0x34, 0x4, 1, 0x4, 1, 4, 0, 0, 0, .moduleReset, false⟩
  | .sysLanerst => ⟨0x38, 0x4, 1, 0x4, 1, 4, 0, 0, 0, .moduleReset, false⟩
  | .sysId => ⟨0, 0x4, 1, 0x4, 1, 4, 0, 0, 0, .constant, false⟩
  | .sysOrder => ⟨0x4, 0x4, 1, 0x4, 1, 4, 0, 0, 0, .moduleReset, false⟩
  | .sysBuild => ⟨0x8, 0x4, 1, 0x4, 1, 4, 0, 0, 0, .moduleReset, false⟩
  | .sysMfg => ⟨0xC, 0x4, 1, 0x4, 1, 4, 0, 0, 0, .moduleReset, false⟩
  | .sysFwVer => ⟨0x18, 0x4, 1, 0x4, 1, 4, 0, 0, 0, .supRestart, false⟩
  | .sysRomVer => ⟨0x1C, 0x4, 1, 0x4, 1, 4, 0, 0, 0, .constant, false⟩
  | .sysCfgGen => ⟨0x2C, 0x4, 1, 0x4, 1, 4, 0, 0, 0, .moduleReset, false⟩
  | .sysStrap => ⟨0x40, 0x4, 1, 0x4, 1, 4, 0, 0, 0, .strap, false⟩
  | .sysPins => ⟨0x44, 0x4, 1, 0x4, 1, 4, 0, 0, 0, .moduleReset, false⟩
  | .sysCap => ⟨0x48, 0x4, 1, 0x4, 1, 4, 0, 0, 0, .constant, false⟩
  | .sysHostAcc => ⟨0x50, 0x4, 1, 0x4, 1, 4, 0, 0xC0000000, 0, .flr, false⟩
  | .sysScratch => ⟨0x60, 0x4, 4, 0x4, 1, 4, 0xFFFFFFFF, 0, 0, .moduleReset, false⟩
  | .tstMode => ⟨0x70000, 0x4, 1, 0x4, 1, 4, 0x800000FF, 0, 0, .moduleReset, false⟩
  | .tstAdcRaw => ⟨0x70004, 0x4, 1, 0x4, 1, 4, 0xFFFFFFFF, 0, 0, .moduleReset, false⟩
  | .tstStCtrl => ⟨0x70010, 0x4, 1, 0x4, 1, 4, 0xFFF, 0, 0xAF, .moduleReset, false⟩
  | .tstStStatus => ⟨0x70014, 0x4, 1, 0x4, 1, 4, 0, 0x70000000, 0, .moduleReset, false⟩
  | .tstStErr => ⟨0x70020, 0x4, 8, 0x4, 1, 4, 0, 0, 0, .moduleReset, false⟩
  | .tstStPwr => ⟨0x70040, 0x4, 8, 0x4, 1, 4, 0, 0, 0, .moduleReset, false⟩

def regs0 : List Reg :=
  [.fabFailStatus, .fabFail, .fabMapStatus, .fabStitchCfg, .fabChCtrl, .fabChStatus,
   .fabCellSel, .fabCellStatus, .fabWearCfg, .loopProfileIdx, .loopSel, .loopLstat,
   .loopLpos, .loopLsp, .loopLtgt, .loopLtrim, .loopLdrv, .loopLprof,
   .loopEvt, .fabPeriodCfg, .fabPeriodStatus, .loopFlowCfg, .loopOdetCfg, .loopOdetStatus,
   .fabDriftCfg, .fabDriftStatus, .fabPolCfg, .fabDripSel, .fabDrip, .fabWearSumCfg]

def regs1 : List Reg :=
  [.loopTrcCtrl, .loopTrcLevel, .loopTrcStatus, .loopTrcSel, .fabHistBase, .fabHistCtrl,
   .fabHistWr, .fabSpoolStatus, .timeSnap, .timeInc, .timeCtrl, .timeStatus,
   .timeJumpTh, .timeDrift, .timeServo, .timeDomCfg, .timeDomOffset, .timeAsym,
   .timePpsCfg, .timePpsIn, .timeTodNext, .schedCfg, .schedStatus, .schedBankStatus,
   .schedRowcnt, .eptCfg, .eptMac, .eptStatus, .eptPreempt, .eptShape]

def regs2 : List Reg :=
  [.eptWheelStatus, .eptCnt, .eptStrSel, .eptStrCnt, .ringBase, .ringCfg,
   .ringPoll, .ringCtrl, .ringStatus, .ringIdx, .ringErr, .ringLost,
   .ringDb, .ringErrSum, .ringEvtRoute, .cascRoleStatus, .cascTrainStatus, .cascTmId,
   .cascConsistId, .cascBiarnCnt, .cascStackStatus, .secGrantBlock, .secGrantCtrl, .secGrantStatus,
   .secKeySel, .secKeyCtr, .secKeyPresent, .secOprMap, .secOprCfg, .secAuditSeq]

def regs3 : List Reg :=
  [.fltSticky, .fltActive, .fltSev, .fltErrCfg, .fltCtrl, .fltStatus,
   .fltPark, .fltIsol, .fltSel, .fltInfo, .fltInfoTime, .sysBusmxCtrl,
   .sysBusmxStatus, .sysBusmxDeft, .dmaSrc, .dmaDst, .dmaLink, .dmaCount,
   .dmaCtrl, .dmaStatus, .dmaErraddr, .irqSrcCfg, .irqPend, .irqSetpend,
   .irqActive, .irqClaim, .irqComplete, .pwrStatus, .pwrMon, .pwrStableCfg]

def regs4 : List Reg :=
  [.pwrStableTime, .sysUnitId, .sysProfile, .sysProfileReq, .sysResetCause, .sysCtrl,
   .sysChrst, .sysLanerst, .sysId, .sysOrder, .sysBuild, .sysMfg,
   .sysFwVer, .sysRomVer, .sysCfgGen, .sysStrap, .sysPins, .sysCap,
   .sysHostAcc, .sysScratch, .tstMode, .tstAdcRaw, .tstStCtrl, .tstStStatus,
   .tstStErr, .tstStPwr]

/-- Every register, once. -/
def allRegs : List Reg := regs0 ++ regs1 ++ regs2 ++ regs3 ++ regs4

/-- Number of instances. -/
def Reg.count (r : Reg) : Nat := r.info.n1 * r.info.n2

/-- BAR0 offset of instance `i` (R433). -/
def Reg.addr (r : Reg) (i : Nat) : Nat :=
  r.info.base + i / r.info.n2 * r.info.step1 + i % r.info.n2 * r.info.step2

/-- Default severity of a fault source and the floor below which it cannot be set (R335). -/
def fltDefault (src : Nat) : Nat :=
  if src ≤ 39 then 2 else if src ≤ 47 then 0 else
  match src with
  | 48 => 1 | 49 => 1 | 50 => 2 | 51 => 2 | 52 => 1 | 53 => 1 | 54 => 1 | 55 => 1 | 56 => 0 | 57 => 4 | 58 => 3
  | 59 => 3 | 60 => 3 | 61 => 1 | 62 => 2 | 63 => 1 | 64 => 1 | 65 => 1 | 66 => 2 | 67 => 2 | 68 => 2 | 69 => 2
  | 70 => 2 | 71 => 4 | 72 => 2 | 73 => 2 | 74 => 0 | 75 => 2 | 76 => 0 | 77 => 1 | 78 => 1 | 79 => 1 | 80 => 1
  | 81 => 0 | 82 => 0 | 83 => 2 | 84 => 4 | 85 => 2 | 86 => 2 | 87 => 4 | 88 => 4 | 89 => 1 | 90 => 1 | 91 => 1
  | 92 => 1 | 93 => 2 | 94 => 0 | 95 => 2 | _ => 0

def fltFloor (src : Nat) : Nat :=
  if src ≤ 31 then 2 else
  match src with
  | 57 => 3 | 58 => 2 | 59 => 2 | 60 => 2 | 67 => 2 | 71 => 4 | 75 => 2 | 84 => 4 | 87 => 4 | 88 => 4 | 93 => 2
  | _ => 0

/-- FLT_SEV_k before any store is loaded (R335, R432): eight 4-bit fields of default severities, NO_INT clear. -/
def fltSevReset (k : Nat) : Nat :=
  ((List.range 8).map fun j => fltDefault (8 * k + j) * 2 ^ (4 * j)).foldl (· + ·) 0

/-- Value at reset of word `w` of instance `i`: the table's, with the instance numbers where the table gives them per
instance (DOMAIN of TIME_DOM1_CFG, the severities of R335). -/
def Reg.resetWord (r : Reg) (i w : Nat) : Word :=
  match r with
  | .fltSev => BitVec.ofNat 32 (fltSevReset i)
  | .timeDomCfg => BitVec.ofNat 32 (r.info.reset + i * 2 ^ 16)
  | _ => BitVec.ofNat 32 (r.info.reset / 2 ^ (32 * w))

def Reg.rwMask (r : Reg) (w : Nat) : Word := if r = .secGrantBlock then 0xFFFFFFFF#32 else
  BitVec.ofNat 32 (r.info.rw / 2 ^ (32 * w))

def Reg.w1cMask (r : Reg) (w : Nat) : Word := BitVec.ofNat 32 (r.info.w1c / 2 ^ (32 * w))

/-- The instance of `r` that holds BAR0 offset `off`, and the byte within it. -/
def Reg.find (r : Reg) (off : Nat) : Option (Nat × Nat) :=
  let f := r.info
  if off < f.base then none else
  let o := off - f.base
  let i := o / f.step1
  let j := o % f.step1 / f.step2
  let b := o % f.step1 % f.step2
  if i < f.n1 ∧ j < f.n2 ∧ b < f.bytes then some (i * f.n2 + j, b) else none

/-- What lies at a BAR0 offset: register, instance, byte within the instance. -/
def regAt (off : Nat) : Option (Reg × Nat × Nat) :=
  allRegs.findSome? fun r => (r.find off).map fun (i, b) => (r, i, b)

/-- The protected registers (R327). -/
def Reg.protected (r : Reg) : Bool :=
  r.info.stored || r = .loopProfileIdx || r = .secOprMap || r = .secOprCfg || r = .sysCfgGen

end Sys2Proof.Machine
end

