-- ==== Sys2Proof/Machine/State.lean ====
section
/-! DEFINITION. The state of the module as plain data: one structure per block of the module, the register file of
what software writes, the working memories, the flash, what the module has sent, and the queue of commands.

Every field's default is its value at `State.reset`. A bank of like things is a `Tab`: a table that lists only the
entries that differ from the value at reset, so that equal states are equal data. -/

namespace Sys2Proof.Machine

/-- An instant on the raw counter at which something falls due, or none while the timer does not run. -/
abbrev Timer := Option Nat

/-! ### Power, start, pins -/

/-- The state that the SMBus reports (R416), and absence of VIN (R411). -/
inductive Phase where
  | unpowered | reset | starting | running | stabling | stabled | waking
  deriving DecidableEq, Repr

/-- The wake sources (R386). -/
inductive WakeSource where
  | wakeIn | stableReqN | perstN | timer
  deriving DecidableEq, Repr

structure Pwr where
  phase        : Phase := .reset
  vin10mV      : BitVec 16 := 1200#16        -- R416 command 02h, PWR_MON.VIN
  tdie         : Byte := 25#8                -- PWR_MON.TDIE
  tcase        : Byte := 25#8                -- PWR_MON.TCASE
  strapPins    : Straps := ⟨false, 0#5, 0#2⟩ -- levels at the strap contacts
  straps       : Straps := ⟨false, 0#5, 0#2⟩ -- as sampled at t0 (R413)
  rstN         : Bool := true
  perstN       : Bool := true
  stableReqN   : Bool := true
  wakeIn       : Bool := false
  testEn       : Bool := false               -- after the 1 ms filter (R415)
  trstN        : Bool := false
  ppsIn        : Bool := false
  periodIn     : Bool := false
  endpointReady : Bool := false              -- R392
  bme          : Bool := false               -- Bus Master Enable (R272)
  d3hot        : Bool := false               -- R424
  linkL0       : Bool := false               -- PCI Express link in L0 or a low-power state
  wakeCause    : BitVec 3 := 0#3             -- PWR_STATUS.WAKE_CAUSE
  xoKept       : Bool := false               -- PWR_STATUS.XO_KEPT
  stableTime   : Word := 0#32                -- PWR_STABLE_TIME
  stabledAt    : Nat := 0                    -- raw count at STABLED
  wakeTimer    : Timer := none               -- R386 timer
  wakeLatched  : Option WakeSource := none   -- R385
  closing      : Timer := none               -- the 500 ms wait for a closing summary (R385)
  closingDone  : Bool := false
  pewake       : Timer := none               -- PEWAKE_N asserted until this instant (R387)
  clkreq       : Bool := false               -- CLKREQ_N asserted (R379)
  errHeldAtStabling : Bool := false          -- R417
  deriving DecidableEq, Repr

/-! ### Supervisor, images, keys, audit -/

/-- The supervisor pair (R17, R399, R403). -/
structure Sup where
  available : Bool := false
  stopped   : Bool := false                  -- R399: stopped until module reset
  recovery  : Bool := false                  -- R404: the recovery loader runs
  slot      : BitVec 1 := 0#1                -- running image slot (SYS_PROFILE.SLOT)
  restarts  : List Nat := []                 -- raw counts of the restarts of R399's 60 s
  trial     : Timer := none                  -- end of the 60 s of R403
  activating : Bool := false                 -- a restart caused by IMAGE activate is under way (R401)
  fallback  : Bool := false                  -- the restart under way falls back to the other slot (R403)
  profile   : BitVec 2 := 0#2                -- SYS_PROFILE.SEL, the profile in force (R405)
  revLast   : BitVec 16 := 0#16              -- SYS_PROFILE.REV of the last start (R416 06h)
  startedOnce : Bool := false                -- the Relpety record was loaded since power-up (R416 01h)
  deriving DecidableEq, Repr

/-- Slot states (R402). -/
inductive SlotState where
  | empty | valid | trial | good | failed
  deriving DecidableEq, Repr

/-- One firmware image slot: its status (R402) and the header fields of its image (R400). -/
structure ImgSlot where
  state     : SlotState := .empty
  fails     : Nat := 0
  actSeq    : Nat := 0
  version   : Word := 0#32
  nativeRev : BitVec 16 := 0#16
  compatRev : BitVec 16 := 0#16
  length    : Nat := 0
  digest    : List Byte := []
  image     : Option Memory := none          -- the bytes that IMAGE programmed (R26, R401)
  checks    : Bool := false                  -- header, signature and digest check at a start (R400)
  deriving DecidableEq, Repr

/-- A key and its last accepted counter (R321, R325). -/
structure Key where
  material : List Byte := []
  last     : Dword := 0#64
  held     : Bool := false
  deriving DecidableEq, Repr

inductive Role where
  | operator | installer | maker
  deriving DecidableEq, Repr

/-- A grant in force (R328). -/
structure Grant where
  role   : Role
  keyId  : Nat
  ends   : Nat                               -- raw count
  audit  : Nat := 0                          -- SEQ of its audit entry (R326)
  deriving DecidableEq, Repr

/-- One audit entry (R330), less the fields that are constant; CHAIN and CRC are formed at writing. -/
structure AuditEntry where
  seq     : Nat := 0
  kind    : Byte := 0#8
  role    : Byte := 0#8
  keyId   : Byte := 0xFF#8
  status  : Byte := 0#8
  counter : Dword := 0#64
  time    : Dword := 0#64
  source  : Byte := 0#8
  opcode  : Byte := 0#8
  where_  : Word := 0#32
  tag     : List Byte := []
  arg     : List Byte := []
  digest  : List Byte := []
  old     : Word := 0#32
  new     : Word := 0#32
  start   : List Byte := []
  chain   : List Byte := []
  result  : Byte := 0xFF#8
  stored  : Bool := false                    -- the flash holds it (R329)
  deriving DecidableEq, Repr

/-- Roles, grants and the audit log (chapter 12). -/
structure Sec where
  keys      : Tab Key := []
  grant     : Option Grant := none
  grantOld  : Option Grant := none           -- the grant that the one in force replaced (R326, R328)
  lastStatus : Byte := 0#8                   -- SEC_GRANT_STATUS.LAST_STATUS
  auditSeq  : Nat := 0                       -- SEC_AUDIT_SEQ: SEQ of the next entry
  audit     : Tab AuditEntry := []           -- flash audit log by SEQ mod 65,536
  held      : List AuditEntry := []          -- R332: attempts and writes waiting for the supervisor
  heldMissed : Nat := 0                      -- R332: those left out beyond 64
  denied    : Nat := 0                       -- denied protected writes since the last entry (R327)
  deniedAt  : Timer := none                  -- earliest instant of the next denied-writes entry
  refusals  : List Nat := []                 -- raw counts of refusals under R326 (source 92)
  lastKeyId : Byte := 0#8
  recLast   : Tab Dword := []                -- counters accepted since the recovery loader started (R404)
  deriving DecidableEq, Repr

/-! ### Faults -/

/-- Per-source record of the fault collector (R341, FLT_INFO). -/
structure FltSrc where
  count    : Nat := 0
  detail   : BitVec 16 := 0#16
  injected : Bool := false
  active   : Bool := false                   -- level condition holds
  forced   : Bool := false                   -- held by FAULT_INJECT MODE 01h
  forcedEnd : Timer := none
  forcedUnit : Option Nat := none            -- chamber or lane of the injection
  conds    : List (Nat × Option Nat) := []   -- the conditions that hold: DETAIL, and the chamber or lane
  time     : Dword := 0#64                   -- network time of the last firing (R277)
  lastEvent : Timer := none                  -- raw count of the last FAULT event (R341)
  deriving DecidableEq, Repr

/-- A firing: its source, DETAIL, the chamber or lane it concerns, and whether it was injected (R343). -/
structure FireReq where
  src      : Nat
  detail   : Nat := 0
  owner    : Option Nat := none
  injected : Bool := false
  deriving DecidableEq, Repr

/-- The fault collector (chapter 13). -/
structure Flt where
  sticky   : BitVec 96 := 0#96
  src      : Tab FltSrc := []
  park     : BitVec 32 := 0#32               -- FLT_PARK
  isol     : BitVec 8 := 0#8                 -- FLT_ISOL
  parkedAll : Bool := false
  pulseEnd : Timer := none                   -- end of the ERR_N pulse
  errHeld  : Bool := false                   -- ERR_N held after the pulse (R340)
  relWritten : Bool := false                 -- RELEASE written during the pulse in force (R340)
  infoSnap : Dword := 0#64                   -- FLT_INFO
  timeSnap : Dword := 0#64                   -- FLT_INFO_TIME
  fireQ    : List FireReq := []              -- firings of this command whose reactions are still to be made
  deriving DecidableEq, Repr

/-! ### Interrupt controller, bus matrix, DMA -/

structure IrqSrc where
  en      : Bool := false
  sense   : BitVec 2 := 0#2
  prio    : BitVec 4 := 0#4
  raw     : Bool := false                    -- input level
  pending : Bool := false
  active  : Bool := false
  deriving DecidableEq, Repr

/-- The targets of the internal address map (R346). -/
inductive Target where
  | sram | rom | flash | regs | default
  deriving DecidableEq, Repr

/-- A LOCKED sequence that holds a target port: the raw count of its first grant, and the accesses still to come. -/
structure PortLock where
  at_  : Nat
  left : Nat
  deriving DecidableEq, Repr

/-- A target port of the matrix (R348): the master granted last in the CONTROL and in the BULK class, the CONTROL
grants in a row while a BULK piece waited, and the LOCKED sequence that holds it. -/
structure Port where
  lastCtl : Nat := 7
  lastBlk : Nat := 7
  run     : Nat := 0
  lock    : Option PortLock := none
  deriving DecidableEq, Repr

/-- An answer of the matrix: a response with its data, or an error response (R350, R352). -/
structure BusAnswer where
  master : Nat
  id     : Nat
  data   : List Byte := []
  error  : Bool := false
  deriving DecidableEq, Repr

/-- The bus matrix: its registers, the boot remap, the ports and the transactions in it (R344 to R355). -/
structure BusMx where
  waiting  : List BusReq := []               -- issued and not answered, in issue order (R350)
  held     : List BusReq := []               -- zero-window requests held for the switch (R355)
  ports    : Tab Port := []                  -- by `Target.code`
  broken   : Bool := false                   -- the next access of a LOCKED sequence gets an error response (R349)
  answers  : List BusAnswer := []            -- the answers of the latest grants, in the order they returned
  remap    : Bool := false                   -- SYS_BUSMX_CTRL.REMAP in force
  remapTo  : Option Bool := none             -- a switch that waits for outstanding transactions (R355)
  master   : BitVec 3 := 0#3
  dir      : Bool := false
  deftCnt  : Nat := 0
  deftAddr : Word := 0#32
  deriving DecidableEq, Repr

/-- Outcomes of a DMA channel (DMA_CHnn_STATUS.CODE). -/
inductive DmaCode where
  | none | done | aborted | busError | refused | linkLimit
  deriving DecidableEq, Repr

structure DmaCh where
  src      : Word := 0#32
  dst      : Word := 0#32
  count    : Nat := 0
  ctrl     : Word := 0x00180008#32           -- WRAP_LOG 12, BURST_LOG 8
  link     : Word := 0#32
  busy     : Bool := false
  triggered : Bool := false                  -- the trigger of the transfer was taken
  pendTrig : Bool := false
  code     : DmaCode := .none
  dir      : Bool := false
  why      : BitVec 4 := 0#4
  links    : Nat := 0
  errAddr  : Word := 0#32
  curSrc   : Nat := 0                        -- start addresses of the transfer in progress
  curDst   : Nat := 0
  total    : Nat := 0
  left     : Nat := 0                        -- bytes not yet written
  deriving DecidableEq, Repr

structure DmaEngine where
  chans  : Tab DmaCh := []
  lines  : BitVec 6 := 0#6                   -- request lines 01h to 05h (R358)
  lastOf : Tab Nat := []                     -- per priority, the channel after the one served last (R363)
  deriving DecidableEq, Repr

/-! ### Time unit -/

/-- TIME_STATUS.STATE (R170). -/
inductive TimeState where
  | free | locking | locked | holdover | freeRun
  deriving DecidableEq, Repr

/-- The authorisation case of a step (R184). -/
inductive StepCase where
  | acquisition | coupling | command
  deriving DecidableEq, Repr

/-- An authorised step that has not executed (R183 to R186); `delta` none is a step to source. -/
structure StepReq where
  why    : StepCase
  delta  : Option Int
  authAt : Nat
  issuer : Option (Nat × Nat) := none        -- command ring and index of a TIME_STEP
  deriving DecidableEq, Repr

/-- What the time unit keeps of one gPTP instance. -/
structure PtpInst where
  theta    : Int := 0                        -- latest θ, 2^-16 ns
  sampleAt : Timer := none                   -- raw count of the latest sample
  valid    : Bool := false                   -- D0_VALID, D1_VALID
  interval : Nat := 125000000                -- Sync interval in force, ns (assumption 40)
  pending  : Option (BitVec 16 × Nat × Int × Nat) := none  -- two-step Sync: sequenceId, t2, correction, raw
  nextSync : Tab Nat := []                   -- per lane, raw count of the next Sync
  txSeq    : Tab Nat := []                   -- per lane, sequenceId of the next Sync
  roleOld  : BitVec 16 := 0#16               -- ROLE before the latest accepted write (R175)
  roleAt   : Tab Nat := []                   -- per lane, raw count at which the register's ROLE takes effect
  deriving DecidableEq, Repr

/-- Link delay of a lane (R172 to R174). -/
structure LinkDelay where
  valid     : Bool := false
  mean      : Int := 0                       -- 2^-16 ns
  rateRatio : Int := 0
  next      : Nat := 0                       -- raw count at which the next exchange starts
  seq       : Nat := 0                       -- sequenceId of the next Pdelay_Req
  asked     : Timer := none                  -- raw count at which the request of the exchange under way left
  deriving DecidableEq, Repr

/-- An anchor and a rate of network time (R165). -/
structure Anchor where
  nt  : Nat := 0
  raw : Dword := 0#64
  inc : Nat := 4194304000
  deriving DecidableEq, Repr

structure TimeUnit where
  raw      : Dword := 0#64
  running  : Bool := false                   -- the fast clock runs
  xoStopped : Bool := false                  -- the TCXO has stopped (R380)
  aRaw     : Dword := 0#64
  aNt      : Nat := 0                        -- anchor network time, 2^-16 ns
  inc      : Nat := 4194304000               -- INC_NOM
  prior    : Anchor := {}                    -- anchor and rate before the present anchor's cycle (R166)
  integ    : Int := 0                        -- the servo's i
  state    : TimeState := .free
  drift    : Bool := true                    -- TIME_STATUS.DRIFT
  accepted : Bool := false                   -- a sample was accepted since module reset
  acceptedAt : Nat := 0                      -- raw count of the last accepted sample
  good     : Nat := 0                        -- accepted samples in a row within DRIFT_LIM / 2, for LOCKED (R170)
  calm     : Nat := 0                        -- the same since DRIFT was last set or a sample refused (R171)
  refCnt   : Nat := 0
  refSince : Nat := 0                        -- refused samples in a row since COUPLING was set (R313)
  jumpFired : Bool := false                  -- source 61 fired for the present run of refusals
  theta    : Int := 0                        -- latest θ of PPS_IN
  thetaAt  : Timer := none                   -- and its raw count
  insts    : Tab PtpInst := []
  delays   : Tab LinkDelay := []
  ppsValid : Bool := false
  ppsLast  : Timer := none                   -- raw count of the last accepted PPS_IN edge
  todNext  : Option (Nat × Nat) := none      -- latest value written to TIME_TOD_NEXT and its raw count (R179)
  todWritten : Bool := false                 -- an earlier value waits for an edge
  tod      : Nat := 0                        -- that value, or the value the last edge used
  ppsOut   : Bool := false
  ppsOutEnd : Timer := none
  step     : Option StepReq := none
  stepped  : Bool := false                   -- since COUPLING was set: a step executed, one lapsed, STATE became LOCKED
  lapsed   : Bool := false
  relocked : Bool := false
  snapRaw  : Dword := 0#64                   -- TIME_SNAP
  snapNt   : Nat := 0
  deriving DecidableEq, Repr

/-! ### Schedule unit -/

/-- SCHED_BANKn_STATUS.STATE. -/
inductive BankState where
  | empty | loading | valid | running | pending | refused
  deriving DecidableEq, Repr

structure Bank where
  state      : BankState := .empty
  marginStale : Bool := false
  checkDrift : Nat := 0
  issuer     : Option (Nat × Nat) := none    -- the BANK_LOAD in progress
  remote     : Bool := false                 -- loaded for a distribution set (R308)
  deriving DecidableEq, Repr

/-- The running bank: where it stands in its matrix (R189). Times in 2^-16 ns of network time. -/
structure Run where
  bank     : Nat
  matrix   : Int                             -- start of the present matrix; before time 0 while t < PHASE
  row      : Nat
  next     : Nat                             -- the next row boundary
  change   : Nat := 0                        -- index of the next circuit-change entry
  deriving DecidableEq, Repr

/-- An accepted PATTERN_START (R204). -/
structure StartReq where
  bank     : Nat
  time     : Nat                             -- S, ns
  needMap  : Bool                            -- START_MAP is being applied first
  boundary : Option Nat                      -- 2^-16 ns, once fixed
  ring     : Nat
  idx      : Nat
  deriving DecidableEq, Repr

/-- A waiting swap (R205). -/
structure SwapReq where
  bank     : Nat
  boundary : Nat                             -- 2^-16 ns
  issuer   : Option (Nat × Nat)              -- command ring and index; none for a Biarn SWAP
  deriving DecidableEq, Repr

/-- SCHED_STATUS.HOLD_WHY. -/
inductive HoldWhy where
  | step | coupling
  deriving DecidableEq, Repr

structure Hold where
  why     : HoldWhy
  rows    : Nat := 0                         -- consecutive row boundaries with DRIFT 0 since it took effect
  skipped : Nat := 0
  endDue  : Bool := false                    -- the rule of R216 was met at the latest row boundary
  bounds  : Nat := 0                         -- row boundaries since it took effect (R215)
  deriving DecidableEq, Repr

structure Sched where
  banks    : Tab Bank := []
  run      : Option Run := none
  start    : Option StartReq := none
  swap     : Option SwapReq := none
  stops    : List (Nat × Nat) := []          -- waiting PATTERN_STOPs: ring and index
  stopAt   : Option Nat := none              -- the stopping boundary, 2^-16 ns
  failQuiet : Bool := false
  fqRows   : Nat := 0
  fqSkipped : Nat := 0
  holdReq  : Option HoldWhy := none          -- asked for, not yet in effect
  holdAt   : Nat := 0                        -- the matrix boundary at which it takes effect, 2^-16 ns
  hold     : Option Hold := none
  couplingHeld : Bool := false               -- a coupling hold the supervisor has not released (R216)
  realign  : Bool := false                   -- a re-alignment change runs; windows resume after it (R213)
  rowCnt   : Word := 0#32
  deriving DecidableEq, Repr

/-! ### Fabric -/

/-- STATE of a map directory entry (R62). -/
inductive MapState where
  | empty | loaded | routed | stale
  deriving DecidableEq, Repr

structure MapDir where
  state   : MapState := .empty
  engine  : Bool := false                    -- FLAGS bit 0
  host    : Bool := false                    -- FLAGS bit 1
  failGen : Byte := 0#8
  nconn   : Nat := 0
  ncross  : Nat := 0
  crc     : Word := 0#32
  deriving DecidableEq, Repr

/-- Kinds and sources of failed cells (R48, R52). -/
inductive FailKind where
  | stuckBar | stuckCross | darkOnly
  deriving DecidableEq, Repr

inductive FailSrc where
  | factory | installer | module
  deriving DecidableEq, Repr

structure FailEntry where
  cell : Nat
  kind : FailKind
  src  : FailSrc
  deriving DecidableEq, Repr

/-- FAB_CHnn_STATUS.PSTATE. -/
inductive PState where
  | off | castingOn | on | bindingOff | hold | reset
  deriving DecidableEq, Repr

structure Chamber where
  pstate   : PState := .off
  timer    : Timer := none                   -- end of the cast-on, bind-off or analog hold in progress
  idle     : Timer := none                   -- BINDOFF_HOLD runs out at this instant (R88)
  resetting : Bool := false                  -- the engine's reset is incomplete (R91)
  casting  : Bool := false                   -- the hold in progress interrupted a cast-on (R87, R91)
  deriving DecidableEq, Repr

/-- What a circuit change comes from (R70, R213, R214, R204). -/
inductive ChangeSrc where
  | scheduled (entry : Nat)
  | apply (ring idx : Nat)
  | realign
  | inaug
  | startMap
  deriving DecidableEq, Repr

/-- Where a circuit change stands (R81). -/
inductive ChangeStage where
  | prep                                     -- gates closing, chambers casting on
  | armed                                    -- 500 ns before t_c
  | started                                  -- between t_c and the end of the guard interval
  | verifying                                -- after the guard interval (R80)
  deriving DecidableEq, Repr

structure Change where
  map      : Nat
  prev     : Option Nat
  src      : ChangeSrc
  stage    : ChangeStage := .prep
  at_      : Option Nat := none              -- requested t_c in ns; none is at once
  tc       : Nat := 0                        -- t_c in 2^-16 ns of network time, once started
  tcRaw    : Nat := 0                        -- raw count of t_c
  guard    : Nat := 1000                     -- guard interval in ns
  cells    : List Nat := []                  -- the change set
  dropped  : List Nat := []
  missing  : BitVec 32 := 0#32               -- chambers that did not complete (R90)
  late     : Bool := false
  stale    : Bool := false                   -- a STALE map is applied (R274)
  gatesShut : BitVec 8 := 0#8                -- lanes whose gates the module holds closed (R73)
  endRaw   : Nat := 0                        -- raw count of the end of the guard interval
  conns    : List (Nat × Nat) := []          -- the affected connections of the new map, once started (R72, R80)
  lanes    : BitVec 8 := 0#8                 -- the lanes of the affected connections (R73)
  deriving DecidableEq, Repr

/-- A timed MAP_APPLY that waits for its preparation (R283). -/
structure PendApply where
  ring : Nat
  idx  : Nat
  map  : Nat
  time : Nat                                 -- ns
  deriving DecidableEq, Repr

/-- A route computation in progress (R66 to R68). -/
structure RouteJob where
  ring    : Nat
  idx     : Nat
  src     : Nat
  dst     : Nat
  base    : Option Nat
  since   : Nat                              -- raw count of the start
  remote  : Bool := false                    -- for a distribution set (R308)
  gen     : Byte := 0#8                      -- FAB_FAIL_STATUS.GEN at the start (R51)
  deriving DecidableEq, Repr

/-- A spool record (R161). -/
structure SpoolRec where
  type    : Byte
  ch      : Byte
  info    : BitVec 16
  nt      : Nat
  seq     : Word
  payload : List Byte
  deriving DecidableEq, Repr

/-- A wear summary as stored (R155). -/
structure WearSummary where
  seq     : Nat := 0
  sec     : Nat := 0
  closing : Bool := false
  estimated : Bool := false
  counts  : Tab Nat := []
  first   : Tab Nat := []
  drift   : Tab (Int × Int × Int × Int × Nat) := []
  deriving DecidableEq, Repr

structure Fabric where
  dirs     : Tab MapDir := []
  inForce  : Option Nat := none
  nextMap  : Nat := 0                        -- FAB_MAP_STATUS.NEXT_MAP
  change   : Option Change := none           -- the change between its start and the end of its guard interval
  verify   : Option Change := none           -- the change whose verification is under way (R80)
  waiting  : List Change := []               -- command-issued changes in preparation or waiting to start (R70, R71)
  armedEntry : Option Nat := none            -- change entry whose sequencers are armed (R81)
  casts    : List (Nat × Nat × Nat) := []    -- cast-on orders given: bank, change entry and t_c (R81, R207)
  applies  : List PendApply := []            -- timed MAP_APPLYs before their preparation
  routes   : List RouteJob := []
  failed   : List FailEntry := []
  failGen  : Byte := 0#8
  chambers : Tab Chamber := []
  drips    : Tab Nat := []                   -- 48-bit drip counters by element
  firsts   : Tab Nat := []                   -- first-count second by element (R155)
  wearSeen : Tab Nat := []                   -- wear levels reported, by element (R94)
  rateSeen : Tab Nat := []
  estimated : Bool := false
  dripSnap : Dword := 0#64                   -- FAB_DRIP
  sumTimer : Timer := none                   -- next wear summary (R153)
  sumSeq   : Nat := 0
  sumDue   : Option Bool := none             -- a summary being written; true is CLOSING
  sumNow   : Bool := false                   -- FAB_WEAR_SUM_CFG.NOW as it reads
  summaries : Tab WearSummary := []          -- flash slots 0 to 255
  spool    : List SpoolRec := []
  spoolAt  : Nat := 0                        -- slot of the spool's oldest record (R24; assumption 3)
  spoolSeq : Word := 0#32
  spoolDrops : Nat := 0
  dropsUnmarked : Nat := 0                   -- records dropped since the last drop marker
  histOff  : Nat := 0
  histLap  : Nat := 0
  driftWhich : BitVec 2 := 0#2
  driftCell  : Nat := 0
  deriving DecidableEq, Repr

/-! ### Cells and loops -/

/-- Modes of the M loop (R117). -/
inductive Mode where
  | park | trajectory | holdPosition | holdOptical | cal
  deriving DecidableEq, Repr

/-- What the element of a cell is doing (FAB_CELL_STATUS.STATE): at rest, driven in a state, or moving. -/
inductive Pos where
  | rest | bar | cross | moving
  deriving DecidableEq, Repr

/-- State of an M loop (R100, R113, R139). Positions and errors in 2^-16 nm, drives in 2^-30. -/
structure MLoop where
  y      : Int := 0
  sp     : Int := 0
  r      : Int := 0
  tgt    : Int := 0
  rampStart : Bool := false
  rate   : Int := 0                          -- requested ramp rate; 0 is RAMP_RATE (R115)
  e0     : Int := 0
  e1     : Int := 0
  e2     : Int := 0
  v1     : Int := 0
  v2     : Int := 0
  integ  : Int := 0
  u      : Int := 0
  f      : Int := 0
  dout   : Int := 0
  corr   : Int := 0
  msat   : Bool := false
  settle : Nat := 0                          -- consecutive counted samples in the settle band (R77)
  late   : Nat := 0                          -- the same at the end of the 8 us of R78
  odN    : Nat := 0                          -- oscillation detector (R139)
  odCnt  : Nat := 0
  odArmed : Bool := false
  odRef  : Int := 0
  odDue  : Bool := false                     -- the window ended with CNT_TH counts
  sumU   : Int := 0                          -- flowstone visit (R137)
  nU     : Nat := 0
  clean  : Bool := false
  stayed : Bool := false                     -- in the hold modes with MSAT clear since the interval began (R145)
  rampFrom : Int := 0                        -- drive at the entry to PARK, and its raw count (R119)
  rampAt : Nat := 0
  frame  : Timer := none                     -- start of the frame last sampled (R102, R103)
  count  : Nat := 0                          -- samples made (R157)
  resume : Option (Int × Bool) := none       -- drive held on analog hold, and whether the cell was caught in TRAJECTORY,
                                             -- until the first sample after the hold (R120)
  deriving DecidableEq, Repr

/-- State of an O loop and of the hand-over (R106 to R108, R121 to R124). -/
structure OLoop where
  tap0   : Word := 0#32
  tap1   : Word := 0#32
  lam    : Int := 0
  oint   : Int := 0
  trim   : Int := 0
  osat   : Bool := false
  holdSmp : Bool := false
  defer  : Bool := false
  deferCnt : Nat := 0
  refused : Bool := false                    -- LOOP_CHnn_LSTAT.HO_REFUSED
  check  : Bool := false                     -- the first check after a stitch or take-up is outstanding
  retry  : Option Nat := none                -- O samples until the repeat of R123
  dark   : Nat := 0                          -- consecutive dark samples
  period : Timer := none                     -- start of the conversion last taken (R105)
  prev   : Int := 0                          -- trim before the latest post, and the instant of that post (R103, R105)
  postAt : Nat := 0
  deriving DecidableEq, Repr

/-- State of a B loop (R109, R111). -/
structure BLoop where
  bint   : Int := 0
  sign   : Int := 1
  lamPrev : Int := 0
  prevEst : Bool := false
  bal    : Int := 0
  bsat   : Bool := false
  oCnt   : Nat := 0                          -- O samples since hand-over
  bCnt   : Nat := 0                          -- B samples since hand-over
  bAt    : Nat := 0                          -- the O sample, counted since hand-over, of the latest B sample
  settled : Bool := false
  rampFrom : Int := 0                        -- balance drive at the entry to PARK (R119)
  deriving DecidableEq, Repr

/-- A calibration command or drift probe on a cell (R118 rows 9, 10, 2). -/
structure CalJob where
  op     : Nat                               -- 0 probe, 1 sweep, 2 set-point
  issuer : Option (Nat × Nat)
  back   : Mode                              -- the mode held before CAL
  target : Int := 0                          -- set-point of the present leg
  legs   : List Int := []                    -- set-points of the legs after it
  hold   : Nat := 0                          -- cycles that a leg holds its set-point
  reached : Timer := none                    -- raw count at which r reached the set-point
  rate   : Int := 0                          -- requested rate; 0 is RAMP_RATE (R115)
  clipped : Bool := false
  deriving DecidableEq, Repr

structure Cell where
  pos    : Pos := .rest
  state  : Bool := false                     -- the state held or stitched to: false BAR, true CROSS
  mode   : Mode := .park
  stitchRaw : Nat := 0                       -- raw count of the start of the latest stitch
  stitchNt  : Nat := 0
  stitching : Bool := false                  -- the stitch is not yet settled nor dropped
  recovering : Bool := false                 -- a dropped stitch that has not settled (R78)
  timedOut : Bool := false                   -- t_c plus 8 us passed without settling (R78)
  stageMove : Bool := false                  -- the stitch is a staging stitch or a revert
  settledIn : Nat := 0                       -- settle time of the latest stitch, cycles
  staged : Bool := false
  revertDue : Bool := false                  -- the staging was cancelled; the revert has not started (R85)
  held   : Bool := false                     -- held state while DON'T-CARE: false BAR (R63)
  dropped : Bool := false                    -- FAB_CELL_STATUS.DROPPED
  reverted : Bool := false                   -- FAB_CELL_STATUS.REVERTED
  hist   : List (Bool × Bool) := []          -- last 16 stitches, newest first: dropped, toward CROSS
  failDue : Bool := false                    -- 4 or more drops were counted at the latest drop (R79)
  was    : Mode := .park                     -- the mode before the latest transition, and its raw count (R118)
  wasAt  : Timer := none
  midx   : Byte := 0#8                       -- profile in force
  oidx   : Byte := 1#8
  bidx   : Byte := 2#8
  mnew   : Option Byte := none               -- a written index, until the loop's next sample (R129)
  onew   : Option Byte := none
  bnew   : Option Byte := none
  mfall  : Option Byte := none               -- a fallback of the M loop, until its next sample (R140, R141)
  m      : MLoop := {}
  o      : OLoop := {}
  b      : BLoop := {}
  cal    : Option CalJob := none
  probedAt : Timer := none
  mpol   : Bool := false                     -- drive polarities (LOOP_CHnn_LDRV)
  bpol   : Bool := false
  mpolAt : Timer := none                     -- the latest instant of R150 that was dealt with
  bpolAt : Timer := none
  deriving DecidableEq, Repr

/-- What drift tracking and calibration change of a cell's calibration, as offsets from the Relpety values (R144,
R147, R148). Positions in 2^-16 nm, drives in 2^-30, the stiffness scale in 2^-14. -/
structure CalOffset where
  posBar   : Int := 0
  posCross : Int := 0
  drvBar   : Int := 0
  drvCross : Int := 0
  stiff    : Nat := 16384
  lin      : Int := 0
  deriving DecidableEq, Repr

/-- Snapshot of one cell's loops (R130). -/
structure LoopSnap where
  lstat : Word := 0#32
  lpos  : Word := 0#32
  lsp   : Word := 0#32
  ltgt  : Word := 0#32
  ltrim : Word := 0#32
  ldrv  : Word := 0#32
  lprof : Word := 0#32
  deriving DecidableEq, Repr

/-- Trace unit of one chamber (R156 to R159). -/
structure Trace where
  armed : Bool := false
  triggered : Bool := false
  wrIdx : Nat := 0
  trigIdx : Nat := 0
  post  : Nat := 0                           -- ticks still to capture from the triggering tick on
  ctrl  : Word := 0x00000800#32              -- TRC_CTRL as taken at the arm (R158)
  last  : Int := 0                           -- selector 0's previous value, for the crossing
  tickAt : Option (Nat × Nat) := none        -- selector 0's cell and its sample count at the latest tick (R157)
  seen  : Bool := false
  doneDue : Bool := false
  deriving DecidableEq, Repr

/-- Supervision of one chamber's loops. -/
structure ChLoop where
  snap   : LoopSnap := {}
  snapDue : Option (Nat × Nat) := none       -- a cell whose snapshot is to be taken, and the instant (R130)
  lastCell : Nat := 0                        -- ODET_STATUS.LAST_CELL
  odetCount : Nat := 0
  trace  : Trace := {}
  deriving DecidableEq, Repr

/-- One period source: PERIOD_IN or the estimator (R133, R134). -/
structure PerSrc where
  edges  : Nat := 0                          -- rising edges since the last reference edge
  refAt  : Timer := none                     -- raw count of the last reference edge
  lastOk : Nat := 0                          -- last accepted interval, cycles
  run    : Nat := 0                          -- consecutive accepted intervals
  bad    : Nat := 0                          -- consecutive rejected intervals
  locked : Bool := false
  acceptedAt : Timer := none
  deriving DecidableEq, Repr

/-- What the period estimator filters: the state of its band-pass filter, its latest output, and the positive-going
zero crossing that its reference edge has not yet reported (R134; assumption 61). -/
structure Estimator where
  filter  : Nat := 0
  out     : Int := 0
  crossAt : Timer := none
  deriving DecidableEq, Repr

/-- A PROFILE_WRITE that has been accepted: the words still to be applied, one in each frame (R142). -/
structure ProfJob where
  ring   : Nat
  idx    : Nat
  prof   : Nat
  words  : List (Nat × List Byte)            -- byte offset in the profile and the four bytes
  next   : Nat                               -- raw count at which the next of them is applied
  total  : Nat
  deriving DecidableEq, Repr

structure Period where
  filter : Estimator := {}
  pin    : PerSrc := {}
  est    : PerSrc := {}
  active : BitVec 2 := 3#2                   -- FAB_PERIOD_STATUS.ACTIVE
  locked : Bool := false
  period : Nat := 0                          -- T, cycles
  tref   : Nat := 0                          -- raw count of the last reference instant
  delays : List Int := []                    -- estimator edges after PERIOD_IN's, last 8 periods (R135)
  shift  : Int := 0                          -- fraction of T, 2^-16, after a fallback
  fadeFrom : Nat := 0                        -- raw count at which the fade began
  fadeUp : Bool := false
  fading : Bool := false
  factor1 : Bool := false                    -- the fade factor is 1 (when not fading)
  bin    : Nat := 0                          -- bin of the present visit
  deriving DecidableEq, Repr

structure Loops where
  cells   : Tab Cell := []
  calOff  : Tab CalOffset := []
  chans   : Tab ChLoop := []
  period  : Period := {}
  profiles : Memory := []                    -- 256 profiles of 64 B (R125, R126)
  jobs    : List ProfJob := []               -- profile writes under way (R142)
  polOnAt : Nat := 0                         -- raw count at which FAB_POL_CFG.EN last became 1
  polNext : Nat := 1000                      -- polarity interval in force, ms (R150)
  polNew  : Option (Nat × Nat) := none       -- a written INTERVAL and the raw count at which it starts
  deriving DecidableEq, Repr

/-! ### Endpoint -/

/-- KIND of a gate entry (R193). -/
inductive GateKind where
  | closed | exclusive | arbitrating
  deriving DecidableEq, Repr

/-- Where a frame to send comes from (R222). -/
inductive FrameSrc where
  | entry (ring idx : Nat)
  | slot (ctx : Nat)
  | own                                      -- gPTP, Biarn
  | delayReq                                 -- a Pdelay_Req of the link delay service (R172)
  | delayResp                                -- a Pdelay_Resp, which a Follow_Up follows
  | twoStep (inst : Nat)                     -- a Sync that a Follow_Up follows
  deriving DecidableEq, Repr

/-- A frame in a transmit queue. `octets` runs from the first DA octet to the end of the payload. -/
structure TxFrame where
  octets : List Byte
  src    : FrameSrc
  ctx    : Option Nat := none
  seq    : Option (BitVec 16) := none        -- sequence number of the R-TAG, if one was inserted
  ins    : Option (BitVec 2 × Nat) := none   -- one-step insertion: format and offset (R177)
  sync   : Bool := false                     -- the module's own one-step Sync
  headAt : Timer := none                     -- raw count at which it came to the queue head (R226)
  deriving DecidableEq, Repr

/-- A frame that a lane sends, or the remainder of a pre-empted one. -/
structure TxNow where
  frame  : TxFrame
  queue  : Nat
  stamp  : Nat                               -- transmit stamp, 2^-16 ns (R176)
  row    : Word                              -- ROWCNT at departure (R217)
  sent   : Nat := 0                          -- octets sent in earlier fragments
  since  : Nat := 0                          -- raw count at which the fragment began
  deriving DecidableEq, Repr

/-- A token bucket (R230), level in 2^-8 octets, and the settings that govern until the next refill (R231). -/
structure Shaper where
  en    : Bool := false
  rate  : Nat := 0
  burst : Nat := 1522
  level : Int := 0
  last  : Nat := 0                           -- raw count of the last refill
  deriving DecidableEq, Repr

structure Lane where
  rate    : BitVec 2 := 0#2                  -- 00b 10GBASE-R, 01b 25GBASE-R
  fec     : Bool := false
  preempt : Bool := false                    -- PREEMPT_EN
  queues  : Tab (List TxFrame) := []
  cur     : Option TxNow := none
  rest    : Tab TxNow := []                  -- remainder of a pre-empted frame, by queue (R228)
  blockLock : Bool := false
  fecLock : Bool := false
  linkUp  : Bool := false
  lockTimer : Timer := none                  -- lock held or lost for 1 ms at this instant (R220)
  verify  : BitVec 2 := 0#2
  verifyTries : Nat := 0
  verifyTimer : Timer := none
  shapers : Tab Shaper := []
  cnt     : Tab Nat := []                    -- counters 00 to 15 (R248)
  gates   : BitVec 8 := 0xFF#8
  kind    : GateKind := .arbitrating
  gateIdx : Nat := 0                         -- position among the bank's gate entries of the lane
  connEnd : Nat := 0                         -- raw count of the end of the latest guard interval that affected it
  connBusy : Bool := false                   -- a change affecting its connection is between start and guard end
  busyTill : Nat := 0                        -- raw count at which the last fragment has left
  resetWait : Bool := false                  -- a lane reset waits for the frame in progress (R398)
  resetTill : Timer := none                  -- end of the lane reset in progress
  deriving DecidableEq, Repr

/-- Sequence recovery of a stream (R236; IEEE 802.1CB). -/
structure Recovery where
  takeAny : Bool := true
  seqNum  : BitVec 16 := 0#16
  hist    : List Bool := []                  -- SequenceHistory, newest first
  deriving DecidableEq, Repr

structure Stream where
  gen     : BitVec 16 := 0#16
  recov   : Recovery := {}
  rcvyTimer : Timer := none
  credits : Nat := 0
  creditAt : Timer := none                   -- the next credit, in 1/1000 of a cycle of the raw counter (R243)
  paced   : List (Nat × TxFrame) := []       -- frames that wait for release, with the ns they were held at (R242)
  lastRelease : Timer := none                -- previous release time, ns of network time
  cnt     : Tab Nat := []                    -- counters 00 to 13 (R249)
  goodCopy : Option (List Byte) := none      -- last good copy of a transmit slot (R245)
  goodSeq : Word := 0#32
  age     : Nat := 0
  deriving DecidableEq, Repr

/-- A pending event of the calendar wheel: its exact time in ns, its context and the slot it waits in (R240). -/
structure WheelEvent where
  time : Nat
  ctx  : Nat
  slot : Nat
  deriving DecidableEq, Repr

structure Endpoint where
  lanes   : Tab Lane := []
  streams : Tab Stream := []
  wheel   : List WheelEvent := []            -- events within reach, by time
  ovfl    : List WheelEvent := []            -- overflow list
  movedAt : Nat := 0                         -- wheel slot of the last move from the overflow list
  slotAt  : Nat := 0                         -- wheel slot served last, and the events handled in it (R240)
  slotUsed : Nat := 0
  strSnap : Tab Nat := []                    -- EPT_STR_CNT_00 to 13
  deriving DecidableEq, Repr

/-! ### Rings -/

/-- RING_nnn_STATUS.STATE (R254). -/
inductive RingState where
  | disabled | running | error | resetting
  deriving DecidableEq, Repr

/-- How far a fetched entry has come (R278, R262). -/
inductive EntryState where
  | fetched | waitSup | ready | begun
  deriving DecidableEq, Repr

/-- The completion of an entry: STATUS, TAKEN, bits [27:16] of the control word, and bytes 4 onward. -/
structure Completion where
  status : Byte
  taken  : Bool
  kind   : BitVec 12 := 0#12
  body   : List Byte := []
  pre    : Option (Nat × List Byte) := none  -- data written before it: host address and bytes (R275, R265)
  deriving DecidableEq, Repr

/-- The end of one copy of a transmitted frame (R288, R289). -/
structure TxPart where
  lane   : Nat
  left   : Bool                              -- it left the lane; otherwise it was discarded with `status`
  status : Nat
  stamp  : Nat := 0
  row    : Word := 0#32
  deriving DecidableEq, Repr

/-- An entry that the module has read and not yet completed. -/
structure Entry where
  idx     : Nat
  bytes   : List Byte
  payload : Memory := []
  auth    : List Byte := []
  state   : EntryState := .fetched
  role    : Option Role := none              -- the accepted role of a role-sensitive command
  audit   : Option Nat := none               -- SEQ of its audit entry (R331)
  done    : Option Completion := none
  order   : Nat := 0                         -- its place in the order of acceptance of commands (R280)
  copies  : Nat := 0                         -- copies of a transmitted frame still to leave (R289)
  parts   : List TxPart := []                -- the copies that have left or been discarded
  deriving DecidableEq, Repr

/-- An event entry before it is written (R292). -/
structure EventRec where
  cls  : Nat
  sub  : Byte
  arg  : BitVec 12
  nt   : Nat
  data : List Byte
  seq  : Word := 0#32
  deriving DecidableEq, Repr

structure Ring where
  state  : RingState := .disabled
  fi     : Nat := 0                          -- next index to read; on an event ring, the host index (RING_nnn_IDX)
  ci     : Nat := 0                          -- next index to complete or to write
  pi     : Nat := 0                          -- last accepted doorbell value
  credit : Nat := 0                          -- R261
  pollAt : Timer := none
  pollCw : Option Word := none               -- the accepted control word at FI, whose entry is still to be read (R260)
  resetAt : Timer := none                    -- raw count of the latest RESET (R270)
  pollDue : Bool := false                    -- the poll timer has expired, or the last turn ended on spent credit
  entries : List Entry := []                 -- read and not completed, in index order
  errCode : BitVec 4 := 0#4
  errIdx : Nat := 0
  lost   : Nat := 0
  evSeq  : Word := 0#32
  held   : List EventRec := []               -- at most 32 (R266)
  drops  : Nat := 0                          -- events lost since the last events-lost event
  holdoff : Timer := none
  msgDue : Bool := false                     -- a completion in the holdoff interval waits for its message
  supWait : Timer := none                    -- the 500 ms of R18
  deriving DecidableEq, Repr

/-! ### Consists -/

/-- CASC_ROLE_STATUS.ROLE. -/
inductive CascRole where
  | disabled | worker | claiming | trainMgr | deputy | stack
  deriving DecidableEq, Repr

/-- A sender of Biarn frames as the supervisor keeps it (R300). -/
structure Sender where
  id      : Dword
  counter : Dword
  heardAt : Nat
  slot    : Nat
  consist : Word
  isMgr   : Bool
  deriving DecidableEq, Repr

/-- A consist of the train: its CONSIST_ID and its manager (R299). -/
structure TrainConsist where
  id      : Word
  mgr     : Dword
  heardAt : Nat := 0
  deriving DecidableEq, Repr

/-- A distribution to one slot, on the manager's side (R308). -/
structure DistJob where
  slot    : Nat
  bank    : Nat
  set     : List Byte
  resends : Nat := 0                         -- resends since the last progress
  missing : Nat := 0                         -- first missing chunk as last reported
  deriving DecidableEq, Repr

structure Casc where
  role     : CascRole := .disabled
  record   : Memory := []                    -- the accepted CONFIGURE record (R297)
  enabled  : Bool := false
  coupling : Bool := false
  mgrLost  : Bool := false
  priority : Byte := 0#8
  inaugCnt : BitVec 16 := 0#16
  train    : List TrainConsist := []         -- consists of the train (its own included)
  tmId     : Dword := 0#64
  tmHeard  : Nat := 0
  mgrHeard : Timer := none
  members  : Tab Nat := []                   -- slot to raw count of the last HEARTBEAT plus one
  cnt      : Tab Nat := []                   -- CASC_BIARN_CNT_00 to 05
  senders  : List Sender := []
  txCount  : Word := 0#32
  hbAt     : Timer := none
  claimAt  : Timer := none                   -- t_s
  claimRounds : Nat := 0
  wasTm    : Bool := false                   -- CLAIMING entered from TRAIN_MGR (R312 row 5)
  bestKey  : Option (Byte × Dword) := none   -- best foreign key heard
  bestCnt  : BitVec 16 := 0#16               -- highest INAUG_CNT heard
  heardList : List TrainConsist := []
  coupleEnd : Timer := none                  -- coupling limit (R313)
  outcome  : Option Byte := none             -- outcome of the coupling sequence under way (R313)
  lastOutcome : Option Byte := none          -- outcome of the last coupling, none before the first (R299)
  stepAuth : Bool := false
  readySlots : List Nat := []
  refusals : List (Nat × Nat) := []          -- raw count and check of refused Biarn frames (source 91)
  demoted  : Bool := false                   -- strapped as manager, a worker after a conflict (R306)
  distOut  : List DistJob := []
  distIn   : Memory := []                    -- set being received or applied
  distGot  : List Nat := []                  -- chunks received
  distLast : Nat := 0
  distBank : Nat := 0
  distAt   : Timer := none                   -- 50 ms without a chunk
  distAsked : Nat := 0                       -- resends asked for since the last new chunk
  distApply : Bool := false                  -- the set is being applied
  distLocal : Bool := false                  -- it is the manager's own
  distStep : Nat := 0                        -- map records done
  distSeq  : Nat := 0                        -- SEQ of the audit entry of the step under way
  deriving DecidableEq, Repr

/-! ### Test block and test access port -/

structure SelfTest where
  busy    : Bool := false
  why     : BitVec 4 := 0#4
  elapsed : Nat := 0
  pass    : BitVec 8 := 0#8
  pairs   : BitVec 4 := 0#4
  ends    : Timer := none
  since   : Nat := 0
  err     : Tab Nat := []                    -- TST_ST_ERR_Ln
  pwr     : Tab Nat := []                    -- TST_ST_PWR_Ln less 8000h, modulo 10000h
  lockLost : BitVec 8 := 0#8
  deriving DecidableEq, Repr

/-- Instructions of the test access port (R456). -/
inductive TapInstr where
  | extest | samplePreload | idcode | clamp | highz | maker (code : Byte) | bypass
  deriving DecidableEq, Repr

/-- The port's instruction and what the data registers captured last (R456, R459): `dr` the register that the
instruction selects, `bsr` the boundary-scan register, one cell for each low-speed contact in the order of R411. -/
structure Tap where
  instr  : TapInstr := .idcode
  dr     : Word := 0x0256056F#32
  bsr    : BitVec 22 := 0#22
  deriving DecidableEq, Repr

/-! ### Flash -/

/-- A key as delivered: held, with a material that the manual does not give (DESIGN CHOICE, assumption 8). -/
def shippedKey : Key := { material := List.replicate 32 0#8, held := true }

/-- The factory profiles 0 (M), 1 (O) and 2 (B): KIND, flags, and the parameters of R127; C6 and S6 of profile 0 are
those of the manual's tuning example and every other coefficient is 0 (DESIGN CHOICE, assumption 8). -/
def factoryProfiles : Memory :=
  [(0, 1#8), (1, 2#8), (28, 0x0A#8), (29, 0xD7#8), (30, 0xA3#8), (40, 4#8), (51, 0x40#8), (52, 0xCD#8), (53, 0x0C#8),
   (64, 2#8), (65, 1#8), (110, 8#8), (113, 0x40#8), (118, 2#8), (120, 0xC6#8), (121, 0xA7#8), (124, 4#8),
   (128, 3#8), (129, 1#8), (179, 4#8), (182, 1#8)]

/-- The installer configuration store (R287, R432). -/
structure CfgStore where
  valid    : Bool := true
  gen      : Nat := 0
  regs     : Tab Word := []                  -- stored register words by BAR0 offset
  laneCfg  : Tab Nat := []                   -- RATE, FEC and PREEMPT_EN of each lane
  profiles : Memory := []                    -- profiles 8 to 255
  indices  : Tab (Byte × Byte × Byte) := []  -- loop profile indices by cell
  failed   : List FailEntry := []
  contexts : Memory := []                    -- configuration bytes of the stored contexts, 64 B each
  keys     : Tab Key := [(0x10, shippedKey)] -- KEY_ID 10h to 3Fh (R322)
  deriving DecidableEq, Repr

/-- A maker limit on a profile: the signed 32-bit word `word` of profiles of kind `kind` lies in a range (R128). -/
structure ProfLimit where
  kind : Nat
  word : Nat
  lo   : Int
  hi   : Int
  deriving DecidableEq, Repr

/-- The Relpety record (R27, R144, R406): identity, maker keys, factory failed cells, factory profiles. -/
structure Relpety where
  valid   : Bool := true
  unitId  : Dword := 0#64
  variant : Byte := 0#8
  letter  : Byte := 0x42#8
  number  : Byte := 0#8
  mfg     : Word := 0#32
  keys    : Tab Key := [(0, shippedKey)]     -- KEY_ID 00h to 0Fh (R322)
  failed  : List FailEntry := []
  profiles : Memory := factoryProfiles       -- profiles 0 to 7
  limits  : List ProfLimit := []             -- maker limits (R128)
  deriving DecidableEq, Repr

/-- The image that slot A holds as delivered: GOOD, of the revisions of R2 and R3 (DESIGN CHOICE, assumption 8). -/
def shippedImage : ImgSlot :=
  { state := .good, actSeq := 1, version := 0x01000000#32, nativeRev := 0x0100#16, compatRev := 0x0301#16, length := 4096,
    digest := List.replicate 32 0#8, checks := true }

/-- What a flash operation in progress will have written when it ends (R287, R323, R401). -/
inductive FlashJob where
  | store (new : CfgStore)
  | image (slot : Nat) (new : ImgSlot)
  | key (id : Nat) (material : Option (List Byte))       -- none clears the key
  deriving DecidableEq, Repr

structure Flash where
  store   : CfgStore := {}
  relpety : Relpety := {}
  lasts    : Tab Dword := []                 -- LAST of every key (R325); a maker key's outside its record (assumption 66)
  lastsOld : Tab Dword := []                 -- the same before the newest audit entry was written (R325)
  slots   : Tab ImgSlot := [(0, shippedImage)]           -- image slots A (0) and B (1)
  pending : List (FlashJob × Nat × Nat) := []            -- operations in progress: job, ring, index
  epoch   : Word := 0#32                     -- supervisor starts (R300)
  deriving DecidableEq, Repr

/-! ### What leaves the module -/

/-- What the module sends, in the order it sends it. -/
inductive Output where
  | hostWrite (addr : Nat) (data : List Byte)            -- a posted write to host memory (R263)
  | msix (vector : Nat)                                  -- R273
  | deviceReadiness                                      -- R392
  | readData (offset : Nat) (value : Dword)              -- the data of a register read
  | smbusData (data : List Byte)                         -- R416
  | smbusNack
  | frame (lane : Nat) (octets : List Byte) (stamp : Nat)
  | fragment (lane : Nat) (sent : Nat)                   -- a pre-empting end of a fragment (R228)
  deriving DecidableEq, Repr

/-- Why the machine stops with a fault. No rule of the manual stops this block with every command refused, so the
type has one constructor, which no meaning answers (safe: nothing raises it). -/
inductive Fault where
  /-- No meaning raises it: every row has an effect or none (safe). -/
  | none
  deriving DecidableEq, Repr

/-- Why a command has no meaning. -/
inductive Refusal where
  /-- Raised only by an arm of `exec` whose command has no meaning yet (safe: the machine stops). -/
  | notModelled (mnemonic : String)
  deriving DecidableEq, Repr

/-- The status bits that hardware set in the cycle `at_`, as masks by BAR0 offset; DROPPED and REVERTED of cell c stand
at offset 100000h + c (R7). -/
structure SetMarks where
  at_  : Nat := 0
  bits : Tab Word := []
  deriving DecidableEq, Repr

/-- The state of the block. -/
structure State where
  pending : List Instr := []       -- commands that wait, first in first out
  regs    : Tab Word := []         -- what software last wrote, and sticky status bits, by BAR0 offset
  marks   : SetMarks := {}         -- status bits set in the present cycle (R7)
  latch   : Tab Word := []         -- latched high words of 8-byte registers (R428)
  lowHeld : Tab Word := []         -- held low words, by BAR0 offset plus one as a mark (R428)
  sram    : Memory := []           -- working memory (R24)
  openRam : Tab Nat := []          -- SRAM whose layout the manual leaves open, as last written there: byte plus one
  pwr     : Pwr := {}
  sup     : Sup := {}
  sec     : Sec := {}
  flt     : Flt := {}
  irq     : Tab IrqSrc := []
  bus     : BusMx := {}
  dma     : DmaEngine := {}
  time    : TimeUnit := {}
  sched   : Sched := {}
  fab     : Fabric := {}
  loop    : Loops := {}
  ept     : Endpoint := {}
  rings   : Tab Ring := []
  arbPos  : Nat := 0               -- the arbiter's place in its round (R261)
  accepts : Nat := 0               -- commands accepted (R280)
  msixTab : Tab Word := []         -- MSI-X table, by word (R425)
  msixPba : BitVec 64 := 0#64      -- MSI-X pending bits
  casc    : Casc := {}
  tst     : SelfTest := {}
  tap     : Tap := {}
  flash   : Flash := {}
  out     : List Output := []      -- what the module has sent, oldest first
  free    : Nat := 0               -- counter of the free values taken (the model's own field)
  deriving DecidableEq, Repr

/-- The module in reset: power in range, before t0 of the start sequence (R391, R411). -/
def State.reset : State := {}

end Sys2Proof.Machine
end

