-- ==== Sys2Proof/Machine/Ops.lean ====
section
/-! DEFINITION. The named operations over the state that every family uses: registers, time, free values, host
writes and messages, events, firings, interrupt pulses, audit entries, credentials, and completions of ring entries. -/

namespace Sys2Proof.Machine

/-! ### Parts of the state -/

/-! Change one block of the state. -/

def State.onPwr (s : State) (f : Pwr → Pwr) : State := { s with pwr := f s.pwr }
def State.onSup (s : State) (f : Sup → Sup) : State := { s with sup := f s.sup }
def State.onSec (s : State) (f : Sec → Sec) : State := { s with sec := f s.sec }
def State.onFlt (s : State) (f : Flt → Flt) : State := { s with flt := f s.flt }
def State.onTime (s : State) (f : TimeUnit → TimeUnit) : State := { s with time := f s.time }
def State.onSched (s : State) (f : Sched → Sched) : State := { s with sched := f s.sched }
def State.onFab (s : State) (f : Fabric → Fabric) : State := { s with fab := f s.fab }
def State.onLoop (s : State) (f : Loops → Loops) : State := { s with loop := f s.loop }
def State.onEpt (s : State) (f : Endpoint → Endpoint) : State := { s with ept := f s.ept }
def State.onCasc (s : State) (f : Casc → Casc) : State := { s with casc := f s.casc }
def State.onTst (s : State) (f : SelfTest → SelfTest) : State := { s with tst := f s.tst }
def State.onTap (s : State) (f : Tap → Tap) : State := { s with tap := f s.tap }
/-- A write to the Relpety record, which is read-only unless TEST_EN is active (R27). -/
def State.onRelpety (s : State) (f : Relpety → Relpety) : State :=
  if s.pwr.testEn then { s with flash.relpety := f s.flash.relpety } else s
def State.onFlash (s : State) (f : Flash → Flash) : State := { s with flash := f s.flash }

def State.cell (s : State) (c : Nat) : Cell := tget (fun _ => {}) s.loop.cells c
def State.modCell (s : State) (c : Nat) (f : Cell → Cell) : State :=
  { s with loop.cells := tmod (fun _ => {}) s.loop.cells c f }
def State.calOf (s : State) (c : Nat) : CalOffset := tget (fun _ => {}) s.loop.calOff c
def State.modCal (s : State) (c : Nat) (f : CalOffset → CalOffset) : State :=
  { s with loop.calOff := tmod (fun _ => {}) s.loop.calOff c f }
def State.chan (s : State) (h : Nat) : ChLoop := tget (fun _ => {}) s.loop.chans h
def State.modChan (s : State) (h : Nat) (f : ChLoop → ChLoop) : State :=
  { s with loop.chans := tmod (fun _ => {}) s.loop.chans h f }
def State.chamber (s : State) (h : Nat) : Chamber := tget (fun _ => {}) s.fab.chambers h
def State.modChamber (s : State) (h : Nat) (f : Chamber → Chamber) : State :=
  { s with fab.chambers := tmod (fun _ => {}) s.fab.chambers h f }
def State.dir (s : State) (m : Nat) : MapDir := tget (fun _ => {}) s.fab.dirs m
def State.modDir (s : State) (m : Nat) (f : MapDir → MapDir) : State :=
  { s with fab.dirs := tmod (fun _ => {}) s.fab.dirs m f }
def State.bank (s : State) (b : Nat) : Bank := tget (fun _ => {}) s.sched.banks b
def State.modBank (s : State) (b : Nat) (f : Bank → Bank) : State :=
  { s with sched.banks := tmod (fun _ => {}) s.sched.banks b f }
def State.lane (s : State) (l : Nat) : Lane := tget (fun _ => {}) s.ept.lanes l
def State.modLane (s : State) (l : Nat) (f : Lane → Lane) : State :=
  { s with ept.lanes := tmod (fun _ => {}) s.ept.lanes l f }
def State.stream (s : State) (x : Nat) : Stream := tget (fun _ => {}) s.ept.streams x
def State.modStream (s : State) (x : Nat) (f : Stream → Stream) : State :=
  { s with ept.streams := tmod (fun _ => {}) s.ept.streams x f }
def State.ring (s : State) (r : Nat) : Ring := tget (fun _ => {}) s.rings r
def State.modRing (s : State) (r : Nat) (f : Ring → Ring) : State :=
  { s with rings := tmod (fun _ => {}) s.rings r f }
def State.fsrc (s : State) (n : Nat) : FltSrc := tget (fun _ => {}) s.flt.src n
def State.modFsrc (s : State) (n : Nat) (f : FltSrc → FltSrc) : State :=
  { s with flt.src := tmod (fun _ => {}) s.flt.src n f }
def State.dmac (s : State) (n : Nat) : DmaCh := tget (fun _ => {}) s.dma.chans n
def State.modDma (s : State) (n : Nat) (f : DmaCh → DmaCh) : State :=
  { s with dma.chans := tmod (fun _ => {}) s.dma.chans n f }
def State.key (s : State) (k : Nat) : Key := tget (fun _ => {}) s.sec.keys k
def State.modKey (s : State) (k : Nat) (f : Key → Key) : State :=
  { s with sec.keys := tmod (fun _ => {}) s.sec.keys k f }
def State.img (s : State) (k : Nat) : ImgSlot := tget (fun _ => {}) s.flash.slots k
def State.modImg (s : State) (k : Nat) (f : ImgSlot → ImgSlot) : State :=
  { s with flash.slots := tmod (fun _ => {}) s.flash.slots k f }
def State.inst (s : State) (n : Nat) : PtpInst := tget (fun _ => {}) s.time.insts n
def State.modInst (s : State) (n : Nat) (f : PtpInst → PtpInst) : State :=
  { s with time.insts := tmod (fun _ => {}) s.time.insts n f }
def State.delayOf (s : State) (l : Nat) : LinkDelay := tget (fun _ => {}) s.time.delays l
def State.modDelay (s : State) (l : Nat) (f : LinkDelay → LinkDelay) : State :=
  { s with time.delays := tmod (fun _ => {}) s.time.delays l f }

/-- SENSE of an interrupt source at reset (R366). -/
def irqSenseReset (n : Nat) : BitVec 2 :=
  if n ≤ 15 || (82 ≤ n && n ≤ 88) then 1#2 else 0#2

def irqDefault (n : Nat) : IrqSrc := { sense := irqSenseReset n }

def State.irqs (s : State) (n : Nat) : IrqSrc := tget irqDefault s.irq n
def State.modIrq (s : State) (n : Nat) (f : IrqSrc → IrqSrc) : State :=
  { s with irq := tmod irqDefault s.irq n f }

/-! ### Registers -/

/-- Word `w` of instance `i` of a register, as software last wrote it, with its sticky bits. -/
def State.rg (s : State) (r : Reg) (i : Nat := 0) (w : Nat := 0) : Word :=
  tget (fun _ => r.resetWord i w) s.regs (r.addr i + 4 * w)

def State.setRg (s : State) (r : Reg) (i : Nat) (w : Nat) (v : Word) : State :=
  { s with regs := tset (fun _ => r.resetWord i w) s.regs (r.addr i + 4 * w) v }

/-- Hardware sets the status bits `m` at offset `a` in this cycle (R7). -/
def State.mark (s : State) (a : Nat) (m : Word) : State :=
  if m = 0#32 then s
  else
    let n := s.time.raw.toNat
    let t := if s.marks.at_ = n then s.marks.bits else []
    { s with marks := { at_ := n, bits := tmod (fun _ => 0#32) t a fun w => w ||| m } }

/-- The status bits at offset `a` that hardware set in this cycle: a clear in it leaves them set (R7). -/
def State.marked (s : State) (a : Nat) : Word :=
  if s.marks.at_ = s.time.raw.toNat then tget (fun _ => 0#32) s.marks.bits a else 0#32

/-- Set a sticky bit of a register. -/
def State.setBit (s : State) (r : Reg) (i b : Nat) : State :=
  (s.setRg r i 0 (s.rg r i ||| w32 (2 ^ b))).mark (r.addr i) (w32 (2 ^ b))

/-- Both words of an 8-byte register as one number. -/
def State.rg8 (s : State) (r : Reg) (i : Nat := 0) : Nat := (s.rg r i 0).toNat + 2 ^ 32 * (s.rg r i 1).toNat

/-- A field of word 0 of a register. -/
def State.rf (s : State) (r : Reg) (i hi lo : Nat) : Nat := fld (s.rg r i) hi lo

/-! ### Time -/

/-- Raw counts in `n` µs and in `n` ms (R15: 1.024 GHz). -/
def usC (n : Nat) : Nat := n * 1024
def msC (n : Nat) : Nat := n * 1024000
def secC (n : Nat) : Nat := n * 1024000000

/-- Raw counts in `n` ns, rounded up. -/
def nsC (n : Nat) : Nat := (n * 1024 + 999) / 1000

/-- The raw counter (R164). -/
def State.now (s : State) : Nat := s.time.raw.toNat

/-- Network time has 48-bit seconds; one unit is 2^-16 ns (R165). -/
def ntMod : Nat := 2 ^ 48 * 1000000000 * 65536

/-- Network time at raw count `c` (R165). -/
def TimeUnit.ntAt (t : TimeUnit) (c : Nat) : Nat :=
  (t.aNt + (c + 2 ^ 64 - t.aRaw.toNat) % 2 ^ 64 * t.inc / 65536) % ntMod

/-- Network time as it was at raw count `c`: before the present anchor's cycle the earlier anchor and rate hold. -/
def TimeUnit.ntWas (t : TimeUnit) (c : Nat) : Nat :=
  if t.aRaw.toNat ≤ c then t.ntAt c
  else { t with aNt := t.prior.nt, aRaw := t.prior.raw, inc := t.prior.inc }.ntAt c

/-- The anchor moves to the present cycle with network time `n` (R166). -/
def TimeUnit.reanchor (t : TimeUnit) (n : Nat) : TimeUnit :=
  let p : Anchor := if t.aRaw = t.raw then t.prior else { nt := t.aNt, raw := t.aRaw, inc := t.inc }
  { t with prior := p, aNt := n, aRaw := t.raw }

/-- A step took place in the present cycle: the network time of the cycle is not what the earlier anchor gives. -/
def TimeUnit.steppedNow (t : TimeUnit) : Bool :=
  t.aRaw = t.raw && decide ({ t with aNt := t.prior.nt, aRaw := t.prior.raw, inc := t.prior.inc }.ntAt t.raw.toNat ≠ t.aNt)

def State.nt (s : State) : Nat := s.time.ntAt s.now

/-- sec × 10^9 + ns of an instant in 2^-16 ns. -/
def nsOf (nt : Nat) : Nat := nt / 65536

def State.ns (s : State) : Nat := nsOf s.nt

/-- A time field T (R277). -/
def timeField (nt : Nat) : Nat := nsOf nt % 2 ^ 64

/-- Signed distance of an event time from now in 40 bits (R181). -/
def eventDist (now e : Nat) : Int := signed 40 (e % 2 ^ 40 + 2 ^ 40 - now % 2 ^ 40)

/-- An event at `e` ns is due (R181). -/
def State.isDue (s : State) (e : Nat) : Bool := decide (eventDist s.ns e ≤ 0)

/-- An instant in 2^-16 ns as an event time: a fraction is rounded up to the next whole nanosecond (R190). -/
def ceilNs (nt : Nat) : Nat := (nt + 65535) / 65536

/-- A timer on the raw counter has run out. -/
def State.expired (s : State) (t : Timer) : Bool :=
  match t with
  | none => false
  | some d => decide (d ≤ s.now)

/-- The module's clocks run: VIN is in range and the start sequence has begun. -/
def State.powered (s : State) : Bool := !(s.pwr.phase = .unpowered || s.pwr.phase = .reset)

/-- CORE is powered: not unpowered, in reset or stabled (R376). -/
def State.core (s : State) : Bool := s.powered && !(s.pwr.phase = .stabled)

/-- Step of the raw counter: by 16 on the TCXO while the multiplier is out of lock or stabled, by 31,250 on the
32.768 kHz crystal with the TCXO off or stopped (R380, R388). -/
def State.clockStep (s : State) : Nat :=
  if s.time.xoStopped then 31250
  else if s.pwr.phase = .stabled then (if s.pwr.xoKept then 16 else 31250)
  else if (s.fsrc 88).active then 16 else 1

/-- A time comes due in this very cycle (R181). -/
def State.dueNow (s : State) (t : Nat) : Bool :=
  s.isDue t && (decide (s.now < s.clockStep) || decide (0 < eventDist (nsOf (s.time.ntWas (s.now - s.clockStep))) t))

/-- Let the clock run on by `dt` fast-clock cycles. -/
def State.run (s : State) (dt : Nat) : State :=
  if s.time.running then
    { s with time.raw := s.time.raw + BitVec.ofNat 64 (dt / s.clockStep * s.clockStep) }
  else s

/-! ### Free values -/

/-- The next free number (assumption 3). -/
def State.freeNat (s : State) : Nat := Config.freeNat s.free

/-- Free bytes from the number `k` on (assumption 3). -/
def freeBytes (k : Nat) : Nat → List Byte
  | 0 => []
  | n + 1 => Config.freeByte k :: freeBytes (k + 1) n

def State.tick (s : State) : State := { s with free := s.free + 1 }

/-! ### What leaves the module -/

def State.emit (s : State) (o : Output) : State := { s with out := s.out ++ [o] }

/-- The MSI-X vector control word is masked at reset (PCI Express Base Specification; assumption 14). -/
def msixDefault (k : Nat) : Word := if k % 4 = 3 then 1#32 else 0#32

/-- Send an MSI-X vector; a masked vector becomes pending (assumption 14). -/
def State.sendMsix (s : State) (v : Nat) : State :=
  if (tget msixDefault s.msixTab (4 * v + 3)).getLsbD 0 then
    { s with msixPba := s.msixPba ||| BitVec.ofNat 64 (2 ^ v) }
  else s.emit (.msix v)

/-- Host memory and registers can be reached: running, endpoint-ready, PERST_N high, D0 (R392, R424, R430). -/
def State.hostUp (s : State) : Bool :=
  s.pwr.phase = .running && s.pwr.endpointReady && s.pwr.perstN && !s.pwr.d3hot

/-- The module may read and write host memory for its rings (R272, R424). -/
def State.bmeUp (s : State) : Bool := s.hostUp && s.pwr.bme

/-! ### Interrupt pulses, firings -/

/-- A one-cycle pulse at interrupt source `n` (R366, R367). -/
def State.irqPulse (s : State) (n : Nat) : State :=
  if (s.irqs n).sense = 0#2 && (s.irqs n).active then s
  else (s.modIrq n fun q => { q with pending := true }).mark (Reg.irqPend.addr (n / 32)) (w32 (2 ^ (n % 32)))

/-- A fault source fires; its reactions are made when the command ends (`finish`). -/
def State.fire (s : State) (src : Nat) (detail : Nat := 0) (owner : Option Nat := none) : State :=
  { s with flt.fireQ := s.flt.fireQ ++ [{ src := src, detail := detail, owner := owner }] }

/-! ### Rings: sizes, phases, host writes -/

def isCommand (r : Nat) : Bool := r < 16
def isTransmit (r : Nat) : Bool := 16 ≤ r && r < 80
def isEvent (r : Nat) : Bool := 144 ≤ r

/-- Entry size in bytes (R250). -/
def entrySize (r : Nat) : Nat := if r < 16 then 64 else 32

/-- LOG_SIZE of a ring, its number of entries and the span of its indices (R251). -/
def State.logSize (s : State) (r : Nat) : Nat := s.rf .ringCfg r 29 25
def State.ringS (s : State) (r : Nat) : Nat := 2 ^ s.logSize r
def State.ring2S (s : State) (r : Nat) : Nat := 2 * s.ringS r

/-- Phase of an index: 1 less its lap parity (R251). -/
def State.phaseOf (s : State) (r i : Nat) : Nat := 1 - bits i (s.logSize r) (s.logSize r)

/-- Host address of an index (R251). -/
def State.entryAddr (s : State) (r i : Nat) : Nat := s.rg8 .ringBase r + i % s.ringS r * entrySize r

/-- `(a - b) mod 2S` for the indices of a ring. -/
def State.ringSub (s : State) (r a b : Nat) : Nat := (a + s.ring2S r - b % s.ring2S r) % s.ring2S r

/-- The ring's MSI-X message after a completion, an event or entry to ERROR (R273); it waits through a holdoff interval
and while the module may not write host memory (R272). -/
def State.ringMsg (s : State) (r : Nat) : State :=
  let cfg := s.rg .ringCfg r
  if bit cfg 24 then
    let g := s.ring r
    if g.holdoff.isSome || !s.bmeUp then s.modRing r fun g => { g with msgDue := true }
    else
      let h := s.rf .ringPoll r 31 24
      let s := s.sendMsix (fld cfg 23 18)
      if h = 0 then s else s.modRing r fun g => { g with holdoff := some (s.now + usC h) }
  else s

/-! ### Events (R266, R267, R292) -/

/-- The event ring of a class (R267). -/
def State.eventRing (s : State) (cls : Nat) : Nat :=
  144 + fld (s.rg .ringEvtRoute (cls / 8)) (4 * (cls % 8) + 3) (4 * (cls % 8))

/-- An event ring has room for one more entry. -/
def State.eventRoom (s : State) (r : Nat) : Bool :=
  s.bmeUp && decide (s.ringSub r (s.ring r).ci (s.ring r).fi < s.ringS r)

/-- The 32 bytes of an event entry at index `i` (R292). -/
def State.eventBytes (s : State) (r i : Nat) (e : EventRec) : List Byte :=
  let p := s.phaseOf r i
  leBytes 4 (p * 2 ^ 31 + p * 2 ^ 30 + e.arg.toNat * 2 ^ 16 + e.sub.toNat * 256 + e.cls) ++
    leBytes 4 e.seq.toNat ++ leBytes 4 (nsOf e.nt % 1000000000) ++ leBytes 4 (nsOf e.nt / 1000000000) ++
    (e.data ++ zeros (16 - e.data.length))

/-- Write one event entry at CI. -/
def State.writeEvent (s : State) (r : Nat) (e : EventRec) : State :=
  let g := s.ring r
  let b := s.eventBytes r g.ci e
  let a := s.entryAddr r g.ci
  let s := (s.emit (.hostWrite (a + 4) (b.drop 4))).emit (.hostWrite a (b.take 4))
  (s.modRing r fun g => { g with ci := (g.ci + 1) % s.ring2S r }).ringMsg r

/-- Write the held events while there is room, then an events-lost event for those dropped (R266). -/
def State.flushEvents : Nat → State → Nat → State
  | 0, s, _ => s
  | n + 1, s, r =>
    let g := s.ring r
    if !(g.state = .running && s.eventRoom r) then s else
    match g.held with
    | e :: es => State.flushEvents n ((s.writeEvent r e).modRing r fun g => { g with held := es }) r
    | [] =>
      if g.drops = 0 then s else
        let e : EventRec := { cls := 0, sub := 0#8, arg := 0#12, nt := s.nt, data := leBytes 4 g.drops, seq := g.evSeq }
        (s.writeEvent r e).modRing r fun g => { g with drops := 0, evSeq := g.evSeq + 1 }

/-- Count a dropped event of ring `r`; source 82 fires unless the event reports source 82 (R341). -/
def State.dropEvent (s : State) (r : Nat) (quiet : Bool) : State :=
  let s := s.modRing r fun g => { g with lost := satN (g.lost + 1) 0xFFFFFFFF }
  if quiet then s else s.fire 82 r

/-- Generate an event (R266, R267, R292); `quiet` for a FAULT event of source 82. -/
def State.event (s : State) (cls sub arg : Nat) (data : List Byte := []) (nt : Option Nat := none)
    (quiet : Bool := false) : State :=
  let r := s.eventRing cls
  let g := s.ring r
  let e : EventRec := { cls := cls, sub := BitVec.ofNat 8 sub, arg := BitVec.ofNat 12 arg,
                        nt := nt.getD s.nt, data := data, seq := g.evSeq }
  if g.state = .running then
    let s := s.modRing r fun g => { g with evSeq := g.evSeq + 1 }
    if s.eventRoom r && g.held.isEmpty && g.drops = 0 then s.writeEvent r e
    else if g.held.length < 32 then s.modRing r fun g => { g with held := g.held ++ [e] }
    else (s.modRing r fun g => { g with drops := g.drops + 1 }).dropEvent r quiet
  else s.dropEvent r quiet

/-! ### Audit log (R329 to R332) -/

/-- Bytes 0 to 247 of an audit entry (R330). -/
def AuditEntry.head (e : AuditEntry) : List Byte :=
  let pad := fun (n : Nat) (l : List Byte) => l.take n ++ zeros (n - l.length)
  leBytes 4 e.seq ++ [e.kind, e.role, e.keyId, e.status] ++ leBytes 8 e.counter.toNat ++ leBytes 8 e.time.toNat ++
    [e.source, e.opcode] ++ zeros 2 ++ leBytes 4 e.where_.toNat ++ pad 32 e.tag ++ pad 32 e.arg ++ pad 32 e.digest ++
    leBytes 4 e.old.toNat ++ leBytes 4 e.new.toNat ++ pad 8 e.start ++ zeros 48 ++ pad 32 e.chain ++ zeros 24

/-- The 256 bytes of an audit entry (R330). -/
def AuditEntry.bytes (e : AuditEntry) : List Byte :=
  e.head ++ leBytes 4 (crc32 e.head).toNat ++ [e.result] ++ List.replicate 3 0xFF#8

def State.audit (s : State) (seq : Nat) : AuditEntry := tget (fun _ => {}) s.sec.audit (seq % 65536)

/-- Flash takes the counters that the supervisor keeps (R325). R27 has the Relpety record, which holds the maker keys,
read-only: LAST of a maker key is kept outside it (DESIGN CHOICE, assumption 66). -/
def State.storeCounters (s : State) : State :=
  let l := s.sec.keys.foldl (fun t p => if p.2.held then tset (fun _ => 0#64) t p.1 p.2.last else t) s.flash.lasts
  s.onFlash fun f => { f with lasts := l, lastsOld := f.lasts }

/-- Write an audit entry: it takes the next SEQ and the CHAIN of the entry before it; a failed flash write fires
FLASH_ERROR with the block number and still consumes the SEQ (R329). -/
def State.appendAudit (s : State) (e : AuditEntry) (ok : Bool) : State :=
  let n := s.sec.auditSeq
  let chain := if n = 0 then zeros 32 else sha256 ((s.audit (n - 1)).bytes.take 252)
  let e := { e with seq := n, chain := chain, stored := ok }
  let t := if n % 256 = 0 then s.sec.audit.filter (fun p => p.1 < n % 65536 || n % 65536 + 256 ≤ p.1) else s.sec.audit
  let s := { s with sec.auditSeq := n + 1, sec.audit := tset (fun _ => {}) t (n % 65536) e }
  if ok then s.storeCounters else s.fire 69 ((0x2400000 + 256 * (n % 65536)) / 65536)

/-- Write an audit entry with the present time. -/
def State.writeAudit (s : State) (e : AuditEntry) (ok : Bool) : State :=
  s.appendAudit { e with time := BitVec.ofNat 64 s.ns } ok

/-- Program RESULT of an audit entry, once (R331). -/
def State.setResult (s : State) (seq : Nat) (st : Byte) : State :=
  if (s.audit seq).seq = seq && (s.audit seq).result = 0xFF#8 then
    { s with sec.audit := tmod (fun _ => {}) s.sec.audit (seq % 65536) fun e => { e with result := st } }
  else s

/-- Hold an item until the supervisor returns: at most 64, the rest counted (R332). -/
def State.holdAudit (s : State) (e : AuditEntry) : State :=
  if s.sec.held.length < 64 then
    { s with sec.held := s.sec.held ++ [{ e with time := BitVec.ofNat 64 s.ns }] }
  else { s with sec.heldMissed := s.sec.heldMissed + 1 }

/-- Record an item at once, or hold it until the supervisor returns (R327, R332). -/
def State.recordOrHold (s : State) (e : AuditEntry) (ok : Bool) : State :=
  if s.sup.available then s.writeAudit e ok else s.holdAudit e

/-! ### Credentials (R319 to R326) -/

/-- The role of a key (R321). -/
def keyRole (k : Nat) : Option Role :=
  if k ≤ 0x0F then some .maker else if k ≤ 0x1F then some .installer else if k ≤ 0x3F then some .operator else none

def Role.code : Role → Nat
  | .operator => 1 | .installer => 2 | .maker => 3

/-- A role holds every right of the roles below it (R319). -/
def Role.atLeast (a b : Role) : Bool := b.code ≤ a.code

def State.ident (s : State) : List Byte := leBytes 8 s.flash.relpety.unitId.toNat

/-- Outcome of the credential checks 2 to 4 of R326. -/
structure Cred where
  status : Nat
  role   : Option Role := none
  deriving DecidableEq, Repr

/-- Counter a key's LAST is compared with: the recovery loader checks none older than its own start (R404). -/
def State.lastOf (s : State) (k : Nat) : Nat :=
  if s.sup.recovery then (tget (fun _ => 0#64) s.sec.recLast k).toNat else (s.key k).last.toNat

/-- An accepted counter becomes LAST; the recovery loader never lowers it (R325, R404). -/
def State.useCounter (s : State) (k : Nat) (c : Dword) : State :=
  if s.sup.recovery then
    let t := s.modKey k fun q => { q with last := if q.last.toNat < c.toNat then c else q.last }
    { t with sec.recLast := tset (fun _ => 0#64) t.sec.recLast k c }
  else s.modKey k fun q => { q with last := c }

/-- Checks 2 to 4 of R326 on a 64-byte block, and the counter that check 3 consumes (R325). `msg` follows bytes 0 to
15 of the block in the tagged message; `may` is check 4's right. -/
def State.credCheck (s : State) (blk msg : List Byte) (may : Role → Bool) : Cred × State :=
  let k := byteAt blk 1
  let ctr := lef blk 8 8
  match keyRole k with
  | none => (⟨5, none⟩, s)
  | some role =>
    if !((s.key k).held && byteAt blk 0 = role.code && allZero blk 2 6 && allZero blk 48 16 &&
        (blk.drop 16).take 32 = hmac (s.key k).material (blk.take 16 ++ msg)) then (⟨5, none⟩, s)
    else if ctr ≤ s.lastOf k then (⟨6, none⟩, s)
    else
      let s := s.useCounter k (BitVec.ofNat 64 ctr)
      if may role && (role ≠ .maker || s.pwr.testEn) then (⟨0, some role⟩, s) else (⟨7, none⟩, s)

/-- Count a refusal under R326 for AUTH_BURST (R335). -/
def State.noteRefusal (s : State) (k : Nat) : State :=
  { s with sec.refusals := (s.now :: s.sec.refusals.filter (s.now < · + secC 10)).take 8,
           sec.lastKeyId := BitVec.ofNat 8 k }

/-! ### Command entries (R274 to R279, R281) -/

def mapInSet (s : State) (m : Nat) : Bool := bit (s.rg .secOprMap (m / 32)) (m % 32)

def State.failed (s : State) (c : Nat) : Option FailEntry := s.fab.failed.find? (·.cell = c)

/-- Lowest role that may issue a command entry, with the conditions of R281 and R319 on its arguments; `none` where
the command is not role-sensitive. -/
def State.needRole (s : State) (e : List Byte) : Option Role :=
  let a := fun o n => lef e o n
  match byteAt e 0 with
  | 0x01 | 0x02 | 0x06 | 0x12 | 0x13 | 0x20 | 0x30 | 0x40 | 0x41 | 0x50 | 0x53 | 0x54 => some .installer
  | 0x03 => if mapInSet s (a 24 2) then some .operator else some .installer
  | 0x04 | 0x51 => some .operator
  | 0x07 | 0x08 =>
    (match s.failed (a 24 2) with
     | some f => if f.src = .factory then some .maker else some .installer
     | none => some .installer)
  | 0x10 => if a 24 1 < 8 then some .maker else some .installer
  | 0x21 | 0x22 => if bit (s.rg .secOprCfg) (a 24 1) then some .operator else some .installer
  | 0x23 => if bit (s.rg .secOprCfg) 4 then some .operator else some .installer
  | 0x52 => if a 24 1 < 0x10 then some .maker else some .installer
  | 0x5F => some .maker
  | _ => none

/-- An opcode whose command is role-sensitive (R276, R281). -/
def roleSensitive (op : Nat) : Bool :=
  op ∈ [0x01, 0x02, 0x03, 0x04, 0x06, 0x07, 0x08, 0x10, 0x12, 0x13, 0x20, 0x21, 0x22, 0x23, 0x30, 0x40, 0x41, 0x50,
        0x51, 0x52, 0x53, 0x54, 0x5F]

/-- Level sources of the fault collector (R335). -/
def isLevelSource (n : Nat) : Bool :=
  (32 ≤ n && n ≤ 39) || n ∈ [57, 58, 59, 62, 63, 65, 71, 79, 83, 84, 85, 86, 87, 88, 89, 93, 95]

/-- Payload of a command entry (R275, R281). -/
inductive Payload where
  | none
  | read (n : Nat)
  | readAny
  | written (n : Nat)
  deriving DecidableEq, Repr

/-- The arguments named for an opcode lie within their stated ranges (R279, R281), the payload they fix, and the
bytes of ARG that the opcode names. -/
def argCheck (e : List Byte) : Option (Bool × Payload × List (Nat × Nat)) :=
  let a := fun o n => lef e o n
  match byteAt e 0 with
  | 0x00 => some (true, .none, [])
  | 0x01 => some (a 24 2 < 1024 && a 26 1 ≤ 1, .read (if a 26 1 = 0 then 288 else 544), [(24, 3)])
  | 0x02 => some (a 24 2 < 1024 && a 26 2 < 1024 && bits (a 28 2) 14 10 = 0, .none, [(24, 6)])
  | 0x03 => some (a 24 2 < 1024, .none, [(24, 2), (32, 8)])
  | 0x04 => some (a 24 1 < 16 && a 28 4 < 131072, .none, [(24, 1), (28, 4)])
  | 0x05 => some (a 24 2 < 1024, .written 544, [(24, 2)])
  | 0x06 => some (a 24 2 < 1024, .none, [(24, 2)])
  | 0x07 => some (a 24 2 < 2048 && 1 ≤ a 26 1 && a 26 1 ≤ 3, .none, [(24, 3)])
  | 0x08 => some (a 24 2 < 2048, .none, [(24, 2)])
  | 0x10 =>
    if a 25 1 = 0 then some (true, .read 64, [(24, 12)])
    else some (a 25 1 = 1 && a 26 1 < 64 && 1 ≤ a 27 1 && a 27 1 ≤ 8 && a 26 1 + a 27 1 ≤ 64, .none, [(24, 12)])
  | 0x11 => some (true, .written 64, [(24, 1)])
  | 0x12 => some (a 24 2 < 2048 && 1 ≤ a 36 2, .none, [(24, 2), (28, 10)])
  | 0x13 => some ((a 24 2 < 2048 && a 26 1 ≤ 2) || (a 24 2 = 0xFFFF && a 26 1 = 2), .none, [(24, 3)])
  | 0x20 => some (a 24 1 < 4, .read 131072, [(24, 1)])
  | 0x21 => some (a 24 1 < 4, .none, [(24, 1), (32, 8)])
  | 0x22 => some (a 24 1 < 4, .none, [(24, 1), (32, 8)])
  | 0x23 => some (true, .none, [])
  | 0x30 => some (a 24 1 = 0 || (a 24 1 = 1 && a 32 8 = 0), .none, [(24, 1), (32, 8)])
  | 0x40 => some (a 24 1 < 8 && a 25 1 < 16 && bits (a 25 1) 1 0 ≤ 1 && (bits (a 25 1) 1 0 = 1 || bits (a 25 1) 2 2 = 0),
      .none, [(24, 2)])
  | 0x41 => some (a 24 2 < 4096, .read 64, [(24, 2)])
  | 0x42 => some (a 24 2 < 4096, .written 256, [(24, 2)])
  | 0x50 => some (true, .none, [])
  | 0x51 => some (1 ≤ a 28 2 && a 28 2 ≤ 256, .written (256 * a 28 2), [(24, 6)])
  | 0x52 => some (a 24 1 < 64, .read 64, [(24, 1)])
  | 0x53 =>
    some (a 24 1 ≤ 2 && a 25 1 ≤ 1, if a 24 1 = 0 then .readAny else if a 24 1 = 2 then .written 64 else .none, [(24, 2)])
  | 0x54 => some (true, .readAny, [])
  | 0x5F =>
    some (a 24 1 < 96 && a 25 1 ≤ 2 && a 28 4 ≤ 10000000 &&
      (a 25 1 ≠ 1 || (isLevelSource (a 24 1) && 1 ≤ a 28 4)), .none, [(24, 8)])
  | _ => none

/-- Byte `b` lies in one of the named spans. -/
def named (l : List (Nat × Nat)) (b : Nat) : Bool := l.any fun p => p.1 ≤ b && b < p.1 + p.2

/-- A command entry is well encoded (R252, R274, R275, R279). -/
def cmdEncodingOk (e : List Byte) : Bool :=
  let cw := lef e 0 4
  match argCheck e with
  | none => false
  | some (ok, pay, spans) =>
    ok && bits cw 29 28 = 0 && bits cw 27 16 = 0 && bits cw 30 30 ≠ bits cw 31 31 &&
    ((List.range 40).all fun j => byteAt e (24 + j) = 0 || named spans (24 + j)) &&
    (match pay with
     | .none => lef e 4 4 = 0 && lef e 8 8 = 0
     | .read n => lef e 4 4 = n
     | .readAny => true
     | .written n => n ≤ lef e 4 4)

/-- Length of the payload that the module reads for a command (R275). -/
def payloadRead (e : List Byte) : Nat :=
  match argCheck e with
  | some (_, .read n, _) => n
  | some (_, .readAny, _) => lef e 4 4
  | _ => 0

/-! ### Completions (R262, R263, R270, R274) -/

/-- Body of a completed command entry: bytes 4 to 23 unchanged, then RES (R274). -/
def cmdBody (e : List Byte) (res : List Byte) : List Byte :=
  (e.drop 4).take 20 ++ (res ++ zeros (40 - res.length)).take 40

/-- The two posted writes of a completion, after any data before it (R263, R275). -/
def State.writeCompletion (s : State) (r : Nat) (e : Entry) (c : Completion) : State :=
  let s := match c.pre with
    | some (a, d) => s.emit (.hostWrite a d)
    | none => s
  let a := s.entryAddr r e.idx
  let cw := lef e.bytes 0 4
  let sp := bits cw 31 31
  let w := sp * 2 ^ 31 + sp * 2 ^ 30 + at_ c.taken 28 + c.kind.toNat * 2 ^ 16 + c.status.toNat * 256 + bits cw 7 0
  let s := if c.body.isEmpty then s else s.emit (.hostWrite (a + 4) c.body)
  let s := s.emit (.hostWrite a (leBytes 4 w))
  let s := match e.audit with
    | some q => s.setResult q c.status
    | none => s
  (s.modRing r fun g => { g with ci := (e.idx + 1) % s.ring2S r }).ringMsg r

/-- Audit entry of a role-sensitive command (R330). -/
def cmdAudit (r : Nat) (e : Entry) (status : Nat) : AuditEntry :=
  let n := payloadRead e.bytes
  { kind := 1#8, role := BitVec.ofNat 8 (byteAt e.auth 0),
    keyId := if e.auth.isEmpty then 0xFF#8 else BitVec.ofNat 8 (byteAt e.auth 1),
    status := BitVec.ofNat 8 status, counter := BitVec.ofNat 64 (lef e.auth 8 8),
    source := BitVec.ofNat 8 r, opcode := BitVec.ofNat 8 (byteAt e.bytes 0), where_ := w32 e.idx,
    tag := (e.auth.drop 16).take 32, arg := (e.bytes.drop 24).take 32,
    digest := if n = 0 then [] else sha256 (rdBytes e.payload 0 n) }

/-- A refused or finished entry without result bytes. -/
def plainDone (e : Entry) (status : Nat) (taken : Bool) : Completion :=
  { status := BitVec.ofNat 8 status, taken := taken, body := cmdBody e.bytes [] }

/-- Replace the entry of an index. -/
def State.modEntry (s : State) (r i : Nat) (f : Entry → Entry) : State :=
  s.modRing r fun g => { g with entries := g.entries.map fun e => if e.idx = i then f e else e }

/-- A command has passed step 3 of R278: it is accepted, in its place among the commands of all rings (R280). -/
def State.acceptHead (s : State) (r i : Nat) (f : Entry → Entry) : State :=
  { s.modEntry r i fun e => { f e with state := .ready, order := s.accepts } with accepts := s.accepts + 1 }

/-- Step 3 of R278 for the head of a command ring: a command that is not role-sensitive is ready; another waits for
the supervisor (R18) or is checked and recorded under R326, and a refusal completes it with a ROLE event (R293). -/
def State.startHead (s : State) (r : Nat) (e : Entry) (flashOk : Bool) : State :=
  let op := byteAt e.bytes 0
  if !roleSensitive op then s.acceptHead r e.idx fun e => e
  else if !s.sup.available then
    (s.modEntry r e.idx fun e => { e with state := .waitSup }).modRing r fun g =>
      { g with supWait := some (s.now + msC 500) }
  else if s.sup.recovery && !(op = 0x53 && byteAt e.bytes 24 ≤ 1) then
    (s.holdAudit { cmdAudit r e 4 with result := 4#8 }).modEntry r e.idx fun e => { e with done := some (plainDone e 4 false) }
  else
    let msg := s.ident ++ e.bytes.take 1 ++ (e.bytes.drop 4).take 4 ++ (e.bytes.drop 24).take 32 ++
      rdBytes e.payload 0 (payloadRead e.bytes)
    let need := s.needRole e.bytes
    let may := fun role : Role => (match need with | some n => role.atLeast n | none => true) &&
      (!s.sup.recovery || role ≠ .operator)
    let (cr, s) := if e.auth.isEmpty then ((⟨5, none⟩ : Cred), s) else s.credCheck e.auth msg may
    let q := s.sec.auditSeq
    let s := s.writeAudit (cmdAudit r e cr.status) flashOk
    let st := if cr.status = 0 && !flashOk then 0x50 else cr.status
    if st = 0 then s.acceptHead r e.idx fun e => { e with role := cr.role, audit := some q }
    else
      let s := (s.noteRefusal (byteAt e.auth 1)).event 19 st op (leBytes 4 q)
      s.modEntry r e.idx fun e => { e with done := some (plainDone e st false), audit := some q }

/-- Complete the entries of a ring in index order and start the next head of a command ring (R262). -/
def State.settle : Nat → State → Nat → Bool → State
  | 0, s, _, _ => s
  | n + 1, s, r, flashOk =>
    if !s.bmeUp then s else
    match (s.ring r).entries with
    | [] => s
    | e :: es =>
      match e.done with
      | some c =>
        State.settle n ((s.writeCompletion r e c).modRing r fun g => { g with entries := es, supWait := none }) r flashOk
      | none =>
        if isCommand r && e.state = .fetched &&
            ((s.ring r).state = .running || (s.ring r).state = .error) then
          State.settle n (s.startHead r e flashOk) r flashOk
        else s

/-- `settle` with enough turns for every entry: each is started at most once and completed at most once. -/
def State.drain (s : State) (r : Nat) (flashOk : Bool := true) : State :=
  State.settle (2 * (s.ring r).entries.length + 1) s r flashOk

/-- Completion of an entry while its ring is in reset: ABORTED, and TAKEN 1 for a begun command that ran to its end
(R270). -/
def Completion.atReset (c : Completion) (begun : Bool) : Completion :=
  { c with status := 2#8, taken := c.taken || (begun && c.status ≠ 2#8) }

/-- Complete entry `i` of ring `r`; while the ring is in reset an entry completes with ABORTED (R270). -/
def State.complete (s : State) (r i : Nat) (c : Completion) : State :=
  let g := s.ring r
  let begun := isCommand r && g.entries.any fun e => e.idx = i && e.state = .begun
  let c := if g.state = .resetting then c.atReset begun else c
  (s.modEntry r i fun e => if e.done.isSome then e else { e with done := some c }).drain r

/-- Complete a command entry with RES bytes and the per-kind bits [27:16] of its control word. -/
def State.finishCmd (s : State) (r i status : Nat) (taken : Bool) (res : List Byte := []) (kind : Nat := 0)
    (pre : Option (Nat × List Byte) := none) : State :=
  match (s.ring r).entries.find? (·.idx = i) with
  | none => s
  | some e =>
    s.complete r i { status := BitVec.ofNat 8 status, taken := taken, kind := BitVec.ofNat 12 kind,
                     body := cmdBody e.bytes res, pre := pre }

/-- A command that its opcode refuses for its credential: a ROLE event, and the completion (R293). -/
def State.refuseRole (s : State) (r : Nat) (e : Entry) (status : Nat) : State :=
  (s.event 19 status (byteAt e.bytes 0) (leBytes 4 (e.audit.getD 0))).finishCmd r e.idx status false

/-! ### Commands of several rings (R262, R280) -/

/-- The ring number that no ring has: the issuer of what outlives its ring (R271). -/
def noRing : Nat := 160

/-- A command-issued change of ring entry (r, i). -/
def Change.issuedBy (c : Change) (r i : Nat) : Bool :=
  match c.src with
  | .apply a b => a = r && b = i
  | _ => false

/-- A command waits: for the supervisor, for its time or boundary, or for another change in progress (R262). -/
def State.cmdWaits (s : State) (r : Nat) (e : Entry) : Bool :=
  let me := (r, e.idx)
  e.state = .waitSup || (e.state = .begun &&
    ((s.fab.applies.any fun a => (a.ring, a.idx) = me) ||
      (s.fab.waiting.any fun c => c.issuedBy r e.idx && (s.fab.change.isSome || c.at_.any fun t => !s.isDue t)) ||
      (s.sched.start.any fun (q : StartReq) => (q.ring, q.idx) = me) ||
      (s.sched.swap.any fun (q : SwapReq) => q.issuer = some me) ||
      s.sched.stops.contains me || s.time.step.any fun (q : StepReq) => q.issuer = some me))

/-- What a command names (R280): maps 0, banks 1, profiles 2, stream contexts 3, cells and failed-cell entries 4, lanes
5, each with its number. -/
def cmdNames (b : List Byte) : List (Nat × Nat) :=
  match byteAt b 0 with
  | 0x01 | 0x03 | 0x05 | 0x06 => [(0, lef b 24 2)]
  | 0x02 => (0, lef b 24 2) :: (0, lef b 26 2) :: (if bits (lef b 28 2) 15 15 = 1 then [] else [(0, bits (lef b 28 2) 9 0)])
  | 0x07 | 0x08 | 0x12 | 0x13 => [(4, lef b 24 2)]
  | 0x10 | 0x11 => [(2, lef b 24 1)]
  | 0x20 | 0x21 | 0x22 => [(1, lef b 24 1)]
  | 0x40 => [(5, lef b 24 1)]
  | 0x41 | 0x42 => [(3, lef b 24 2)]
  | _ => []

/-- Two names are of one thing; cell FFFFh of a CAL stands for every cell. -/
def sameName (p q : Nat × Nat) : Bool := p.1 = q.1 && (p.2 = q.2 || (p.1 = 4 && (p.2 = 0xFFFF || q.2 = 0xFFFF)))

def shareName (a b : List Byte) : Bool := (cmdNames a).any fun p => (cmdNames b).any (sameName p)

/-- An action whose ring is gone still works on what a command names (R271). -/
def State.orphanOn (s : State) (p : Nat × Nat) : Bool :=
  (p.1 = 2 && s.loop.jobs.any fun j => j.ring = noRing && j.prof = p.2) ||
    (p.1 = 4 && s.loop.cells.any fun c => sameName p (4, c.1) && c.2.cal.any fun j => j.issuer.any fun q => q.1 = noRing)

/-- The head `e` of ring `r` must wait for a command that names the same thing: one that runs, or one that was accepted
before it (R280). A command that waits (R262) holds nothing. -/
def State.mustWait (s : State) (r : Nat) (e : Entry) : Bool :=
  (s.rings.any fun p => isCommand p.1 && p.1 ≠ r && (match p.2.entries with
    | o :: _ => o.done.isNone && (o.state = .begun || (o.state = .ready && o.order < e.order)) &&
        !s.cmdWaits p.1 o && shareName o.bytes e.bytes
    | [] => false)) || (cmdNames e.bytes).any s.orphanOn

/-- The head of a command ring, if it is ready to act, carries opcode `op`, and need not wait for another ring's
command (R280). -/
def State.readyHead (s : State) (r op : Nat) : Option Entry :=
  match (s.ring r).entries with
  | [] => none
  | e :: _ => if e.state = .ready && e.done.isNone && byteAt e.bytes 0 = op && !s.mustWait r e then some e else none

/-- Mark an entry begun: its action has started and a ring reset lets it end (R270). -/
def State.begin_ (s : State) (r i : Nat) : State := s.modEntry r i fun e => { e with state := .begun }

/-- A ring enters ERROR with a code and an index (R268, R269). -/
def State.ringError (s : State) (r code idx : Nat) : State :=
  if (s.ring r).state = .running then
    ((s.modRing r fun g => { g with state := .error, errCode := BitVec.ofNat 4 code, errIdx := idx,
                                    pollAt := none, pollDue := false, pollCw := none }).fire 81 r).ringMsg r
  else s

end Sys2Proof.Machine
end

