-- ==== Sys2Proof/Machine/Topology.lean ====
section
/-! DEFINITION. The fabric as a network: wiring, tracing, circuit maps in SRAM, map checks, and the routing engine
(chapters "Optical fabric, ports and the rest state" and "Circuits, maps and stitches"). -/

namespace Sys2Proof.Machine

/-- The address bit that gallery `g` acts on (R32). -/
def beta (g : Nat) : Nat := if g < 8 then g else 15 - g

/-- `w` with bits 0 and `b` exchanged (R33). -/
def tau (b w : Nat) : Nat := if w.testBit 0 = w.testBit b then w else w ^^^ (1 ||| 2 ^ b)

/-- One cell on a path: its flat index, the input the light enters on, and whether the cell crosses. -/
structure Hop where
  cell  : Nat
  inp   : Bool
  cross : Bool
  deriving DecidableEq, Repr

/-- Output of the cell that the light leaves on (R30). -/
def Hop.out (h : Hop) : Bool := h.inp != h.cross

/-- Flat cell index and cell input of address `a` at gallery `g` (R10, R34). -/
def cellAt (g a : Nat) : Nat × Bool :=
  let w := tau (beta g) a
  (g * 128 + w / 2, w % 2 = 1)

/-- Follow light of address `a` through `n` galleries from gallery `g` under a cell vector (R33, R34). -/
def traceFrom (vec : Nat → Bool) : Nat → Nat → Nat → List Hop × Nat
  | 0, _, a => ([], a)
  | n + 1, g, a =>
    let (c, i) := cellAt g a
    let x := vec c
    let (hs, e) := traceFrom vec n (g + 1) (if x then a ^^^ 2 ^ beta g else a)
    (⟨c, i, x⟩ :: hs, e)

/-- The path of fabric input `i` and the fabric output it reaches. -/
def tracePath (vec : Nat → Bool) (i : Nat) : List Hop × Nat := traceFrom vec 16 0 i

/-! ### Maps in SRAM (R60, R61) -/

def mapBase (m : Nat) : Nat := 0x1680000 + 544 * m

/-- Bit of a cell in a 544-byte map (R61). -/
def vecBit (get : Nat → Byte) (c : Nat) : Bool := (get (c / 8)).getLsbD (c % 8)

/-- The 9-bit entry of port `a` in a 544-byte map (R61). -/
def portEntry (get : Nat → Byte) (a : Nat) : Nat :=
  let b := 9 * a
  (((get (256 + b / 8)).toNat + 256 * (get (256 + b / 8 + 1)).toNat) / 2 ^ (b % 8)) % 512

/-- The connections of a map: entry port and exit port (R37, R61). -/
def connsOf (get : Nat → Byte) : List (Nat × Nat) :=
  (List.range 256).filterMap fun a =>
    let e := portEntry get a
    if 256 ≤ e then some (a, e % 256) else none

def State.mapByte (s : State) (m : Nat) : Nat → Byte := fun o => rd s.sram (mapBase m + o)

def State.mapVec (s : State) (m c : Nat) : Bool := vecBit (s.mapByte m) c

def State.mapConns (s : State) (m : Nat) : List (Nat × Nat) := connsOf (s.mapByte m)

/-- The path of a connection in a map: its entry port is the fabric input (R35 to R37). -/
def State.mapPath (s : State) (m a : Nat) : List Hop := (tracePath (s.mapVec m) a).1

/-- Every hop of every connection of a map. -/
def State.mapHops (s : State) (m : Nat) : List Hop := (s.mapConns m).flatMap fun c => s.mapPath m c.1

/-- The cells cared for in a map (R63), each once, with their states. -/
def State.caredCells (s : State) (m : Nat) : List (Nat × Bool) :=
  ((s.mapHops m).map fun h => (h.cell, h.cross)).eraseDups

/-- State of a cell in a map, none where it is DON'T-CARE (R63). -/
def State.caredState (s : State) (m c : Nat) : Option Bool :=
  ((s.mapHops m).find? (·.cell = c)).map (·.cross)

/-- No two connections share an exit port (R38); entries are distinct by the layout. -/
def exitsDistinct : List (Nat × Nat) → Bool
  | [] => true
  | c :: cs => cs.all (fun d => d.2 ≠ c.2) && exitsDistinct cs

/-- A failed-cell entry forbids a cell state (R48). -/
def FailEntry.forbids (f : FailEntry) (x : Bool) : Bool :=
  match f.kind with
  | .stuckBar => x
  | .stuckCross => !x
  | .darkOnly => true

/-- Some hop uses a failed cell in a state its entry forbids. -/
def hopsConflict (failed : List FailEntry) (hs : List Hop) : Bool :=
  hs.any fun h => failed.any fun f => f.cell = h.cell && f.forbids h.cross

/-- The checks of a complete map (R64): R38, every trace ends at its exit XOR 1, and the failed-cell list. -/
def completeMapOk (get : Nat → Byte) (failed : List FailEntry) : Bool :=
  let cs := connsOf get
  exitsDistinct cs &&
    cs.all fun c =>
      let (hs, e) := tracePath (vecBit get) c.1
      e = c.2 ^^^ 1 && !hopsConflict failed hs

/-! ### The routing engine (R66, R67) -/

/-- A connection in the looping method: fabric input, fabric output, the middle address bits chosen so far. -/
structure RConn where
  inp : Nat
  out : Nat
  mid : Nat := 0
  deriving DecidableEq, Repr

/-- Address at gallery `k` of the first half and at gallery 15 − k of the second, before bit `k` is chosen. -/
def RConn.addrIn (c : RConn) (k : Nat) : Nat := c.inp / 2 ^ k * 2 ^ k + c.mid
def RConn.addrOut (c : RConn) (k : Nat) : Nat := c.out / 2 ^ k * 2 ^ k + c.mid

/-- The connections of one loop with their parities: `todo` holds those reached and not yet expanded (R66). -/
def growLoop (k : Nat) : Nat → List RConn → List (RConn × Bool) → List (RConn × Bool) → List (RConn × Bool) × List RConn
  | 0, free, todo, done => (done ++ todo, free)
  | _, free, [], done => (done, free)
  | n + 1, free, (c, p) :: todo, done =>
    let isNbr := fun (d : RConn) => d.addrIn k = c.addrIn k ^^^ 2 ^ k || d.addrOut k = c.addrOut k ^^^ 2 ^ k
    growLoop k n (free.filter fun d => !isNbr d) (todo ++ (free.filter isNbr).map fun d => (d, !p)) ((c, p) :: done)

/-- Middle bit `k` of a loop member when the loop's free choice is `x`. -/
def loopBit (x p : Bool) : Bool := x != p

/-- The two cells that a connection's choice at level `k` decides, with their states for middle bit `m`. -/
def decided (k : Nat) (c : RConn) (m : Bool) : List (Nat × Bool) :=
  [((cellAt k (c.addrIn k)).1, c.inp.testBit k != m),
   ((cellAt (15 - k) (c.addrOut k)).1, c.out.testBit k != m)]

/-- The two cells of the next level that the choice sends the connection through. -/
def sentTo (k : Nat) (c : RConn) (m : Bool) : List Nat :=
  let d : RConn := { c with mid := c.mid + at_ m k }
  [(cellAt (k + 1) (d.addrIn (k + 1))).1, (cellAt (14 - k) (d.addrOut (k + 1))).1]

/-- A choice at level `k` meets every failed-cell constraint on the loop (R66, rule 1). -/
def choiceOk (failed : List FailEntry) (k : Nat) (loop : List (RConn × Bool)) (x : Bool) : Bool :=
  loop.all fun (c, p) =>
    let m := loopBit x p
    (decided k c m).all (fun d => failed.all fun f => !(f.cell = d.1 && f.forbids d.2)) &&
    (sentTo k c m).all (fun d => failed.all fun f => !(f.cell = d && f.kind = .darkOnly))

/-- The free choice of a loop by R66: failed cells, then the base map, then BAR for the lowest decided cell. -/
def loopChoice (failed : List FailEntry) (base : Option (Nat → Bool)) (k : Nat) (loop : List (RConn × Bool)) :
    Option Bool :=
  match choiceOk failed k loop false, choiceOk failed k loop true with
  | false, false => none
  | true, false => some false
  | false, true => some true
  | true, true =>
    match minBy Prod.fst (loop.flatMap fun (c, p) => decided k c (loopBit false p)) with
    | none => some false
    | some (cell, x) => some (x != (match base with | some b => b cell | none => false))

/-- Decide every loop of level `k`. -/
def routeLevel (failed : List FailEntry) (base : Option (Nat → Bool)) (k : Nat) :
    Nat → List RConn → List RConn → Option (List RConn)
  | 0, _, done => some done
  | _, [], done => some done
  | n + 1, c :: free, done =>
    let (loop, rest) := growLoop k 256 free [(c, false)] []
    match loopChoice failed base k loop with
    | none => none
    | some x =>
      routeLevel failed base k n rest
        (done ++ loop.map fun (d, p) => { d with mid := d.mid + at_ (loopBit x p) k })

/-- Levels `k` onward of the outer galleries. -/
def routeOuter (failed : List FailEntry) (base : Option (Nat → Bool)) : Nat → Nat → List RConn → Option (List RConn)
  | 0, _, cs => some cs
  | n + 1, k, cs =>
    match routeLevel failed base k 256 cs [] with
    | none => none
    | some ds => routeOuter failed base n (k + 1) ds

/-- The states of a connection's G07 and G08 cells on route A (`y` false) or B (`y` true) (R47). -/
def middleCells (c : RConn) (y : Bool) : List (Nat × Bool) :=
  let change := c.inp.testBit 7 != c.out.testBit 7
  [((cellAt 7 (c.addrIn 7)).1, change != y), ((cellAt 8 (c.addrOut 7)).1, y)]

/-- The route of a connection by R66 and R67; none where both break a failed-cell entry. -/
def middleChoice (failed : List FailEntry) (base : Option (Nat → Bool)) (second : Bool) (c : RConn) : Option Bool :=
  let ok := fun y => (middleCells c y).all fun d => failed.all fun f => !(f.cell = d.1 && f.forbids d.2)
  match ok false, ok true with
  | false, false => none
  | true, false => some false
  | false, true => some true
  | true, true =>
    if second then some true else
    match base, middleCells c false with
    | some b, (cell, x) :: _ => some (x != b cell)
    | _, _ => some false

/-- States of a routed connection's cells in the fourteen outer galleries. -/
def outerCells (c : RConn) : List (Nat × Bool) :=
  (List.range 7).flatMap fun k =>
    let low : RConn := { c with mid := c.mid % 2 ^ k }
    decided k low (c.mid.testBit k)

/-- One pass of the routing engine: the states of every cared cell. -/
def routePass (failed : List FailEntry) (base : Option (Nat → Bool)) (second : Bool) (conns : List (Nat × Nat)) :
    Option (List (Nat × Bool)) :=
  match routeOuter failed base 7 0 (conns.map fun c => { inp := c.1, out := c.2 ^^^ 1 }) with
  | none => none
  | some cs =>
    cs.foldr (fun c acc =>
      match acc, middleChoice failed base second c with
      | some l, some y => some (outerCells c ++ middleCells c y ++ l)
      | _, _ => none) (some [])

/-- At most two passes (R67): the cells with their states and the number of passes. A DARK_ONLY cell that carries a
connection whatever is chosen, as in G00 or G15, fails the pass (R48). -/
def route (failed : List FailEntry) (base : Option (Nat → Bool)) (conns : List (Nat × Nat)) :
    Option (List (Nat × Bool)) × Nat :=
  let clean := fun (l : List (Nat × Bool)) => l.all fun d => failed.all fun f => !(f.cell = d.1 && f.forbids d.2)
  match routePass failed base false conns with
  | some l => if clean l then (some l, 1) else (none, 2)
  | none =>
    match routePass failed base true conns with
    | some l => if clean l then (some l, 2) else (none, 2)
    | none => (none, 2)

end Sys2Proof.Machine
end

