-- ==== Sys2Proof/Machine/BankImage.lean ====
section
/-! DEFINITION. The pattern bank image: header, gate entries, circuit-change entries, and the times they stand for
(R188 to R195). Times in 2^-16 ns. -/

namespace Sys2Proof.Machine

def bankBase (b : Nat) : Nat := 0x1708000 + 131072 * b

/-- Bytes of a bank image by offset. -/
abbrev Img := Nat → Byte

def State.bankImg (s : State) (b : Nat) : Img := fun o => rd s.sram (bankBase b + o)

/-- `n` bytes of an image from offset `o`, little-endian. -/
def imgLE (g : Img) (o : Nat) : Nat → Nat
  | 0 => 0
  | n + 1 => (g o).toNat + 256 * imgLE g (o + 1) n

def imgNrows (g : Img) : Nat := imgLE g 1 1
def imgRowLen (g : Img) : Nat := bits (imgLE g 4 4) 24 0
def imgPhase (g : Img) : Nat := imgLE g 8 8
def imgNgate (g : Img) : Nat := imgLE g 16 2
def imgNchg (g : Img) : Nat := imgLE g 18 2
def imgStart (g : Img) : Option Nat := if (imgLE g 20 2).testBit 15 then none else some (bits (imgLE g 20 2) 9 0)
def imgDefGuard (g : Img) : Nat := if imgLE g 22 2 = 0 then 1000 else imgLE g 22 2
def imgLaneDef (g : Img) (l : Nat) : Nat := imgLE g (24 + 2 * l) 2
def imgDriftNs (g : Img) : Nat := imgLE g 44 2

/-- Row length in 2^-16 ns: ROW_LEN steps of 0.125 ns (R188). -/
def imgRow (g : Img) : Nat := imgRowLen g * 8192

/-- Matrix length M (R189). -/
def imgM (g : Img) : Nat := imgNrows g * imgRow g

/-- KIND of R193. -/
def kindOf (k : Nat) : GateKind := if k = 1 then .exclusive else if k = 2 then .arbitrating else .closed

structure Gate where
  row   : Nat
  off   : Nat
  lane  : Nat
  gates : Nat
  kind  : Nat
  rsv   : Nat
  deriving DecidableEq, Repr

def imgGate (g : Img) (k : Nat) : Gate :=
  let w := imgLE g (8192 + 6 * k) 6
  { off := bits w 16 0, row := bits w 22 17, lane := bits w 25 23, gates := bits w 33 26, kind := bits w 35 34,
    rsv := bits w 47 36 }

structure Chg where
  row     : Nat
  off     : Nat
  map     : Nat
  guard   : Nat
  noStage : Bool
  rsv     : Nat
  deriving DecidableEq, Repr

def imgChg (g : Img) (k : Nat) : Chg :=
  let w := imgLE g (106496 + 6 * k) 6
  { off := bits w 16 0, row := bits w 22 17, map := bits w 32 23, guard := bits w 43 33, noStage := bits w 44 44 = 1,
    rsv := bits w 47 45 }

/-- Guard interval of a change entry in ns (R194). -/
def imgGuard (g : Img) (c : Chg) : Nat := if c.guard = 0 then imgDefGuard g else c.guard

/-- Time of an entry after its matrix boundary, in 2^-16 ns (R190). -/
def entryAt (g : Img) (row off : Nat) : Nat := row * imgRow g + off * 32 * 65536

/-- Gate entries of one lane, in the order of the image. -/
def laneGates (g : Img) (l : Nat) : List Gate :=
  ((List.range (imgNgate g)).map (imgGate g)).filter (·.lane = l)

def imgChgs (g : Img) : List Chg := (List.range (imgNchg g)).map (imgChg g)

/-- Gates and KIND of a lane at `x` after a matrix boundary: the latest entry at or before it, cyclically (R195). -/
def gateAt (g : Img) (l x : Nat) : Nat × Nat :=
  let es := laneGates g l
  match (es.filter fun e => entryAt g e.row e.off ≤ x).getLast?, es.getLast? with
  | some e, _ => (e.gates, e.kind)
  | none, some e => (e.gates, e.kind)
  | none, none => (bits (imgLaneDef g l) 7 0, bits (imgLaneDef g l) 9 8)

/-- The image has an EXCLUSIVE window (R212). -/
def hasExclusive (g : Img) : Bool :=
  (List.range (imgNgate g)).any (fun k => (imgGate g k).kind = 1) ||
    (List.range 8).any fun l => (laneGates g l).isEmpty && bits (imgLaneDef g l) 9 8 = 1

/-- The maps that an image references (R25, R202). -/
def imgMaps (g : Img) : List Nat := (imgChgs g).map (·.map) ++ (imgStart g).toList

/-- First matrix boundary at or after `t` (R189). -/
def nextMatrix (g : Img) (t : Nat) : Nat :=
  let m := imgM g
  let p := imgPhase g * 65536
  if m = 0 then t else t + ((m - (t + (m - p % m)) % m) % m)

/-- The time `off` after the start of the present matrix; what lies before time 0 is past, and reads as 0. -/
def Run.timeOf (r : Run) (off : Nat) : Nat := (r.matrix + off).toNat

/-- Last matrix boundary at or before `t`; before PHASE it may lie before time 0. -/
def lastMatrix (g : Img) (t : Nat) : Int :=
  let m := imgM g
  let p := imgPhase g * 65536
  if m = 0 then t else t - ((t + (m - p % m)) % m : Nat)

end Sys2Proof.Machine
end

