-- ==== Sys2Proof/Machine/FabricOps.lean ====
section
/-! DEFINITION. Operations on cells, chambers and circuit changes that several families share: drip counts, stitches,
rest, parks, cast-on and bind-off, staging, the preparation of a change, and the end of what a stopped chamber held
(R63 to R93, R118 to R120, R146, R148). -/

namespace Sys2Proof.Machine

def chamberOf (c : Nat) : Nat := c / 64
def localOf (c : Nat) : Nat := c % 64
def cellsOf (h : Nat) : List Nat := (List.range 64).map (64 * h + ·)

/-! ### Profiles (R126, R127) -/

def State.profByte (s : State) (p o : Nat) : Nat := (rd s.loop.profiles (64 * p + o)).toNat

/-- `n` bytes of profile `p` from offset `o`, little-endian. -/
def State.profLE (s : State) (p o n : Nat) : Nat := leNat (rdBytes s.loop.profiles (64 * p + o) n)

def State.profKind (s : State) (p : Nat) : Nat := s.profByte p 0

/-- Coefficient Ck, shift Sk and parameter Pk of a profile. -/
def State.coef (s : State) (p k : Nat) : Int := signed 32 (s.profLE p (4 + 4 * k) 4)
def State.shift (s : State) (p k : Nat) : Nat := bits (s.profLE p 36 5) (5 * k + 4) (5 * k)
def State.param (s : State) (p k : Nat) : Nat := s.profLE p (44 + 4 * k) 4

/-- One coefficient product (R98). -/
def State.term (s : State) (p k : Nat) (x : Int) : Int := asr (s.coef p k * x) (s.shift p k)

/-! ### Counts of actuations (R93, R152) -/

def State.drip (s : State) (e : Nat) : Nat := tget (fun _ => 0) s.fab.drips e

/-- Add actuations to an element; the first sets its first-count time (R155). -/
def State.addDrip (s : State) (e n : Nat) : State :=
  let d := s.drip e
  let s := if d = 0 ∧ n ≠ 0 then
    { s with fab.firsts := tset (fun _ => 0) s.fab.firsts e (s.ns / 1000000000 % 2 ^ 32) } else s
  { s with fab.drips := tset (fun _ => 0) s.fab.drips e (satN (d + n) (2 ^ 48 - 1)) }

/-! ### Calibration and its limits (R144, R148) -/

/-- A calibration constant of format Q1.30 within its range, 0 to 1.0 (R97). -/
def unit30 (w : Word) : Int := min (w.toNat : Int) 1073741824

/-- Calibrated balance drive and leakage target of a cell's state (R108, R117). -/
def relBal (c : Nat) (x : Bool) : Int := unit30 (Config.calBal c x)
def relLeak (c : Nat) (x : Bool) : Int := unit30 (Config.calLeak c x)

/-- cal_hold of a cell's state, a position of R97. -/
def State.calHold (s : State) (c : Nat) (x : Bool) : Int :=
  sat32 (sw (Config.calPos c x) + (if x then (s.calOf c).posCross else (s.calOf c).posBar))

/-- The hold drive of a cell's state, a drive command of R97. -/
def State.holdDrive (s : State) (c : Nat) (x : Bool) : Int :=
  clampI (unit30 (Config.calDrive c x) + (if x then (s.calOf c).drvCross else (s.calOf c).drvBar)) 0 1073741824

/-- A drift result met its limit: LIMIT, WHICH, CELL, the event and the fault source (R148). -/
def State.driftLimit (s : State) (which c : Nat) : State :=
  let s := { (s.setBit .fabDriftStatus 0 31) with fab.driftWhich := BitVec.ofNat 2 which, fab.driftCell := c }
  (s.event 8 which c).fire 55 c (some (chamberOf c))

/-- Move cal_hold of a state by `d`; a result that meets ±POS_MAX is held there (R148). -/
def State.moveCalHold (s : State) (c : Nat) (x : Bool) (d : Int) : State :=
  let top : Int := s.rf .fabDriftCfg 0 23 16 * 16384
  let v := (if x then (s.calOf c).posCross else (s.calOf c).posBar) + d
  let w := clampI v (-top) top
  let s := s.modCal c fun k => if x then { k with posCross := w } else { k with posBar := w }
  if mag v < mag top then s else s.driftLimit 0 c

/-- Move the hold drive of a state by `d`; a result that meets ±DRV_MAX is held there. Answers what was left over
(R148). -/
def State.moveHoldDrive (s : State) (c : Nat) (x : Bool) (d : Int) : State × Int :=
  let top : Int := s.rf .fabDriftCfg 0 15 8 * 1048576
  let v := (if x then (s.calOf c).drvCross else (s.calOf c).drvBar) + d
  let w := clampI v (-top) top
  let s := s.modCal c fun k => if x then { k with drvCross := w } else { k with drvBar := w }
  if mag v < mag top then (s, 0) else (s.driftLimit 1 c, v - w)

/-! ### Light (R110) -/

def State.darkTh (s : State) (c : Nat) : Nat := s.param (s.cell c).oidx.toNat 3

def State.isLit (s : State) (c : Nat) : Bool :=
  let o := (s.cell c).o
  decide (s.darkTh c < o.tap0.toNat) || decide (s.darkTh c < o.tap1.toNat)

/-! ### Trace triggers (R159) -/

/-- The trace of a chamber triggers: TRIG_IDX is the first word of the tick that comes next (R158). -/
def Trace.fireNow (t : Trace) : Trace :=
  { t with triggered := true, trigIdx := t.wrIdx, post := fld t.ctrl 11 0 + 1 }

/-- An armed trace triggers, and with it those whose source is another chamber's trigger (R159). -/
def State.traceTrigger (s : State) (h : Nat) : State :=
  let t := (s.chan h).trace
  if t.armed && !t.triggered then
    let s := s.modChan h fun k => { k with trace := k.trace.fireNow }
    (List.range 32).foldl (fun s k =>
      let q := (s.chan k).trace
      if q.armed && !q.triggered && fld q.ctrl 29 27 = 5 then s.modChan k fun c => { c with trace := c.trace.fireNow }
      else s) s
  else s

/-- An event of trigger source `src` in chamber `h`. -/
def State.traceEvent (s : State) (h src : Nat) : State :=
  if fld (s.chan h).trace.ctrl 29 27 = src then s.traceTrigger h else s

/-! ### Stitches -/

/-- A cell leaves its mode at this raw count (R118). -/
def Cell.leave (x : Cell) (now : Nat) (m : Mode) : Cell := { x with mode := m, was := x.mode, wasAt := some now }

/-- The mode that a transition of a higher row of R118 starts from: at the sample of a lower row's transition, the
mode before that. -/
def Cell.before (x : Cell) (now : Nat) : Mode := if x.wasAt = some now then x.was else x.mode

/-- The stitch of a cell starts (R76; R118 row 3): the drip counter, the histories, the trim, the hand-over state. -/
def State.startStitch (s : State) (c : Nat) (target staging : Bool) : State :=
  let x := s.cell c
  let s := if x.before s.now = .holdOptical && bit (s.rg .fabDriftCfg) 31 then s.moveCalHold c x.state (asr x.o.trim 2) else s
  let s := s.addDrip (2 * c) 1
  let s := s.modCell c fun x =>
    { x.leave s.now .trajectory with
             pos := .moving, state := target, stitching := true, recovering := false,
             timedOut := false, stageMove := staging, stitchRaw := s.now, stitchNt := s.nt, failDue := false,
             m := { x.m with e1 := 0, e2 := 0, v1 := 0, v2 := 0, integ := 0, settle := 0, rampStart := false,
                             stayed := false },
             o := { x.o with trim := 0, prev := 0, osat := false, defer := false, deferCnt := 0, refused := false,
                             retry := none, check := false },
             b := { x.b with settled := false } }
  s.traceEvent (chamberOf c) 2

/-- The part of a drive that is left `n` cycles after the entry to PARK: it falls linearly over 16 us (R119). -/
def rampLeft (d : Int) (n : Nat) : Int := if usC 16 ≤ n then 0 else d * ((usC 16 - n : Nat) : Int) / 16384

/-- Level of the trajectory sequencer of a cell at raw count `t` (R76, R100). A move toward CROSS is driven by the
calibrated sequence until braking ends and then by the CROSS hold drive; a move toward BAR at 0 V but for the braking
pulse. The stiffness scale applies to the calibrated levels (R144). In CAL, for which R100 gives no level, it is 0 for
a cell from PARK and otherwise the hold drive of the state held (DESIGN CHOICE, assumption 62). -/
def State.seqAt (s : State) (c t : Nat) : Int :=
  let x := s.cell c
  let n := t - x.stitchRaw
  let plan := clampI (asr (unit30 (Config.trajDrive c x.state n) * (s.calOf c).stiff) 14) 0 1073741824
  match x.mode with
  | .park => 0
  | .trajectory =>
    if x.state then (if n < nsC 280 then plan else s.holdDrive c true)
    else if nsC 160 ≤ n && n < nsC 280 then plan else 0
  | .cal => if x.cal.any (·.back = .park) then 0 else s.holdDrive c x.state
  | _ => s.holdDrive c x.state

/-- The chamber of a cell is on analog hold: its drivers keep their last output (R91). -/
def State.onHold (s : State) (c : Nat) : Bool := (s.chamber (chamberOf c)).pstate = .hold

/-- Drive command of the main element of a cell now: the sequencer's level plus the correction last written, within
OUT_MIN and OUT_MAX (R103, R104); on analog hold the last output (R91); in PARK what is left of the ramp (R119). -/
def State.mainDrive (s : State) (c : Nat) : Int :=
  let x := s.cell c
  if s.onHold c then x.m.dout
  else if x.mode = .park then rampLeft x.m.rampFrom (s.now - x.m.rampAt)
  else clampI (s.seqAt c s.now + x.m.corr) (s.param x.midx.toNat 0) (s.param x.midx.toNat 1)

/-- Drive command of the balance element of a cell now: in a stitch, from the end of braking, the calibrated drive of
the target state (R76, R117). -/
def State.balDrive (s : State) (c : Nat) : Int :=
  let x := s.cell c
  if s.onHold c then x.b.bal
  else if x.mode = .park then rampLeft x.b.rampFrom (s.now - x.m.rampAt)
  else if x.mode = .trajectory && x.stitchRaw + nsC 280 ≤ s.now then relBal c x.state
  else x.b.bal

/-- A loop enters PARK: correction and integrator clear, O and B stop, the drives ramp down (R101, R118, R119). -/
def State.parkLoop (s : State) (c : Nat) : State :=
  let d := s.mainDrive c
  let e := s.balDrive c
  let held := s.onHold c
  s.modCell c fun x =>
    if x.mode = .park && !held then x else
    { x.leave s.now .park with
             cal := none,
             m := { x.m with resume := none, integ := 0, corr := 0, u := 0, f := 0, dout := 0, settle := 0, msat := false, stayed := false,
                             rampFrom := d, rampAt := s.now },
             o := { x.o with trim := 0, prev := 0, oint := 0, osat := false, defer := false, deferCnt := 0,
                             check := false, retry := none },
             b := { x.b with bal := 0, bint := 0, bsat := false, settled := false, rampFrom := e } }

/-- A cell returns to rest: one drip count from CROSS, or from a move toward CROSS (R93, R118 row 1, R119). -/
def State.restCell (s : State) (c : Nat) : State :=
  let x := s.cell c
  let s := if x.pos ≠ .rest && x.state then s.addDrip (2 * c) 1 else s
  (s.parkLoop c).modCell c fun x =>
    { x with pos := .rest, state := false, cal := none, stitching := false, recovering := false, timedOut := false,
             staged := false, revertDue := false, held := false }

/-- A DARK_ONLY cell: both its elements stay undriven (R48). -/
def State.darkOnly (s : State) (c : Nat) : Bool := (s.failed c).any (·.kind = .darkOnly)

/-- The oscillation detector's state on entry to a hold mode and at a change of the M profile (R139). -/
def MLoop.clearOd (m : MLoop) : MLoop := { m with odN := 0, odCnt := 0, odArmed := false, odRef := 0 }

/-- The profile indices that a cell's loops run on from their next samples: a fallback comes after a write (R129, R140,
R141). -/
def Cell.mNext (x : Cell) : Byte := x.mfall.getD (x.mnew.getD x.midx)
def Cell.oNext (x : Cell) : Byte := x.onew.getD x.oidx
def Cell.bNext (x : Cell) : Byte := x.bnew.getD x.bidx

/-- A selected index comes into force (R129); a new M profile clears the oscillation detector (R139). -/
def Cell.takeM (x : Cell) : Cell :=
  { x with midx := x.mNext, mnew := none, mfall := none, m := if x.mNext = x.midx then x.m else x.m.clearOd }
def Cell.takeO (x : Cell) : Cell := { x with oidx := x.oNext, onew := none }
def Cell.takeB (x : Cell) : Cell := { x with bidx := x.bNext, bnew := none }

/-- The engine of a chamber runs: indices accepted before that are in force (R129). -/
def State.engineRuns (s : State) (h : Nat) : State :=
  (cellsOf h).foldl (fun s c => s.modCell c fun x => x.takeM.takeO.takeB) s

/-- Take-up of a cell cared BAR (R118 row 8). -/
def State.takeUp (s : State) (c : Nat) : State :=
  if s.darkOnly c then s else s.modCell c fun x =>
    if x.mode = .park then
      { x.leave s.now .holdPosition with
               pos := .bar, state := false, m := { x.m.clearOd with rampStart := true, stayed := false },
               o := { x.o with check := false }, b := { x.b with bal := relBal c false } }
    else x

/-! ### Chambers -/

def State.pstate (s : State) (h : Nat) : PState := (s.chamber h).pstate

/-- The CHAMBER event of a PSTATE that is reported (R293). -/
def State.setPstate (s : State) (h : Nat) (p : PState) : State :=
  let s := s.modChamber h fun k => { k with pstate := p }
  match p with
  | .off => s.event 15 0 h
  | .on => s.event 15 2 h
  | .hold => s.event 15 4 h
  | .reset => s.event 15 5 h
  | _ => s

def State.parked (s : State) (h : Nat) : Bool := s.flt.park.getLsbD h

def State.policy (s : State) (h : Nat) : Nat := s.rf .fabChCtrl h 1 0

/-- A chamber counts as stopped (R90, R338). -/
def State.stopped (s : State) (h : Nat) : Bool :=
  s.parked h || s.pstate h = .hold || s.pstate h = .reset

/-- The module may cast a chamber on: not parked, not FORCED_OFF, no PARK_ALL, the Relpety record good (R393). -/
def State.mayCast (s : State) (h : Nat) : Bool :=
  !s.parked h && s.policy h ≠ 3 && !s.flt.parkedAll && s.flash.relpety.valid && s.pwr.phase ≠ .stabling

/-- The cells that a map asks of a chamber under its policy (R88). -/
def State.mapNeeds (s : State) (m h : Nat) : Bool :=
  (s.caredCells m).any fun d => chamberOf d.1 = h && (s.policy h ≠ 1 || d.2)

/-- Maps whose cells keep or bring a chamber ON under AUTO and CROSS_ONLY (R88). -/
def State.pendingMaps (s : State) : List Nat :=
  s.fab.inForce.toList ++ (s.fab.change.map (·.map)).toList ++ (s.fab.verify.map (·.map)).toList ++
    s.fab.waiting.map (·.map) ++
    s.fab.casts.map fun p => (imgChg (s.bankImg p.1) p.2.1).map

/-- The chamber is needed (R88). -/
def State.needed (s : State) (h : Nat) : Bool :=
  match s.policy h with
  | 2 => true
  | 3 => false
  | _ => s.pendingMaps.any fun m => s.mapNeeds m h

/-- A stitch, staging stitch, revert, calibration or change involves a cell of the chamber (R89). -/
def State.involved (s : State) (h : Nat) : Bool :=
  (cellsOf h).any fun c => (s.cell c).mode = .trajectory || (s.cell c).cal.isSome || (s.cell c).revertDue

/-- Order cast-on of a chamber (R87). It takes 150 us, the most that R87 allows, and a bind-off 50 us (DESIGN CHOICE,
assumption 66). -/
def State.castOn (s : State) (h : Nat) : State :=
  if s.pstate h = .off && s.mayCast h && !(s.chamber h).resetting then
    s.modChamber h fun k => { k with pstate := .castingOn, timer := some (s.now + usC 150), idle := none }
  else s

/-- Follow the policies: cast on what is needed; start or stop the bind-off hold of the others (R88). -/
def State.followPolicy (s : State) (h : Nat) : State :=
  if s.needed h then (s.castOn h).modChamber h fun k => { k with idle := none }
  else if s.pstate h = .on && (s.chamber h).idle.isNone then
    let hold := if s.policy h = 3 then 0 else s.rf .fabChCtrl h 15 8
    s.modChamber h fun k => { k with idle := some (s.now + msC hold) }
  else s

def State.followPolicies (s : State) : State := (List.range 32).foldl State.followPolicy s

/-- The involvement of a cell of the chamber ends: the bind-off hold counts from here (R89). -/
def State.endInvolved (s : State) (h : Nat) : State :=
  if (s.chamber h).idle.isSome && !s.needed h then
    let hold := if s.policy h = 3 then 0 else s.rf .fabChCtrl h 15 8
    s.modChamber h fun k => { k with idle := some (s.now + msC hold) }
  else s

/-- Every cell of a chamber returns to rest. -/
def State.restChamber (s : State) (h : Nat) : State := (cellsOf h).foldl State.restCell s

/-- Stop a capture that runs in a chamber (R158). -/
def State.stopTrace (s : State) (h : Nat) : State :=
  s.modChan h fun k => { k with trace := { k.trace with armed := false, doneDue := false } }

/-! ### Change sets and affected connections (R72, R73) -/

/-- The cells cared in `n` whose current state differs (R72). -/
def State.changeSet (s : State) (n : Nat) : List (Nat × Bool) :=
  (s.caredCells n).filter fun d => (s.cell d.1).state ≠ d.2

/-- Connections affected by a change from `p` to `n` with change set `cs`: (entry, exit, in `n`) (R72). -/
def State.affected (s : State) (p : Option Nat) (n : Nat) (cs : List Nat) : List (Nat × Nat × Bool) :=
  let cn := s.mapConns n
  let cp := match p with | some q => s.mapConns q | none => []
  let hit := fun (m a : Nat) => (s.mapPath m a).any fun h => h.cell ∈ cs
  let hitOld := fun a => match p with | some q => hit q a | none => false
  (cn.filter fun c => hit n c.1 || !(c ∈ cp) || hitOld c.1).map (fun c => (c.1, c.2, true)) ++
    (cp.filter fun c => !(c ∈ cn)).map (fun c => (c.1, c.2, false))

/-- The lanes whose internal port is an end of an affected connection (R73). -/
def affectedLanes (l : List (Nat × Nat × Bool)) : List Nat :=
  (List.range 8).filter fun n => l.any fun c => c.1 = 248 + n || c.2.1 = 248 + n

/-! ### Ends of commands that a chamber holds up (R89, R90) -/

/-- RES of a MAP_APPLY (R281, R282). -/
def applyRes (cells dropped verified dark failed mask tc : Nat) : List Byte :=
  leBytes 2 cells ++ leBytes 2 dropped ++ leBytes 2 verified ++ leBytes 2 dark ++ leBytes 2 failed ++ zeros 2 ++
    leBytes 4 mask ++ leBytes 8 tc

/-- A change that has not started ends: its MAP_APPLY completes with a status, and its gates are released. -/
def State.endUnstarted (s : State) (ch : Change) (status mask : Nat) : State :=
  match ch.src with
  | .apply r i => s.finishCmd r i status false (applyRes 0 0 0 0 0 mask 0)
  | .startMap =>
    match s.sched.start with
    | some q =>
      ({ s with sched.start := none }.modBank q.bank fun b => { b with state := .valid }).finishCmd q.ring q.idx status false
    | none => s
  | _ => s

/-- A cell leaves CAL for the mode held before it, with ramp_start set and the trim at 0 (R124); a cell from PARK ramps
its drive down (R118 rows 2 and 10). -/
def State.exitCal (s : State) (c : Nat) (back : Mode) : State :=
  if back = .park then s.parkLoop c
  else s.modCell c fun x =>
    { x.leave s.now back with
      cal := none, m := { x.m.clearOd with rampStart := true, stayed := false },
      o := { x.o with trim := 0, prev := 0, osat := false } }

/-- Row 2 of R118: a change, staging stitch or revert takes a cell out of CAL, or its command is cancelled. -/
def State.leaveCal (s : State) (c : Nat) (status : Nat) (taken : Bool) : State :=
  match (s.cell c).cal with
  | none => s
  | some j =>
    let s := s.exitCal c j.back
    match j.issuer with
    | some (r, i) => s.finishCmd r i status taken [] (at_ j.clipped 0)
    | none => s

/-- The cells of a change set leave CAL for it (R118 row 2, R284): CAL_ABORTED. -/
def State.freeCells (s : State) (cs : List Nat) : State := cs.foldl (fun s c => s.leaveCal c 0x24 true) s

/-- The change comes from a command (R90): a MAP_APPLY, or the START_MAP of a PATTERN_START. -/
def Change.ofCommand (c : Change) : Bool :=
  match c.src with
  | .apply _ _ | .startMap => true
  | _ => false

/-- The lanes that a change to `m` affects, as things stand (R72, R73). -/
def State.changeLanes (s : State) (m : Nat) : List Nat :=
  affectedLanes (s.affected s.fab.inForce m ((s.changeSet m).map (·.1)))

/-- Begin a command-issued change: its gates close, its cells leave CAL and its chambers cast on at once, whatever other
change runs or waits (R70, R71, R73, R283). -/
def State.beginChange (s : State) (ch : Change) : State :=
  let ch := { ch with stage := .prep, gatesShut := BitVec.ofNat 8 (maskOf (s.changeLanes ch.map)) }
  let t := s.onFab fun f => { f with waiting := f.waiting ++ [ch] }
  (t.freeCells ((t.changeSet ch.map).map (·.1))).followPolicies

/-- Remove the changes that have not started and that `p` picks, ending each with a status. -/
def State.dropWaiting (s : State) (p : Change → Bool) (status : Nat) (mask : Change → Nat) : State :=
  let gone := s.fab.waiting.filter p
  gone.foldl (fun s ch => s.endUnstarted ch status (mask ch))
    (s.onFab fun f => { f with waiting := f.waiting.filter fun ch => !p ch })

/-- Remove the changes of commands and the timed applies that have not started and whose map `p` picks, ending each with
a status; a change of the module's own goes on without the chamber (R90). -/
def State.dropUnstarted (s : State) (p : Nat → Bool) (status mask : Nat) : State :=
  let s := s.dropWaiting (fun ch => ch.ofCommand && p ch.map) status fun _ => mask
  let late := s.fab.applies.filter fun a => p a.map
  let s := { s with fab.applies := s.fab.applies.filter fun a => !p a.map }
  late.foldl (fun s a => s.finishCmd a.ring a.idx status false (applyRes 0 0 0 0 0 mask 0)) s

/-- A change to map `m` involves a cell of chamber `h` (R90). -/
def State.involves (s : State) (m h : Nat) : Bool := (s.changeSet m).any fun d => chamberOf d.1 = h

/-- The command at the head of a ring that has not begun involves a cell of chamber `h` (R89, R90). -/
def State.headInvolves (s : State) (r h : Nat) : Option Entry :=
  match (s.ring r).entries with
  | e :: _ =>
    let op := byteAt e.bytes 0
    let m := lef e.bytes 24 2
    if (e.state = .waitSup || e.state = .ready) && e.done.isNone &&
        ((op = 3 && s.involves m h) || ((op = 0x12 || op = 0x13) && m / 64 = h)) then some e else none
  | [] => none

/-- Commands on the chamber's cells at the heads of their rings end with CHAMBER_UNAVAILABLE, TAKEN 0. -/
def State.stopHeads (s : State) (h : Nat) : State :=
  (List.range 16).foldl (fun s r =>
    match s.headInvolves r h with
    | some e => s.finishCmd r e.idx 0x17 false
        (if byteAt e.bytes 0 = 3 then applyRes 0 0 0 0 0 (2 ^ h) 0 else [])
    | none => s) s

/-- Commands on a chamber's cells that have not started their stitches end with CHAMBER_UNAVAILABLE, calibrations
with them (R89, R90). -/
def State.refuseCommands (s : State) (h : Nat) (calTaken : Bool) : State :=
  let s := (cellsOf h).foldl (fun s c => s.leaveCal c 0x17 calTaken) s
  (s.dropUnstarted (fun m => s.involves m h) 0x17 (2 ^ h)).stopHeads h

/-- A chamber stops: its commands end, and a running change reports the chamber (R90). -/
def State.stopCommands (s : State) (h : Nat) : State :=
  let s := s.refuseCommands h true
  match s.fab.change with
  | some ch =>
    if ch.stage = .started && ch.cells.any (fun c => chamberOf c = h) then
      { s with fab.change := some { ch with missing := ch.missing ||| BitVec.ofNat 32 (2 ^ h) } }
    else s
  | none => s

/-- Ramp a chamber's drivers to 0 and power it down (R87, R119): its cells are at rest and it binds off. -/
def State.bindOffChamber (s : State) (h us : Nat) : State :=
  ((s.restChamber h).modChamber h fun k =>
    { k with pstate := .bindingOff, timer := some (s.now + usC us), idle := none }).stopTrace h

/-- Set a chamber's bit in FLT_PARK. -/
def State.setParkBit (s : State) (h : Nat) : State :=
  State.mark { s with flt.park := s.flt.park ||| BitVec.ofNat 32 (2 ^ h) } (Reg.fltPark.addr 0) (w32 (2 ^ h))

/-- A severity-3 park of a chamber (R338). Commands whose change comes to involve its cells, now that they are at rest,
end too (R90). -/
def State.parkChamber (s : State) (h : Nat) : State :=
  let t := (s.stopCommands h).setParkBit h
  if t.pstate h = .off then t
  else ((t.bindOffChamber h 70).modChamber h fun k => { k with resetting := false }).refuseCommands h true

/-! ### Staging (R82 to R86) -/

/-- The change that comes next, when it is a timed command or an entry of the running pattern: its map, t_c in
2^-16 ns, and whether cells may be staged toward it (R82, R194). -/
def State.nextChange (s : State) : Option (Nat × Nat × Bool) :=
  let cmd := minBy (fun d => d.2.1) (s.fab.applies.map (fun a => (a.map, a.time * 65536, true)) ++
    s.fab.waiting.flatMap fun ch => ch.at_.toList.map fun t => (ch.map, t * 65536, true))
  match s.sched.run with
  | none => cmd
  | some r =>
    let g := s.bankImg r.bank
    if imgNchg g = 0 || s.sched.failQuiet || s.sched.hold.isSome then cmd else
    let c := imgChg g (r.change % imgNchg g)
    let base := if r.change < imgNchg g then 0 else imgM g
    some (c.map, r.timeOf (base + entryAt g c.row c.off), !c.noStage)

/-- The next change is cancelled: each staged cell stays only if the change now next cares for it in its staged
state; every other reverts (R85). -/
def State.cancelStaging (s : State) : State :=
  let next := s.nextChange
  let keep := fun (c : Nat) (x : Bool) => match next with
    | some (m, _, _) => s.caredState m c = some x
    | none => false
  { s with loop.cells := s.loop.cells.map fun p =>
      (p.1, if p.2.staged && !keep p.1 p.2.state then { p.2 with revertDue := true } else p.2) }

/-! ### Chambers that stop holding (R91) -/

/-- A driver keeps its last output (R91). -/
def State.freezeDrive (s : State) (c : Nat) : State :=
  let d := s.mainDrive c
  let e := s.balDrive c
  s.modCell c fun x => { x with m := { x.m with dout := d }, b := { x.b with bal := e } }

/-- The engine of a chamber is lost, or SYS_CHRST resets it: its drivers go on analog hold (R91, R397). A chamber that is
OFF, parked, on analog hold or in reset is not affected. -/
def State.engineHold (s : State) (h : Nat) : State :=
  if s.pstate h = .off || s.parked h || s.pstate h = .hold || s.pstate h = .reset || (s.chamber h).resetting then s
  else
    let s := s.stopCommands h
    let s := (cellsOf h).foldl State.freezeDrive s
    let s := s.modChamber h fun k =>
      { k with timer := some (s.now + msC 2), resetting := true, idle := none, casting := decide (k.pstate = .castingOn) }
    (s.setPstate h .hold).stopTrace h

end Sys2Proof.Machine
end

