-- ==== Sys2Proof/Machine/SchedOps.lean ====
section
/-! DEFINITION. Operations of the schedule unit that several families share: level sources, the gates a lane has now,
the closing of a queue's gate, and the end of the running bank (R189, R195, R208, R216, R223, R285). -/

namespace Sys2Proof.Machine

/-! ### Level sources (R334) -/

/-- The condition of a level source begins or ends, for the chamber or lane `u` where it has one: it fires when the
condition begins (R334). -/
def State.setLevel (s : State) (n : Nat) (on : Bool) (detail : Nat := 0) (u : Option Nat := none) : State :=
  let q := s.fsrc n
  if on then
    if q.active && (u.isNone || q.conds.any (·.2 = u)) then s
    else
      let t := s.modFsrc n fun q => { q with active := true, conds := q.conds ++ [(detail, u)] }
      if q.forced && (u.isNone || q.forcedUnit = u) then t else t.fire n detail u
  else s.modFsrc n fun q => { q with active := false, conds := [] }

/-! ### Gates -/

/-- Exclusive windows are closed and change entries skipped: fail-quiet, static hold, re-alignment (R212 to R214). -/
def State.quiet (s : State) : Bool := s.sched.failQuiet || s.sched.hold.isSome || s.sched.realign

/-- The module itself holds a lane's gates closed for a command-issued change that runs or prepares (R73). -/
def State.shutFor (s : State) (l : Nat) : Bool :=
  s.fab.change.any (·.gatesShut.getLsbD l) || s.fab.waiting.any (·.gatesShut.getLsbD l)

/-- Gates and KIND of a lane now (R195, R208, R223). -/
def State.laneKind (s : State) (l : Nat) : GateKind :=
  match s.sched.run with
  | none => .arbitrating
  | some _ => (s.lane l).kind

def State.laneOpen (s : State) (l : Nat) : Nat :=
  if s.shutFor l then 0 else
  match s.sched.run with
  | none => 255
  | some _ => if (s.lane l).kind = .exclusive && s.quiet then 0 else (s.lane l).gates.toNat

/-- Queue `q` of lane `l` is open. -/
def State.gateOpen (s : State) (l q : Nat) : Bool := (s.laneOpen l).testBit q

/-- Set the gates of every lane as the bank defines them at `t` (2^-16 ns) in the matrix that began at `m`. -/
def State.setGates (s : State) (g : Img) (m : Int) (t : Nat) : State :=
  let x0 := (t - m).toNat
  (List.range 8).foldl (fun s l =>
    let (gs, k) := gateAt g l x0
    s.modLane l fun x =>
      { x with gates := BitVec.ofNat 8 gs, kind := kindOf k,
               gateIdx := ((laneGates g l).filter fun e => entryAt g e.row e.off ≤ x0).length }) s

/-- Every lane has all queues open as ARBITRATING (R208). -/
def State.openAll (s : State) : State :=
  (List.range 8).foldl (fun s l => s.modLane l fun x =>
    { x with gates := 0xFF#8, kind := .arbitrating, gateIdx := 0 }) s

/-- A time of the schedule has come (R181, R190). -/
def State.dueNt (s : State) (t : Nat) : Bool := s.isDue (ceilNs t)

/-- Place of a time in a bank: start of its matrix and its row (R189). -/
def placeOf (g : Img) (t : Nat) : Int × Nat :=
  let m := lastMatrix g t
  (m, if imgRow g = 0 then 0 else (t - m).toNat / imgRow g)

/-- Index of the first change entry at or after `t` in the matrix that began at `m`. -/
def firstChange (g : Img) (m : Int) (t : Nat) : Nat :=
  ((imgChgs g).filter fun c => decide (m + entryAt g c.row c.off < t)).length

/-- The bank runs from `t`, which lies in the matrix that began at `m`, row `r`. -/
def runFrom (g : Img) (b : Nat) (m : Int) (r t : Nat) : Run :=
  { bank := b, matrix := m, row := r, next := (m + ((r + 1) * imgRow g : Nat)).toNat, change := firstChange g m t }

/-- The map scheduled at `t`: MAP of the latest change entry at or before it, cyclically (R213). -/
def scheduledMap (g : Img) (m : Int) (t : Nat) : Option Nat :=
  let es := imgChgs g
  match (es.filter fun c => decide (m + entryAt g c.row c.off ≤ t)).getLast?, es.getLast? with
  | some c, _ => some c.map
  | none, some c => some c.map
  | none, none => none

/-! ### End of a bank -/

/-- RES of a pattern command: its boundary, in ns, as a time field (R281, R277). -/
def boundaryRes (b : Nat) : List Byte := leBytes 8 b

/-- The waiting swap ends with CANCELLED and its bank returns to VALID (R205, R285). -/
def State.cancelSwap (s : State) (t : Nat) : State :=
  match s.sched.swap with
  | none => s
  | some q =>
    let s := { s with sched.swap := none }.modBank q.bank fun b => { b with state := .valid }
    match q.issuer with
    | some (r, i) => s.finishCmd r i 0x0A false (boundaryRes t)
    | none => s

/-- Waiting PATTERN_STOPs complete at their boundary (R285). -/
def State.finishStops (s : State) (t : Nat) : State :=
  let w := s.sched.stops
  w.foldl (fun s p => s.finishCmd p.1 p.2 0 true (boundaryRes t))
    { s with sched.stops := [], sched.stopAt := none }

/-- Event FAILQUIET or HOLD with SUB 01h (R293). -/
def State.endFailQuiet (s : State) (realign : Bool) : State :=
  let n := s.sched.fqSkipped
  let s := { s with sched.failQuiet := false, sched.fqRows := 0, sched.fqSkipped := 0 }
  (s.setLevel 62 false).event 11 1 0 (leBytes 4 n ++ [if realign then 1#8 else 0#8])

def HoldWhy.code : HoldWhy → Nat
  | .step => 1 | .coupling => 2

def State.endHold (s : State) : State :=
  match s.sched.hold with
  | none => s
  | some h => { s with sched.hold := none }.event 12 1 h.why.code (leBytes 4 h.skipped)

/-- No pending event of the calendar wheel but those of paced frames. -/
def State.dropSlotEvents (s : State) : State :=
  let keep := fun e : WheelEvent => !(s.stream e.ctx).paced.isEmpty
  { s with ept := { s.ept with wheel := s.ept.wheel.filter keep, ovfl := s.ept.ovfl.filter keep } }

/-- The running bank ends, with `t` ns the boundary reported (R208, R216, R285, R338): it returns to VALID, all queues open, fail-quiet and
static hold end with it, the waiting swap is cancelled and the waiting stops complete. -/
def State.endBank (s : State) (t : Nat) : State :=
  match s.sched.run with
  | none => s
  | some r =>
    let s := { s with sched.run := none }.modBank r.bank fun b => { b with state := .valid }
    let s := s.openAll.dropSlotEvents
    let s := if s.sched.failQuiet then s.endFailQuiet false else s
    let s := s.endHold
    let s := { s with sched.holdReq := none }
    let s := { s with sched.realign := false }
    let s := { s with fab.armedEntry := none }
    let s := { s with fab.casts := [] }
    (s.cancelSwap t).finishStops t

/-! ### The next close of a gate (R225) -/

/-- First instant after `t` at which queue `q` of lane `l` closes by the image, within two matrices. -/
def nextCloseIn (g : Img) (quiet : Bool) (l q : Nat) (m : Int) (t : Nat) : Option Nat :=
  let shut := fun (e : Gate) => !(e.gates.testBit q) || (quiet && e.kind = 1)
  let at_ := fun (k : Nat) => ((laneGates g l).filter shut).map fun e => (m + (k + entryAt g e.row e.off : Nat)).toNat
  minBy id ((at_ 0 ++ at_ (imgM g)).filter (t < ·))

end Sys2Proof.Machine
end

