-- ==== Sys2Proof/Machine/FaultOps.lean ====
section
/-! DEFINITION. The fault collector's reactions (R334 to R342, R464), the interrupt controller's inputs (R366, R367),
and `finish`, which closes every command: the reactions of what it fired, level sources, ERR_N, and the inputs. -/

namespace Sys2Proof.Machine

/-! ### Severity and unit -/

def State.sevField (s : State) (n : Nat) : Nat := fld (s.rg .fltSev (n / 8)) (4 * (n % 8) + 3) (4 * (n % 8))

/-- Severity in force (R337): 5 to 7 act as 4, and a value below the floor as the floor. -/
def State.severity (s : State) (n : Nat) : Nat := max (min (bits (s.sevField n) 2 0) 4) (fltFloor n)

/-- The part of the module that a severity-3 reaction acts on (R335). -/
inductive Unit_ where
  | none | chamber (n : Nat) | lane (n : Nat)
  deriving DecidableEq, Repr

/-- Unit of a source with the DETAIL of its firing (R335). That of SRAM_ECC_UNCORR is the chamber that owns the failing
word: in the flowstone area by its offset, in loop state and calibration as the module lays them out (R464). -/
def unitOf (src detail : Nat) : Unit_ :=
  if src ≤ 31 then .chamber src
  else if src ≤ 47 then .lane ((src - 32) % 8)
  else if src = 48 ∨ src = 54 then .chamber (detail / 64 % 32)
  else if src = 58 then .chamber (detail / 4 % 32)
  else if src = 59 then .chamber (detail % 32)
  else if src = 60 then .chamber (detail / 128 % 32)
  else if src = 75 then
    let o := detail * 512
    if 0x1380000 ≤ o ∧ o < 0x1480000 then .chamber ((o - 0x1380000) / 512 / 64)
    else if 0x1200000 ≤ o ∧ o < 0x1580000 then
      (match Config.sramOwner detail with
       | some n => .chamber (n % 32)
       | none => .none)
    else .none
  else .none

def Unit_.code : Unit_ → Nat
  | .none => 0 | .chamber _ => 1 | .lane _ => 2

/-- Sources whose detection lies in the supervisor (R336). -/
def supSource (n : Nat) : Bool := (69 ≤ n && n ≤ 73) || n = 91 || n = 92

/-- A level source is active, or injected and held. -/
def State.activeSrc (s : State) (n : Nat) : Bool := (s.fsrc n).active || (s.fsrc n).forced

def State.activeMask (s : State) : Nat :=
  maskOf ((s.flt.src.filter fun p => p.2.active || p.2.forced).map (·.1))

/-! ### INT_N and ERR_N (R339, R340) -/

def State.sticky (s : State) (n : Nat) : Bool := s.flt.sticky.getLsbD n

/-- INT_N is asserted (R339). -/
def State.intAsserted (s : State) : Bool :=
  (List.range 96).any fun n => s.sticky n && decide (1 ≤ s.severity n) && !(s.sevField n).testBit 3

/-- A sticky bit of a source at severity 2 or higher is set. -/
def State.errSticky (s : State) : Bool := (List.range 96).any fun n => s.sticky n && decide (2 ≤ s.severity n)

def State.errMode (s : State) : Nat := if s.rf .fltErrCfg 0 31 30 = 3 then 1 else s.rf .fltErrCfg 0 31 30

/-- ERR_N is asserted (R340). -/
def State.errAsserted (s : State) : Bool := bit (s.rg .fltCtrl) 30 || s.flt.pulseEnd.isSome || s.flt.errHeld

def State.pulseMs (s : State) : Nat := max 2 (s.rf .fltErrCfg 0 7 0)

/-- The ERR_N pulse starts or restarts, and cancels every RELEASE before it (R340). -/
def State.errPulse (s : State) : State :=
  let n := s.now + msC s.pulseMs
  { s with flt := { s.flt with pulseEnd := some n, errHeld := false, relWritten := false } }

/-- After a pulse, ERR_N stays held only as long as its mode says (R340). -/
def State.settleErr (s : State) : State :=
  if s.flt.errHeld && (s.errMode = 0 || (s.errMode = 1 && !s.errSticky)) then { s with flt.errHeld := false } else s

/-! ### Reactions (R337, R338, R341) -/

def State.isolateLane (s : State) (l : Nat) : State :=
  State.mark { s with flt.isol := s.flt.isol ||| BitVec.ofNat 8 (2 ^ l) } (Reg.fltIsol.addr 0) (w32 (2 ^ l))

/-- PARK_ALL (R338): the bank ends, every chamber parks, and no map is in force. -/
def State.parkAll (s : State) : State :=
  let s := s.endBank s.ns
  let s := (List.range 32).foldl State.parkChamber s
  let s := State.mark { s with flt.parkedAll := true } (Reg.fltStatus.addr 0) (w32 (2 ^ 29))
  { s with fab.inForce := none }

/-- The sticky bit, count, DETAIL and time of a firing (R337, severity 0). -/
def State.record (s : State) (q : FireReq) : State :=
  let s := { s with flt.sticky := s.flt.sticky ||| BitVec.ofNat 96 (2 ^ q.src) }
  let s := s.mark (Reg.fltSticky.addr (q.src / 32)) (w32 (2 ^ (q.src % 32)))
  s.modFsrc q.src fun x =>
    { x with count := satN (x.count + 1) 0xFFFFFFFF, detail := BitVec.ofNat 16 q.detail, injected := q.injected,
             time := BitVec.ofNat 64 (timeField s.nt) }

/-- The FAULT event of a firing, at most one per source per millisecond (R341). -/
def State.faultEvent (s : State) (q : FireReq) : State :=
  let x := s.fsrc q.src
  let soon := match x.lastEvent with
    | some t => decide (s.now < t + msC 1)
    | none => false
  if soon then s else
    let d := leBytes 4 x.count ++ leBytes 2 q.detail ++
      [BitVec.ofNat 8 (unitOf q.src q.detail).code,
       BitVec.ofNat 8 (at_ q.injected 0 + at_ (isLevelSource q.src) 1)]
    (s.modFsrc q.src fun x => { x with lastEvent := some s.now }).event 16 (s.severity q.src) q.src d none
      (decide (q.src = 82))

/-- A source fires: every reaction of its severity in force (R336, R337). -/
def State.fireOne (s : State) (q : FireReq) : State :=
  if supSource q.src && !q.injected && !s.sup.available then s else
  let v := s.severity q.src
  let s := ((s.record q).irqPulse 82).faultEvent q
  let s := if 2 ≤ v then s.errPulse else s
  let s := if 3 ≤ v then
      (match unitOf q.src q.detail with
       | .chamber n => s.parkChamber n
       | .lane n => s.isolateLane n
       | .none => s)
    else s
  if v = 4 then s.parkAll else s

/-- Make the reactions of all firings, and of those that the reactions bring. -/
def State.drainFires : Nat → State → State
  | 0, s => { s with flt.fireQ := [] }
  | n + 1, s =>
    match s.flt.fireQ with
    | [] => s
    | q :: qs => State.drainFires n ((q :: qs).foldl State.fireOne { s with flt.fireQ := [] })

/-- An active level source keeps its sticky bit set, in every cycle (R334). -/
def State.relevel (s : State) : State :=
  let m := s.activeMask
  let s := { s with flt.sticky := s.flt.sticky ||| BitVec.ofNat 96 m }
  [0, 1, 2].foldl (fun s k => s.mark (Reg.fltSticky.addr k) (w32 (m / 2 ^ (32 * k)))) s

/-! ### Interrupt inputs (R366, R367) -/

/-- A command at the head of a ring waits for the supervisor; `ops` limits the opcodes. -/
def State.headWaits (s : State) (r : Nat) (ops : List Nat) : Bool :=
  match (s.ring r).entries with
  | e :: _ => e.state = .waitSup && (ops.isEmpty || byteAt e.bytes 0 ∈ ops)
  | [] => false

/-- Level of the input of an interrupt source; pulse inputs are low between pulses. -/
def State.irqInput (s : State) (n : Nat) : Bool :=
  if n < 16 then false
  else if n < 32 then (s.dmac (n - 16)).code = .busError
  else if n < 64 then s.rg .loopEvt (n - 32) ≠ 0#32 || bit (s.rg .loopTrcStatus (n - 32)) 29
  else if n < 80 then s.headWaits (n - 64) []
  else if n = 81 then s.core
  else if n = 89 then (List.range 16).any fun r => s.headWaits r [0x50, 0x51, 0x52, 0x53, 0x54]
  else false

/-- The present input sets PENDING, by its level or its edge (R367). -/
def IrqSrc.sets (q : IrqSrc) (x : Bool) : Bool :=
  match q.sense.toNat with
  | 0 => x && !q.active
  | 1 => x && !q.raw
  | 2 => !x && q.raw
  | _ => x != q.raw

/-- Take the present input. -/
def IrqSrc.sample (q : IrqSrc) (x : Bool) : IrqSrc := { q with raw := x, pending := q.pending || q.sets x }

/-- Take the present input of source `n`. -/
def State.irqTake (s : State) (n : Nat) : State :=
  let x := s.irqInput n
  (s.modIrq n fun q => q.sample x).mark (Reg.irqPend.addr (n / 32)) (w32 (at_ ((s.irqs n).sets x) (n % 32)))

def irqLevels : List Nat := (List.range 66).map (16 + ·) ++ [89]

def State.irqSample (s : State) : State :=
  irqLevels.foldl State.irqTake s

/-! ### The end of every command -/

/-- Close a command: reactions, level sources, ERR_N, and the interrupt inputs. -/
def State.finish (s : State) : State := ((State.drainFires 8 s).relevel.settleErr).irqSample

end Sys2Proof.Machine
end

