-- ==== Sys2Proof/Machine/DmaOps.lean ====
section
/-! DEFINITION. Address arithmetic of the DMA engine: the address of a side after a number of bytes, and the next burst
of a transfer (R359, R361, R362). -/

namespace Sys2Proof.Machine

/-- Fields of DMA_CHnn_CTRL. -/
def DmaCh.srcMode (c : DmaCh) : Nat := fld c.ctrl 25 24
def DmaCh.dstMode (c : DmaCh) : Nat := fld c.ctrl 23 22
def DmaCh.wrapLog (c : DmaCh) : Nat := fld c.ctrl 21 17
def DmaCh.burstLog (c : DmaCh) : Nat := fld c.ctrl 3 0
def DmaCh.trig (c : DmaCh) : Nat := fld c.ctrl 14 9
def DmaCh.prio (c : DmaCh) : Nat := fld c.ctrl 29 28

/-- Address of a side after `off` bytes (R361). -/
def sideAddr (mode wrap base off : Nat) : Nat :=
  if mode = 1 then base
  else if mode = 2 then base - base % 2 ^ wrap + (base + off) % 2 ^ wrap
  else base + off

/-- The channel copies in descending order (R362). -/
def DmaCh.descends (c : DmaCh) : Bool :=
  c.srcMode = 0 && c.dstMode = 0 && c.curSrc < c.curDst && c.curDst < c.curSrc + c.total

/-- Distance up to the next 256-byte boundary, and down to the one below an end. -/
def upTo256 (a : Nat) : Nat := 256 - a % 256
def downTo256 (e : Nat) : Nat := if e % 256 = 0 then 256 else e % 256

/-- The next burst: its offset in the transfer and its length (R359, R362). -/
def DmaCh.burst (c : DmaCh) : Nat × Nat :=
  let n := min (2 ^ c.burstLog) c.left
  if c.descends then
    let m := min n (min (downTo256 (c.curSrc + c.left)) (downTo256 (c.curDst + c.left)))
    (c.left - m, m)
  else
    let o := c.total - c.left
    let m := if c.srcMode = 0 then min n (upTo256 (c.curSrc + o)) else n
    let m := if c.dstMode = 0 then min m (upTo256 (c.curDst + o)) else m
    (o, m)

/-- Address of the next access of each side of the transfer in progress. -/
def DmaCh.nextSrc (c : DmaCh) : Nat := sideAddr c.srcMode c.wrapLog c.curSrc c.burst.1
def DmaCh.nextDst (c : DmaCh) : Nat := sideAddr c.dstMode c.wrapLog c.curDst c.burst.1

def DmaCode.code : DmaCode → Nat
  | .none => 0 | .done => 1 | .aborted => 2 | .busError => 3 | .refused => 4 | .linkLimit => 5

/-- The channel waits for its trigger or its request line (R356, R358). -/
def State.dmaWaits (s : State) (n : Nat) : Bool :=
  let c := s.dmac n
  c.busy && (if c.trig = 0 then false else if c.trig ≤ 5 then !s.dma.lines.getLsbD c.trig else !c.triggered)

end Sys2Proof.Machine
end

