-- ==== Sys2Proof/Machine/EndpointOps.lean ====
section
/-! DEFINITION. Operations of the scheduled endpoint: lanes and stamps, stream contexts and R-TAGs, queues, the guard
band, pre-emption, the ends of copies, the calendar wheel and slot buffers (chapter 08, R288, R289). -/

namespace Sys2Proof.Machine

/-! ### Lanes -/

def State.isolated (s : State) (l : Nat) : Bool := s.flt.isol.getLsbD l

def State.txEn (s : State) (l : Nat) : Bool := bit (s.rg .eptCfg l) 31
def State.rxEn (s : State) (l : Nat) : Bool := bit (s.rg .eptCfg l) 30

/-- The lane takes part in the self-test that runs (R438). -/
def State.inSelfTest (s : State) (l : Nat) : Bool := s.tst.busy && s.tst.pairs.getLsbD (l / 2)

/-- The lane sends a test pattern in place of frames: the self-test, or its bit of TST_MODE (R436, R438). -/
def State.laneTesting (s : State) (l : Nat) : Bool := s.inSelfTest l || bit (s.rg .tstMode) l

/-- A lane is powered while TX_EN or RX_EN is 1, and through a self-test (R376, R377, R438). -/
def State.lanePowered (s : State) (l : Nat) : Bool := s.core && (s.txEn l || s.rxEn l || s.inSelfTest l)

/-- SYS_LANERST reads 1 for the lane (R398). -/
def State.laneResetting (s : State) (l : Nat) : Bool :=
  (s.lane l).resetWait || (match (s.lane l).resetTill with
    | some t => decide (s.now < t)
    | none => false)

/-- A lane is available to a stream: TX_EN 1 and not isolated (R238, R338). -/
def State.laneAvail (s : State) (l : Nat) : Bool := s.txEn l && !s.isolated l

/-- The lane may start a frame now. -/
def State.txRuns (s : State) (l : Nat) : Bool :=
  s.core && s.laneAvail l && !s.laneTesting l && !s.laneResetting l

/-- MAX_LEN as it acts. -/
def State.maxLen (s : State) (l : Nat) : Nat := min (max (s.rf .eptCfg l 13 0) 64) 9018

/-- 25 times T_oct in 2^-16 ns: 0.8 ns or 0.32 ns (R225). -/
def Lane.oct25 (x : Lane) : Nat := if x.rate = 0#2 then 20 * 65536 else 8 * 65536

/-- Fast-clock cycles of `n` octets, rounded up, and whole octets in `c` cycles. -/
def Lane.octCycles (x : Lane) (n : Nat) : Nat :=
  if x.rate = 0#2 then (n * 8192 + 9999) / 10000 else (n * 32768 + 99999) / 100000

def Lane.octsIn (x : Lane) (c : Nat) : Nat := if x.rate = 0#2 then c * 10000 / 8192 else c * 100000 / 32768

/-- Corrections of a stamp, in 2^-16 ns (R176). -/
def tenthNs (n : Nat) : Nat := n * 65536 / 10

/-- From the first preamble octet to the first bit after the start frame delimiter, in 2^-16 ns (R176, R225). -/
def Lane.sfdDelay (x : Lane) : Nat := 8 * x.oct25 / 25

def Lane.txDelay (x : Lane) : Nat := tenthNs (if x.rate = 0#2 then 272 else if x.fec then 161 else 147)
def Lane.rxDelay (x : Lane) : Nat := tenthNs (if x.rate = 0#2 then 416 else if x.fec then 1183 else 224)

/-- Add to a lane counter, modulo 2^64 (R248). -/
def State.laneCnt (s : State) (l k n : Nat) : State :=
  s.modLane l fun x => { x with cnt := tmod (fun _ => 0) x.cnt k fun c => (c + n) % 2 ^ 64 }

/-- Add one to a stream counter, which saturates (R249). -/
def State.strCnt (s : State) (x k : Nat) : State :=
  s.modStream x fun q => { q with cnt := tmod (fun _ => 0) q.cnt k fun c => satN (c + 1) 0xFFFFFFFF }

/-! ### Link, lock and verify (R220, R229) -/

/-- The receiver gains or loses block lock; LINK_UP follows after 1 ms (R220). -/
def State.setLock (s : State) (l : Nat) (lock : Bool) : State :=
  s.modLane l fun x =>
    if x.blockLock = lock then x
    else { x with blockLock := lock, lockTimer := if lock = x.linkUp then none else some (s.now + msC 1) }

/-- The receiver loses block lock and FEC alignment. -/
def State.loseLock (s : State) (l : Nat) : State := (s.setLock l false).modLane l fun x => { x with fecLock := false }

/-- Discard a lane's link delay and what an exchange under way has measured; a new exchange starts (R174). -/
def State.dropDelay (s : State) (l : Nat) : State :=
  s.modDelay l fun d => { next := s.now, seq := d.seq }

def State.verifyMs (s : State) (l : Nat) : Nat := min (max (s.rf .eptPreempt l 23 16) 1) 128

/-- The verify procedure starts, or does not run (R229). -/
def State.startVerify (s : State) (l : Nat) : State :=
  let on := (s.lane l).preempt && bit (s.rg .eptPreempt l) 31 && (s.lane l).linkUp
  s.modLane l fun x =>
    { x with verify := if on then 1#2 else 0#2, verifyTries := 0,
             verifyTimer := if on then some (s.now + msC (s.verifyMs l)) else none }

/-- Pre-emption operates on a lane (R229). -/
def State.preemptActive (s : State) (l : Nat) : Bool :=
  (s.lane l).preempt && (!bit (s.rg .eptPreempt l) 31 || (s.lane l).verify = 2#2)

/-- Queue `q` is pre-emptable now (R227, R229). -/
def State.preemptable (s : State) (l q : Nat) : Bool :=
  s.preemptActive l && !(s.rf .eptPreempt l 7 0).testBit q

/-- PCS, MAC Merge and SerDes of a lane are reset; the lane returns within 2 ms (R398). -/
def State.resetLane (s : State) (l : Nat) : State :=
  let s := (s.loseLock l).dropDelay l
  let s := s.modLane l fun x => { x with resetWait := false, resetTill := some (s.now + msC 2) }
  s.startVerify l

/-! ### The end of the self-test (R438, R439) -/

/-- What the tested lanes measured: pattern errors, all ones after a loss of lock, and received power, both free values
(assumption 3); a lane passes with its lock held and no error. -/
def SelfTest.measure (t : SelfTest) (k : Nat) (ls : List Nat) (locked : Nat → Bool) : SelfTest :=
  let err := fun l => if t.lockLost.getLsbD l then 0xFFFFFFFF else Config.freeNat (k + l) % 2 ^ 32
  { t with err := ls.foldl (fun e l => tset (fun _ => 0) e l (err l)) [],
           pwr := ls.foldl (fun e l => tset (fun _ => 0) e l (Config.freeNat (k + 8 + l) % 2 ^ 16)) [],
           pass := BitVec.ofNat 8 (maskOf (ls.filter fun l => locked l && err l = 0)) }

/-- The self-test ends: its results, and every lane of a tested pair returns as after a lane reset. -/
def State.endTest (s : State) (aborted : Bool) : State :=
  if !s.tst.busy then s
  else
    let ls := (List.range 8).filter fun l => s.tst.pairs.getLsbD (l / 2)
    let q := s.tst.measure s.free ls fun l => (s.lane l).blockLock
    let e := satN ((s.now - s.tst.since) / secC 1) 255
    let t := { q with busy := false, ends := none, elapsed := e }
    let s := { s with tst := t }
    let s := { s with free := s.free + 16 }
    let s := s.setBit .tstStStatus 0 30
    let s := if aborted then s.setBit .tstStStatus 0 29 else s
    ls.foldl (fun s l => (s.loseLock l).dropDelay l) s

/-! ### Stream contexts (R232, R233) -/

def ctxBase (x : Nat) : Nat := 0x1580000 + 256 * x

/-- Configuration bytes of a context. -/
def State.ctx (s : State) (x : Nat) : List Byte := rdBytes s.sram (ctxBase x) 64

def cb (c : List Byte) (o i : Nat) : Bool := (byteAt c o).testBit i

def ctxValid (c : List Byte) : Bool := cb c 0 0
def ctxTx (c : List Byte) : Bool := cb c 0 1
def ctxRx (c : List Byte) : Bool := cb c 0 2
def ctxSeqGen (c : List Byte) : Bool := cb c 0 3
def ctxRcvy (c : List Byte) : Bool := cb c 0 4
def ctxStrip (c : List Byte) : Bool := cb c 0 5
def ctxTakeNoSeq (c : List Byte) : Bool := cb c 0 6
def ctxPair (c : List Byte) : Nat := bits (byteAt c 1) 1 0
def ctxMode (c : List Byte) : Nat := bits (byteAt c 1) 3 2
def ctxOdd (c : List Byte) : Bool := cb c 1 4
def ctxQueue (c : List Byte) : Nat := bits (byteAt c 2) 2 0
def ctxPaceEn (c : List Byte) : Bool := cb c 2 3
def ctxPolEn (c : List Byte) : Bool := cb c 2 4
def ctxSlotEn (c : List Byte) : Bool := cb c 2 5
def ctxSlotRx (c : List Byte) : Bool := cb c 2 6
def ctxPace (c : List Byte) : Nat := lef c 16 3
def ctxPolInterval (c : List Byte) : Nat := lef c 20 3
def ctxPolBurst (c : List Byte) : Nat := bits (byteAt c 23) 3 0
def ctxSlot (c : List Byte) : Nat := lef c 26 2

/-- POL_INTERVAL × 16 ns in 1/1000 of a cycle, and the first credit after a write of the context now (R243). -/
def polGap (c : List Byte) : Nat := ctxPolInterval c * 16 * 1024
def State.firstCredit (s : State) (c : List Byte) : Timer :=
  if ctxValid c && ctxPolEn c then some (s.now * 1000 + polGap c) else none

/-- A transmit-slot context (R245). -/
def ctxSlotTx (c : List Byte) : Bool := ctxValid c && ctxTx c && ctxSlotEn c && !ctxSlotRx c

/-- Contexts whose configuration is not all zeros, in rising order. -/
def State.ctxList (s : State) : List Nat :=
  s.sram.filterMap fun p =>
    if 0x1580000 ≤ p.1 && p.1 < 0x1680000 && (p.1 - 0x1580000) % 256 = 0 then some ((p.1 - 0x1580000) / 256) else none

/-! ### Tags (R235) -/

/-- Offset after the last VLAN tag, from `p`. -/
def tagPos : Nat → List Byte → Nat → Nat
  | 0, _, p => p
  | n + 1, f, p => if bef f p 2 = 0x8100 || bef f p 2 = 0x88A8 then tagPos n f (p + 4) else p

def afterTags (f : List Byte) : Nat := tagPos f.length f 12

/-- Insert the R-TAG with a sequence number. -/
def insertTag (f : List Byte) (seq : BitVec 16) : List Byte :=
  let p := afterTags f
  f.take p ++ [0xF1#8, 0xC1#8, 0#8, 0#8] ++ beBytes 2 seq.toNat ++ f.drop p

/-- Offset of the R-TAG of a frame. -/
def rtagAt (f : List Byte) : Option Nat :=
  let p := afterTags f
  if bef f p 2 = 0xF1C1 && decide (p + 6 ≤ f.length) then some p else none

/-! ### One-step insertion (R177) -/

def insSize (fmt : Nat) : Nat := if fmt = 0 then 10 else if fmt = 1 then 8 else 5

/-- The stamp as the field of an insertion format. -/
def insField (fmt stamp : Nat) : List Byte :=
  if fmt = 0 then beBytes 6 (nsOf stamp / 1000000000) ++ beBytes 4 (nsOf stamp % 1000000000)
  else if fmt = 1 then beBytes 8 (nsOf stamp) else beBytes 5 (nsOf stamp)

/-- What the module writes into a frame as it leaves: the insertion field, or the time of its own one-step Sync with
the fraction in correctionField. -/
def TxFrame.stamped (f : TxFrame) (stamp : Nat) : List Byte :=
  let o := match f.ins with
    | some (fmt, off) => putBytes f.octets off (insField fmt.toNat stamp)
    | none => f.octets
  if f.sync then putBytes (putBytes o 48 (insField 0 stamp)) 22 (beBytes 8 (stamp % 65536)) else o

/-- L: octets from DA to FCS. -/
def TxFrame.len (f : TxFrame) : Nat := f.octets.length + 4

/-! ### Transmit and receive entries (R288 to R290) -/

def txLen (b : List Byte) : Nat := bits (lef b 4 2) 13 0
def txCtx (b : List Byte) : Nat := bits (lef b 4 4) 27 16
def txQueue (b : List Byte) : Nat := bits (lef b 0 4) 18 16
def txLane (b : List Byte) : Nat := bits (lef b 0 4) 21 19
def txStream (b : List Byte) : Bool := bits (lef b 0 4) 22 22 = 1
def txIns (b : List Byte) : Option (BitVec 2 × Nat) :=
  if bits (lef b 0 4) 23 23 = 1 then some (BitVec.ofNat 2 (bits (lef b 0 4) 25 24), lef b 16 2) else none

/-- Bits of the control word that every entry of the host keeps (R252). -/
def cwOk (b : List Byte) : Bool := bits (lef b 0 4) 29 28 = 0 && bits (lef b 0 4) 31 31 ≠ bits (lef b 0 4) 30 30

/-- A transmit entry is not malformed (R289). -/
def txEncodingOk (b : List Byte) : Bool :=
  let cw := lef b 0 4
  let fmt := bits cw 25 24
  cwOk b && byteAt b 0 = 1 && bits cw 27 26 = 0 && bits (lef b 4 4) 15 14 = 0 && bits (lef b 4 4) 31 28 = 0 &&
    allZero b 18 14 && 60 ≤ txLen b && txLen b ≤ 9014 && fmt ≠ 3 &&
    (if bits cw 23 23 = 1 then lef b 16 2 + insSize fmt ≤ txLen b else lef b 16 2 = 0) &&
    (if txStream b then txQueue b = 0 && txLane b = 0 else txCtx b = 0)

/-- A receive entry is not malformed (R290). -/
def rxEncodingOk (b : List Byte) : Bool :=
  cwOk b && byteAt b 0 = 1 && bits (lef b 0 4) 27 16 = 0 && 64 ≤ lef b 4 4 && lef b 4 4 ≤ 9018 && allZero b 16 16

/-- Bytes 18 to 31 of a completion: sequence number, stamp and row count (R288, R290). -/
def stampBody (seq stamp : Nat) (row : Word) : List Byte :=
  leBytes 2 seq ++ leBytes 4 (nsOf stamp % 1000000000) ++ leBytes 2 stamp ++ leBytes 2 (nsOf stamp / 1000000000) ++
    leBytes 4 row.toNat

/-! ### Slot buffers (R244) -/

def slotBase (n : Nat) : Nat := 0x800 * n

def State.slotPut (s : State) (n o : Nat) (b : List Byte) : State :=
  { s with sram := wrBytes s.sram (slotBase n + o) b }

def State.slotLE (s : State) (n o k : Nat) : Nat := leNat (rdBytes s.sram (slotBase n + o) k)

/-! ### The ends of copies (R289, R245) -/

/-- Completion of a transmit entry from its parts: lane and stamp are those of the copy on the even lane of a REPLICATE
frame, else of the only copy; a frame of which one copy has left, or one began to leave, was sent (R288, R289). -/
def txDone (b : List Byte) (parts : List TxPart) (seq : Nat) : Completion :=
  let gone := parts.any (·.left)
  let p := (minBy (·.lane) parts).getD ⟨0, false, 0x42, 0, 0#32⟩
  let st := if gone then 0 else p.status
  let k := bits (lef b 0 4) 27 16
  let one := parts.length = 2 && gone && parts.any fun q => !q.left
  let k := bits k 2 0 + p.lane * 8 + bits k 9 6 * 64 + at_ one 10
  { status := BitVec.ofNat 8 st, taken := st = 0 || st = 0x41, kind := BitVec.ofNat 12 k,
    body := (b.drop 4).take 14 ++ stampBody (if st = 0 || st = 0x41 then seq else 0) p.stamp p.row }

/-- One copy of a frame has left or been discarded. -/
def State.partDone (s : State) (f : TxFrame) (p : TxPart) : State :=
  match f.src with
  | .entry r i =>
    let s := s.modEntry r i fun e => { e with parts := e.parts ++ [p] }
    (match (s.ring r).entries.find? (·.idx = i) with
     | some e =>
       if e.copies ≤ e.parts.length then s.complete r i (txDone e.bytes e.parts ((f.seq.map (·.toNat)).getD 0)) else s
     | none => s)
  | .slot x =>
    let c := s.ctx x
    if p.left && (ctxMode c ≠ 1 || p.lane % 2 = 0) then
      let age := s.slotLE (ctxSlot c) 18 1
      (s.slotPut (ctxSlot c) 12 (leBytes 4 (nsOf p.stamp % 1000000000))).slotPut (ctxSlot c) 16
        (leBytes 2 ((f.seq.map (·.toNat)).getD 0) ++ leBytes 2 age)
    else s
  | _ => s

/-- A copy on lane `l` is discarded with a status and counted in a lane counter. -/
def State.dropCopy (s : State) (f : TxFrame) (l cnt status : Nat) : State :=
  (s.laneCnt l cnt 1).partDone f { lane := l, left := false, status := status }

/-- A copy whose first fragment had left is given up: the frame keeps its stamp (R176, R229, R289). -/
def State.abortCopy (s : State) (l : Nat) (x : TxNow) : State :=
  (s.laneCnt l 10 1).partDone x.frame { lane := l, left := false, status := 0x41, stamp := x.stamp, row := x.row }

/-! ### Queues (R222) -/

def State.queue (s : State) (l q : Nat) : List TxFrame := tget (fun _ => []) (s.lane l).queues q

def State.setQueue (s : State) (l q : Nat) (fs : List TxFrame) : State :=
  s.modLane l fun x => { x with queues := tset (fun _ => []) x.queues q fs }

def State.queueFull (s : State) (l q : Nat) : Bool := 128 ≤ (s.queue l q).length

/-- A frame enters a queue. -/
def State.putFrame (s : State) (l q : Nat) (f : TxFrame) : State :=
  let fs := s.queue l q
  s.setQueue l q (fs ++ [{ f with headAt := if fs.isEmpty then some s.now else none }])

/-- The head of a queue leaves it, and the frame behind it comes to the head. -/
def State.popQueue (s : State) (l q : Nat) : State :=
  match s.queue l q with
  | [] => s
  | _ :: [] => s.setQueue l q []
  | _ :: f :: fs => s.setQueue l q ({ f with headAt := some s.now } :: fs)

def octetSum (fs : List TxFrame) : Nat := fs.foldl (fun n f => n + f.len) 0

/-- Lanes that a stream frame uses, and those whose copy is discarded for want of the lane (R238). -/
def State.lanesFor (s : State) (c : List Byte) : List Nat × List Nat :=
  let a := 2 * ctxPair c
  let all := if ctxMode c = 0 then [a + (if ctxOdd c then 1 else 0)] else [a, a + 1]
  if ctxMode c = 2 then
    match all.filter s.laneAvail with
    | [x, y] =>
      let q := ctxQueue c
      ([if octetSum (s.queue y q) < octetSum (s.queue x q) then y else x], [])
    | l => (l, [])
  else (all.filter s.laneAvail, all.filter fun l => !s.laneAvail l)

/-- A stream frame enters its queue or queues (R238). A full queue takes no slot frame (assumption 30). -/
def State.sendStream (s : State) (c : List Byte) (f : TxFrame) : State :=
  let (use, out) := s.lanesFor c
  let n := max (use.length + out.length) 1
  let s := match f.src with
    | .entry r i => s.modEntry r i fun e => { e with copies := n }
    | _ => s
  let s := out.foldl (fun s l => s.dropCopy f l 14 0x42) s
  let s := if use.isEmpty && out.isEmpty then s.partDone f ⟨2 * ctxPair c, false, 0x42, 0, 0#32⟩ else s
  use.foldl (fun s l => if s.queueFull l (ctxQueue c) then s else s.putFrame l (ctxQueue c) f) s

/-- A frame given to a stream takes its sequence number and R-TAG (R235); TX_FRAMES counts it. -/
def State.acceptStream (s : State) (x : Nat) (c : List Byte) (f : TxFrame) : TxFrame × State :=
  let g := (s.stream x).gen
  let s := s.strCnt x 0
  if ctxSeqGen c then
    let p := afterTags f.octets
    ({ f with octets := insertTag f.octets g, seq := some g, ctx := some x,
              ins := f.ins.map fun i => (i.1, if p ≤ i.2 then i.2 + 6 else i.2) },
     s.modStream x fun q => { q with gen := g + 1 })
  else ({ f with ctx := some x }, s)

/-- The head transmit entry waits for room in a queue or in a paced stream (R222, R242). -/
def State.txBlocked (s : State) (b : List Byte) : Bool :=
  if txStream b then
    let c := s.ctx (txCtx b)
    ctxValid c && ctxTx c && !ctxSlotTx c &&
      (if ctxPaceEn c then decide (16 ≤ (s.stream (txCtx b)).paced.length)
       else (s.lanesFor c).1.any fun l => s.queueFull l (ctxQueue c))
  else s.txEn (txLane b) && s.queueFull (txLane b) (txQueue b)

/-! ### The guard band (R225) -/

/-- Queue `q` is closed at `x` after a matrix boundary of the image. -/
def imgShut (g : Img) (quiet : Bool) (l q x : Nat) : Bool :=
  let (gs, k) := gateAt g l x
  !(gs.testBit q) || (quiet && k = 1)

/-- First close of the queue at or after the boundary `t`, at which the bank begins. -/
def closeFrom (g : Img) (quiet : Bool) (l q t : Nat) : Option Nat :=
  if imgShut g quiet l q 0 then some t else nextCloseIn g quiet l q t t

def before (c : Option Nat) (t : Nat) : Bool :=
  match c with
  | some x => decide (x < t)
  | none => false

/-- t_close of a queue: from the bank that is in force at that instant (R206, R225). -/
def State.nextClose (s : State) (l q : Nat) : Option Nat :=
  let w := s.quiet
  match s.sched.run with
  | none =>
    (match s.sched.start with
     | some st => st.boundary.bind fun t => closeFrom (s.bankImg st.bank) w l q t
     | none => none)
  | some r =>
    let c := nextCloseIn (s.bankImg r.bank) w l q r.matrix s.nt
    match s.sched.stopAt, s.sched.swap with
    | some t, none => if before c t then c else none
    | none, some p => if before c p.boundary then c else closeFrom (s.bankImg p.bank) w l q p.boundary
    | some t, some p =>
      if t ≤ p.boundary then (if before c t then c else none)
      else if before c p.boundary then c else closeFrom (s.bankImg p.bank) w l q p.boundary
    | none, none => c

/-- A frame of `n` octets that starts now ends before its queue closes. -/
def State.fits (s : State) (l q n : Nat) : Bool :=
  match s.nextClose l q with
  | none => true
  | some t => decide (s.nt * 25 + (8 + n) * (s.lane l).oct25 ≤ t * 25)

/-! ### Eligibility (R224, R228, R230) -/

def State.shaper (s : State) (l q : Nat) : Shaper := tget (fun _ => {}) (s.lane l).shapers q

def Shaper.passes (v : Shaper) : Bool := !v.en || decide (0 ≤ v.level)

/-- The head frame of a queue, or the remainder of its pre-empted frame, may start now. While a remainder waits, no
other frame of a pre-emptable queue starts (R227: one frame at a time in the MAC Merge sublayer). -/
def State.canStart (s : State) (l q : Nat) : Bool :=
  s.gateOpen l q &&
  match (s.lane l).rest.find? (·.1 = q) with
  | some (_, r) => s.fits l q (r.frame.len - r.sent)
  | none =>
    match s.queue l q with
    | [] => false
    | f :: _ =>
      !(s.preemptable l q && !(s.lane l).rest.isEmpty) &&
      ((s.laneKind l = .arbitrating && s.preemptable l q) || s.fits l q f.len) &&
      (s.laneKind l = .exclusive || (s.shaper l q).passes)

/-- Queues in falling order of priority. -/
def queuesDown : List Nat := [7, 6, 5, 4, 3, 2, 1, 0]

/-! ### Starting and cutting a frame -/

/-- The head frame of queue `q` starts on lane `l`: its stamp, the debit of its shaper, and its row count. -/
def State.startFrame (s : State) (l q : Nat) : State :=
  match (s.lane l).rest.find? (·.1 = q) with
  | some (_, r) =>
    (s.modLane l fun x => { x with cur := some { r with since := s.now }, rest := x.rest.filter (·.1 ≠ q) }).laneCnt l 11 1
  | none =>
    match s.queue l q with
    | [] => s
    | f :: _ =>
      let arb := decide (s.laneKind l = .arbitrating)
      let s := s.popQueue l q
      let stamp := s.nt + (s.lane l).sfdDelay + (s.lane l).txDelay
      let f := { f with octets := f.stamped stamp, headAt := none }
      s.modLane l fun x =>
        { x with cur := some { frame := f, queue := q, stamp := stamp, row := s.sched.rowCnt, since := s.now },
                 shapers := tmod (fun _ => {}) x.shapers q fun v =>
                   if v.en && arb then { v with level := v.level - (f.len + 20) * 256 } else v }

/-- Octets of the present fragment when it is cut at the first permitted point at or after now: at least 60, with at
least 64 octets left to send (R227: 64-octet fragments with mCRC). -/
def State.cutPoint (s : State) (l : Nat) (x : TxNow) : Option Nat :=
  let k := max 60 ((s.lane l).octsIn (s.now - x.since) - 8)
  if x.sent + k + 64 ≤ x.frame.len then some k else none

/-- Pre-empt the frame in progress at the first permitted point, if there is one (R228). -/
def State.cut (s : State) (l : Nat) : State :=
  match (s.lane l).cur with
  | none => s
  | some x =>
    match s.cutPoint l x with
    | none => s
    | some k =>
      (s.modLane l fun y =>
        { y with cur := none, busyTill := x.since + y.octCycles (8 + k + 4),
                 rest := y.rest.filter (·.1 < x.queue) ++ [(x.queue, { x with sent := x.sent + k })] ++
                   y.rest.filter (x.queue < ·.1) }).emit (.fragment l (x.sent + k))

/-- After a gate event: a pre-emptable frame whose queue has closed is pre-empted (R228). -/
def State.cutIfClosed (s : State) (l : Nat) : State :=
  match (s.lane l).cur with
  | some x => if s.preemptable l x.queue && !s.gateOpen l x.queue then s.cut l else s
  | none => s

/-- The gates that the module holds closed cut a pre-emptable frame in progress (R73, R228). -/
def State.shutGates (s : State) : State :=
  (List.range 8).foldl (fun s l => if s.shutFor l then s.cutIfClosed l else s) s

/-- Remainders that wait on a lane are discarded when a circuit change affecting its connection starts (R229). -/
def State.abortRests (s : State) (l : Nat) : State :=
  let rs := (s.lane l).rest
  rs.foldl (fun s p => s.abortCopy l p.2) (s.modLane l fun x => { x with rest := [] })

/-- A frame that has come to the head of its queue is at the head from now on. -/
def atHead (now : Nat) (fs : List TxFrame) : List TxFrame :=
  match fs with
  | f :: l => { f with headAt := some (f.headAt.getD now) } :: l
  | [] => []

/-- Frames of ring entries that have not begun to leave are removed (R270); `p` picks them. -/
def State.unqueue (s : State) (p : FrameSrc → Bool) : State :=
  let left := fun (fs : List TxFrame) => atHead s.now (fs.filter fun f => !p f.src)
  let s := (s.ept.lanes.map (·.1)).foldl (fun s l => s.modLane l fun x =>
    { x with queues := (x.queues.map fun q => (q.1, left q.2)).filter fun q => !q.2.isEmpty }) s
  (s.ept.streams.map (·.1)).foldl (fun s x => s.modStream x fun q =>
    { q with paced := q.paced.filter fun f => !p f.2.src }) s

/-! ### The module's own frames and the link delay service (R172, R174, R222) -/

/-- Queue of the module's own frames on a lane. -/
def State.ctrlQ (s : State) (l : Nat) : Nat := s.rf .eptCfg l 23 21

/-- The module's own frame enters queue CTRL_Q of a lane, unless that queue is full. -/
def State.sendOwn (s : State) (l : Nat) (f : TxFrame) : State :=
  if s.queueFull l (s.ctrlQ l) then s else s.putFrame l (s.ctrlQ l) f

def State.instEn (s : State) (n : Nat) : Bool := bit (s.rg .timeDomCfg n) 31
def State.instGm (s : State) (n : Nat) : Bool := bit (s.rg .timeDomCfg n) 30

/-- ROLE of lane `l` in an instance as it acts now (R175): 0 DISABLED, 1 SLAVE, 2 MASTER, 3 PASSIVE. -/
def State.ptpRole (s : State) (n l : Nat) : Nat :=
  let k := s.inst n
  if s.now < tget (fun _ => 0) k.roleAt l then bits k.roleOld.toNat (2 * l + 1) (2 * l)
  else fld (s.rg .timeDomCfg n) (2 * l + 1) (2 * l)

/-- A lane's receiver delivers frames, and its connection stands. -/
def State.ptpRx (s : State) (l : Nat) : Bool :=
  let x := s.lane l
  s.lanePowered l && s.rxEn l && x.blockLock && !s.laneTesting l && !s.laneResetting l && !x.connBusy

/-- The link delay service runs on a lane: some enabled instance gives it a role. -/
def State.delayRuns (s : State) (l : Nat) : Bool := (List.range 2).any fun n => s.instEn n && s.ptpRole n l ≠ 0

/-- DA, SA and EtherType of a gPTP frame of a lane. -/
def State.ptpHead (s : State) (l : Nat) : List Byte :=
  [0x01#8, 0x80#8, 0xC2#8, 0#8, 0#8, 0x0E#8] ++ beBytes 6 (s.rg8 .eptMac l) ++ [0x88#8, 0xF7#8]

/-- A Pdelay message of IEEE 802.1AS from lane `l` (assumption 32): its type, flags, correction and sequenceId,
logMessageInterval, and its body. -/
def State.pdelay (s : State) (l type flags corr seq log : Nat) (body : List Byte) : List Byte :=
  s.ptpHead l ++ [BitVec.ofNat 8 (0x20 + type), 0x12#8] ++ beBytes 2 54 ++ [0#8, 0#8, BitVec.ofNat 8 flags, 8#8] ++
    beBytes 8 corr ++ zeros 4 ++ (List.range 8).map Config.clockIdentity ++ beBytes 2 (l + 1) ++ beBytes 2 seq ++
    [5#8, BitVec.ofNat 8 log] ++ body

/-- A request waits on the lane or leaves it. -/
def State.asking (s : State) (l : Nat) : Bool :=
  ((s.lane l).queues.any fun q => q.2.any fun f => f.src = .delayReq) || (s.lane l).cur.any fun x => x.frame.src = .delayReq

/-- An exchange starts on a lane once its time has come: a Pdelay_Req enters CTRL_Q, and so leaves in the lane's next
open transmit window. One starts each second, the default interval (R172; assumption 65). -/
def State.askDelay (s : State) (l : Nat) : State :=
  if s.delayRuns l && s.ptpRx l && s.txRuns l && decide ((s.delayOf l).next ≤ s.now) && !s.asking l &&
      !s.queueFull l (s.ctrlQ l) then
    let f : TxFrame := { octets := s.pdelay l 2 0 0 (s.delayOf l).seq 0 (zeros 20), src := .delayReq }
    (s.modDelay l fun d => { d with next := s.now + secC 1, seq := (d.seq + 1) % 65536 }).sendOwn l f
  else s

def State.askDelays (s : State) : State := (List.range 8).foldl State.askDelay s

/-- The Pdelay_Resp to a Pdelay_Req `f` that was stamped at `stamp`. -/
def State.answerDelay (s : State) (l : Nat) (f : List Byte) (stamp : Nat) : State :=
  if s.delayRuns l && s.txRuns l then
    let h := f.drop (afterTags f + 2)
    s.sendOwn l { octets := s.pdelay l 3 2 (stamp % 65536) (bef h 30 2) 0x7F (insField 0 stamp ++ (h.drop 20).take 10),
                  src := .delayResp }
  else s

/-- The Pdelay_Resp_Follow_Up of a Pdelay_Resp `o` that left at `stamp`. -/
def delayFollowUp (o : List Byte) (stamp : Nat) : List Byte :=
  putBytes (putBytes (putBytes (putBytes o 14 [0x2A#8]) 20 [0#8]) 22 (beBytes 8 (stamp % 65536))) 48 (insField 0 stamp)

/-! ### The calendar wheel (R240 to R242) -/

/-- Wheel slot of the present time. -/
def State.slotNo (s : State) : Nat := s.ns / 16

def insertEvent (e : WheelEvent) (l : List WheelEvent) : List WheelEvent :=
  insertBy (fun e => e.slot * 4096 + e.ctx) e l

/-- Place an event in the first slot that starts at or after its time, or on the overflow list. -/
def State.addEvent (s : State) (time x : Nat) : State :=
  let e : WheelEvent := { time := time, ctx := x, slot := (time + 15) / 16 }
  if s.slotNo + 16383 < e.slot then { s with ept.ovfl := insertEvent e s.ept.ovfl }
  else { s with ept.wheel := insertEvent e s.ept.wheel }

/-- The slot of an event has come. -/
def State.slotDue (s : State) (e : WheelEvent) : Bool := s.isDue (e.slot * 16)

/-- Release time of a frame held at `held` ns (R242). -/
def Stream.releaseAt (q : Stream) (c : List Byte) (held : Nat) : Nat :=
  match q.lastRelease with
  | some t => max held (t + ctxPace c * 16)
  | none => held

/-- A frame waits for its release. -/
def State.pace (s : State) (x : Nat) (c : List Byte) (f : TxFrame) : State :=
  let q := s.stream x
  let t := ceilNs s.nt
  let s := s.modStream x fun q => { q with paced := q.paced ++ [(t, f)] }
  if q.paced.isEmpty then s.addEvent (q.releaseAt c t) x else s

/-- Release the first paced frame of a stream; it waits on while its queue is full. -/
def State.releasePaced (s : State) (x time : Nat) : State :=
  let c := s.ctx x
  match (s.stream x).paced with
  | [] => s
  | (_, f) :: rest =>
    if (s.lanesFor c).1.any fun l => s.queueFull l (ctxQueue c) then s.addEvent (time + 16) x
    else
      let s := (s.modStream x fun q => { q with paced := rest, lastRelease := some time }).sendStream c f
      match rest with
      | [] => s
      | (h, _) :: _ => s.addEvent ((s.stream x).releaseAt c h) x

/-! ### Transmit slots (R245) -/

/-- Events of transmit slots for row `r` that starts at `t`, not before `from_` (2^-16 ns), unless they wait already
(R241). -/
def State.planSlots (s : State) (r : Nat) (t : Int) (rowLen from_ : Nat) : State :=
  s.ctxList.foldl (fun s x =>
    let c := s.ctx x
    let off := bits (lef c 30 4) 16 0 * 32 * 65536
    let e := ceilNs (t + off).toNat
    let there := fun (v : WheelEvent) => v.ctx = x && v.time = e
    if ctxSlotTx c && r % byteAt c 28 = byteAt c 29 && off < rowLen && decide ((from_ : Int) ≤ t + off) &&
        !(s.ept.wheel.any there || s.ept.ovfl.any there) then s.addEvent e x
    else s) s

/-- The slots of the present row of the running bank from `t` on. -/
def State.planRow (s : State) (t : Nat) : State :=
  match s.sched.run with
  | none => s
  | some r =>
    let n := imgRow (s.bankImg r.bank)
    s.planSlots r.row (r.next - n) n t

/-- Release of the transmit slot of context `x`. -/
def State.releaseSlot (s : State) (x : Nat) : State :=
  let c := s.ctx x
  let n := ctxSlot c
  let q := s.stream x
  let seq := s.slotLE n 0 4
  let len := s.slotLE n 4 2
  let (use, _) := s.lanesFor c
  let torn := seq % 2 = 1 || len < 60 || 1984 < len ||
    use.any fun l => s.maxLen l < len + 4 + (if ctxSeqGen c then 6 else 0)
  let fresh := !torn && (q.goodCopy.isNone || decide (seq ≠ q.goodSeq.toNat))
  let s := if torn then s.strCnt x 12 else s
  let s := if fresh then s.modStream x fun q =>
      { q with goodCopy := some (rdBytes s.sram (slotBase n + 64) len), goodSeq := w32 seq, age := 0 }
    else s
  let s := s.slotPut n 8 (leBytes 4 s.sched.rowCnt.toNat)
  match (s.stream x).goodCopy with
  | none => s.strCnt x 13
  | some d =>
    let s := if fresh then s else (s.modStream x fun q => { q with age := min (q.age + 1) 255 })
    let a := (s.stream x).age
    let off := lef c 34 2
    let d := if off ≠ 0 && off < d.length then putBytes d off [BitVec.ofNat 8 a] else d
    if use.isEmpty then (s.sendStream c { octets := d, src := .slot x }).strCnt x 13
    else
      let s := if fresh then s else s.strCnt x 11
      let (f, s) := s.acceptStream x c { octets := d, src := .slot x }
      (s.slotPut n 18 (leBytes 2 a)).sendStream c f

/-- An event of the wheel is handled: a paced release, or the release of a slot while a bank runs. -/
def State.handleEvent (s : State) (e : WheelEvent) : State :=
  if !(s.stream e.ctx).paced.isEmpty then s.releasePaced e.ctx e.time
  else if ctxSlotTx (s.ctx e.ctx) && s.sched.run.isSome then s.releaseSlot e.ctx
  else s

/-- The first event that is due, in the order of slots and contexts, is handled; with 8 handled in its slot the events
left there go to the next slot, with CARRY (R240). -/
def State.serveOne (s : State) (e : WheelEvent) : State :=
  let used := if s.ept.slotAt = e.slot then s.ept.slotUsed else 0
  if used < 8 then
    let s := s.onEpt fun q => { q with wheel := q.wheel.erase e, slotAt := e.slot, slotUsed := used + 1 }
    s.handleEvent e
  else
    let late := (s.ept.wheel.filter (·.slot = e.slot)).map fun v => { v with slot := e.slot + 1 }
    let s := s.onEpt fun q => { q with wheel := late.foldl (fun l v => insertEvent v l) (q.wheel.filter (·.slot ≠ e.slot)) }
    s.setBit .eptWheelStatus 0 31

/-- Serve due events while the first of them satisfies `p`. -/
def State.serveWhile : Nat → (WheelEvent → Bool) → State → State
  | 0, _, s => s
  | n + 1, p, s =>
    match s.ept.wheel.find? s.slotDue with
    | none => s
    | some e => if p e then State.serveWhile n p (s.serveOne e) else s

/-- Order of service of an event. -/
def WheelEvent.key (e : WheelEvent) : Nat := e.slot * 4096 + e.ctx

end Sys2Proof.Machine
end

