-- ==== Sys2Proof/Machine/Flags.lean ====
section
/-! DEFINITION. What a register reads: the stored word of a register that software writes, and for every status
register its fields as the state gives them (register tables of every chapter). -/

namespace Sys2Proof.Machine

/-! ### Encodings -/

/-- The state that SMBus command 00h returns (R416). -/
def Phase.code : Phase → Nat
  | .unpowered => 5 | .reset => 5 | .starting => 0 | .running => 1 | .stabling => 2 | .stabled => 3 | .waking => 4

def PState.code : PState → Nat
  | .off => 0 | .castingOn => 1 | .on => 2 | .bindingOff => 3 | .hold => 4 | .reset => 5

def Mode.code : Mode → Nat
  | .park => 0 | .trajectory => 1 | .holdPosition => 2 | .holdOptical => 3 | .cal => 4

def Pos.code : Pos → Nat
  | .rest => 0 | .bar => 1 | .cross => 2 | .moving => 3

def FailSrc.code : FailSrc → Nat
  | .factory => 0 | .installer => 1 | .module => 2

def FailKind.code : FailKind → Nat
  | .stuckBar => 1 | .stuckCross => 2 | .darkOnly => 3

def BankState.code : BankState → Nat
  | .empty => 0 | .loading => 1 | .valid => 2 | .running => 3 | .pending => 4 | .refused => 5

def TimeState.code : TimeState → Nat
  | .free => 0 | .locking => 1 | .locked => 2 | .holdover => 3 | .freeRun => 4

def RingState.code : RingState → Nat
  | .disabled => 0 | .running => 1 | .error => 2 | .resetting => 3

def CascRole.code : CascRole → Nat
  | .disabled => 0 | .worker => 1 | .claiming => 2 | .trainMgr => 3 | .deputy => 4 | .stack => 5

/-- Driver code of a drive in Q1.30: round(16383 · sqrt(d / 2^30)) (R99), bit by bit from the top; a tie, for which R99
gives no rule, goes up (DESIGN CHOICE, assumption 62). -/
def driveCode (d : Int) : Nat :=
  let n := 4 * 16383 * 16383 * d.toNat
  [13, 12, 11, 10, 9, 8, 7, 6, 5, 4, 3, 2, 1, 0].foldl (fun c k =>
    let t := c + 2 ^ k
    if t ≤ 16383 && (2 * t - 1) * (2 * t - 1) * 2 ^ 30 ≤ n then t else c) 0

/-! ### Fabric -/

/-- Cells of a chamber cared in the map in force. -/
def State.caredCount (s : State) (h : Nat) : Nat :=
  match s.fab.inForce with
  | none => 0
  | some m => ((s.caredCells m).filter fun d => chamberOf d.1 = h).length

/-- FAB_MAP_STATUS (R69, R74). NEXT_MAP names the map of the running change, else that of the change that comes next
while a pattern runs; where the pattern itself has none but a timed command waits, it is that command's map (DESIGN
CHOICE, assumption 66). -/
def State.mapStatus (s : State) : Word :=
  let cmd := s.fab.change.any fun ch => match ch.src with | .scheduled _ => false | _ => true
  let nxt := match s.fab.change, s.sched.run with
    | some ch, _ => ch.map
    | none, some _ => (s.nextChange.map (·.1)).getD 0
    | none, none => 0
  w32 (at_ s.fab.change.isSome 31 + at_ cmd 30 + nxt * 2 ^ 16 + at_ s.fab.inForce.isSome 15 + s.fab.inForce.getD 0)

/-- TARGET of FAB_CELL_STATUS. -/
def State.target (s : State) (c : Nat) : Nat :=
  let m := match s.fab.change with
    | some ch => some ch.map
    | none => s.fab.inForce
  match m with
  | none => 0
  | some m => match s.caredState m c with
    | none => 0
    | some false => 1
    | some true => 2

/-- FAB_CELL_STATUS of the selected cell (R92). -/
def State.cellStatus (s : State) : Word :=
  let c := s.rf .fabCellSel 0 10 0
  let x := s.cell c
  w32 (at_ (s.pstate (chamberOf c) = .on) 31 + at_ (s.failed c).isSome 30 + x.pos.code * 2 ^ 28 +
    s.target c * 2 ^ 26 + at_ x.staged 25 + at_ (s.isLit c) 24 + x.mode.code * 2 ^ 21 + at_ x.dropped 20 +
    at_ x.reverted 19 + (x.hist.filter (·.1)).length * 2 ^ 8)

/-- Wear level of a count (FAB_DRIP.LEVEL; R94). -/
def wearLevelOf (n : Nat) : Nat :=
  if 20000000000000 ≤ n then 4 else if 19000000000000 ≤ n then 3 else if 16000000000000 ≤ n then 2
  else if 10000000000000 ≤ n then 1 else 0

/-- FAB_DRIP of an element (R152). -/
def State.dripWord (s : State) (e : Nat) : Dword :=
  BitVec.ofNat 64 (at_ s.fab.estimated 63 + wearLevelOf (s.drip e) * 2 ^ 60 + s.drip e)

def State.readFab (s : State) (r : Reg) (i w : Nat) : Word :=
  match r with
  | .fabFailStatus => w32 (s.fab.failGen.toNat * 256 + at_ (bit (s.rg .fabFailStatus) 5) 5 + s.fab.failed.length)
  | .fabFail => match s.fab.failed[i]? with
    | some f => w32 (f.src.code * 2 ^ 14 + f.kind.code * 2 ^ 12 + f.cell)
    | none => 0#32
  | .fabMapStatus => s.mapStatus
  | .fabChStatus => w32 (s.caredCount i * 256 + (s.pstate i).code)
  | .fabCellStatus => s.cellStatus
  | .fabPeriodStatus =>
    let p := s.loop.period
    w32 (p.active.toNat * 2 ^ 30 + at_ p.locked 29 + at_ (bit (s.rg .fabPeriodStatus) 28) 28 + at_ p.fading 27 +
      p.period / 1024)
  | .fabDriftStatus => w32 (at_ (bit (s.rg .fabDriftStatus) 31) 31 + s.fab.driftWhich.toNat * 2 ^ 24 + s.fab.driftCell)
  | .fabDrip => w32 (s.fab.dripSnap.toNat / 2 ^ (32 * w))
  | .fabWearSumCfg => w32 (at_ s.fab.sumNow 31 + fld (s.rg .fabWearSumCfg) 30 0)
  | .fabHistWr => if w = 0 then w32 s.fab.histOff else w32 (s.fab.histOff / 2 ^ 32 + s.fab.histLap * 2 ^ 16)
  | .fabSpoolStatus => w32 (s.fab.spoolDrops * 2 ^ 16 + s.fab.spool.length * 32 / 1024)
  | _ => s.rg r i w

/-! ### Loops -/

/-- Snapshot of a cell's loops (R130). -/
def State.loopSnap (s : State) (c : Nat) : LoopSnap :=
  let x := s.cell c
  let on := s.pstate (chamberOf c) = .on
  let l := if on then
      x.mode.code * 2 ^ 29 + at_ x.m.msat 28 + at_ x.o.osat 27 + at_ x.b.bsat 26 + at_ (x.m.r ≠ x.m.tgt) 25 +
        at_ x.o.defer 24 + (min x.o.deferCnt 8) * 2 ^ 20 + at_ x.o.refused 19 + at_ x.o.holdSmp 18 + at_ x.b.settled 17
    else 2 ^ 16
  { lstat := w32 l, lpos := BitVec.ofInt 32 x.m.y, lsp := BitVec.ofInt 32 x.m.sp, ltgt := BitVec.ofInt 32 x.m.tgt,
    ltrim := BitVec.ofInt 32 x.o.trim,
    ldrv := w32 (at_ x.mpol 31 + driveCode (s.mainDrive c) * 2 ^ 16 + at_ x.bpol 15 + driveCode (s.balDrive c)),
    lprof := w32 (x.bidx.toNat * 2 ^ 16 + x.oidx.toNat * 2 ^ 8 + x.midx.toNat) }

def State.readLoop (s : State) (r : Reg) (i w : Nat) : Word :=
  let k := s.chan i
  match r with
  | .loopLstat => k.snap.lstat
  | .loopLpos => k.snap.lpos
  | .loopLsp => k.snap.lsp
  | .loopLtgt => k.snap.ltgt
  | .loopLtrim => k.snap.ltrim
  | .loopLdrv => k.snap.ldrv
  | .loopLprof => k.snap.lprof
  | .loopProfileIdx =>
    let v := s.rg .loopProfileIdx i
    let x := s.cell (64 * i + fld v 13 8)
    let n := match fld v 15 14 with
      | 1 => x.midx
      | 2 => x.oidx
      | 3 => x.bidx
      | _ => 0#8
    w32 (fld v 31 8 * 256 + n.toNat)
  | .loopTrcCtrl => w32 (at_ k.trace.armed 31 + fld (s.rg .loopTrcCtrl i) 29 0)
  | .loopOdetStatus => w32 (fld (s.rg .loopOdetStatus i) 31 29 * 2 ^ 29 + k.lastCell * 2 ^ 16 + k.odetCount)
  | .loopTrcStatus =>
    w32 (at_ k.trace.armed 31 + at_ k.trace.triggered 30 + at_ (bit (s.rg .loopTrcStatus i) 29) 29 +
      k.trace.wrIdx * 2 ^ 14 + k.trace.trigIdx)
  | _ => s.rg r i w

/-! ### Time and schedule -/

/-- θ as TIME_DOMn_OFFSET reports it: 2^-8 ns, saturated. -/
def thetaWord (x : Int) : Word := BitVec.ofInt 32 (sat32 (asr x 8))

/-- TIME_SNAP as one 160-bit number. -/
def State.snapBits (s : State) : Nat :=
  let n := s.time.snapNt
  s.time.snapRaw.toNat + n % 65536 * 2 ^ 64 + nsOf n % 1000000000 * 2 ^ 80 + nsOf n / 1000000000 % 2 ^ 48 * 2 ^ 112

def State.readTime (s : State) (r : Reg) (i w : Nat) : Word :=
  match r with
  | .timeSnap => w32 (s.snapBits / 2 ^ (32 * w))
  | .timeInc => w32 s.time.inc
  | .timeStatus =>
    w32 (s.time.state.code * 2 ^ 29 + at_ s.time.drift 28 + fld (s.rg .timeStatus) 27 23 * 2 ^ 23 +
      at_ (s.inst 0).valid 22 + at_ (s.inst 1).valid 21 + at_ s.time.ppsValid 20 + s.time.refCnt * 256)
  | .timeDomOffset => thetaWord (s.inst i).theta
  | .schedStatus =>
    let q := s.sched
    w32 (at_ q.run.isSome 31 + ((q.run.map (·.bank)).getD 0) * 2 ^ 29 + at_ q.swap.isSome 28 +
      ((q.swap.map (·.bank)).getD 0) * 2 ^ 26 + at_ q.failQuiet 25 + at_ (bit (s.rg .schedStatus) 24) 24 +
      at_ q.hold.isSome 23 + ((q.hold.map (·.why.code)).getD 0) * 2 ^ 21 + at_ (bit (s.rg .schedStatus) 20) 20 +
      (q.run.map (·.row)).getD 0)
  | .schedBankStatus =>
    let b := s.bank i
    w32 (b.state.code * 2 ^ 29 + at_ b.marginStale 28 + b.checkDrift)
  | .schedRowcnt => s.sched.rowCnt
  | _ => s.rg r i w

/-! ### Endpoint and rings -/

def State.readEpt (s : State) (r : Reg) (i w : Nat) : Word :=
  match r with
  | .eptCfg =>
    let x := s.lane i
    w32 (fld (s.rg .eptCfg i) 31 30 * 2 ^ 30 + x.rate.toNat * 2 ^ 28 + at_ x.fec 27 + at_ x.preempt 26 +
      fld (s.rg .eptCfg i) 25 0)
  | .eptStatus =>
    let x := s.lane i
    w32 (at_ x.linkUp 31 + at_ x.blockLock 30 + at_ (x.fec && x.fecLock) 29 + at_ (bit (s.rg .eptStatus i) 28) 28 +
      x.verify.toNat * 2 ^ 26 + at_ (s.preemptActive i) 25)
  | .eptShape =>
    if w = 1 then s.rg .eptShape i 1
    else
      let v := tget (fun _ => ({} : Shaper)) (s.lane (i / 8)).shapers (i % 8)
      w32 (fld (s.rg .eptShape i) 15 0 + unsigned 16 (asr v.level 8) * 2 ^ 16)
  | .eptWheelStatus => w32 (at_ (bit (s.rg .eptWheelStatus) 31) 31 + s.ept.ovfl.length)
  | .eptCnt => w32 (tget (fun _ => 0) (s.lane (i / 16)).cnt (i % 16) / 2 ^ (32 * w))
  | .eptStrCnt => w32 (tget (fun _ => 0) s.ept.strSnap i)
  | _ => s.rg r i w

/-- The head entry of a ring waits (R262): a command for the supervisor, a time or a change; a frame for room. -/
def State.ringWaits (s : State) (r : Nat) : Bool :=
  if isCommand r then
    match (s.ring r).entries with
    | e :: _ => s.cmdWaits r e
    | [] => false
  else if isTransmit r then
    match (s.ring r).entries.find? fun e => e.state = .ready && e.done.isNone with
    | some e => s.txBlocked e.bytes
    | none => false
  else false

def State.readRing (s : State) (r : Reg) (i w : Nat) : Word :=
  let g := s.ring i
  match r with
  | .ringCtrl => w32 (at_ (g.state = .resetting) 30)
  | .ringStatus =>
    w32 (g.state.code * 2 ^ 29 + at_ (s.ringWaits i) 28 + fld (s.rg .ringStatus i) 27 25 * 2 ^ 25 +
      at_ (!s.pwr.bme) 24 + g.ci)
  | .ringIdx => w32 g.fi
  | .ringErr => w32 (g.errCode.toNat * 2 ^ 28 + g.errIdx)
  | .ringLost => w32 g.lost
  | .ringDb => if w = 0 then w32 g.pi else 0#32
  | .ringErrSum => w32 (maskOf ((List.range 32).filter fun j => (s.ring (32 * i + j)).state = .error))
  | _ => s.rg r i w

/-! ### Consists, roles, faults -/

/-- Members heard by a manager, itself included (R304). -/
def State.memberCount (s : State) : Nat :=
  match s.casc.role with
  | .disabled | .worker | .stack => 0
  | _ => s.casc.members.length + 1

def State.readCasc (s : State) (r : Reg) (i w : Nat) : Word :=
  let c := s.casc
  match r with
  | .cascRoleStatus =>
    w32 (c.role.code * 2 ^ 29 + at_ c.coupling 28 + at_ c.mgrLost 27 + fld (s.rg .cascRoleStatus) 26 25 * 2 ^ 25 +
      c.priority.toNat * 256 + s.pwr.straps.slotId.toNat)
  | .cascTrainStatus =>
    w32 (c.inaugCnt.toNat * 2 ^ 16 +
      (if c.role = .trainMgr || c.role = .deputy then c.train.length else 0) * 256 + s.memberCount)
  | .cascTmId => w32 (c.tmId.toNat / 2 ^ (32 * w))
  | .cascConsistId => if c.enabled then w32 (leNat (rdBytes c.record 4 4)) else 0#32
  | .cascBiarnCnt => w32 (tget (fun _ => 0) c.cnt i)
  | .cascStackStatus =>
    if c.role = .stack then
      w32 (at_ (fld (w32 s.pwr.straps.slotId.toNat) 1 0 = 0) 31 + s.pwr.straps.slotId.toNat % 4 * 2 ^ 29 +
        (2 + Config.stackSize % 3) * 2 ^ 26)
    else w32 (s.pwr.straps.slotId.toNat % 4 * 2 ^ 29)
  | _ => s.rg r i w

def State.readSec (s : State) (r : Reg) (i w : Nat) : Word :=
  match r with
  | .secGrantBlock => 0#32
  | .secGrantCtrl => w32 (s.rf .secGrantCtrl 0 7 0)
  | .secGrantStatus =>
    let g := match s.sec.grant with
      | some g => 2 ^ 31 + g.role.code * 2 ^ 29 + (g.ends - s.now + (secC 1 - 1)) / secC 1
      | none => 0
    w32 (g + at_ (bit (s.rg .secGrantStatus) 28) 28 + s.sec.lastStatus.toNat * 256)
  | .secKeyCtr =>
    let k := s.key (s.rf .secKeySel 0 5 0)
    if k.held then w32 (k.last.toNat / 2 ^ (32 * w)) else 0#32
  | .secKeyPresent => w32 (maskOf ((List.range 32).filter fun j => (s.key (32 * i + j)).held))
  | .secAuditSeq => w32 s.sec.auditSeq
  | _ => s.rg r i w

def State.readFlt (s : State) (r : Reg) (i w : Nat) : Word :=
  match r with
  | .fltSticky => w32 (s.flt.sticky.toNat / 2 ^ (32 * i))
  | .fltActive => w32 (s.activeMask / 2 ^ (32 * i))
  | .fltCtrl => w32 (at_ (bit (s.rg .fltCtrl) 30) 30)
  | .fltStatus =>
    w32 (at_ s.errAsserted 31 + at_ s.intAsserted 30 + at_ s.flt.parkedAll 29 + at_ (bit (s.rg .fltStatus) 28) 28)
  | .fltPark => s.flt.park
  | .fltIsol => w32 s.flt.isol.toNat
  | .fltInfo => w32 (s.flt.infoSnap.toNat / 2 ^ (32 * w))
  | .fltInfoTime => w32 (s.flt.timeSnap.toNat / 2 ^ (32 * w))
  | _ => s.rg r i w

/-! ### Internal blocks -/

/-- A source is claimable (R368): EN, PENDING, and a PRIO above that of every ACTIVE source. -/
def State.claimable (s : State) (n : Nat) : Bool :=
  let q := s.irqs n
  q.en && q.pending && (s.irq.all fun p => !p.2.active || decide (p.2.prio.toNat < q.prio.toNat))

/-- The source that a claim returns: highest PRIO, then lowest number (R368). -/
def State.claim (s : State) : Option Nat :=
  minBy (fun n => 16 * 128 - (s.irqs n).prio.toNat * 128 + n) ((List.range 128).filter s.claimable)

def State.irqMask (s : State) (f : IrqSrc → Bool) (k : Nat) : Nat :=
  maskOf ((List.range 32).filter fun j => f (s.irqs (32 * k + j)))

def State.readIrq (s : State) (r : Reg) (i w : Nat) : Word :=
  match r with
  | .irqSrcCfg =>
    let q := s.irqs i
    w32 (at_ q.en 31 + q.sense.toNat * 2 ^ 29 + q.prio.toNat * 2 ^ 24 + at_ (q.raw && i < 90) 2 + at_ q.pending 1 +
      at_ q.active 0)
  | .irqPend => w32 (s.irqMask (·.pending) i)
  | .irqSetpend => w32 (s.irqMask (·.pending) i)
  | .irqActive => w32 (s.irqMask (·.active) i)
  | .irqClaim => match s.claim with
    | some n => w32 (2 ^ 31 + n)
    | none => 0#32
  | .irqComplete => 0#32
  | _ => s.rg r i w

def State.readDma (s : State) (r : Reg) (i w : Nat) : Word :=
  let c := s.dmac i
  match r with
  | .dmaSrc => if c.busy then w32 c.nextSrc else c.src
  | .dmaDst => if c.busy then w32 c.nextDst else c.dst
  | .dmaLink => c.link
  | .dmaCount => w32 (if c.busy then c.left else c.count)
  | .dmaCtrl => c.ctrl &&& 0x3FFFFFFF#32
  | .dmaStatus =>
    w32 (at_ c.busy 31 + at_ (s.dmaWaits i) 30 + at_ c.pendTrig 29 + c.code.code * 2 ^ 26 + at_ c.dir 25 +
      at_ (bit (s.rg .dmaStatus i) 24) 24 + c.why.toNat * 2 ^ 20 + c.links)
  | .dmaErraddr => c.errAddr
  | _ => s.rg r i w

/-- Revision of the behaviour profile in force (R2, R3, R408). -/
def State.revision (s : State) : Nat :=
  if s.sup.recovery then 0 else s.sup.revLast.toNat

def State.readSys (s : State) (r : Reg) (i w : Nat) : Word :=
  match r with
  | .sysBusmxCtrl => w32 (at_ (s.bus.remapTo.getD s.bus.remap) 0)
  | .sysBusmxStatus =>
    w32 (fld (s.rg .sysBusmxStatus) 31 29 * 2 ^ 29 + s.bus.master.toNat * 2 ^ 24 + at_ s.bus.dir 23 + s.bus.deftCnt)
  | .sysBusmxDeft => s.bus.deftAddr
  | .pwrStatus =>
    w32 (s.pwr.wakeCause.toNat * 2 ^ 29 + fld (s.rg .pwrStatus) 28 27 * 2 ^ 27 + at_ s.pwr.xoKept 26)
  | .pwrMon => w32 (s.pwr.vin10mV.toNat * 2 ^ 16 + s.pwr.tdie.toNat * 256 + s.pwr.tcase.toNat)
  | .pwrStableTime => s.pwr.stableTime
  | .sysUnitId => w32 (s.flash.relpety.unitId.toNat / 2 ^ (32 * w))
  | .sysProfile =>
    let rev := s.revision
    let req := s.rf .sysProfileReq 0 15 0
    let sel := s.pwr.straps.profileSel.toNat
    w32 (rev * 2 ^ 16 + s.sup.profile.toNat * 2 ^ 14 + at_ (sel = 3) 13 + at_ (req ≠ 0 && req ≠ rev) 12 + s.sup.slot.toNat * 2 ^ 11)
  | .sysCtrl => 0#32
  | .sysChrst => w32 (maskOf ((List.range 32).filter fun h => (s.chamber h).resetting))
  | .sysLanerst => w32 (maskOf ((List.range 8).filter s.laneResetting))
  | .sysId => 0x4E4B2560#32
  | .sysOrder => w32 s.flash.relpety.variant.toNat
  | .sysBuild => w32 (s.flash.relpety.letter.toNat * 256 + s.flash.relpety.number.toNat)
  | .sysMfg => s.flash.relpety.mfg
  | .sysFwVer => if s.sup.recovery then 0#32 else (s.img s.sup.slot.toNat).version
  | .sysRomVer => 0x01000000#32
  | .sysCfgGen => w32 (if s.flash.store.valid then s.flash.store.gen else 0)
  | .sysStrap => w32 (at_ s.pwr.straps.mgr 8 + s.pwr.straps.profileSel.toNat * 64 + s.pwr.straps.slotId.toNat)
  | .sysPins =>
    w32 (at_ s.pwr.testEn 31 + at_ s.pwr.stableReqN 30 + at_ s.pwr.wakeIn 29 + at_ s.pwr.perstN 28 +
      at_ s.pwr.ppsIn 27 + at_ s.pwr.periodIn 26 + at_ s.pwr.trstN 25)
  | .sysCap => w32 (4 * 2 ^ 24 + 160 * 2 ^ 16 + 32 * 2 ^ 10 + 8 * 2 ^ 6)
  | .tstStCtrl => w32 (at_ s.tst.busy 31 + s.rf .tstStCtrl 0 11 0)
  | .tstStStatus =>
    w32 (at_ s.tst.busy 31 + fld (s.rg .tstStStatus) 30 28 * 2 ^ 28 + s.tst.why.toNat * 2 ^ 24 +
      s.tst.elapsed * 2 ^ 16 + s.tst.pass.toNat)
  | .tstStErr => w32 (tget (fun _ => 0) s.tst.err i)
  | .tstStPwr => w32 ((0x8000 + tget (fun _ => 0) s.tst.pwr i) % 0x10000)
  | _ => s.rg r i w

/-- Level at the PPS_OUT pin; with CLK_OUT it shows bit 20 of the raw counter (R180, R436). -/
def State.ppsOutPin (s : State) : Bool := if bit (s.rg .tstMode) 31 then s.time.raw.getLsbD 20 else s.time.ppsOut

/-! ### The PCI Express function -/

/-- The identity words of configuration space: IDs, class and revision, and subsystem IDs; none where
R423 leaves the word to the PCI Express Base Specification. The revision follows the build code, the subsystem the
ordering code (R423, R462, R463). -/
def State.configWord (s : State) (off : Nat) : Option Word :=
  let r := s.flash.relpety
  if off = 0 then some 0x25601F6E#32
  else if off = 8 then some (w32 (0x028000 * 256 + (r.letter.toNat - 0x42) * 16 + r.number.toNat))
  else if off = 0x2C then some (w32 (r.variant.toNat * 2 ^ 16 + 0x1F6E))
  else none

/-! ### The read of a word -/

/-- The block that composes a register. -/
inductive Blk where
  | sys | sec | flt | irq | dma | time | ept | ring | fab | loop | casc
  deriving DecidableEq, Repr

def blkOf (a : Nat) : Blk :=
  if a < 0x2000 then .sys else if a < 0x3000 then .sec else if a < 0x4000 then .flt else if a < 0x5000 then .irq
  else if a < 0x8000 then .dma else if a < 0x10000 then .time else if a < 0x20000 then .ept
  else if a < 0x30000 then .ring else if a < 0x40000 then .fab else if a < 0x60000 then .loop
  else if a < 0x70000 then .casc else if a < 0x80000 then .sys else .ring

/-- Word `w` of instance `i` of register `r` as a read returns it. -/
def State.readWord (s : State) (r : Reg) (i w : Nat) : Word :=
  match blkOf r.info.base with
  | .sys => s.readSys r i w
  | .sec => s.readSec r i w
  | .flt => s.readFlt r i w
  | .irq => s.readIrq r i w
  | .dma => s.readDma r i w
  | .time => s.readTime r i w
  | .ept => s.readEpt r i w
  | .ring => s.readRing r i w
  | .fab => s.readFab r i w
  | .loop => s.readLoop r i w
  | .casc => s.readCasc r i w

/-- An aligned 32-bit word of BAR0 (R425): the MSI-X table and PBA, a register, or 0 where nothing lies (R353). -/
def State.readBar0 (s : State) (off : Nat) : Word :=
  if 0x6000 ≤ off ∧ off < 0x6400 then tget msixDefault s.msixTab ((off - 0x6000) / 4)
  else if off = 0x6800 then w32 s.msixPba.toNat
  else if off = 0x6804 then w32 (s.msixPba.toNat / 2 ^ 32)
  else match regAt off with
    | some (r, i, b) => s.readWord r i (b / 4)
    | none => 0#32

end Sys2Proof.Machine
end

