-- ==== Sys2Proof/Machine/RegOps.lean ====
section
/-! DEFINITION. What every register write shares: the writable and write-1-to-clear bits (R6 to R8), the protected
registers and their audit (R327), and the frame of a command: from the host, from the module's own clock, or from
outside. -/

namespace Sys2Proof.Machine

/-- A command of the host: no effect while the host cannot reach the module (R424, R430). -/
def State.onHost (s : State) (f : State → State) : State := (if s.hostUp then f s else s).finish

/-! ### What the passing of time brings by itself -/

/-- The snapshot of a chamber's loops, once its instant has come (R130). -/
def State.takeSnap (s : State) (h : Nat) : State :=
  match (s.chan h).snapDue with
  | some (c, t) =>
    if t ≤ s.now then
      let q := s.loopSnap c
      s.modChan h fun k => { k with snap := q, snapDue := none }
    else s
  | none => s

/-- Snapshots whose instant has passed. -/
def State.lateSnaps (s : State) : State :=
  s.loop.chans.foldl (fun s p => if p.2.snapDue.any fun d => d.2 < s.now then s.takeSnap p.1 else s) s

/-- The words of a profile write that are due by `now`, one in each frame, in ascending order (R142): the profile store
with them, and what is left with the instant of its first word. -/
def applyWords (p now : Nat) : List (Nat × List Byte) → Nat → Memory → Memory × List (Nat × List Byte) × Nat
  | [], n, m => (m, [], n)
  | (o, b) :: ws, n, m => if n ≤ now then applyWords p now ws (n + 64) (wrBytes m (64 * p + o) b) else (m, (o, b) :: ws, n)

/-- A profile write goes on; after its last word a factory profile goes to the Relpety record, which is written only
with TEST_EN active (R27), and the command completes (R142). -/
def State.profJob (s : State) (j : ProfJob) : State :=
  let (m, ws, n) := applyWords j.prof s.now j.words j.next s.loop.profiles
  let s := s.onLoop fun l => { l with profiles := m }
  if ws.isEmpty then
    let b := rdBytes m (64 * j.prof) 64
    let s := if j.prof < 8 then s.onRelpety fun q => { q with profiles := wrBytes q.profiles (64 * j.prof) b } else s
    s.finishCmd j.ring j.idx 0 true [BitVec.ofNat 8 j.total]
  else s.onLoop fun l => { l with jobs := l.jobs ++ [{ j with words := ws, next := n }] }

def State.profJobs (s : State) : State :=
  s.loop.jobs.foldl State.profJob (s.onLoop fun l => { l with jobs := [] })

/-- What falls due by the clock alone and has no row of its own: snapshots (R130), profile words (R142) and the starts of
link delay exchanges (R172, R174). -/
def State.elapse (s : State) : State := s.lateSnaps.profJobs.askDelays

/-- `dt` cycles pass. -/
def State.pass (s : State) (dt : Nat) : State := (s.run dt).elapse

/-- A happening that the module's own clock brings, `dt` cycles after the command before it. -/
def State.onClock (s : State) (dt : Nat) (f : State → State) : State := (f (s.pass dt)).finish

/-- A happening at a pin, a lane or another part. -/
def State.onPin (s : State) (f : State → State) : State := (f s).finish

/-! ### Words of a register -/

/-- Word `w` after a write of `v`: RW bits take it, W1C bits written 1 clear but for those that hardware set in this
cycle, all others stay (R6, R7, R8). -/
def State.written (s : State) (r : Reg) (i w : Nat) (v : Word) : Word :=
  (s.rg r i w &&& ~~~(r.rwMask w) &&& ~~~(v &&& r.w1cMask w &&& ~~~(s.marked (r.addr i + 4 * w)))) ||| (v &&& r.rwMask w)

/-- Write word `w` of a register as R6 says. -/
def State.putReg (s : State) (r : Reg) (i w : Nat) (v : Word) : State := s.setRg r i w (s.written r i w v)

/-! ### Protected registers (R327) -/

/-- A grant is in force; in the cycle in which it ends it no longer is (R327, R328). -/
def State.grantOk (s : State) : Bool :=
  match s.sec.grant with
  | some g => decide (s.now < g.ends)
  | none => false

/-- A maker grant with TEST_EN active (R372, R436). -/
def State.makerOk (s : State) : Bool :=
  s.grantOk && s.pwr.testEn && (match s.sec.grant with | some g => g.role = .maker | none => false)

/-- A protected write is ignored: WR_DENIED, and the count for the next entry of denied writes. -/
def State.denyWrite (s : State) : State :=
  let s := (s.setBit .secGrantStatus 0 28).irqPulse 87
  { s with sec.denied := s.sec.denied + 1 }

/-- The audit entry of an accepted protected write (R330). -/
def State.writeEntry (s : State) (off : Nat) (old new : Word) : AuditEntry :=
  { kind := 3#8, role := BitVec.ofNat 8 ((s.sec.grant.map (·.role.code)).getD 0),
    keyId := BitVec.ofNat 8 ((s.sec.grant.map (·.keyId)).getD 0xFF), source := 0x10#8,
    where_ := w32 off, old := old, new := new }

/-- A write to a protected register: under a grant it takes effect and is recorded; otherwise it is ignored. -/
def State.protWrite (s : State) (off : Nat) (old new : Word) (act : State → State) : State :=
  if s.grantOk then (act (s.recordOrHold (s.writeEntry off old new) true)).irqPulse 87 else s.denyWrite

/-- A write to word 0 of a protected register of the store; the entry's OLD and NEW are the register as it reads before
and after. -/
def State.protReg (s : State) (r : Reg) (i : Nat) (v : Word) (act : State → State := id) : State :=
  let put := fun (s : State) => act (s.putReg r i 0 v)
  s.protWrite (r.addr i) (s.readWord r i 0) ((put s).readWord r i 0) put

/-- The low and the high word of an 8-byte value. -/
def loW (v : Dword) : Word := v.setWidth 32
def hiW (v : Dword) : Word := (v >>> 32).setWidth 32

/-- A write to an 8-byte protected register, both words at once (R428); the entry's OLD and NEW are the low word
(assumption 31). -/
def State.protReg8 (s : State) (r : Reg) (i : Nat) (v : Dword) (act : State → State := id) : State :=
  let put := fun (s : State) => act ((s.putReg r i 0 (loW v)).putReg r i 1 (hiW v))
  s.protWrite (r.addr i) (s.readWord r i 0) ((put s).readWord r i 0) put

/-- BAR0 offsets 0 to FFFFFh. -/
def bar0Size : Nat := 0x100000

end Sys2Proof.Machine
end

