-- ==== Sys2Proof/Machine/Maps.lean ====
section
/-! DEFINITION. The map opcodes, the routing engine's jobs, and the failed-cell list (R48 to R52, R60 to R71, R79,
R281 to R283). -/

namespace Sys2Proof.Machine

/-! ### Directory entries (R62) -/

/-- A bank that is VALID, RUNNING or PENDING references the map, or it is in force (R25, R202). -/
def State.mapProtected (s : State) (m : Nat) : Bool :=
  s.fab.inForce = some m ||
    [0, 1, 2, 3].any fun b =>
      (match (s.bank b).state with
       | .valid | .running | .pending => true
       | _ => false) && decide (m ∈ imgMaps (s.bankImg b))

/-- The map is in force or referenced by the running bank: FLAGS bit 2. -/
def State.mapInUse (s : State) (m : Nat) : Bool :=
  s.fab.inForce = some m || (s.sched.run.any fun r => decide (m ∈ imgMaps (s.bankImg r.bank)))

def MapState.code : MapState → Nat
  | .empty => 0 | .loaded => 1 | .routed => 2 | .stale => 3

/-- The 16 bytes of a directory entry. -/
def State.dirBytes (s : State) (m : Nat) : List Byte :=
  let d := s.dir m
  [BitVec.ofNat 8 d.state.code, BitVec.ofNat 8 (at_ d.engine 0 + at_ d.host 1 + at_ (s.mapInUse m) 2), d.failGen, 0#8] ++
    leBytes 2 d.nconn ++ leBytes 2 d.ncross ++ leBytes 4 d.crc.toNat ++ zeros 4

/-- The directory entry of a map as its bytes now stand. -/
def State.newDir (s : State) (m : Nat) (st : MapState) (engine host : Bool) : MapDir :=
  let done := decide (st ≠ .loaded)
  { state := st, engine := engine, host := host,
    failGen := if done then s.fab.failGen else (s.dir m).failGen,
    nconn := (s.mapConns m).length,
    ncross := if done then ((s.caredCells m).filter (·.2)).length else 0,
    crc := crc32 (rdBytes s.sram (mapBase m) 544) }

def State.setDir (s : State) (m : Nat) (d : MapDir) : State := s.modDir m fun _ => d

def State.putMap (s : State) (m off : Nat) (b : List Byte) : State :=
  { s with sram := wrBytes s.sram (mapBase m + off) b }

/-- The map may be applied: ROUTED or STALE. -/
def State.mapRouted (s : State) (m : Nat) : Bool := (s.dir m).state = .routed || (s.dir m).state = .stale

/-- A route computation names the map, or a command-issued change to it runs or waits (R280). -/
def State.mapRouting (s : State) (m : Nat) : Bool :=
  s.fab.routes.any fun j => j.src = m || j.dst = m || j.base = some m

def State.mapBusy (s : State) (m : Nat) : Bool :=
  s.mapRouting m || (s.fab.change.any (·.map = m)) || (s.fab.verify.any (·.map = m)) || s.fab.waiting.any (·.map = m)

/-! ### NOP -/

def State.nop (s : State) (r : Nat) : State :=
  match s.readyHead r 0x00 with
  | none => s
  | some e => s.finishCmd r e.idx 0 true

def execNop (ring : Fin 16) (s : State) : Host.Outcome State Fault Refusal := .next (s.onPin fun s => s.nop ring.val)

/-! ### Loading (R64, R282) -/

/-- Trunk ports of a stack (R318). -/
def trunkPort (p : Nat) : Bool := 240 ≤ p && p ≤ 247

/-- A port map keeps to R38, and in the compatibility profile leaves the trunk ports free: one that does not counts as
breaking R38 (R318; assumption 67). -/
def State.connsOk (s : State) (m : Nat) : Bool :=
  let l := s.mapConns m
  exitsDistinct l && !(s.casc.role = .stack && l.any fun c => trunkPort c.1 || trunkPort c.2)

/-- Load a port map: LOADED, or MAP_INVALID and EMPTY where two connections share an exit (R38, R64). -/
def State.loadPorts (s : State) (m : Nat) (b : List Byte) : Nat × State :=
  let s := s.putMap m 256 b
  if s.connsOk m then (0, s.setDir m (s.newDir m .loaded false false))
  else (0x10, s.setDir m {})

/-- Load a complete map: ROUTED where the checks of R64 pass. -/
def State.loadComplete (s : State) (m : Nat) (b : List Byte) : Nat × State :=
  let s := s.putMap m 0 b
  if s.connsOk m && completeMapOk (s.mapByte m) s.fab.failed then (0, s.setDir m (s.newDir m .routed false true))
  else (0x10, s.setDir m {})

/-- MAP_LOAD in the form given. -/
def State.mapLoad (s : State) (r form : Nat) (load : State → Nat → List Byte → Nat × State) : State :=
  match s.readyHead r 0x01 with
  | none => s
  | some e =>
    let m := lef e.bytes 24 2
    if byteAt e.bytes 26 ≠ form || s.mapBusy m then s
    else if s.mapProtected m then s.finishCmd r e.idx 0x11 false (s.dirBytes m)
    else
      let (st, s) := load s m (rdBytes e.payload 0 (payloadRead e.bytes))
      s.finishCmd r e.idx st (st = 0) (s.dirBytes m)

def execMapLoad (ring : Fin 16) (s : State) : Host.Outcome State Fault Refusal :=
  .next (s.onPin fun s => s.mapLoad ring.val 0 State.loadPorts)

def execMapLoadComplete (ring : Fin 16) (s : State) : Host.Outcome State Fault Refusal :=
  .next (s.onPin fun s => s.mapLoad ring.val 1 State.loadComplete)

/-! ### Routing (R66 to R68, R282) -/

/-- MAP_ROUTE: its checks, then a computation. -/
def State.mapRoute (s : State) (r : Nat) : State :=
  match s.readyHead r 0x02 with
  | none => s
  | some e =>
    let src := lef e.bytes 24 2
    let dst := lef e.bytes 26 2
    let bw := lef e.bytes 28 2
    let base := if bits bw 15 15 = 1 then none else some (bits bw 9 0)
    let baseBad := base.any fun b => !s.mapRouted b
    if s.mapBusy src || s.mapBusy dst || (base.any fun b => s.mapRouting b) then s
    else if (s.dir src).state = .empty then s.finishCmd r e.idx 0x12 false (s.dirBytes dst)
    else if baseBad then s.finishCmd r e.idx 0x13 false (s.dirBytes dst)
    else if s.mapProtected dst then s.finishCmd r e.idx 0x11 false (s.dirBytes dst)
    else
      let s := s.begin_ r e.idx
      let j : RouteJob := { ring := r, idx := e.idx, src := src, dst := dst, base := base, since := s.now, gen := s.fab.failGen }
      { s with fab.routes := s.fab.routes ++ [j] }

def execMapRoute (ring : Fin 16) (s : State) : Host.Outcome State Fault Refusal :=
  .next (s.onPin fun s => s.mapRoute ring.val)

/-- Byte `b` of the cell vector with the routed states, the base map elsewhere. -/
def vecByte (l : List (Nat × Bool)) (base : Nat → Bool) (b : Nat) : Byte :=
  BitVec.ofNat 8 (maskOf ((List.range 8).filter fun k =>
    match l.find? (·.1 = 8 * b + k) with
    | some d => d.2
    | none => base (8 * b + k)))

/-- The result of one computation, written to DST: status and passes. A DST that has come to be referenced by a bank or
in force meanwhile stays as it is (R25). -/
def State.commitRoute (s : State) (j : RouteJob) : Nat × Nat × State :=
  let base := j.base.map fun b => s.mapVec b
  let (l, passes) := route s.fab.failed base (s.mapConns j.src)
  let ports := rdBytes s.sram (mapBase j.src + 256) 288
  if s.mapProtected j.dst then (0x11, passes, s) else
  match l with
  | some l =>
    let vec := (List.range 256).map fun b => vecByte l (base.getD fun _ => false) b
    let s := (s.putMap j.dst 256 ports).putMap j.dst 0 vec
    (0, passes, s.setDir j.dst (s.newDir j.dst .routed true false))
  | none =>
    let s := s.putMap j.dst 256 ports
    (0x14, passes, s.setDir j.dst (s.newDir j.dst .loaded false false))

/-- The first computation ends; if the failed-cell list has changed since it started, it starts again (R51). The
computation that ended and its status come with the state. -/
def State.routeEnd (s : State) : Option (RouteJob × Nat) × State :=
  match s.fab.routes with
  | [] => (none, s)
  | j :: js =>
    if j.gen ≠ s.fab.failGen then
      (none, { s with fab.routes := { j with gen := s.fab.failGen, since := s.now } :: js })
    else
      let ns := (s.now - j.since) * 1000 / 1024
      let (st, passes, s) := { s with fab.routes := js }.commitRoute j
      (some (j, st), s.finishCmd j.ring j.idx st (st = 0)
        (s.dirBytes j.dst ++ leBytes 4 ns ++ [BitVec.ofNat 8 passes]))

/-! ### Applying (R70, R88, R90, R209, R283) -/

/-- Chambers that refuse a map: FORCED_OFF ones that it needs in CROSS, and stopped ones that the change involves. -/
def State.applyMask (s : State) (m : Nat) : Nat :=
  let cared := s.caredCells m
  let cs := s.changeSet m
  maskOf ((List.range 32).filter fun h =>
    (s.policy h = 3 && cared.any fun d => chamberOf d.1 = h && d.2) ||
      (s.stopped h && cs.any fun d => chamberOf d.1 = h))

/-- A bank with change entries runs (R209). -/
def State.patternOwns (s : State) : Bool := s.sched.run.any fun r => decide (0 < imgNchg (s.bankImg r.bank))

/-- A start time lies in the past or more than 2^39 ns ahead (R70). -/
def State.timeBad (s : State) (t : Nat) : Bool := t < ceilNs s.nt || s.ns + 2 ^ 39 < t

/-- T of a time field: none is "at once" (R277). -/
def timeArg (b : List Byte) (o : Nat) : Option Nat := if lef b o 8 = 2 ^ 64 - 1 then none else some (lef b o 8)

/-- 250 µs before a time has come (R283). -/
def State.prepDue (s : State) (t : Nat) : Bool := t ≤ s.ns + 250000

/-- MAP_APPLY: its checks; then it waits for its preparation, or the preparation begins. -/
def State.mapApply (s : State) (r : Nat) : State :=
  match s.readyHead r 0x03 with
  | none => s
  | some e =>
    let m := lef e.bytes 24 2
    let t := timeArg e.bytes 32
    if s.mapRouting m then s
    else if !s.mapRouted m then s.finishCmd r e.idx 0x13 false
    else if s.patternOwns then s.finishCmd r e.idx 0x15 false
    else if t.any s.timeBad then s.finishCmd r e.idx 0x08 false
    else if s.applyMask m ≠ 0 then s.finishCmd r e.idx 0x17 false (applyRes 0 0 0 0 0 (s.applyMask m) 0)
    else
      let s := s.begin_ r e.idx
      let c : Change := { map := m, prev := s.fab.inForce, src := .apply r e.idx, at_ := t, stale := (s.dir m).state = .stale }
      match t with
      | none => s.beginChange c
      | some w =>
        if s.prepDue w then s.beginChange c
        else { s with fab.applies := s.fab.applies ++ [{ ring := r, idx := e.idx, map := m, time := w }] }

def execMapApply (ring : Fin 16) (s : State) : Host.Outcome State Fault Refusal :=
  .next (s.onPin fun s => (s.mapApply ring.val).shutGates)

/-- A timed MAP_APPLY comes within 250 µs of its time (R283). -/
def State.applyPrep (s : State) (r : Nat) : State :=
  match s.fab.applies.find? fun a => a.ring = r && s.prepDue a.time with
  | none => s
  | some a =>
    let s := { s with fab.applies := s.fab.applies.filter (· ≠ a) }
    if !s.mapRouted a.map then s.finishCmd r a.idx 0x13 false
    else if s.applyMask a.map ≠ 0 then s.finishCmd r a.idx 0x17 false (applyRes 0 0 0 0 0 (s.applyMask a.map) 0)
    else s.beginChange { map := a.map, prev := s.fab.inForce, src := .apply r a.idx, at_ := some a.time,
                         stale := (s.dir a.map).state = .stale }

def execMapApplyPreparation (dt : Nat) (ring : Fin 16) (s : State) : Host.Outcome State Fault Refusal :=
  .next (s.onClock dt fun s => (s.applyPrep ring.val).shutGates)

/-- MAP_CANCEL of a pending MAP_APPLY (R283). -/
def State.mapCancel (s : State) (r : Nat) : State :=
  match s.readyHead r 0x04 with
  | none => s
  | some e =>
    let tr := byteAt e.bytes 24
    let ti := lef e.bytes 28 4
    match s.fab.applies.find? fun a => a.ring = tr && a.idx = ti && !s.prepDue a.time with
    | none => s.finishCmd r e.idx 0x0B false
    | some a =>
      let s := ({ s with fab.applies := s.fab.applies.filter (· ≠ a) }).cancelStaging
      (s.finishCmd tr ti 0x0A false).finishCmd r e.idx 0 true

def execMapCancel (ring : Fin 16) (s : State) : Host.Outcome State Fault Refusal :=
  .next (s.onPin fun s => s.mapCancel ring.val)

/-! ### Reading and freeing -/

def State.mapRead (s : State) (r : Nat) : State :=
  match s.readyHead r 0x05 with
  | none => s
  | some e =>
    let m := lef e.bytes 24 2
    if s.mapBusy m then s
    else if (s.dir m).state = .empty then s.finishCmd r e.idx 0x12 false
    else s.finishCmd r e.idx 0 true (s.dirBytes m) 0 (some (lef e.bytes 8 8, rdBytes s.sram (mapBase m) 544))

def execMapRead (ring : Fin 16) (s : State) : Host.Outcome State Fault Refusal :=
  .next (s.onPin fun s => s.mapRead ring.val)

def State.mapFree (s : State) (r : Nat) : State :=
  match s.readyHead r 0x06 with
  | none => s
  | some e =>
    let m := lef e.bytes 24 2
    if s.mapBusy m then s
    else if s.mapProtected m then s.finishCmd r e.idx 0x11 false
    else (s.setDir m {}).finishCmd r e.idx 0 true

def execMapFree (ring : Fin 16) (s : State) : Host.Outcome State Fault Refusal :=
  .next (s.onPin fun s => s.mapFree ring.val)

/-! ### The failed-cell list (R48, R50, R52, R65, R79, R282) -/

def kindOfCode (k : Nat) : FailKind := if k = 1 then .stuckBar else if k = 2 then .stuckCross else .darkOnly

/-- Re-check every ROUTED map against a new entry (R65): how many became STALE. -/
def State.recheckMaps (s : State) (f : FailEntry) : Nat × State :=
  let ms := (s.fab.dirs.filter fun d => d.2.state = .routed).map (·.1)
  ms.foldl (fun (n, s) m =>
    let s := s.modDir m fun d => { d with failGen := s.fab.failGen }
    if hopsConflict [f] (s.mapHops m) then
      (n + 1, (s.modDir m fun d => { d with state := .stale }).event 3 0 m (leBytes 2 f.cell ++ [s.fab.failGen]))
    else (n, s)) (0, s)

/-- The list changes: GEN increments; a DARK_ONLY cell is held undriven (R48); maps are re-checked. Putting in place of an
installer entry one that equals it counts as a change, and a LOOP_SETPOINT or CAL that runs on a cell listed DARK_ONLY
ends with CAL_ABORTED (DESIGN CHOICE, assumption 66). -/
def State.listFail (s : State) (f : FailEntry) : Nat × State :=
  let l := if (s.failed f.cell).isSome then s.fab.failed.map fun g => if g.cell = f.cell then f else g
    else s.fab.failed ++ [f]
  let s := { s with fab.failed := l, fab.failGen := s.fab.failGen + 1 }
  let s := if f.kind = .darkOnly then (s.leaveCal f.cell 0x24 true).restCell f.cell else s
  s.recheckMaps f

/-- FAIL_ADD (R282): an entry of source installer; a factory entry keeps its source and the Relpety record follows. -/
def State.failAdd (s : State) (r : Nat) : State :=
  match s.readyHead r 0x07 with
  | none => s
  | some e =>
    let c := lef e.bytes 24 2
    let k := kindOfCode (byteAt e.bytes 26)
    let res := fun (n : Nat) (s : State) =>
      s.finishCmd r e.idx 0 true ([BitVec.ofNat 8 s.fab.failed.length, s.fab.failGen] ++ leBytes 2 n)
    match s.failed c with
    | some f =>
      if f.src = .factory then
        let g : FailEntry := { f with kind := k }
        let s := s.onRelpety fun q => { q with failed := q.failed.map fun h : FailEntry => if h.cell = c then g else h }
        let (n, s) := s.listFail g
        res n s
      else
        let (n, s) := s.listFail { cell := c, kind := k, src := .installer }
        res n s
    | none =>
      if 16 ≤ s.fab.failed.length then s.finishCmd r e.idx 0x18 false [BitVec.ofNat 8 s.fab.failed.length, s.fab.failGen]
      else
        let (n, s) := s.listFail { cell := c, kind := k, src := .installer }
        res n s

def execFailAdd (ring : Fin 16) (s : State) : Host.Outcome State Fault Refusal :=
  .next (s.onPin fun s => s.failAdd ring.val)

/-- FAIL_REMOVE (R282): the gap closes. -/
def State.failRemove (s : State) (r : Nat) : State :=
  match s.readyHead r 0x08 with
  | none => s
  | some e =>
    let c := lef e.bytes 24 2
    match s.failed c with
    | none => s.finishCmd r e.idx 0x19 false [BitVec.ofNat 8 s.fab.failed.length, s.fab.failGen]
    | some f =>
      let s := if f.src = .factory then
          s.onRelpety fun q => { q with failed := q.failed.filter fun h : FailEntry => decide (h.cell ≠ c) }
        else s
      let s := { s with fab.failed := s.fab.failed.filter (·.cell ≠ c), fab.failGen := s.fab.failGen + 1 }
      s.finishCmd r e.idx 0 true [BitVec.ofNat 8 s.fab.failed.length, s.fab.failGen]

def execFailRemove (ring : Fin 16) (s : State) : Host.Outcome State Fault Refusal :=
  .next (s.onPin fun s => s.failRemove ring.val)

/-- FAIL_LIST_OVERFLOW: the list is full (R52). -/
def State.failOverflow (s : State) (c : Nat) : State := (s.setBit .fabFailStatus 0 5).fire 51 c

/-- The kind that the drops among a cell's last 16 stitches call for (R79). -/
def dropKind (h : List (Bool × Bool)) : FailKind :=
  let up := h.any fun d => d.1 && d.2
  let down := h.any fun d => d.1 && !d.2
  if up && down then .darkOnly else if up then .stuckBar else .stuckCross

def State.reportFail (s : State) (f : FailEntry) : State :=
  let n := ((s.cell f.cell).hist.filter (·.1)).length
  let (_, s) := s.listFail f
  (s.event 4 f.kind.code f.cell [BitVec.ofNat 8 n]).fire 50 f.cell

/-- A cell with 4 or more dropped stitches among its last 16, counted at its latest drop (R79). -/
def State.cellFailed (s : State) (c : Nat) : State :=
  let x := s.cell c
  if !x.failDue then s
  else
    let s := s.modCell c fun x => { x with failDue := false }
    let f : FailEntry := { cell := c, kind := dropKind x.hist, src := .module }
    match s.failed c with
    | some g => if g.src ≠ .module || g.kind = f.kind then s else s.reportFail f
    | none => if 16 ≤ s.fab.failed.length then s.failOverflow c else s.reportFail f

def execCellFailed (cell : Fin 2048) (s : State) : Host.Outcome State Fault Refusal :=
  .next (s.onPin fun s => s.cellFailed cell.val)

end Sys2Proof.Machine
end

