-- ==== Sys2Proof/Machine/BankCheck.lean ====
section
/-! DEFINITION. The checks of a pattern bank at its load (R191 to R202). Times in whole nanoseconds after a matrix
boundary, rounded up (R190, R200). -/

namespace Sys2Proof.Machine

/-- What a check finds: a status, with the offending item (0 header, 1 gate entry, 2 change entry, FFh none), its index
and its lane (FFh none), the highest rate with its element, and D. -/
structure BankVerdict where
  status : Nat := 0
  item   : Nat := 0xFF
  lane   : Nat := 0xFF
  index  : Nat := 0
  rate   : Nat := 0
  elem   : Nat := 0
  drift  : Nat := 0
  deriving DecidableEq, Repr

/-- RES of a BANK_LOAD (R281). -/
def BankVerdict.res (v : BankVerdict) : List Byte :=
  leBytes 4 v.rate ++ leBytes 2 v.elem ++ leBytes 2 v.drift ++ [BitVec.ofNat 8 v.item, BitVec.ofNat 8 v.lane] ++ leBytes 2 v.index

/-- `n` bytes of an image. -/
def imgBytes (g : Img) (o n : Nat) : List Byte := (List.range n).map fun k => g (o + k)

/-- KIND and GATES agree (R193). -/
def gatesOk (kind gates : Nat) : Bool := kind ≠ 3 && (if kind = 0 then gates = 0 else gates ≠ 0)

/-- The header of an image (R188, R192, R198). -/
def headerOk (g : Img) : Bool :=
  g 0 = 1#8 && 1 ≤ imgNrows g && imgNrows g ≤ 64 && imgLE g 2 2 = 0 && imgLE g 4 4 < 2 ^ 25 &&
    250000 ≤ imgRowLen g && imgRowLen g ≤ 32768000 && imgNgate g ≤ 16384 && imgNchg g ≤ 4096 &&
    bits (imgLE g 20 2) 14 10 = 0 && (imgLE g 22 2 = 0 || (850 ≤ imgLE g 22 2 && imgLE g 22 2 ≤ 2047)) &&
    ((List.range 8).all fun l => bits (imgLaneDef g l) 15 10 = 0 &&
      gatesOk (bits (imgLaneDef g l) 9 8) (bits (imgLaneDef g l) 7 0)) &&
    imgLE g 46 14 = 0 &&
    imgLE g 60 4 = (crc32 (imgBytes g 0 60 ++ imgBytes g 8192 (6 * imgNgate g) ++ imgBytes g 106496 (6 * imgNchg g))).toNat &&
    (imgNchg g = 0 || imgStart g = some (imgChg g (imgNchg g - 1)).map)

/-- Fields of a gate entry. -/
def Gate.ok (e : Gate) (g : Img) : Bool :=
  e.off * 32 * 65536 < imgRow g && e.row < imgNrows g && gatesOk e.kind e.gates && e.rsv = 0

/-- Order of gate entries: ROW, LANE, OFFSET, strictly rising. -/
def Gate.key (e : Gate) : Nat := (e.row * 8 + e.lane) * 2 ^ 17 + e.off

/-- First bad gate entry from index `k`: `last` is the key before it, `n` the entries so far of its row and lane. -/
def badGate (g : Img) : Nat → Nat → Option Gate → Nat → Option Nat
  | 0, _, _, _ => none
  | m + 1, k, last, n =>
    let e := imgGate g k
    let same := last.any fun p => p.row = e.row && p.lane = e.lane
    let n := if same then n + 1 else 1
    if e.ok g && (last.all fun p => decide (p.key < e.key)) && n ≤ 128 then badGate g m (k + 1) (some e) n
    else some k

def Chg.ok (c : Chg) (g : Img) : Bool :=
  c.off * 32 * 65536 < imgRow g && c.row < imgNrows g && (c.guard = 0 || 850 ≤ c.guard) && c.rsv = 0

def Chg.key (c : Chg) : Nat := c.row * 2 ^ 17 + c.off

/-- First bad change entry from index `k`. -/
def badChg (g : Img) : Nat → Nat → Option Chg → Option Nat
  | 0, _, _ => none
  | m + 1, k, last =>
    let c := imgChg g k
    if c.ok g && (last.all fun p => decide (p.key < c.key)) then badChg g m (k + 1) (some c) else some k

/-- Check 2 (R201). -/
def checkForm (g : Img) : Option BankVerdict :=
  if !headerOk g then some { status := 0x29, item := 0 }
  else match badGate g (imgNgate g) 0 none 0 with
    | some k => some { status := 0x29, item := 1, index := k, lane := (imgGate g k).lane }
    | none => (badChg g (imgNchg g) 0 none).map fun k => { status := 0x29, item := 2, index := k }

/-- Check 3: every MAP, and START_MAP, is ROUTED or STALE. -/
def State.checkMaps (s : State) (g : Img) : Option BankVerdict :=
  match (List.range (imgNchg g)).find? fun k => !s.mapRouted (imgChg g k).map with
  | some k => some { status := 0x13, item := 2, index := k }
  | none => if (imgStart g).any fun m => !s.mapRouted m then some { status := 0x13, item := 0 } else none

/-- The change set that the load check takes for a change from `p` to `n` (R198). -/
def State.plannedSet (s : State) (p n : Nat) : List Nat :=
  ((s.caredCells n).filter fun d => s.caredState p d.1 = none || s.mapVec p d.1 ≠ s.mapVec n d.1).map (·.1)

/-- One change as the check sees it: index, t_c and its guard interval in ns, and the lanes that it affects. -/
structure Planned where
  index : Nat
  tc    : Nat
  guard : Nat
  lanes : List Nat
  deriving DecidableEq, Repr

def State.planned (s : State) (g : Img) : List Planned :=
  let n := imgNchg g
  (List.range n).map fun k =>
    let c := imgChg g k
    let p := (imgChg g ((k + n - 1) % n)).map
    { index := k, tc := ceilNs (entryAt g c.row c.off), guard := imgGuard g c,
      lanes := affectedLanes (s.affected (some p) c.map (s.plannedSet p c.map)) }

/-- O_l of a lane (R199). -/
def State.laneO (s : State) (l : Nat) : Nat :=
  let x := s.lane l
  if !x.preempt then 32 else if x.rate = 0#2 then 156 else 82

/-- M in ns, as a bound on whole nanoseconds within the matrix. -/
def imgMns (g : Img) : Nat := imgM g / 65536

/-- A guard interval or a protected span leaves the matrix (R200). -/
def State.spanBad (s : State) (g : Img) (d : Nat) (p : Planned) : Option Nat :=
  match p.lanes.find? fun l => p.tc < 2 * d + s.laneO l || imgMns g < p.tc + p.guard + 2 * d + 120 with
  | some l => some l
  | none => if imgMns g < p.tc + p.guard then some 0xFF else none

/-- t_c follows the change before it too soon, cyclically (R200). -/
def spaceBad (g : Img) (q p : Planned) : Bool :=
  let c := imgChg g 0
  let t := if p.index = 0 then ceilNs (imgM g + entryAt g c.row c.off) else p.tc
  t < q.tc + q.guard + 1000

/-- Check 4. -/
def State.checkSpacing (s : State) (g : Img) (d : Nat) (ps : List Planned) : Option BankVerdict :=
  let n := ps.length
  ps.findSome? fun p =>
    match s.spanBad g d p with
    | some l => some { status := 0x2A, item := 2, index := p.index, lane := l }
    | none =>
      match ps[(p.index + n - 1) % n]? with
      | some q => if spaceBad g q p then some { status := 0x2A, item := 2, index := p.index } else none
      | none => none

/-- Every queue of lane `l` is closed from `a` to just before `b` (R199). -/
def closedOver (g : Img) (l a b : Nat) : Bool :=
  let es := (laneGates g l).map fun e => (ceilNs (entryAt g e.row e.off), e.gates)
  let now := match (es.filter fun e => e.1 ≤ a).getLast?, es.getLast? with
    | some e, _ => e.2
    | none, some e => e.2
    | none, none => bits (imgLaneDef g l) 7 0
  now = 0 && es.all fun e => !(a < e.1 && e.1 < b) || e.2 = 0

/-- Check 5. -/
def State.checkGates (s : State) (g : Img) (d : Nat) (ps : List Planned) : Option BankVerdict :=
  ps.findSome? fun p =>
    (p.lanes.find? fun l => !closedOver g l (p.tc - 2 * d - s.laneO l) (p.tc + p.guard + 2 * d + 120)).map fun l =>
      { status := 0x2B, item := 2, index := p.index, lane := l }

/-- A map needs CROSS in a chamber that is FORCED_OFF or parked. -/
def State.needsShut (s : State) (m : Nat) : Bool :=
  (s.caredCells m).any fun d => d.2 && (s.policy (chamberOf d.1) = 3 || s.parked (chamberOf d.1))

/-- Check 6. -/
def State.checkChambers (s : State) (g : Img) : Option BankVerdict :=
  match (List.range (imgNchg g)).find? fun k => s.needsShut (imgChg g k).map with
  | some k => some { status := 0x17, item := 2, index := k }
  | none => if (imgStart g).any s.needsShut then some { status := 0x17, item := 0 } else none

/-- Actuations of a cell in one pass of the matrix: its changes of cared state, cyclically (R93, R95). -/
def State.passCount (s : State) (ms : List Nat) (c : Nat) : Nat :=
  let xs := ms.filterMap fun m => s.caredState m c
  match xs, xs.getLast? with
  | x :: _, some z => (List.zipWith (fun a b => if a = b then 0 else 1) (z :: xs) (xs ++ [x])).take xs.length |>.foldl (· + ·) 0
  | _, _ => 0

/-- The highest actuation count of one matrix and its element, the lowest on a tie (R95). -/
def State.highest (s : State) (g : Img) : Nat × Nat :=
  let ms := (imgChgs g).map (·.map)
  let cs := ((ms.flatMap s.caredCells).map (·.1)).eraseDups
  cs.foldl (fun (n, e) c =>
    let k := s.passCount ms c
    if n < k || (k = n && 0 < k && 2 * c < e) then (k, 2 * c) else (n, e)) (0, 0)

/-- Check 7: the rate in actuations per second against RATE_LIMIT; the rate reported is rounded down (DESIGN CHOICE,
assumption 66). -/
def State.checkWear (s : State) (g : Img) (n e : Nat) : Option BankVerdict :=
  let lim := s.rf .fabWearCfg 0 15 0
  let perSec := n * 1000000000 * 65536
  if lim ≠ 0 && lim * imgM g < perSec then some { status := 0x1A, rate := perSec / imgM g, elem := e } else none

/-- Checks 2 to 7 of R201, in order; a DRIFT_LIM below 32 acts as 32. -/
def State.checkBank (s : State) (b : Nat) : BankVerdict :=
  let g := s.bankImg b
  let d := max (imgDriftNs g) (max (s.rf .timeDrift 0 15 0) 32)
  let ps := s.planned g
  let (n, e) := s.highest g
  let r := (checkForm g).orElse fun _ => (s.checkMaps g).orElse fun _ => (s.checkSpacing g d ps).orElse fun _ =>
    (s.checkGates g d ps).orElse fun _ => (s.checkChambers g).orElse fun _ => s.checkWear g n e
  match r with
  | some v => { v with drift := if v.status = 0x29 then 0 else d }
  | none => { rate := n * 1000000000 * 65536 / imgM g, elem := e, drift := d }

end Sys2Proof.Machine
end

