-- ==== Sys2Proof/Machine/Schedule.lean ====
section
/-! DEFINITION. The schedule unit's commands: loading a bank, starting, swapping and stopping, row boundaries, gate
events, fail-quiet and static hold (R189 to R217, R281, R285). -/

namespace Sys2Proof.Machine

/-! ### Loading (R201) -/

/-- BANK_LOAD: check 1, then the copy. -/
def State.bankLoad (s : State) (r : Nat) : State :=
  match s.readyHead r 0x20 with
  | none => s
  | some e =>
    let b := byteAt e.bytes 24
    match (s.bank b).state with
    | .running | .pending => s.finishCmd r e.idx 0x28 false ({ item := 0xFF : BankVerdict }).res
    | .loading => s
    | _ =>
      let s := s.begin_ r e.idx
      let s := { s with sram := copyIn s.sram (bankBase b) e.payload 0 131072 }
      s.modBank b fun k => { k with state := .loading, marginStale := false, issuer := some (r, e.idx), remote := false }

def execBankLoad (ring : Fin 16) (s : State) : Host.Outcome State Fault Refusal :=
  .next (s.onPin fun s => s.bankLoad ring.val)

/-- The check of a bank ends: VALID or REFUSED (R201). -/
def State.bankChecked (s : State) (b : Nat) : BankVerdict × State :=
  let v := s.checkBank b
  (v, s.modBank b fun k =>
    if v.status = 0 then { k with state := .valid, checkDrift := v.drift, issuer := none }
    else { k with state := .refused, issuer := none })

/-- The BANK_LOAD of a bank whose check has ended completes. -/
def State.loadDone (s : State) (b : Nat) : State :=
  let k := s.bank b
  if k.state ≠ .loading || k.remote then s
  else
    let (v, s) := s.bankChecked b
    match k.issuer with
    | some (r, i) => s.finishCmd r i v.status (v.status = 0) v.res
    | none => s

/-! ### Starting (R204) -/

/-- The bank starts at the first of its matrix boundaries at or after `t` (2^-16 ns). -/
def State.startBoundary (s : State) (b t : Nat) : Nat := nextMatrix (s.bankImg b) t

/-- An accepted PATTERN_START: its bank is PENDING, and START_MAP is applied first where it is not in force. -/
def State.acceptStart (s : State) (r i b t : Nat) (map : Option Nat) : State :=
  let s := (s.begin_ r i).modBank b fun k => { k with state := .pending }
  let q : StartReq := { bank := b, time := t, needMap := map.isSome, ring := r, idx := i,
                        boundary := if map.isSome then none else some (s.startBoundary b (t * 65536)) }
  let s := s.onSched fun c => { c with start := some q }
  match map with
  | some m => s.beginChange { map := m, prev := s.fab.inForce, src := .startMap, stale := (s.dir m).state = .stale }
  | none => s

/-- START_MAP of a bank where it is not in force. -/
def State.startMap (s : State) (b : Nat) : Option Nat :=
  (imgStart (s.bankImg b)).filter fun m => decide (s.fab.inForce ≠ some m)

/-- PATTERN_START: its checks. -/
def State.patternStart (s : State) (r : Nat) : State :=
  match s.readyHead r 0x21 with
  | none => s
  | some e =>
    let b := byteAt e.bytes 24
    let t := timeArg e.bytes 32
    let map := s.startMap b
    if (s.bank b).state = .loading then s
    else if s.sched.run.isSome || s.sched.start.isSome then s.finishCmd r e.idx 0x2C false
    else if (s.bank b).state ≠ .valid || s.casc.role = .stack then s.finishCmd r e.idx 0x2E false
    else if t.any s.timeBad then s.finishCmd r e.idx 0x08 false
    else if map.any fun m => s.applyMask m ≠ 0 then s.finishCmd r e.idx 0x17 false
    else s.acceptStart r e.idx b (t.getD (ceilNs s.nt)) map

def execPatternStart (ring : Fin 16) (s : State) : Host.Outcome State Fault Refusal :=
  .next (s.onPin fun s => (s.patternStart ring.val).shutGates)

/-- A bank runs from the matrix that began at `m`, entered at `t`: its gates stand as the bank defines them, and the
slots of its row that are not past are planned. -/
def State.enterBank (s : State) (b : Nat) (m : Int) (t : Nat) : State :=
  let g := s.bankImg b
  let s := s.modBank b fun k => { k with state := .running }
  let s := (s.onSched fun c => { c with run := some (runFrom g b m 0 t) })
  (s.setGates g m t).planRow t

/-- The bank of a PATTERN_START begins at `t`, in the matrix that began at `m`; `b` ns is the boundary reported (R204,
R215, R216). -/
def State.startBank (s : State) (q : StartReq) (m : Int) (t b : Nat) : State :=
  let s := s.endTest true
  let s := (s.onSched fun c => { c with start := none })
  let s := s.enterBank q.bank m t
  let s := (s.onSched fun c => { c with rowCnt := s.sched.rowCnt + 1 })
  let s := (s.onSched fun c => { c with holdReq := if s.sched.couplingHeld then some .coupling else none })
  let s := (s.onSched fun c => { c with holdAt := m.toNat })
  (s.irqPulse 84).finishCmd q.ring q.idx 0 true (boundaryRes b)

def State.bankStart (s : State) : State :=
  match s.sched.start, s.sched.run with
  | some q, none =>
    (match q.boundary with
     | some t => if s.dueNt t then s.startBank q t t (ceilNs t) else s
     | none => s)
  | _, _ => s

def execBankStart (dt : Nat) (s : State) : Host.Outcome State Fault Refusal := .next (s.onClock dt State.bankStart)

/-! ### Swapping (R205, R206) -/

/-- First instant from `t` that is a matrix boundary of both images, by steps of the running one's matrix. -/
def commonBoundary (g : Img) (step last : Nat) : Nat → Nat → Option Nat
  | 0, _ => none
  | n + 1, t => if last < t then none else if nextMatrix g t = t then some t else commonBoundary g step last n (t + step)

/-- The checks of a swap to bank `b` at or after `time` ns: a status, and the boundary. -/
def State.swapCheck (s : State) (b : Nat) (time : Option Nat) : Nat × Nat :=
  match s.sched.run with
  | none => (0x2D, 0)
  | some r =>
    let g := s.bankImg r.bank
    let h := s.bankImg b
    if (s.bank b).state ≠ .valid then (0x2E, 0)
    else if time.any s.timeBad then (0x08, 0)
    else
      let from_ := max (time.getD 0 * 65536) s.nt
      match commonBoundary h (imgM g) (from_ + 1000000000 * 65536) 32001 (nextMatrix g from_) with
      | none => (0x2F, 0)
      | some t =>
        let ok := match imgStart h with
          | none => true
          | some m => imgStart g = some m || (imgNchg g = 0 && decide (s.fab.inForce = some m))
        if ok then (0, t) else (0x30, 0)

/-- An accepted swap waits for its boundary and replaces the one that waited. -/
def State.setSwap (s : State) (b t : Nat) (issuer : Option (Nat × Nat)) : State :=
  let s := s.cancelSwap 0
  (s.onSched fun c => { c with swap := some { bank := b, boundary := t, issuer := issuer } }).modBank b fun k =>
    { k with state := .pending }

def State.patternSwap (s : State) (r : Nat) : State :=
  match s.readyHead r 0x22 with
  | none => s
  | some e =>
    let b := byteAt e.bytes 24
    if (s.bank b).state = .loading then s
    else
      let (st, t) := s.swapCheck b (timeArg e.bytes 32)
      if st = 0 then (s.begin_ r e.idx).setSwap b t (some (r, e.idx)) else s.finishCmd r e.idx st false

def execPatternSwap (ring : Fin 16) (s : State) : Host.Outcome State Fault Refusal :=
  .next (s.onPin fun s => s.patternSwap ring.val)

/-- A change entry's cast-on order outlives a swap only into its own bank (R207). -/
def State.keepCast (s : State) (b : Nat) : State :=
  let s := (s.onFab fun c => { c with armedEntry := none })
  (s.onFab fun c => { c with casts := c.casts.filter fun (p : Nat × Nat × Nat) => p.1 = b })

/-- The swap takes effect at `t`: the new bank from the matrix that began at `m`, with `b` ns the boundary reported. -/
def State.swapNow (s : State) (r : Run) (q : SwapReq) (m : Int) (t b : Nat) : State :=
  let s := (s.onSched fun c => { c with swap := none }).modBank r.bank fun k => { k with state := .valid }
  let s := (s.dropSlotEvents.enterBank q.bank m t).keepCast q.bank
  let s := s.cancelStaging.followPolicies
  let s := s.event 13 0 (q.bank + 4 * r.bank) (leBytes 4 s.sched.rowCnt.toNat)
  match q.issuer with
  | some (a, i) => s.finishCmd a i 0 true (boundaryRes b)
  | none => s

/-- The boundary of the waiting swap has come, and its row boundary was taken (R206). -/
def State.bankSwap (s : State) : State :=
  match s.sched.run, s.sched.swap with
  | some r, some q => if s.dueNt q.boundary && q.boundary < r.next then s.swapNow r q q.boundary q.boundary (ceilNs q.boundary) else s
  | _, _ => s

def execBankSwap (dt : Nat) (s : State) : Host.Outcome State Fault Refusal := .next (s.onClock dt State.bankSwap)

/-! ### Stopping (R208) -/

def State.patternStop (s : State) (r : Nat) : State :=
  match s.readyHead r 0x23 with
  | none => s
  | some e =>
    match s.sched.run with
    | none => s.finishCmd r e.idx 0x2D false
    | some q =>
      let s := s.begin_ r e.idx
      let s := (s.onSched fun c => { c with stops := s.sched.stops ++ [(r, e.idx)] })
      (s.onSched fun c => { c with stopAt := some (s.sched.stopAt.getD (q.timeOf (imgM (s.bankImg q.bank)))) })

def execPatternStop (ring : Fin 16) (s : State) : Host.Outcome State Fault Refusal :=
  .next (s.onPin fun s => s.patternStop ring.val)

def State.bankEnd (s : State) : State :=
  match s.sched.run, s.sched.stopAt with
  | some r, some t => if s.dueNt t && t < r.next then (s.endBank (ceilNs t)).followPolicies else s
  | _, _ => s

def execBankEnd (dt : Nat) (s : State) : Host.Outcome State Fault Refusal := .next (s.onClock dt State.bankEnd)

/-! ### Row boundaries (R189, R213, R217) -/

/-- RELEASE_ROWS; 0 acts as 1. -/
def State.releaseRows (s : State) : Nat := max (s.rf .schedCfg 0 15 8) 1

/-- A hold is over: the step has executed or lapsed, and no coupling hold is kept (R216). -/
def State.holdOver (s : State) : Bool := s.time.step.isNone && !s.sched.couplingHeld

/-- A re-alignment change has not reached the end of its guard interval. -/
def State.realigning (s : State) : Bool :=
  (s.fab.change.any (·.src = .realign)) || s.fab.waiting.any (·.src = .realign)

/-- Count entries skipped under fail-quiet or a static hold (R213). -/
def State.countSkipped (s : State) (n : Nat) : State :=
  let s := if s.sched.failQuiet then (s.onSched fun c => { c with fqSkipped := s.sched.fqSkipped + n }) else s
  (s.onSched fun c => { c with hold := s.sched.hold.map fun (h : Hold) => { h with skipped := h.skipped + n } })

/-- Rows with DRIFT 0 since fail-quiet started and since the hold took effect. -/
def State.countQuiet (s : State) : State :=
  let ok := !s.time.drift
  let s := (s.onSched fun c => { c with fqRows := if s.sched.failQuiet && ok then s.sched.fqRows + 1 else 0 })
  let over_ := s.holdOver
  let n := s.releaseRows
  (s.onSched fun c => { c with hold := s.sched.hold.map fun (h : Hold) =>
      let k := if ok then h.rows + 1 else 0
      { h with rows := k, bounds := h.bounds + 1, endDue := over_ && decide (n ≤ k) } })

/-- Into row 0 of the next matrix: entries of the old one that have not started are past. -/
def State.newMatrix (s : State) (r : Run) (g : Img) : State :=
  let s := if s.quiet then s.countSkipped (imgNchg g - r.change) else s
  let s := (List.range 8).foldl (fun s l => s.modLane l fun x => { x with gateIdx := 0 }) s
  let run : Run := { bank := r.bank, matrix := r.next, row := 0, next := r.next + imgRow g, change := 0 }
  (s.onSched fun c => { c with run := some run }).irqPulse 84

def State.rowBoundary (s : State) : State :=
  match s.sched.run with
  | none => s
  | some r =>
    if !s.dueNt r.next then s
    else
      let g := s.bankImg r.bank
      let s := (s.onSched fun c => { c with rowCnt := s.sched.rowCnt + 1 })
      let s := if imgNrows g ≤ r.row + 1 then s.newMatrix r g
        else (s.onSched fun c => { c with run := some { r with row := r.row + 1, next := r.next + imgRow g } })
      let s := s.countQuiet
      let s := (s.onSched fun c => { c with realign := s.sched.realign && s.realigning })
      s.planSlots (if imgNrows g ≤ r.row + 1 then 0 else r.row + 1) r.next (imgRow g) r.next

def execRowBoundary (dt : Nat) (s : State) : Host.Outcome State Fault Refusal := .next (s.onClock dt State.rowBoundary)

/-! ### Gate events (R195) -/

/-- The next gate entry of a lane falls due. -/
def State.gateEvent (s : State) (l : Nat) : State :=
  match s.sched.run with
  | none => s
  | some r =>
    let g := s.bankImg r.bank
    match (laneGates g l)[(s.lane l).gateIdx]? with
    | none => s
    | some e =>
      if s.dueNt (r.timeOf (entryAt g e.row e.off)) then
        (s.modLane l fun x => { x with gates := BitVec.ofNat 8 e.gates, kind := kindOf e.kind, gateIdx := x.gateIdx + 1 }).cutIfClosed l
      else s

def execGateEvent (dt : Nat) (lane : Fin 8) (s : State) : Host.Outcome State Fault Refusal :=
  .next (s.onClock dt fun s => s.gateEvent lane.val)

/-! ### Fail-quiet and static hold (R212 to R216) -/

/-- What fail-quiet and a hold do alike: prepared scheduled changes are given up, and staging is cancelled. -/
def State.goQuiet (s : State) : State :=
  let s := (s.onFab fun c => { c with armedEntry := none })
  (s.onFab fun c => { c with casts := [] }).cancelStaging.followPolicies

def State.failQuietStart (s : State) : State :=
  match s.sched.run with
  | none => s
  | some r =>
    if s.sched.failQuiet || !s.time.drift || !hasExclusive (s.bankImg r.bank) then s
    else
      let s := (s.onSched fun c => { c with failQuiet := true, fqRows := 0, fqSkipped := 0 })
      let s := s.setBit .schedStatus 0 24
      (s.goQuiet.setLevel 62 true).event 11 0 0

def execFailQuietStart (dt : Nat) (s : State) : Host.Outcome State Fault Refusal :=
  .next (s.onClock dt State.failQuietStart)

/-- At the boundary that ends the last of fail-quiet and hold: a re-alignment change where the map in force is not the
scheduled map (R213). -/
def State.realignNeed (s : State) (alone : Bool) : Option Nat :=
  match s.sched.run with
  | none => none
  | some r =>
    if !alone then none
    else
      let g := s.bankImg r.bank
      match scheduledMap g r.matrix (r.next - imgRow g) with
      | some m => if s.fab.inForce = some m then none else some m
      | none => none

/-- Start the re-alignment change and set REALIGN. -/
def State.startRealign (s : State) (m : Option Nat) : State :=
  match m with
  | none => s
  | some m =>
    let s := (s.onSched fun c => { c with realign := true })
    (s.setBit .schedStatus 0 20).beginChange { map := m, prev := s.fab.inForce, src := .realign }

def State.failQuietEnd (s : State) : State :=
  if s.sched.failQuiet && decide (s.releaseRows ≤ s.sched.fqRows) then
    let m := s.realignNeed s.sched.hold.isNone
    (s.endFailQuiet m.isSome).startRealign m
  else s

def execFailQuietEnd (dt : Nat) (s : State) : Host.Outcome State Fault Refusal :=
  .next (s.onClock dt fun s => s.failQuietEnd.shutGates)

/-- The requested hold takes effect at a matrix boundary (R214), a coupling hold in the place of a step hold in force
(DESIGN CHOICE, assumption 65); at a coupling hold with INAUG_VALID the inauguration map is applied. -/
def State.holdStart (s : State) : State :=
  match s.sched.run, s.sched.holdReq with
  | some r, some w =>
    if r.matrix < s.sched.holdAt then s
    else
      let s := (s.onSched fun c => { c with holdReq := none })
      let old : Hold := s.sched.hold.getD { why := w }
      let s := (s.onSched fun c => { c with hold := some { why := w, skipped := old.skipped, bounds := old.bounds } })
      let s := s.goQuiet.event 12 0 w.code
      let c := s.rg .schedCfg
      let m := fld c 25 16
      if w = .coupling && bit c 31 && decide (s.fab.inForce ≠ some m) && s.mapRouted m then
        s.beginChange { map := m, prev := s.fab.inForce, src := .inaug }
      else s
  | _, _ => s

def execHoldStart (dt : Nat) (s : State) : Host.Outcome State Fault Refusal := .next (s.onClock dt fun s => s.holdStart.shutGates)

def State.holdEnd (s : State) : State :=
  match s.sched.hold with
  | none => s
  | some h =>
    if h.endDue && s.holdOver then
      let m := s.realignNeed (!s.sched.failQuiet)
      s.endHold.startRealign m
    else s

def execHoldEnd (dt : Nat) (s : State) : Host.Outcome State Fault Refusal := .next (s.onClock dt fun s => s.holdEnd.shutGates)

/-- A hold asked for as `w` adds nothing: a hold is asked for or in force, and `w` is a step or both are for coupling. -/
def Sched.covers (c : Sched) (w : HoldWhy) : Bool :=
  (c.hold.isSome || c.holdReq.isSome) &&
    (w = .step || c.holdReq = some .coupling || c.hold.any fun (h : Hold) => h.why = .coupling)

/-- Ask for a static hold at the running bank's next matrix boundary (R185, R214). -/
def State.askHold (s : State) (w : HoldWhy) : State :=
  match s.sched.run with
  | none => s
  | some r =>
    if s.sched.covers w then s
    else { s with sched := { s.sched with holdReq := some w, holdAt := r.timeOf (imgM (s.bankImg r.bank)) } }

end Sys2Proof.Machine
end

