-- ==== Sys2Proof/Machine/Changes.lean ====
section
/-! DEFINITION. Circuit changes and staging: cast-on orders, arming, the start, the end of the guard interval,
verification, staging stitches and reverts (R23, R70 to R76, R80 to R86, R207, R209). -/

namespace Sys2Proof.Machine

/-- A change is between its start and the end of its guard interval. -/
def State.guardRuns (s : State) : Bool := s.fab.change.any (·.stage = .started)

/-! ### Cast-on orders (R81, R207) -/

/-- The change entries of an image from its entry `k` in the matrix that began at `m` on, through `n` matrices, each with
its bank and its t_c. -/
def changesFrom (g : Img) (b k : Nat) (m : Int) (n : Nat) : List (Nat × Nat × Nat) :=
  let all := (List.range n).flatMap fun j => (List.range (imgNchg g)).map fun i =>
    (b, i, (m + (j * imgM g + entryAt g (imgChg g i).row (imgChg g i).off : Nat)).toNat)
  all.drop k

/-- Matrices of an image that reach 200 us past the present one. -/
def castReach (g : Img) : Nat := if imgM g = 0 then 1 else 2 + 200000 * 65536 / imgM g

/-- The change entries that the cast-on orders look ahead to, in order: those of the running bank, and across a waiting
swap those of the new bank (R207). -/
def State.castAhead (s : State) : List (Nat × Nat × Nat) :=
  match s.sched.run with
  | none => []
  | some r =>
    let g := s.bankImg r.bank
    let own := changesFrom g r.bank r.change r.matrix (castReach g)
    let own := match s.sched.stopAt with
      | some t => own.filter fun d => d.2.2 < t
      | none => own
    match s.sched.swap with
    | none => own
    | some q =>
      let h := s.bankImg q.bank
      own.filter (fun d => d.2.2 < q.boundary) ++ changesFrom h q.bank 0 q.boundary (castReach h)

/-- The next change entry whose cast-on order has not been given: bank, entry and t_c. -/
def State.castNext (s : State) : Option (Nat × Nat × Nat) := s.castAhead.find? fun d => !(s.fab.casts.contains d)

/-- The cells that the change to `m` would stitch leave CAL, and their bound-off chambers cast on. -/
def State.castFor (s : State) (m : Nat) : State :=
  let cs := (s.changeSet m).map (·.1)
  let hs := (List.range 32).filter fun h => cs.any fun c => chamberOf c = h
  (hs.foldl State.castOn (s.freeCells cs)).followPolicies

def State.castOrder (s : State) : State :=
  match s.castNext with
  | none => s
  | some (b, k, tc) =>
    if s.quiet || !s.dueNt (tc - 200000 * 65536) then s
    else (s.onFab fun f => { f with casts := f.casts ++ [(b, k, tc)] }).castFor (imgChg (s.bankImg b) k).map

def execCastOnOrder (dt : Nat) (s : State) : Host.Outcome State Fault Refusal := .next (s.onClock dt State.castOrder)

/-! ### Readiness of a command-issued change (R70, R73, R81) -/

/-- Every lane of the list is silent. -/
def State.lanesClosed (s : State) (ls : List Nat) : Bool :=
  ls.all fun l => (s.lane l).cur.isNone && decide ((s.lane l).busyTill ≤ s.now)

/-- Every chamber that the change needs is ON; one that cannot be does not hold up a change of the module's own. -/
def State.chambersReady (s : State) (cs : List Nat) : Bool :=
  cs.all fun c =>
    let h := chamberOf c
    s.pstate h = .on || !s.mayCast h || s.stopped h

/-- The preparation of a change has ended: gates closed and chambers ON. -/
def State.changeReady (s : State) (ch : Change) : Bool :=
  let ls := s.changeLanes ch.map
  ls.all ch.gatesShut.getLsbD && s.lanesClosed ls && s.chambersReady ((s.changeSet ch.map).map (·.1))

/-- The change may start in this cycle, and whether it starts late: a timed one at its time, else a frame boundary
(R70). -/
def State.commandStart (s : State) (ch : Change) : Option Bool :=
  if !s.changeReady ch then none
  else match ch.at_ with
    | none => if s.now % 64 = 0 then some false else none
    | some t => if s.dueNow t then some false else if s.isDue t && s.now % 64 = 0 then some true else none

/-- The next change entry of the running bank, with its t_c (R194). -/
def State.dueEntry (s : State) : Option (Run × Chg × Nat) :=
  match s.sched.run with
  | none => none
  | some r =>
    let g := s.bankImg r.bank
    if r.change < imgNchg g then
      let c := imgChg g r.change
      some (r, c, r.timeOf (entryAt g c.row c.off))
    else none

/-! ### Arming (R75, R81) -/

def State.armSequencers (s : State) : State :=
  let s := match s.dueEntry with
    | some (r, _, tc) =>
      if !s.quiet && s.dueNt (tc - 500 * 65536) then s.onFab fun f => { f with armedEntry := some r.change } else s
    | none => s
  let near := fun (ch : Change) => match ch.at_ with
    | none => true
    | some t => s.isDue (t - 500)
  let arm := fun (ch : Change) => if near ch && s.changeReady ch then { ch with stage := .armed } else ch
  s.onFab fun f => { f with waiting := f.waiting.map arm }

def execSequencerArmed (dt : Nat) (s : State) : Host.Outcome State Fault Refusal :=
  .next (s.onClock dt fun s => s.armSequencers)

/-! ### The start (R72, R75, R76, R83, R90, R229) -/

/-- A chamber of the change set that does not stitch: it is stopped or not ON (R81, R90). -/
def State.missingMask (s : State) (cs : List Nat) : Nat :=
  maskOf ((List.range 32).filter fun h => cs.any (fun c => chamberOf c = h) && (s.stopped h || s.pstate h ≠ .on))

/-- A staged cell for which the map of the change cares is staged no longer (R83). -/
def State.unstage (s : State) (m : Nat) : State :=
  (s.caredCells m).foldl (fun s d =>
    if (s.cell d.1).staged then s.modCell d.1 fun x => { x with staged := false, revertDue := false } else s) s

/-- Row 8 of R118 at a start strobe: cells in PARK that become cared BAR. -/
def State.takeUpMap (s : State) (m : Nat) (p : Nat → Bool) : State :=
  (s.caredCells m).foldl (fun s d =>
    if !d.2 && p (chamberOf d.1) && s.pstate (chamberOf d.1) = .on then s.takeUp d.1 else s) s

/-- The connection of a lane changes now: remainders are discarded, and no link loss counts until it is over. -/
def State.cutConnection (s : State) (l : Nat) : State :=
  (s.abortRests l).modLane l fun x => { x with connBusy := true }

/-- The change starts at `tc` (2^-16 ns): its cells stitch, its lanes lose their connection. The lanes in `ch.lanes` had
lost theirs to a change that it pre-empts, and wait for the end of its guard interval too. A cell staged toward another
change that this map leaves DON'T-CARE keeps, for its revert, the held state it had before (DESIGN CHOICE,
assumption 66). -/
def State.startChange (s : State) (ch : Change) (tc : Nat) (late : Bool) : State :=
  let s := s.endTest true
  let m := ch.map
  let cs := s.changeSet m
  let ids := cs.map (·.1)
  let aff := s.affected s.fab.inForce m ids
  let lanes := affectedLanes aff
  let missing := s.missingMask ids
  let ch := { ch with stage := .started, prev := s.fab.inForce, tc := tc, tcRaw := s.now, cells := ids,
                      missing := BitVec.ofNat 32 missing, late := late, endRaw := s.now + nsC ch.guard,
                      conns := (aff.filter (·.2.2)).map (fun c => (c.1, c.2.1)),
                      lanes := ch.lanes ||| BitVec.ofNat 8 (maskOf lanes) }
  let s := s.freeCells ids
  let s := cs.foldl (fun s d =>
    if missing.testBit (chamberOf d.1) || s.darkOnly d.1 then s else s.startStitch d.1 d.2 false) s
  let s := (s.unstage m).takeUpMap m fun _ => true
  let s := lanes.foldl State.cutConnection s
  (s.onFab fun f => { f with change := some ch }).followPolicies

/-- A scheduled change starts on time; a command-issued change that runs is pre-empted (R23, R274). The gates that the
module held closed for it and the lanes whose connection it broke come with the state. -/
def State.overtake (s : State) : State × BitVec 8 × BitVec 8 :=
  match s.fab.change with
  | none => (s, 0#8, 0#8)
  | some ch =>
    let s := s.onFab fun f => { f with change := none }
    let s := match ch.src with
      | .apply r i =>
        s.finishCmd r i 0x16 true (applyRes ch.cells.length ch.dropped.length 0 0 0 ch.missing.toNat (timeField ch.tc))
          (at_ ch.stale 1 + at_ ch.late 2)
      | _ => s
    (s, ch.gatesShut, ch.lanes)

/-- The entry after the one at hand is next. -/
def State.nextEntry (s : State) (r : Run) : State :=
  (s.onSched fun q => { q with run := some { r with change := r.change + 1 } }).onFab fun f => { f with armedEntry := none }

/-- A change entry falls due: it is skipped and counted while fail-quiet, a hold or a re-alignment runs (R213, R214). -/
def State.entryDue (s : State) (r : Run) (c : Chg) (tc : Nat) : State :=
  if s.quiet then (s.countSkipped 1).nextEntry r
  else
    let k := r.change
    let s := s.nextEntry r
    let s := s.onFab fun f => { f with casts := f.casts.filter fun d => tc < d.2.2 }
    let (s, shut, lanes) := s.overtake
    s.startChange { map := c.map, prev := s.fab.inForce, src := .scheduled k, guard := imgGuard (s.bankImg r.bank) c,
                    stale := (s.dir c.map).state = .stale, gatesShut := shut, lanes := lanes } tc false

/-- The gates that the module holds closed for changes in preparation are those of the lanes that they now affect
(R73). -/
def State.setShut (s : State) : State :=
  (s.onFab fun f => { f with waiting := f.waiting.map fun ch =>
    { ch with gatesShut := BitVec.ofNat 8 (maskOf (s.changeLanes ch.map)) } }).shutGates

/-- Stopped chambers of which the change of a map would stitch cells (R90). -/
def State.stoppedMask (s : State) (m : Nat) : Nat :=
  maskOf ((List.range 32).filter fun h => s.stopped h && s.involves m h)

/-- A change of a command that has not started ends if it involves a cell of a stopped chamber (R90). -/
def State.refuseStopped (s : State) : State :=
  s.dropWaiting (fun ch => ch.ofCommand && s.stoppedMask ch.map ≠ 0) 0x17 fun ch => s.stoppedMask ch.map

/-- The start of the first command-issued change that may start, while no other change runs (R23, R71). -/
def State.commandDue (s : State) : State :=
  let s := s.refuseStopped.setShut
  if s.fab.change.isSome then s else
  match s.fab.waiting.findSome? fun ch => (s.commandStart ch).map fun late => (ch, late) with
  | none => s
  | some (ch, late) =>
    let tc := match ch.at_ with
      | some t => if late then s.nt else t * 65536
      | none => s.nt
    (s.onFab fun f => { f with waiting := f.waiting.erase ch }).startChange ch tc late

/-- t_c of a scheduled change, or else of the command-issued one. -/
def State.changeStart (s : State) : State :=
  match s.dueEntry with
  | some (r, c, tc) => if s.dueNt tc then s.entryDue r c tc else s.commandDue
  | none => s.commandDue

def execCircuitChangeStart (dt : Nat) (s : State) : Host.Outcome State Fault Refusal :=
  .next (s.onClock dt State.changeStart)

/-! ### Verification and completion (R80, R281, R293) -/

/-- Power on an output of a cell, referred to the cell input (R105, R106). -/
def State.outPower (s : State) (c : Nat) (o : Bool) : Nat :=
  (if o then (s.cell c).o.tap1 else (s.cell c).o.tap0).toNat * (Config.tapGain c o + 1)

/-- The wanted output of a hop exceeds the other by at least 20 dB. -/
def State.hopPasses (s : State) (h : Hop) : Bool :=
  decide (100 * s.outPower h.cell (!h.out) ≤ s.outPower h.cell h.out)

/-- A tap of a cell reads above the dark threshold. -/
def State.tapLit (s : State) (c : Nat) (o : Bool) : Bool :=
  decide (s.darkTh c < (if o then (s.cell c).o.tap1 else (s.cell c).o.tap0).toNat)

/-- The entry of a connection carries light: the wanted tap of its first cell is lit, or the other one is and no other
connection of the map enters the cell (R80; DEDUCED, assumption 19). -/
def State.entryLit (s : State) (m : Nat) (h : Hop) : Bool :=
  s.tapLit h.cell h.out ||
    (s.tapLit h.cell (!h.out) && (s.mapHops m).all fun k => k.cell ≠ h.cell || k.inp = h.inp)

/-- The hops of a path whose input carries light: that of a cell after the first by the tap it is fed from (R80). -/
def State.litHops (s : State) (m : Nat) (p : List Hop) : List Hop :=
  match p with
  | [] => []
  | h :: t =>
    (if s.entryLit m h then [h] else []) ++
      ((p.zip t).filter fun d => s.tapLit d.1.cell d.1.out).map (·.2)

/-- Verified, dark and failed connections of a change, those through chambers that did not complete left out (R80). -/
def State.verifyCounts (s : State) (ch : Change) : Nat × Nat × Nat :=
  if !bit (s.rg .fabStitchCfg) 24 then (0, 0, 0)
  else
    let ps := (ch.conns.map fun c => s.mapPath ch.map c.1).filter fun p =>
      p.all fun h => !ch.missing.getLsbD (chamberOf h.cell)
    let isDark := fun (p : List Hop) => !(p.head?.any (s.entryLit ch.map))
    let dark := ps.filter isDark
    let lit := ps.filter fun p => !isDark p
    let ok := lit.filter fun p => (s.litHops ch.map p).all s.hopPasses
    (ok.length, dark.length, lit.length - ok.length)

/-- SUB of the CHANGE_COMPLETE event and its change-entry index (R293). -/
def ChangeSrc.eventSub : ChangeSrc → Nat × Nat
  | .scheduled k => (0, k)
  | .apply _ _ => (0, 0xFFFF)
  | .realign => (1, 0xFFFF)
  | .inaug => (2, 0xFFFF)
  | .startMap => (3, 0xFFFF)

/-- Counts of a list of cells, those of chambers that did not complete left out. -/
def Change.count (ch : Change) (l : List Nat) : Nat := (l.filter fun c => !ch.missing.getLsbD (chamberOf c)).length

/-- The verification of a change ends and its result is reported. -/
def State.completeChange (s : State) : State :=
  match s.fab.verify with
  | none => s
  | some ch =>
    let (v, d, f) := s.verifyCounts ch
    let s := s.onFab fun q => { q with verify := none }
    let s := if f = 0 then s else s.fire 49 f
    let n := ch.count ch.cells
    let k := ch.count ch.dropped
    let miss := ch.missing.toNat
    let s := match ch.src with
      | .apply r i =>
        s.finishCmd r i (if miss = 0 then 0 else 0x17) true (applyRes n k v d f miss (timeField ch.tc))
          (at_ ch.stale 1 + at_ ch.late 2)
      | src =>
        let (sub, e) := src.eventSub
        s.event 1 sub ch.map
          (leBytes 2 n ++ leBytes 2 k ++ leBytes 2 v ++ leBytes 2 d ++ leBytes 2 f ++ leBytes 2 e ++ leBytes 4 miss)
          (some ch.tc)
    s.followPolicies

def execChangeComplete (dt : Nat) (s : State) : Host.Outcome State Fault Refusal :=
  .next (s.onClock dt State.completeChange)

/-! ### The end of the guard interval (R74, R174, R229, R204) -/

/-- The connection of a lane stands: its link delay is discarded and pre-emption verify runs again. -/
def State.newConnection (s : State) (l : Nat) : State :=
  ((s.modLane l fun x => { x with connBusy := false, connEnd := s.now }).dropDelay l).startVerify l

/-- START_MAP is in force: the bank's boundary is the first at or after the start time and 200 us from now (R204). -/
def State.fixStart (s : State) : State :=
  s.onSched fun c => { c with start := c.start.map fun (q : StartReq) =>
    { q with needMap := false,
             boundary := some (s.startBoundary q.bank (max (q.time * 65536) (s.nt + 200000 * 65536))) } }

def State.guardEnd (s : State) : State :=
  match s.fab.change with
  | none => s
  | some ch =>
    if ch.stage ≠ .started || s.now < ch.endRaw then s
    else
      let s := s.completeChange
      let s := s.onFab fun f => { f with inForce := if s.flt.parkedAll then f.inForce else some ch.map,
                                         change := none, verify := some { ch with stage := .verifying } }
      let s := (maskList ch.lanes.toNat 8).foldl State.newConnection s
      let s := if ch.src = .startMap then s.fixStart else s
      s.followPolicies.setShut

def execGuardIntervalEnd (dt : Nat) (s : State) : Host.Outcome State Fault Refusal :=
  .next (s.onClock dt State.guardEnd)

/-! ### Staging (R82 to R85) -/

/-- No staging stitch and no revert has started in the chamber in this 64-cycle frame. -/
def State.frameFree (s : State) (h : Nat) : Bool :=
  (cellsOf h).all fun c => !((s.cell c).stageMove && (s.cell c).stitchRaw / 64 = s.now / 64)

/-- A cell is eligible for staging toward map `m` (R82). -/
def State.stageable (s : State) (m c : Nat) : Bool :=
  let x := s.cell c
  let h := chamberOf c
  (match s.fab.inForce with
   | some p => (s.caredState p c).isNone
   | none => true) &&
  (match s.caredState m c with
   | some v => x.state != v
   | none => false) &&
  !s.isLit c && (s.failed c).isNone && s.pstate h = .on && bit (s.rg .fabChCtrl h) 2 && x.mode ≠ .trajectory &&
  !x.revertDue

/-- The staging span of a change at `tc` runs: STAGE_LEAD us to 2 us before it (R83). -/
def State.stageSpan (s : State) (tc : Nat) : Bool :=
  let lead := s.rf .fabStitchCfg 0 23 16
  lead ≠ 0 && s.dueNt (tc - lead * 1000 * 65536) && decide (s.nt ≤ tc - 2000 * 65536)

def State.stage (s : State) (c : Nat) : State :=
  match s.nextChange with
  | some (m, tc, true) =>
    if s.stageSpan tc && !s.guardRuns && s.stageable m c && s.frameFree (chamberOf c) then
      let s := s.leaveCal c 0x24 true
      let v := (s.caredState m c).getD false
      let s := s.modCell c fun x => { x with held := if x.staged then x.held else x.state, staged := true }
      s.startStitch c v true
    else s
  | _ => s

def execStagingStitch (dt : Nat) (cell : Fin 2048) (s : State) : Host.Outcome State Fault Refusal :=
  .next (s.onClock dt fun s => s.stage cell.val)

/-- A reverting stitch starts: the cell returns to its held state (R85, R86). -/
def State.revert (s : State) (c : Nat) : State :=
  let x := s.cell c
  let h := chamberOf c
  if x.revertDue && s.pstate h = .on && x.mode ≠ .trajectory && !s.guardRuns && s.frameFree h then
    let s := s.leaveCal c 0x24 true
    let s := (s.modCell c fun x => { x with staged := false, revertDue := false, reverted := true }).mark (bar0Size + c) (w32 (2 ^ 19))
    s.startStitch c x.held true
  else s

def execRevert (dt : Nat) (cell : Fin 2048) (s : State) : Host.Outcome State Fault Refusal :=
  .next (s.onClock dt fun s => s.revert cell.val)

end Sys2Proof.Machine
end

