-- ==== Sys2Proof/Machine/Chambers.lean ====
section
/-! DEFINITION. Chambers: cast-on, bind-off, the power policy, loss and reset of an engine, and resume (R87 to R91, R114,
R118 to R120, R397). -/

namespace Sys2Proof.Machine

/-! ### Cast-on and bind-off (R87 to R89) -/

/-- Cast-on ends: the chamber is ON with every loop in PARK, and takes up its cells cared BAR (R118 row 8). -/
def State.castDone (s : State) (h : Nat) : State :=
  if s.pstate h = .castingOn && s.expired (s.chamber h).timer then
    let s := ((s.setPstate h .on).modChamber h fun k => { k with timer := none }).engineRuns h
    let s := match s.fab.inForce with
      | some m => s.takeUpMap m fun k => k = h
      | none => s
    s.followPolicy h
  else s

def execCastOnComplete (dt : Nat) (chamber : Fin 32) (s : State) : Host.Outcome State Fault Refusal :=
  .next (s.onClock dt fun s => s.castDone chamber.val)

/-- The chamber is to bind off: its hold has run out and no cell is needed (R88); while stabling, whatever its policy,
once the bank has ended (R382). -/
def State.mayBindOff (s : State) (h : Nat) : Bool :=
  if s.pwr.phase = .stabling then s.sched.run.isNone else s.expired (s.chamber h).idle && !s.needed h

/-- No cell is involved either (R89). -/
def State.bindOff (s : State) (h : Nat) : State :=
  if s.pstate h = .on && s.mayBindOff h && !s.involved h then s.bindOffChamber h 50 else s

def execBindOff (dt : Nat) (chamber : Fin 32) (s : State) : Host.Outcome State Fault Refusal :=
  .next (s.onClock dt fun s => s.bindOff chamber.val)

/-- Bind-off ends: the chamber is OFF, and casts on again if it is needed by now. -/
def State.bindOffDone (s : State) (h : Nat) : State :=
  if s.pstate h = .bindingOff && s.expired (s.chamber h).timer then
    ((s.setPstate h .off).modChamber h fun k => { k with timer := none }).followPolicy h
  else s

def execBindOffComplete (dt : Nat) (chamber : Fin 32) (s : State) : Host.Outcome State Fault Refusal :=
  .next (s.onClock dt fun s => s.bindOffDone chamber.val)

/-- The policy of a chamber has been written: FORCED_OFF ends the commands that have not started, and the hold of the
old policy no longer counts (R89). -/
def State.newPolicy (s : State) (h : Nat) : State :=
  let s := if s.policy h = 3 then s.refuseCommands h false else s
  (s.modChamber h fun k => { k with idle := none }).followPolicy h

def State.writeChCtrl (s : State) (h : Nat) (v : Word) : State :=
  s.protReg .fabChCtrl h v fun s => s.newPolicy h

def execFabChCtrlWrite (chamber : Fin 32) (value : Word) (s : State) : Host.Outcome State Fault Refusal :=
  .next (s.onHost fun s => s.writeChCtrl chamber.val value)

/-! ### Loss and reset of an engine (R91, R397) -/

def execEngineLoss (dt : Nat) (chamber : Fin 32) (s : State) : Host.Outcome State Fault Refusal :=
  .next (s.onClock dt fun s => s.engineHold chamber.val)

/-- A write of SYS_CHRST under a grant (R397, R407). -/
def State.writeChrst (s : State) (v : Word) : State :=
  s.protWrite (Reg.sysChrst.addr 0) (s.readWord .sysChrst 0 0) v fun s =>
    (maskList v.toNat 32).foldl State.engineHold s

def execChamberReset (mask : Word) (s : State) : Host.Outcome State Fault Refusal :=
  .next (s.onHost fun s => s.writeChrst mask)

/-- The hold ends without resume: the drivers ramp to rest, PSTATE reads RESET, and CHAMBER_LOST fires (R91). -/
def State.holdExpires (s : State) (h : Nat) : State :=
  if s.pstate h = .hold && s.expired (s.chamber h).timer then
    ((((s.restChamber h).setPstate h .reset).modChamber h fun k => { k with timer := none }).refuseCommands h true).fire h 0 (some h)
  else s

def execAnalogHoldExpiry (dt : Nat) (chamber : Fin 32) (s : State) : Host.Outcome State Fault Refusal :=
  .next (s.onClock dt fun s => s.holdExpires chamber.val)

/-- A cell resumes after a chamber reset within the hold (R120): a driven one in HOLD-POSITION; the first M sample after
it measures its position and pre-loads the trim and the integrator from it. A cell caught in TRAJECTORY goes toward its
target with the trim at 0; a cell in PARK goes on with its ramp. -/
def State.resumeCell (s : State) (c : Nat) : State :=
  s.modCell c fun x =>
    if x.mode = .park then
      { x with m := { x.m with rampFrom := x.m.dout, rampAt := s.now, dout := 0 }, b := { x.b with rampFrom := x.b.bal, bal := 0 } }
    else
      let moving := decide (x.mode = .trajectory)
      { x.leave s.now .holdPosition with
        cal := none, stitching := false, recovering := false,
        pos := if moving then .moving else x.pos, timedOut := x.timedOut || moving, revertDue := x.revertDue || x.staged,
        m := { x.m.clearOd with rampStart := true, resume := some (x.m.dout, moving), settle := 0, stayed := false },
        o := { x.o with trim := 0, prev := 0, osat := false, defer := false, deferCnt := 0, check := false, retry := none },
        b := { x.b with settled := false } }

/-- The chamber reset completes (R91, R120): within the hold the chamber resumes, and an interrupted cast-on ends with its
take-up (R87); after the release it reads OFF and follows its policy; under a park it stays down. -/
def State.chamberBack (s : State) (h : Nat) : State :=
  if !(s.chamber h).resetting then s
  else
    let was := (s.chamber h).casting
    let t := s.modChamber h fun k => { k with resetting := false, timer := none, casting := false }
    match s.pstate h with
    | .hold =>
      let t := (((cellsOf h).foldl State.resumeCell t).setPstate h .on).engineRuns h
      let t := match t.fab.inForce with
        | some m => if was then t.takeUpMap m fun k => k = h else t
        | none => t
      t.followPolicy h
    | .reset => (t.setPstate h .off).followPolicy h
    | _ => s.modChamber h fun k => { k with resetting := false, casting := false }

def execChamberResetComplete (dt : Nat) (chamber : Fin 32) (s : State) : Host.Outcome State Fault Refusal :=
  .next (s.onClock dt fun s => s.chamberBack chamber.val)

end Sys2Proof.Machine
end

