-- ==== Sys2Proof/Machine/Endpoint.lean ====
section
/-! DEFINITION. The scheduled endpoint's commands: frames sent and received, lock and link, pre-emption verify,
shapers, stream contexts, pacing, policing, recovery and slots (chapter 08, R288 to R291, R398). -/

namespace Sys2Proof.Machine

/-! ### Transmit -/

/-- A transmit entry is taken (R288, R289): refused, queued on its lane, given to its stream, or left waiting. -/
def State.takeTx (s : State) (r : Nat) (e : Entry) : State :=
  let b := e.bytes
  let f : TxFrame := { octets := rdBytes e.payload 0 (txLen b), src := .entry r e.idx, ins := txIns b }
  let refuse := fun (st lane : Nat) =>
    (s.modEntry r e.idx fun e => { e with copies := 1 }).partDone f ⟨lane, false, st, 0, 0#32⟩
  if txStream b then
    let x := txCtx b
    let c := s.ctx x
    if !(ctxValid c && ctxTx c) || ctxSlotTx c then refuse 0x38 (txLane b)
    else if (s.lanesFor c).1.any fun l => s.maxLen l < txLen b + 4 + (if ctxSeqGen c then 6 else 0) then
      refuse 0x40 (2 * ctxPair c)
    else
      let s := s.modEntry r e.idx fun e => { e with state := .begun, copies := 2 }
      let (f, s) := s.acceptStream x c f
      if ctxPaceEn c then s.pace x c f else s.sendStream c f
  else if s.maxLen (txLane b) < txLen b + 4 then refuse 0x40 (txLane b)
  else if !s.txEn (txLane b) then refuse 0x42 (txLane b)
  else (s.modEntry r e.idx fun e => { e with state := .begun, copies := 1 }).putFrame (txLane b) (txQueue b) f

/-- The next transmit entry of a ring in index order, taken unless it waits for room (R222, R242, R262). -/
def State.transmitEntry (s : State) (r : Nat) : State :=
  let g := s.ring r
  if !(g.state = .running || g.state = .error) then s else
  match g.entries.find? fun e => e.state = .ready && e.done.isNone with
  | none => s
  | some e => if s.txBlocked e.bytes then s else s.takeTx r e

def execTransmitEntry (dt : Nat) (ring : Fin 64) (s : State) : Host.Outcome State Fault Refusal :=
  .next (s.onClock dt fun s => s.transmitEntry (16 + ring.val))

/-- A lane that is free starts the head frame of the highest open and eligible queue (R224); one that sends a
pre-emptable frame is pre-empted for an express frame that is eligible, or since the frame's queue closed (R228). -/
def State.frameStart (s : State) (l : Nat) : State :=
  if !s.txRuns l then s else
  match (s.lane l).cur with
  | some x =>
    if s.preemptable l x.queue &&
        (!s.gateOpen l x.queue ||
          (s.laneKind l = .arbitrating && queuesDown.any fun q => !s.preemptable l q && s.canStart l q)) then s.cut l
    else s
  | none =>
    if s.now < (s.lane l).busyTill then s else
    match queuesDown.find? fun q => s.canStart l q with
    | none => s
    | some q => s.startFrame l q

def execFrameStart (dt : Nat) (lane : Fin 8) (s : State) : Host.Outcome State Fault Refusal :=
  .next (s.onClock dt fun s => s.frameStart lane.val)

/-- The Follow_Up of a two-step Sync: its header with the Follow_Up codes, the fraction of the stamp in correctionField,
and preciseOriginTimestamp with the information TLV of IEEE 802.1AS (assumption 32). -/
def followUpOf (o : List Byte) (stamp : Nat) : List Byte :=
  let h := (putBytes (putBytes (putBytes (o.take 48) 16 (beBytes 2 76)) 22 (beBytes 8 (stamp % 65536))) 46 [2#8])
  let h := putBytes (putBytes h 14 [BitVec.ofNat 8 (byteAt o 14 / 16 * 16 + 8)]) 20 [0#8]
  h ++ insField 0 stamp ++ beBytes 2 3 ++ beBytes 2 28 ++ [0x00#8, 0x80#8, 0xC2#8, 0#8, 0#8, 1#8] ++ zeros 22

/-- What follows a frame that has left. -/
def State.afterSent (s : State) (l : Nat) (x : TxNow) : State :=
  match x.frame.src with
  | .twoStep _ => s.sendOwn l { octets := followUpOf x.frame.octets x.stamp, src := .own }
  | .delayReq => s.modDelay l fun d => { d with asked := some s.now }
  | .delayResp => s.sendOwn l { octets := delayFollowUp x.frame.octets x.stamp, src := .own }
  | _ => s

/-- A lane reset that waited for the frame in progress begins (R398). -/
def State.laneIdle (s : State) (l : Nat) : State :=
  if (s.lane l).resetWait && (s.lane l).cur.isNone then s.resetLane l else s

/-- A frame has left its lane (R248, R288). -/
def State.frameSent (s : State) (l : Nat) : State :=
  match (s.lane l).cur with
  | none => s
  | some x =>
    if s.now < x.since + (s.lane l).octCycles (8 + x.frame.len - x.sent) then s
    else
      let s := s.modLane l fun y => { y with cur := none, busyTill := s.now }
      let s := ((s.laneCnt l 0 1).laneCnt l 1 x.frame.len).emit (.frame l x.frame.octets x.stamp)
      let s := s.partDone x.frame { lane := l, left := true, status := 0, stamp := x.stamp, row := x.row }
      (s.afterSent l x).laneIdle l

def execFrameSent (dt : Nat) (lane : Fin 8) (s : State) : Host.Outcome State Fault Refusal :=
  .next (s.onClock dt fun s => s.frameSent lane.val)

/-- `c` cycles are longer than one matrix plus one row of the running bank. -/
def State.pastMatrix (s : State) (c : Nat) : Bool :=
  match s.sched.run with
  | none => false
  | some r => let g := s.bankImg r.bank; decide ((imgM g + imgRow g) * 1024 < c * 1000 * 65536)

/-- The head frame of a queue has waited longer than one matrix plus one row (R226). -/
def State.noFit (s : State) (l q : Nat) : State :=
  match s.queue l q with
  | [] => s
  | f :: _ =>
    match f.headAt with
    | none => s
    | some t => if s.pastMatrix (s.now - t) then (s.popQueue l q).dropCopy f l 9 0x40 else s

def execTxNofit (dt : Nat) (lane : Fin 8) (queue : Fin 8) (s : State) : Host.Outcome State Fault Refusal :=
  .next (s.onClock dt fun s => s.noFit lane.val queue.val)

/-! ### Receive (R221, R226) -/

/-- What is known of a received frame beside its octets: its context, sequence number, stamp and row count. -/
structure RxInfo where
  lane     : Nat
  ctx      : Option Nat := none
  seq      : Option Nat := none
  stripped : Bool := false
  frag     : Bool
  stamp    : Nat
  row      : Word
  deriving DecidableEq, Repr

/-- The row count at an instant no more than one row ago. -/
def State.rowAt (s : State) (nt : Nat) : Word :=
  match s.sched.run with
  | none => s.sched.rowCnt
  | some r => if nt < r.next - imgRow (s.bankImg r.bank) then s.sched.rowCnt - 1 else s.sched.rowCnt

/-- A frame fills the next posted entry of receive ring `k` (R265, R290, R291); with none posted, or Bus Master Enable
0, it is dropped. -/
def State.toHost (s : State) (k : Nat) (d : List Byte) (i : RxInfo) : State :=
  let r := 80 + k
  let g := s.ring r
  match g.entries.find? fun e => e.done.isNone with
  | none => s.laneCnt i.lane 8 1
  | some e =>
    if !s.bmeUp || !(g.state = .running || g.state = .error) then s.laneCnt i.lane 8 1
    else
      let ok := decide (d.length ≤ lef e.bytes 4 4)
      let kind := i.lane + at_ i.ctx.isSome 3 + at_ i.seq.isSome 4 + at_ i.stripped 5 + at_ i.frag 6
      let body := leBytes 4 (d.length + i.ctx.getD 0 * 2 ^ 16) ++ (e.bytes.drop 8).take 8 ++ zeros 2 ++
        stampBody (i.seq.getD 0) i.stamp i.row
      s.complete r e.idx { status := if ok then 0#8 else 0x43#8, taken := ok, kind := BitVec.ofNat 12 kind, body := body,
                           pre := if ok then some (lef e.bytes 8 8, d) else none }

/-- The frame is stored in a receive slot, whose reserved bytes are 0 (R244, R246). The age byte is that at AGE_OFF as if
there were no R-TAG. -/
def State.storeSlot (s : State) (c d : List Byte) (i : RxInfo) : State :=
  let n := ctxSlot c
  let off := lef c 34 2
  let o := match rtagAt d with
    | some p => if p ≤ off then off + 6 else off
    | none => off
  let age := if off = 0 then 0 else byteAt d o
  let seq := s.slotLE n 0 4
  let s := s.slotPut n 64 d
  let s := s.slotPut n 4 (leBytes 4 d.length ++ leBytes 4 s.sched.rowCnt.toNat ++ leBytes 4 (nsOf i.stamp % 1000000000) ++
    leBytes 2 (i.seq.getD 0) ++ leBytes 2 age ++ zeros 44)
  s.slotPut n 0 (leBytes 4 (seq + 2))

/-- What sequence recovery makes of one sequence number. -/
structure Verdict where
  pass  : Bool
  late  : Bool := false                      -- out of order
  rogue : Bool := false
  lost  : Nat := 0
  deriving DecidableEq, Repr

/-- The Vector Recovery Algorithm of IEEE 802.1CB with history length `n` (R236; assumption 33). -/
def Recovery.vector (q : Recovery) (n : Nat) (seq : BitVec 16) : Verdict × Recovery :=
  let d : Int := (seq - q.seqNum).toInt
  if q.takeAny then (⟨true, false, false, 0⟩, ⟨false, seq, true :: List.replicate (n - 1) false⟩)
  else if (n : Int) ≤ d || d ≤ -(n : Int) then (⟨false, false, true, 0⟩, q)
  else if d ≤ 0 then
    let k := (-d).toNat
    if q.hist.getD k false then (⟨false, false, false, 0⟩, q)
    else (⟨true, true, false, 0⟩, { q with hist := q.hist.set k true })
  else
    let k := d.toNat
    (⟨true, k ≠ 1, false, ((q.hist.drop (n - k)).filter (!·)).length⟩,
     { q with seqNum := seq, hist := true :: (List.replicate (k - 1) false ++ q.hist.take (n - k)) })

/-- The Match Recovery Algorithm of IEEE 802.1CB. -/
def Recovery.match_ (q : Recovery) (seq : BitVec 16) : Verdict × Recovery :=
  if q.takeAny then (⟨true, false, false, 0⟩, { q with takeAny := false, seqNum := seq })
  else if seq = q.seqNum then (⟨false, false, false, 0⟩, q)
  else (⟨true, seq ≠ q.seqNum + 1, false, 0⟩, { q with seqNum := seq })

/-- Add `n` to a stream counter. -/
def State.strAdd (s : State) (x k n : Nat) : State :=
  s.modStream x fun q => { q with cnt := tmod (fun _ => 0) q.cnt k fun c => satN (c + n) 0xFFFFFFFF }

/-- Recovery of a matched frame: whether it passes, with the counters (R236, R249). -/
def State.recover (s : State) (x : Nat) (c : List Byte) (seq : Option Nat) : Bool × State :=
  let passed := fun (s : State) =>
    (s.strCnt x 2).modStream x fun q =>
      { q with rcvyTimer := if ctxRcvy c then some (s.now + msC (lef c 14 2)) else q.rcvyTimer }
  if !ctxRcvy c then (true, passed s)
  else match seq with
    | none =>
      let s := s.strCnt x 7
      if ctxTakeNoSeq c then (true, passed s) else (false, s)
    | some n =>
      let q := (s.stream x).recov
      let (v, q) := if byteAt c 4 = 0 then q.vector (byteAt c 3) (BitVec.ofNat 16 n) else q.match_ (BitVec.ofNat 16 n)
      let s := s.modStream x fun t => { t with recov := q }
      let s := if v.late then s.strCnt x 4 else s
      let s := if v.rogue then s.strCnt x 5 else s
      let s := s.strAdd x 6 v.lost
      if v.pass then (true, passed s) else (false, if v.rogue then s else s.strCnt x 3)

/-- The context that a frame on lane `l` matches (R234). -/
def State.matchCtx (s : State) (l : Nat) (f : List Byte) : Option Nat :=
  let vid := if bef f 12 2 = 0x8100 || bef f 12 2 = 0x88A8 then bits (bef f 14 2) 11 0 else 0
  let hit := fun (kt : Nat) (addr : List Byte) (x : Nat) =>
    let c := s.ctx x
    ctxValid c && ctxRx c && byteAt c 5 = kt && bits (lef c 6 2) 11 0 = vid && decide ((c.drop 8).take 6 = addr) &&
      ctxPair c = l / 2 && cb c 1 (5 + l % 2)
  match s.ctxList.find? (hit 1 (f.take 6)) with
  | some x => some x
  | none => s.ctxList.find? (hit 2 ((f.drop 6).take 6))

/-- Stream processing of a matched frame (R236, R237, R243, R246). -/
def State.rxStream (s : State) (x : Nat) (f : List Byte) (i : RxInfo) : State :=
  let c := s.ctx x
  let seq := (rtagAt f).map fun p => bef f (p + 4) 2
  let (ok, s) := s.recover x c seq
  if !ok then s
  else if lef c 24 2 ≠ 0 && lef c 24 2 < f.length + 4 then s.strCnt x 9
  else if ctxPolEn c && (s.stream x).credits = 0 then s.strCnt x 10
  else
    let s := if ctxPolEn c then s.modStream x fun q => { q with credits := q.credits - 1 } else s
    let strip := ctxStrip c && seq.isSome
    let d := match rtagAt f with
      | some p => if strip then f.take p ++ f.drop (p + 6) else f
      | none => f
    let i := { i with ctx := some x, seq := seq, stripped := strip }
    if ctxSlotEn c && ctxSlotRx c then s.storeSlot c d i else s.toHost (bits (byteAt c 36) 5 0) d i

/-- The frame belongs to the supervisor: a Biarn frame (R221 step 5, R298). -/
def isBiarn (f : List Byte) : Bool :=
  let p := afterTags f
  bef f p 2 = 0x88B5 && bef f (p + 2) 2 = 0x4249 && byteAt f (p + 4) = 1

/-- A frame in error: counted by its cause, or as RX_REACQ at a change; without block lock it is no frame (R226). -/
def State.rxError (s : State) (l : Nat) (e : RxError) (reacq : Bool) : State :=
  if reacq then s.laneCnt l 6 1
  else if !(s.lane l).blockLock then s
  else match e with
    | .assembly => s.laneCnt l 12 1
    | .smd => s.laneCnt l 13 1
    | _ => s.laneCnt l 4 1

/-- A frame that ends now on the receiver of lane `l` (R221). -/
def State.frameReceive (s : State) (l : Nat) (fr : RxFrame) : State :=
  let x := s.lane l
  let f := fr.octets
  if !(s.lanePowered l && s.rxEn l) || s.laneTesting l || s.laneResetting l then s else
  let began := s.now - x.octCycles (12 + f.length)
  let reacq := x.connBusy || (x.connEnd ≠ 0 && decide (began < x.connEnd + nsC 120))
  if fr.err ≠ .none then s.rxError l fr.err reacq
  else if !x.blockLock then s
  else if s.maxLen l < f.length + 4 then s.laneCnt l 5 1
  else if bef f 0 6 ≠ s.rg8 .eptMac l && byteAt f 0 % 2 = 0 && !bit (s.rg .eptCfg l) 24 then s.laneCnt l 7 1
  else
    let s := (s.laneCnt l 2 1).laneCnt l 3 (f.length + 4)
    let stamp := (match fr.frag with
      | none => s.nt - (4 + f.length) * x.oct25 / 25
      | some k => s.time.ntWas (s.now - k)) - x.rxDelay
    let i : RxInfo := { lane := l, frag := fr.frag.isSome, stamp := stamp, row := s.rowAt stamp }
    let p := afterTags f
    let kind := byteAt f (p + 2) % 16
    if bef f p 2 = 0x88F7 && kind = 2 then s.answerDelay l f stamp
    else if bef f p 2 = 0x88F7 && !(kind = 11 || kind = 12) then s
    else if bef f p 2 = 0x88F7 then s.toHost (s.rf .eptCfg l 20 15) f i
    else if isBiarn f then s
    else match s.matchCtx l f with
      | some c => s.rxStream c f i
      | none => s.toHost (s.rf .eptCfg l 20 15) f i

def execFrameReceive (dt : Nat) (lane : Fin 8) (frame : RxFrame) (s : State) : Host.Outcome State Fault Refusal :=
  .next (s.onClock dt fun s => s.frameReceive lane.val frame)

/-! ### Lock, link, verify -/

def State.blockLockChange (s : State) (l : Nat) (lock fecLock : Bool) : State :=
  if !(s.lanePowered l && s.rxEn l) || s.laneResetting l then s
  else
    let s := (s.setLock l lock).modLane l fun x => { x with fecLock := fecLock }
    if !lock && s.inSelfTest l then { s with tst.lockLost := s.tst.lockLost ||| BitVec.ofNat 8 (2 ^ l) } else s

def execBlockLockChange (dt : Nat) (lane : Fin 8) (lock fecLock : Bool) (s : State) :
    Host.Outcome State Fault Refusal :=
  .next (s.onClock dt fun s => s.blockLockChange lane.val lock fecLock)

/-- LINK_UP changes, with LINK_CHG and the LINK event (R220, R293). -/
def State.setLink (s : State) (l : Nat) (up : Bool) : State :=
  let s := s.modLane l fun x => { x with linkUp := up, lockTimer := none }
  ((s.setBit .eptStatus l 28).event 14 (if up then 1 else 0) l).startVerify l

/-- Block lock has been held for 1 ms (R220). -/
def State.linkRises (s : State) (l : Nat) : State :=
  let x := s.lane l
  if s.expired x.lockTimer && x.blockLock && !x.linkUp then s.setLink l true else s

def execLinkUp (dt : Nat) (lane : Fin 8) (s : State) : Host.Outcome State Fault Refusal :=
  .next (s.onClock dt fun s => s.linkRises lane.val)

/-- Block lock has been lost for 1 ms (R220); LANE_LINK_LOST fires while no change affects the connection (R335). -/
def State.linkFalls (s : State) (l : Nat) : State :=
  let x := s.lane l
  if s.expired x.lockTimer && !x.blockLock && x.linkUp then
    let s := (s.setLink l false).laneCnt l 15 1
    if x.connBusy then s else s.fire (40 + l) 0 (some l)
  else s

def execLinkDown (dt : Nat) (lane : Fin 8) (s : State) : Host.Outcome State Fault Refusal :=
  .next (s.onClock dt fun s => s.linkFalls lane.val)

/-- A verify response arrives, or a verifyTime ends without one (R229: verifyLimit 3). -/
def State.verifyTick (s : State) (l : Nat) (response : Bool) : State :=
  let x := s.lane l
  if x.verify ≠ 1#2 then s
  else if response then
    (s.modLane l fun x => { x with verify := 2#2, verifyTimer := none }).event 14 2 l
  else if !s.expired x.verifyTimer then s
  else if x.verifyTries + 1 < 3 then
    s.modLane l fun x => { x with verifyTries := x.verifyTries + 1, verifyTimer := some (s.now + msC (s.verifyMs l)) }
  else (s.modLane l fun x => { x with verify := 3#2, verifyTimer := none }).event 14 3 l

def execPreemptVerify (dt : Nat) (lane : Fin 8) (response : Bool) (s : State) : Host.Outcome State Fault Refusal :=
  .next (s.onClock dt fun s => s.verifyTick lane.val response)

/-! ### Shapers (R230, R231) -/

/-- BURST as it acts. -/
def burstOf (w : Nat) : Nat := min (max (bits w 15 0) 1) 32767

/-- The refills due since the last one, with RATE, BURST and EN as the register now holds them. -/
def State.refill (s : State) (l q : Nat) : State :=
  let v := s.shaper l q
  let n := s.now / 1024 - v.last / 1024
  let i := 8 * l + q
  if !s.core || n = 0 then s
  else
    let rate := fld (s.rg .eptShape i 1) 19 0
    let burst := burstOf (s.rg .eptShape i).toNat
    let v : Shaper := { en := bit (s.rg .eptShape i 1) 31, rate := rate, burst := burst,
                        level := min (v.level + n * rate) (burst * 256), last := s.now }
    s.modLane l fun x => { x with shapers := tset (fun _ => {}) x.shapers q v }

def execShaperRefill (dt : Nat) (lane : Fin 8) (queue : Fin 8) (s : State) : Host.Outcome State Fault Refusal :=
  .next (s.onClock dt fun s => s.refill lane.val queue.val)

/-- EPT_Ln_SHAPEq is protected; the level is kept and the refill takes the new values (R231, R327). -/
def State.writeShape (s : State) (i : Nat) (v : Dword) : State := s.protReg8 .eptShape i v

def execEptShapeWrite (lane : Fin 8) (queue : Fin 8) (value : Dword) (s : State) : Host.Outcome State Fault Refusal :=
  .next (s.onHost fun s => s.writeShape (8 * lane.val + queue.val) value)

/-! ### The wheel, pacing, slots, policing, recovery reset -/

/-- The due event of a context is handled, after those that come before it in the order of R240. -/
def State.dueEvent (s : State) (x : Nat) (p : State → Bool) : State :=
  match s.ept.wheel.find? fun e => e.ctx = x && s.slotDue e with
  | some e => if p s then s.serveWhile s.ept.wheel.length fun v => v.key ≤ e.key else s
  | none => s

def execPacedRelease (dt : Nat) (ctx : Fin 4096) (s : State) : Host.Outcome State Fault Refusal :=
  .next (s.onClock dt fun s => s.dueEvent ctx.val fun s => !(s.stream ctx.val).paced.isEmpty)

def execSlotRelease (dt : Nat) (ctx : Fin 4096) (s : State) : Host.Outcome State Fault Refusal :=
  .next (s.onClock dt fun s => s.dueEvent ctx.val fun s => ctxSlotTx (s.ctx ctx.val))

/-- The events of the earliest slot that has come are handled (R240). -/
def State.calendarSlot (s : State) : State :=
  match s.ept.wheel.find? s.slotDue with
  | none => s
  | some e => s.serveWhile s.ept.wheel.length fun v => v.slot = e.slot

def execCalendarSlot (dt : Nat) (s : State) : Host.Outcome State Fault Refusal :=
  .next (s.onClock dt State.calendarSlot)

/-- Every 4,096 slots: overflow events now within reach move into the wheel (R240). -/
def State.overflowMove (s : State) : State :=
  let n := s.slotNo
  if n / 4096 = s.ept.movedAt / 4096 then s
  else
    let near := s.ept.ovfl.filter fun e => e.slot ≤ n + 16383
    { s with ept := { s.ept with movedAt := n, ovfl := s.ept.ovfl.filter fun e => n + 16383 < e.slot,
                                 wheel := near.foldl (fun l e => insertEvent e l) s.ept.wheel } }

def execOverflowMove (dt : Nat) (s : State) : Host.Outcome State Fault Refusal :=
  .next (s.onClock dt State.overflowMove)

/-- One credit each POL_INTERVAL × 16 ns, up to POL_BURST (R243). -/
def State.policeCredit (s : State) (x : Nat) : State :=
  let c := s.ctx x
  if ctxValid c && ctxPolEn c && (s.stream x).creditAt.any (fun t => t ≤ s.now * 1000) then
    s.modStream x fun q =>
      { q with credits := min (q.credits + 1) (ctxPolBurst c), creditAt := q.creditAt.map (· + polGap c) }
  else s

def execPoliceCredit (dt : Nat) (ctx : Fin 4096) (s : State) : Host.Outcome State Fault Refusal :=
  .next (s.onClock dt fun s => s.policeCredit ctx.val)

/-- No frame has passed for RCVY_RESET ms (R236). -/
def State.recoveryReset (s : State) (x : Nat) : State :=
  if ctxValid (s.ctx x) && ctxRcvy (s.ctx x) && s.expired (s.stream x).rcvyTimer then
    (s.modStream x fun q => { q with rcvyTimer := none, recov := {} }).strCnt x 8
  else s

def execRecoveryReset (dt : Nat) (ctx : Fin 4096) (s : State) : Host.Outcome State Fault Refusal :=
  .next (s.onClock dt fun s => s.recoveryReset ctx.val)

/-! ### Lane reset, counters, configuration -/

/-- SYS_LANERST: each named lane resets after the end of its frame or fragment in progress (R398, R407). -/
def State.laneReset (s : State) (v : Word) : State :=
  s.protWrite (Reg.sysLanerst.addr 0) (s.readWord .sysLanerst 0 0) (v &&& 0xFF#32) fun s =>
    (maskList v.toNat 8).foldl (fun s l =>
      if s.laneResetting l then s
      else (s.modLane l fun x => { x with resetWait := true }).laneIdle l) s

def execLaneReset (mask : Word) (s : State) : Host.Outcome State Fault Refusal :=
  .next (s.onHost fun s => s.laneReset mask)

/-- The snapshot of a context's counters (R249). -/
def State.strSnapshot (s : State) (x : Nat) : State :=
  let q := s.stream x
  { s with ept.strSnap := tset (fun _ => 0) q.cnt 1 q.gen.toNat }

def State.writeStrSel (s : State) (v : Word) : State := (s.putReg .eptStrSel 0 0 v).strSnapshot (fld v 11 0)

def execEptStrSel (value : Word) (s : State) : Host.Outcome State Fault Refusal :=
  .next (s.onHost fun s => s.writeStrSel value)

/-- LANE_CONFIG (R219). -/
def State.laneConfig (s : State) (r : Nat) : State :=
  match s.readyHead r 0x40 with
  | none => s
  | some e =>
    if s.sched.run.isSome then s.finishCmd r e.idx 0x2C false
    else
      let l := byteAt e.bytes 24
      let v := byteAt e.bytes 25
      let rate := BitVec.ofNat 2 (bits v 1 0)
      let fec := v.testBit 2
      let x := s.lane l
      let s := s.modLane l fun x => { x with rate := rate, fec := fec, preempt := v.testBit 3 }
      let s := if x.rate ≠ rate || x.fec ≠ fec then (s.loseLock l).dropDelay l else s
      let s := if x.preempt ≠ v.testBit 3 then s.startVerify l else s
      s.finishCmd r e.idx 0 true

def execLaneConfig (ring : Fin 16) (s : State) : Host.Outcome State Fault Refusal :=
  .next (s.onPin fun s => s.laneConfig ring.val)

/-! ### Stream contexts (R233, R234) -/

/-- Reserved bits, refused encodings, ranges and combinations of a context's bytes (R233, R234). -/
def ctxBad (c : List Byte) : Bool :=
  cb c 0 7 || cb c 1 7 || ctxMode c = 3 || cb c 2 7 || byteAt c 3 < 2 || 64 < byteAt c 3 || 1 < byteAt c 4 ||
    2 < byteAt c 5 || 0x1000 ≤ lef c 6 2 || lef c 14 2 = 0 || byteAt c 19 ≠ 0 || 16 ≤ byteAt c 23 ||
    ctxPolBurst c = 0 || 2048 ≤ ctxSlot c || byteAt c 28 = 0 || 64 < byteAt c 28 || byteAt c 28 ≤ byteAt c 29 ||
    2 ^ 17 ≤ lef c 30 4 || 64 ≤ byteAt c 36 || !allZero c 37 27 ||
    (ctxValid c && !ctxTx c && !ctxRx c) ||
    (ctxRx c && (byteAt c 5 = 0 || !(cb c 1 5 || cb c 1 6))) ||
    (ctxMode c = 1 && ctxTx c && !ctxSeqGen c) ||
    (ctxPaceEn c && ctxSlotEn c && !ctxSlotRx c) || (ctxPaceEn c && ctxPace c = 0) ||
    (ctxPolEn c && ctxPolInterval c = 0) ||
    (ctxSlotEn c && ctxSlotRx c && (lef c 24 2 = 0 || 1988 < lef c 24 2))

/-- Status of a context write (R234); 0 is accepted. -/
def State.ctxStatus (s : State) (x : Nat) (c : List Byte) : Nat :=
  let others := s.ctxList.filter fun y => y ≠ x && ctxValid (s.ctx y)
  if ctxBad c then 0x38
  else if ctxValid c && ctxSlotEn c &&
      (others.any fun y => ctxSlotEn (s.ctx y) && ctxSlot (s.ctx y) = ctxSlot c) then 0x38
  else if ctxValid c && (others.any fun y =>
      let d := s.ctx y
      ctxPair d = ctxPair c && (d.drop 5).take 9 = (c.drop 5).take 9) then 0x39
  else 0

/-- The configuration bytes of a context are replaced: what changes the stream's key, lanes or recovery resets its
sequence state; a new slot has no last good copy (R234, R243). -/
def State.putCtx (s : State) (x : Nat) (c : List Byte) : State :=
  let o := s.ctx x
  let fresh := byteAt o 1 % 16 ≠ byteAt c 1 % 16 || (o.drop 5).take 9 ≠ (c.drop 5).take 9 || byteAt o 4 ≠ byteAt c 4 ||
    byteAt o 3 ≠ byteAt c 3
  let slot := ctxSlot o ≠ ctxSlot c || ctxSlotTx o ≠ ctxSlotTx c
  let s := { s with sram := wrBytes s.sram (ctxBase x) c }
  let s := s.modStream x fun q =>
    { q with gen := if fresh then 0#16 else q.gen,
             recov := if fresh then {} else q.recov,
             rcvyTimer := if fresh || !(ctxValid c && ctxRcvy c) then none else q.rcvyTimer,
             credits := if fresh then ctxPolBurst c else min q.credits (ctxPolBurst c),
             creditAt := s.firstCredit c,
             goodCopy := if slot then none else q.goodCopy, age := if slot then 0 else q.age }
  let keep := fun e : WheelEvent => e.ctx ≠ x || !(s.stream x).paced.isEmpty
  let s := { s with ept := { s.ept with wheel := s.ept.wheel.filter keep, ovfl := s.ept.ovfl.filter keep } }
  match s.sched.run with
  | some r =>
    let n := imgRow (s.bankImg r.bank)
    let off := bits (lef c 30 4) 16 0 * 32 * 65536
    if ctxSlotTx c && r.row % byteAt c 28 = byteAt c 29 && off < n && s.nt ≤ r.next - n + off then
      s.addEvent (ceilNs (r.next - n + off)) x
    else s
  | none => s

/-- STREAM_WRITE (R234). -/
def State.streamWrite (s : State) (r : Nat) : State :=
  match s.readyHead r 0x41 with
  | none => s
  | some e =>
    let x := lef e.bytes 24 2
    let c := rdBytes e.payload 0 64
    let st := s.ctxStatus x c
    if st = 0 then (s.putCtx x c).finishCmd r e.idx 0 true else s.finishCmd r e.idx st false

def execStreamWrite (ring : Fin 16) (s : State) : Host.Outcome State Fault Refusal :=
  .next (s.onPin fun s => s.streamWrite ring.val)

/-- STREAM_READ: 256 bytes (R232, R281); the layout of the 192 bytes of module state is not given, so they are free
values (assumption 3). -/
def State.streamRead (s : State) (r : Nat) : State :=
  match s.readyHead r 0x42 with
  | none => s
  | some e =>
    let d := s.ctx (lef e.bytes 24 2) ++ freeBytes s.free 192
    { s with free := s.free + 192 }.finishCmd r e.idx 0 true [] 0 (some (lef e.bytes 8 8, d))

def execStreamRead (ring : Fin 16) (s : State) : Host.Outcome State Fault Refusal :=
  .next (s.onPin fun s => s.streamRead ring.val)

/-! ### Writes of the EPT registers -/

/-- A lane whose receiver is off holds no lock (R221, R377). -/
def State.lanePower (s : State) (l : Nat) : State :=
  if s.lanePowered l && s.rxEn l then s else s.loseLock l

def State.writeEptCfg (s : State) (l : Nat) (v : Word) : State := s.protReg .eptCfg l v fun s => s.lanePower l

def State.writeEptPreempt (s : State) (l : Nat) (v : Word) : State :=
  let was := bit (s.rg .eptPreempt l) 31
  s.protReg .eptPreempt l v fun s => if bit v 31 = was then s else s.startVerify l

end Sys2Proof.Machine
end

