-- ==== Sys2Proof/Machine/Rings.lean ====
section
/-! DEFINITION. The rings' commands: start, reset, doorbells, polling, fetching and the interrupt holdoff, and what a
ring reset or a function-level reset takes back (chapter 09). -/

namespace Sys2Proof.Machine

def State.ringMode (s : State) (r : Nat) : Nat := s.rf .ringCfg r 31 30

/-- POLL_INT in fast-clock cycles; 0 acts as 1. -/
def State.pollInt (s : State) (r : Nat) : Nat := usC (max (s.rf .ringPoll r 15 0) 1)

/-! ### Start (R255) -/

/-- START is accepted with the configuration of ring `r`. -/
def State.startOk (s : State) (r : Nat) : Bool :=
  let n := s.logSize r
  let w := s.rf .ringCfg r 15 8
  let b := s.rf .ringCfg r 6 0
  let m := s.ringMode r
  4 ≤ n && n ≤ 16 && (isEvent r || (1 ≤ w && 1 ≤ b && b ≤ 64)) && (m = 0 || (m = 1 && !isEvent r))

def State.startRing (s : State) (r : Nat) : State :=
  let g := s.ring r
  if g.state ≠ .disabled then s
  else if !s.startOk r then s.setBit .ringStatus r 27
  else
    let g : Ring := { state := .running, lost := g.lost, holdoff := g.holdoff, msgDue := g.msgDue,
                      pollAt := if s.ringMode r = 1 then some (s.now + s.pollInt r) else none }
    s.modRing r fun _ => g

def execRingStart (ring : Fin 160) (s : State) : Host.Outcome State Fault Refusal :=
  .next (s.onHost fun s => s.startRing ring.val)

/-! ### Taking back what has not begun (R270) -/

/-- A MAP_APPLY whose stitches have not started is taken back. -/
def State.withdrawApply (s : State) (r i : Nat) : State :=
  if s.fab.applies.any fun a => a.ring = r && a.idx = i then
    (({ s with fab.applies := s.fab.applies.filter fun a => !(a.ring = r && a.idx = i) }).cancelStaging).finishCmd r i 2 false
  else if s.fab.waiting.any fun c => c.issuedBy r i then
    (({ s with fab.waiting := s.fab.waiting.filter fun c => !c.issuedBy r i }).cancelStaging).finishCmd r i 2 false
  else s

/-- A waiting PATTERN_START, PATTERN_SWAP or PATTERN_STOP is taken back. -/
def State.withdrawPattern (s : State) (r i : Nat) : State :=
  let byMe := fun (p : Nat × Nat) => p.1 = r && p.2 = i
  if s.sched.stops.any byMe then
    let l := s.sched.stops.filter fun p => !byMe p
    let s := { s with sched.stops := l, sched.stopAt := if l.isEmpty then none else s.sched.stopAt }
    s.finishCmd r i 2 false
  else if (s.sched.swap.bind (·.issuer)).any byMe then
    (match s.sched.swap with
     | some q => (({ s with sched.swap := none }).modBank q.bank fun b => { b with state := .valid }).finishCmd r i 2 false
     | none => s)
  else match s.sched.start with
    | some q =>
      let begun := (s.fab.change.any (·.src = .startMap)) || s.fab.verify.any (·.src = .startMap)
      if byMe (q.ring, q.idx) && !begun then
        let s := { s with sched.start := none }.modBank q.bank fun b => { b with state := .valid }
        ({ s with fab.waiting := s.fab.waiting.filter fun (c : Change) => decide (c.src ≠ ChangeSrc.startMap) }).finishCmd r i 2 false
      else s
    | none => s

/-- An authorised TIME_STEP that has not executed is taken back, with the static hold that it asked for. -/
def State.withdrawStep (s : State) (r i : Nat) : State :=
  match s.time.step with
  | some q =>
    if q.issuer = some (r, i) then
      let s := { s with time.step := none }
      let s := { s with sched.holdReq := if s.sched.holdReq = some HoldWhy.step then none else s.sched.holdReq }
      s.finishCmd r i 2 false
    else s
  | none => s

/-- A begun command that only waits is taken back; any other runs to its end. -/
def State.withdraw (s : State) (r : Nat) (e : Entry) : State :=
  match byteAt e.bytes 0 with
  | 0x03 => s.withdrawApply r e.idx
  | 0x21 | 0x22 | 0x23 => s.withdrawPattern r e.idx
  | 0x30 => s.withdrawStep r e.idx
  | _ => s

/-- Copies of a ring entry's frame that are queued or paced, and those on a lane. -/
def State.copiesQueued (s : State) (p : FrameSrc) : Nat :=
  ((s.ept.lanes.flatMap fun l => l.2.queues.flatMap (·.2)).filter (·.src = p)).length +
    ((s.ept.streams.flatMap fun x => x.2.paced).filter (·.2.src = p)).length

def State.onLane (s : State) (p : FrameSrc) : Bool :=
  s.ept.lanes.any fun l => (l.2.cur.any (·.frame.src = p)) || l.2.rest.any (·.2.frame.src = p)

/-- A begun transmit entry of a ring in reset: copies that have not begun to leave are removed; one that has is waited
for. -/
def State.withdrawTx (s : State) (r : Nat) (e : Entry) : State :=
  let p : FrameSrc := .entry r e.idx
  let n := s.copiesQueued p
  let on := s.onLane p
  let s := s.unqueue (· = p)
  if on then s.modEntry r e.idx fun e => { e with copies := e.copies - n }
  else s.complete r e.idx
    { txDone e.bytes e.parts 0 with taken := e.parts.any (·.left), body := (e.bytes.drop 4).take 14 ++ zeros 14 }

/-! ### Reset (R270) -/

/-- Completion of an entry that has not begun: nothing is done of it. -/
def abortedDone (r : Nat) (e : Entry) : Completion :=
  { status := 2#8, taken := false, kind := if isCommand r then 0#12 else BitVec.ofNat 12 (bits (lef e.bytes 0 4) 27 16),
    body := if isCommand r then cmdBody e.bytes [] else e.bytes.drop 4 }

/-- What becomes of one fetched entry at a reset. -/
def State.resetEntry (s : State) (r : Nat) (e : Entry) : State :=
  match e.done with
  | some c => s.modEntry r e.idx fun e => { e with done := some { c with status := 2#8 } }
  | none =>
    match e.state with
    | .begun => if isTransmit r then s.withdrawTx r e else s.withdraw r e
    | .waitSup => (s.recordOrHold { cmdAudit r e 2 with result := 2#8 } true).modEntry r e.idx fun e =>
      { e with done := some (abortedDone r e) }
    | _ => s.modEntry r e.idx fun e => { e with done := some (abortedDone r e) }

/-- Entries below PI that have not been read: the module knows their phase only, and every byte that it has not read is
a free value (assumption 34). -/
def State.unreadEntries (s : State) (r : Nat) : Nat → Nat → List Entry
  | 0, _ => []
  | n + 1, i =>
    let p := s.phaseOf r i
    let l := freeBytes (s.free + 64 * n) (entrySize r)
    let kind := if isCommand r then 0 else lef l 1 2 % 2 ^ 12
    let b := leBytes 4 (p * 2 ^ 31 + (1 - p) * 2 ^ 30 + kind * 2 ^ 16 + byteAt l 0)
    { idx := i, bytes := b ++ l.drop 4 } :: s.unreadEntries r n ((i + 1) % s.ring2S r)

/-- RESET of a ring: every outstanding entry completes with ABORTED, and what has begun runs to its end. -/
def State.resetRing (s : State) (r : Nat) : State :=
  let g := s.ring r
  if !(g.state = .running || g.state = .error) then s
  else if isEvent r then
    s.modRing r fun g => { g with state := .resetting, lost := satN (g.lost + g.held.length) 0xFFFFFFFF, held := [], drops := 0 }
  else
    let n := if s.ringMode r = 0 then s.ringSub r g.pi g.fi else 0
    let new := s.unreadEntries r n g.fi
    let s := { s with free := s.free + 64 * n }
    let s := s.modRing r fun g =>
      { g with state := .resetting, resetAt := some s.now, entries := g.entries ++ new, pollAt := none, pollDue := false,
               pollCw := none, supWait := none }
    ((s.ring r).entries.foldl (fun s e => s.resetEntry r e) s).drain r

def execRingReset (ring : Fin 160) (s : State) : Host.Outcome State Fault Refusal :=
  .next (s.onHost fun s => s.resetRing ring.val)

/-- Every outstanding entry has completed: the ring is DISABLED and its indices read 0 (R254, R270). -/
def State.resetDone (s : State) (r : Nat) : State :=
  let g := s.ring r
  if g.state = .resetting && g.entries.isEmpty then
    s.modRing r fun _ => { errCode := g.errCode, errIdx := g.errIdx, lost := g.lost, holdoff := g.holdoff, msgDue := g.msgDue }
  else s

def execRingResetComplete (ring : Fin 160) (s : State) : Host.Outcome State Fault Refusal :=
  .next (s.onPin fun s => s.resetDone ring.val)

/-- A write of RING_nnn_CTRL: with both bits RESET acts (R254). -/
def State.writeRingCtrl (s : State) (r : Nat) (v : Word) : State :=
  if bit v 30 then s.resetRing r else if bit v 31 then s.startRing r else s

/-- A write of BASE, CFG or POLL: ignored with CFG_IGN while the ring is not DISABLED (R255). -/
def State.writeRingCfg (s : State) (r : Nat) (act : State → State) : State :=
  if (s.ring r).state = .disabled then act s else s.setBit .ringStatus r 26

/-! ### Doorbells (R257, R259, R266) -/

def State.doorbell (s : State) (r : Nat) (v : Word) : State :=
  let g := s.ring r
  let pi := fld v 16 0
  if g.state ≠ .running || s.ringMode r ≠ 0 then s.setBit .ringStatus r 25
  else if pi = g.pi then s
  else if pi < s.ring2S r && s.ringSub r pi g.ci ≤ s.ringS r && s.ringSub r g.pi g.ci ≤ s.ringSub r pi g.ci then
    s.modRing r fun g => { g with pi := pi }
  else s.ringError r 3 pi

def execDoorbell (ring : Fin 144) (value : Word) (s : State) : Host.Outcome State Fault Refusal :=
  .next (s.onHost fun s => s.doorbell ring.val value)

def State.eventDoorbell (s : State) (r : Nat) (v : Word) : State :=
  let g := s.ring r
  let h := fld v 16 0
  if g.state ≠ .running then s.setBit .ringStatus r 25
  else if h = g.fi then s
  else if h < s.ring2S r && s.ringSub r g.ci h ≤ s.ringS r && s.ringSub r h g.fi ≤ s.ringSub r g.ci g.fi then
    (s.modRing r fun g => { g with fi := h, pi := h }).flushEvents 34 r
  else s.ringError r 3 h

def execEventDoorbell (ring : Fin 16) (value : Word) (s : State) : Host.Outcome State Fault Refusal :=
  .next (s.onHost fun s => s.eventDoorbell (144 + ring.val) value)

/-- The doorbell register of any ring. -/
def State.writeDoorbell (s : State) (r : Nat) (v : Word) : State :=
  if isEvent r then s.eventDoorbell r v else s.doorbell r v

/-! ### Polling (R260) -/

/-- The control word at FI is read at the expiry of the poll timer; accepted, it is read no second time (R253, R260). -/
def State.pollTimer (s : State) (r : Nat) (control : Option Word) : State :=
  let g := s.ring r
  if !(s.bmeUp && g.state = .running && s.ringMode r = 1 && s.expired g.pollAt) then s
  else match control with
    | none => s.ringError r 5 g.fi
    | some w =>
      if fld w 31 31 = s.phaseOf r g.fi then s.modRing r fun g => { g with pollAt := none, pollDue := true, pollCw := some w }
      else s.modRing r fun g => { g with pollAt := some (s.now + s.pollInt r) }

def execPollTimer (dt : Nat) (ring : Fin 144) (control : Option Word) (s : State) : Host.Outcome State Fault Refusal :=
  .next (s.onClock dt fun s => s.pollTimer ring.val control)

/-! ### The arbiter (R261) -/

/-- A ring has work and may take a turn. -/
def State.hasWork (s : State) (r : Nat) : Bool :=
  let g := s.ring r
  g.state = .running && !isEvent r && !s.ringWaits r &&
    (if s.ringMode r = 1 then g.pollDue else g.fi ≠ g.pi)

/-- A new round begins when no ring has both work and credit: every ring has a credit of WEIGHT. -/
def State.newRound (s : State) : State :=
  if s.rings.any fun p => s.hasWork p.1 && p.2.credit ≠ 0 then s
  else { (s.rings.map (·.1)).foldl (fun s r => if isEvent r then s else
      s.modRing r fun g => { g with credit := if g.state = .running then s.rf .ringCfg r 15 8 else 0 }) s
    with arbPos := 0 }

/-- The ring that the arbiter visits next. -/
def State.nextRing (s : State) : Option Nat :=
  let l := (s.rings.filter fun p => s.hasWork p.1 && p.2.credit ≠ 0).map (·.1)
  match l.find? (s.arbPos ≤ ·) with
  | some r => some r
  | none => l.head?

/-! ### Fetching (R256, R258, R260, R268, R269) -/

def entryOk (r : Nat) (b : List Byte) : Bool :=
  if isCommand r then cmdEncodingOk b else if isTransmit r then txEncodingOk b else rxEncodingOk b

/-- The data that the module reads for an entry was all read. -/
def dataRead (r : Nat) (b : List Byte) (d : FetchRead) : Bool :=
  if isCommand r then
    (payloadRead b = 0 || d.payload.isSome) &&
      (!roleSensitive (byteAt b 0) || lef b 16 8 = 0 || d.auth.isSome)
  else if isTransmit r then d.payload.isSome else true

/-! The CONSIST_CFG record (R297, R307). -/

def recordSize : Nat := 512

/-- Bytes that the module reads for a command: LEN, and the set that a DISTRIBUTE record names (R275, R307). -/
def commandSpan (b : List Byte) (p : Memory) : Nat :=
  if byteAt b 0 = 0x54 && rd p 0 = 1#8 then recordSize + leNat (rdBytes p 24 4) else payloadRead b

/-- A CONFIGURE record is well encoded; a worker ignores the manager's fields. -/
def State.configureOk (s : State) (p : List Byte) : Bool :=
  let mgr := s.pwr.straps.mgr
  byteAt p 1 ≤ 1 && (!mgr || 1 ≤ byteAt p 2) && 0x10 ≤ byteAt p 3 && byteAt p 3 ≤ 0x1F && lef p 4 4 ≠ 0 &&
    byteAt p 8 ≠ 0 && 5 ≤ byteAt p 9 && 1 ≤ byteAt p 10 && byteAt p 10 ≤ 8 && 1 ≤ byteAt p 11 && allZero p 12 4 &&
    byteAt p 16 % 2 = 1 && byteAt p 23 < 16 && (!mgr || byteAt p 32 < 4) && allZero p 33 31 && allZero p 320 192 &&
    lef p (64 + 8 * s.pwr.straps.slotId.toNat) 8 = s.flash.relpety.unitId.toNat

/-- A DISTRIBUTE record is well encoded, and LEN fits the set (R307). -/
def distributeOk (p set : List Byte) : Bool :=
  allZero p 1 3 && byteAt p 8 ≤ 3 && allZero p 9 7 && allZero p 28 484 && lef set 0 4 ≤ 64 &&
    lef p 24 4 = 64 + 296 * lef set 0 4 + 131072

/-- A SWAP record is well encoded. -/
def swapRecordOk (p : List Byte) : Bool :=
  byteAt p 1 ≤ 1 && allZero p 2 6 && byteAt p 8 ≤ 3 && allZero p 9 7 && allZero p 24 488

/-- The record of a CONSIST_CFG keeps to R297. -/
def State.consistOk (s : State) (b : List Byte) (m : Memory) : Bool :=
  let p := rdBytes m 0 recordSize
  payloadRead b = recordSize &&
    (match byteAt p 0 with
     | 0 => s.configureOk p
     | 1 => distributeOk p (rdBytes m recordSize (lef p 24 4))
     | 2 => swapRecordOk p
     | _ => false)

/-- The record of a KEY_SET: KEY_ID repeats the argument, OP is listed, and what must be 0 is (R323). -/
def keyRecordOk (b p : List Byte) : Bool :=
  byteAt p 0 = byteAt b 24 && byteAt p 1 ≤ 1 && allZero p 2 14 && (byteAt p 1 = 0 || allZero p 16 48)

/-- The record that a command's payload is keeps to its layout. -/
def State.recordOk (s : State) (b : List Byte) (m : Memory) : Bool :=
  match byteAt b 0 with
  | 0x52 => keyRecordOk b (rdBytes m 0 64)
  | 0x54 => s.consistOk b m
  | _ => true

/-- An entry as the module keeps it. -/
def fetchedEntry (r i : Nat) (b : List Byte) (d : FetchRead) : Entry :=
  let n := if isCommand r then commandSpan b (d.payload.getD []) else if isTransmit r then txLen b else 0
  { idx := i, bytes := b, payload := wrBytes [] 0 (rdBytes (d.payload.getD []) 0 n),
    auth := if isCommand r && roleSensitive (byteAt b 0) && lef b 16 8 ≠ 0 then (d.auth.getD []).take 64 else [],
    state := if isCommand r then .fetched else .ready }

/-- Completion of an entry that is malformed or whose data could not be read. -/
def badDone (r : Nat) (b : List Byte) (status : Nat) : Completion :=
  { status := BitVec.ofNat 8 status, taken := false,
    kind := if isCommand r then 0#12 else BitVec.ofNat 12 (bits (lef b 0 4) 27 16),
    body := if isCommand r then cmdBody b [] else b.drop 4 }

/-- The entry at FI is kept. -/
def State.keepEntry (s : State) (r : Nat) (e : Entry) : State :=
  s.modRing r fun g =>
    { g with entries := g.entries ++ [e], fi := (g.fi + 1) % s.ring2S r, credit := g.credit - 1, pollCw := none }

/-- The bytes of an entry: a control word that the poll timer accepted, and the rest as the second read returned it
(R260). -/
def entryBytes (r : Nat) (cw : Option Word) (b0 : List Byte) : List Byte :=
  let b := b0.take (entrySize r) ++ zeros (entrySize r - b0.length)
  match cw with
  | some w => leBytes 4 w.toNat ++ b.drop 4
  | none => b

/-- Entries of one turn, in index order; it ends at a bad entry, a phase that does not match, or spent credit. -/
def State.takeReads : List FetchRead → State → Nat → State
  | [], s, _ => s
  | d :: ds, s, r =>
    let g := s.ring r
    let i := g.fi
    if !(s.hasWork r && g.credit ≠ 0) then s else
    match d.entry with
    | none => s.ringError r 5 i
    | some b0 =>
      let b := entryBytes r g.pollCw b0
      let e := fetchedEntry r i b d
      let bad := fun (st code : Nat) => (s.keepEntry r { e with done := some (badDone r b st) }).ringError r code i
      if bits (lef b 0 4) 31 31 ≠ s.phaseOf r i then
        (if s.ringMode r = 1 then s.modRing r fun g => { g with pollDue := false, pollAt := some (s.now + s.pollInt r) }
         else bad 1 2)
      else if !entryOk r b then bad 1 1
      else if !dataRead r b d then bad 3 4
      else if isCommand r && !s.recordOk b e.payload then bad 1 1
      else State.takeReads ds (s.keepEntry r e) r

/-- The entries of a fetch that the cycle of RESET found in flight: ERR latches the first malformed one, which completes
with ABORTED as the others do (R270). -/
def State.fetchAtReset (s : State) (r : Nat) : List FetchRead → Nat → State
  | [], _ => s
  | d :: ds, i =>
    match d.entry with
    | none => s
    | some b0 =>
      let b := entryBytes r none b0
      let code := if bits (lef b 0 4) 31 31 ≠ s.phaseOf r i then 2 else if entryOk r b then 0 else 1
      if code = 0 then s.fetchAtReset r ds ((i + 1) % s.ring2S r)
      else s.modRing r fun g => { g with errCode := BitVec.ofNat 4 code, errIdx := i }

/-- One visit of the arbiter to ring `r`: up to min(BURST, credit) entries. -/
def State.entryFetch (s : State) (r : Nat) (reads : List FetchRead) (flashOk : Bool) : State :=
  if !s.bmeUp then s else
  if (s.ring r).state = .resetting && (s.ring r).resetAt = some s.now && s.ringMode r = 0 then
    s.fetchAtReset r (reads.take (s.ringSub r (s.ring r).pi (s.ring r).fi)) (s.ring r).fi
  else
  let s := s.newRound
  if s.nextRing ≠ some r then s
  else
    let n := s.rf .ringCfg r 6 0
    let l := reads.take n
    let s := { s with arbPos := r + 1 }
    let avail := if s.ringMode r = 0 then min (s.ringSub r (s.ring r).pi (s.ring r).fi) (s.ring r).credit else 0
    let s := if s.ringMode r = 0 && ((l.take avail).any fun d => d.entry.isNone) then s.ringError r 5 (s.ring r).fi
      else State.takeReads l s r
    s.drain r flashOk

def execEntryFetch (dt : Nat) (ring : Fin 144) (reads : List FetchRead) (flashOk : Bool) (s : State) :
    Host.Outcome State Fault Refusal :=
  .next (s.onClock dt fun s => s.entryFetch ring.val reads flashOk)

/-! ### Interrupt holdoff (R273) -/

/-- One message signals the completions made in the holdoff interval. -/
def State.holdoffEnds (s : State) (r : Nat) : State :=
  let g := s.ring r
  if !s.expired g.holdoff then s
  else
    let up := s.bmeUp
    let s := s.modRing r fun g => { g with holdoff := none, msgDue := g.msgDue && !up }
    if g.msgDue && up then s.ringMsg r else s

def execHoldoffExpiry (dt : Nat) (ring : Fin 160) (s : State) : Host.Outcome State Fault Refusal :=
  .next (s.onClock dt fun s => s.holdoffEnds ring.val)

/-! ### Function-level reset and PERST_N (R271) -/

def orphanSrc (p : FrameSrc) : FrameSrc :=
  match p with
  | .entry _ i => .entry noRing i
  | q => q

def TxFrame.orphan (f : TxFrame) : TxFrame := { f with src := orphanSrc f.src }

def Change.orphan (c : Change) : Change :=
  match c.src with
  | .apply _ i => { c with src := .apply noRing i }
  | _ => c

def Lane.orphan (x : Lane) : Lane :=
  { x with queues := x.queues.map fun q => (q.1, q.2.map TxFrame.orphan),
           cur := x.cur.map fun t => { t with frame := t.frame.orphan },
           rest := x.rest.map fun q => (q.1, { q.2 with frame := q.2.frame.orphan }) }

/-- Every action under way loses its ring entry: it runs to its end and completes nothing (R271). -/
def State.orphan (s : State) : State :=
  let off := fun (p : Nat × Nat) => (noRing, p.2)
  let s := { s with sched.banks := s.sched.banks.map fun (b : Nat × Bank) => (b.1, { b.2 with issuer := b.2.issuer.map off }) }
  let s := { s with sched.start := s.sched.start.map fun (q : StartReq) => { q with ring := noRing } }
  let s := { s with sched.swap := s.sched.swap.map fun (q : SwapReq) => { q with issuer := q.issuer.map off } }
  let s := { s with sched.stops := s.sched.stops.map off }
  let s := { s with fab.change := s.fab.change.map Change.orphan }
  let s := { s with fab.verify := s.fab.verify.map Change.orphan }
  let s := { s with fab.waiting := s.fab.waiting.map Change.orphan }
  let s := { s with fab.applies := s.fab.applies.map fun (a : PendApply) => { a with ring := noRing } }
  let s := { s with fab.routes := s.fab.routes.map fun (a : RouteJob) => { a with ring := noRing } }
  let s := { s with time.step := s.time.step.map fun (q : StepReq) => { q with issuer := q.issuer.map off } }
  let s := { s with loop.cells := s.loop.cells.map fun (c : Nat × Cell) =>
    (c.1, { c.2 with cal := c.2.cal.map fun (j : CalJob) => { j with issuer := j.issuer.map off } }) }
  let s := { s with flash.pending := s.flash.pending.map fun (p : FlashJob × Nat × Nat) => (p.1, noRing, p.2.2) }
  let s := s.onLoop fun l => { l with jobs := l.jobs.map fun j => { j with ring := noRing } }
  let s := { s with ept.lanes := s.ept.lanes.map fun (l : Nat × Lane) => (l.1, l.2.orphan) }
  { s with ept.streams := s.ept.streams.map fun (x : Nat × Stream) =>
      (x.1, { x.2 with paced := x.2.paced.map fun (p : Nat × TxFrame) => (p.1, p.2.orphan) }) }

/-- Every ring is DISABLED at once: no completion and no event is written; what only waits is discarded; attempts that
wait for the supervisor are recorded (R271, R332). -/
def State.disableRings (s : State) : State :=
  let cmds := s.rings.filter fun p => isCommand p.1
  let s := cmds.foldl (fun s p => p.2.entries.foldl (fun s e =>
    if e.state = .waitSup then s.recordOrHold (cmdAudit p.1 e 2) true else s) s) s
  let s := { s with rings := [] }
  let s := { s with arbPos := 0 }
  let s := cmds.foldl (fun s p => p.2.entries.foldl (fun s e =>
    if e.state = .begun then s.withdraw p.1 e else s) s) s
  s.orphan

end Sys2Proof.Machine
end

