-- ==== Sys2Proof/Machine/ConsistOps.lean ====
section
/-! DEFINITION. What the consist hierarchy shares: the accepted record, Biarn frames and their sending, CONSIST events,
and the end of the coupling sequence in a module (R297 to R302, R310, R313, R314, R317). -/

namespace Sys2Proof.Machine

/-! ### The record (R297) -/

def State.recByte (s : State) (o : Nat) : Nat := (rd s.casc.record o).toNat
def State.recLE (s : State) (o n : Nat) : Nat := leNat (rdBytes s.casc.record o n)

def State.slotNum (s : State) : Nat := s.pwr.straps.slotId.toNat
def State.consistId (s : State) : Nat := s.recLE 4 4
def State.unitId (s : State) : Nat := s.flash.relpety.unitId.toNat

/-- HB_MS, and three times it, in cycles. -/
def State.hbCycles (s : State) : Nat := msC (s.recByte 9)
def State.hbLost (s : State) : Nat := msC (3 * s.recByte 9)

/-- Slot of a unit identity in MEMBER. -/
def State.memberSlot (s : State) (id : Nat) : Option Nat :=
  (List.range 32).find? fun k => decide (id ≠ 0) && decide (s.recLE (64 + 8 * k) 8 = id)

/-- The module has a manager's role. -/
def CascRole.manages (r : CascRole) : Bool := r = .claiming || r = .trainMgr || r = .deputy

/-- The module takes part: a role, and the supervisor available (R296, R303). -/
def State.biarnUp (s : State) : Bool :=
  s.core && s.sup.available && (s.casc.role.manages || s.casc.role = .worker)

/-! ### Frames (R298, R299) -/

/-- The tag over a frame without VLAN tag, its TTL taken as 0. -/
def biarnTag (key octets : List Byte) : List Byte := (hmac key (putBytes octets 45 [0#8])).take 16

/-- A Biarn frame with a VLAN tag put in its place. -/
def withVlan (octets tag vlan : List Byte) : List Byte := octets.take 12 ++ vlan ++ octets.drop 12 ++ tag

/-- Octets on the lane: the VLAN tag of VID with priority 7 where VID is not 0. -/
def State.biarnWire (s : State) (octets tag : List Byte) : List Byte :=
  let vid := s.recLE 22 2 % 4096
  withVlan octets tag (if vid = 0 then [] else [0x81#8, 0x00#8] ++ beBytes 2 (7 * 8192 + vid))

/-- Consists in the sender's train; 0 from a worker. -/
def State.nConsist (s : State) : Nat := if s.casc.role.manages then s.casc.train.length else 0

/-- The frame of a type with a payload as lane `l` sends it. -/
def State.biarnOctets (s : State) (l type : Nat) (payload : List Byte) : List Byte :=
  (List.range 6).map (fun k => rd s.casc.record (16 + k)) ++ beBytes 6 (s.rg8 .eptMac l) ++ [0x88#8, 0xB5#8] ++
    beBytes 2 0x4249 ++ [1#8, BitVec.ofNat 8 type] ++ beBytes 4 s.consistId ++ beBytes 8 s.unitId ++
    [BitVec.ofNat 8 s.slotNum, BitVec.ofNat 8 s.casc.role.code, s.casc.priority, BitVec.ofNat 8 s.nConsist] ++
    beBytes 4 s.flash.epoch.toNat ++ beBytes 4 s.casc.txCount.toNat ++ beBytes 2 payload.length ++
    [BitVec.ofNat 8 (s.recByte 3), 32#8] ++ payload

/-- Lanes of LANES. -/
def State.biarnLanes (s : State) : List Nat := maskList (s.recByte 8) 8

/-- Send one frame on every Biarn lane (R299, R302); a full queue takes none (assumption 30). -/
def State.sendBiarn (s : State) (type : Nat) (payload : List Byte) : State :=
  if !s.biarnUp then s
  else
    let s := s.onCasc fun c => { c with txCount := c.txCount + 1 }
    let key := (s.key (s.recByte 3)).material
    s.biarnLanes.foldl (fun s l =>
      let o := s.biarnOctets l type payload
      s.sendOwn l { octets := s.biarnWire o (biarnTag key o), src := .own }) s

/-- CONSIST event (R317). -/
def State.consistEvent (s : State) (sub arg : Nat) (data : List Byte := []) : State := s.event 18 sub arg data

/-! ### Coupling in one module (R313, R314) -/

/-- Slots of the members that a manager counts, its own included (R304). -/
def State.countedSlots (s : State) : List Nat := s.slotNum :: s.casc.members.map (·.1)

/-- The supervisor releases the coupling hold and clears COUPLING; a step that waits keeps its own hold (R314, R185). -/
def State.releaseCoupling (s : State) : State :=
  let wait := s.time.step.isSome
  let s := s.onCasc fun c => { c with coupling := false, coupleEnd := none }
  s.onSched fun c =>
    { c with couplingHeld := false,
             holdReq := if c.holdReq = some HoldWhy.coupling then (if wait then some HoldWhy.step else none) else c.holdReq }

/-- A deputy manager sends RELEASE, naming the members that are not ready. -/
def State.sendRelease (s : State) : State :=
  let n := (s.countedSlots.filter fun k => !(k ∈ s.casc.readySlots)).length
  ((s.sendBiarn 5 [BitVec.ofNat 8 n]).consistEvent 5 0 [BitVec.ofNat 8 n]).releaseCoupling

/-- RELEASE once every member is ready. -/
def State.checkRelease (s : State) : State :=
  if s.casc.coupling && s.casc.role = .deputy && s.countedSlots.all (· ∈ s.casc.readySlots) then s.sendRelease else s

/-- The module is ready: READY to its manager, or its own slot where it is the manager. -/
def State.sendReady (s : State) (outcome : Nat) : State :=
  let o := some (BitVec.ofNat 8 outcome)
  let s := s.onCasc fun c => { c with outcome := o, lastOutcome := o }
  if s.casc.role = .worker then s.sendBiarn 4 [BitVec.ofNat 8 outcome]
  else (s.onCasc fun c => { c with readySlots := c.readySlots ++ [s.slotNum] }).checkRelease

/-- In the coupling sequence the module has stepped, or STATE became LOCKED with no step (R313). -/
def State.coupleCheck (s : State) : State :=
  if s.biarnUp && s.casc.coupling && s.casc.outcome.isNone && (s.time.stepped || s.time.relocked) then
    s.sendReady (if s.time.stepped then 1 else 0)
  else s

end Sys2Proof.Machine
end

