-- ==== Sys2Proof/Machine/Loops.lean ====
section
/-! DEFINITION. The element control loops: the samples of the M, O and B loops, stitches as the M loop sees them,
hand-over, and the choice and the reading of a loop's profile (R77, R78, R97 to R124, R129, R130, R139). -/

namespace Sys2Proof.Machine

/-! ### The flowstone bin in force (R132, R136) -/

def flowBase (c : Nat) : Nat := 0x1380000 + 512 * c

/-- Bin `k` of the flowstone table of a cell (R131). -/
def State.flowBin (s : State) (c k : Nat) : Int := signed 16 (leNat (rdBytes s.sram (flowBase c + 2 * k) 2))

/-- 256 × (t − t_ref) / T at the raw count `now`, with t_ref moved back after a fallback (R132, R135). -/
def Period.angle (p : Period) (now : Nat) : Nat :=
  if p.period = 0 then 0
  else ((256 * (((now - p.tref : Nat) : Int) + p.shift * (p.period : Int) / 65536)) / (p.period : Int)).toNat

/-- The bin in force; after a fallback the reference instants lie before the estimator's edges, so the next of them
passes before its edge comes, and the bins start again (R135). After a loss of lock it goes on with the last T. -/
def Period.binAt (p : Period) (now : Nat) : Nat :=
  if !p.locked then p.angle now % 256
  else if 0 < p.shift && 256 ≤ p.angle now then min (p.angle now - 256) 255
  else min (p.angle now) 255

/-- FADE in cycles; 0 acts as 1 ms. -/
def State.fadeCycles (s : State) : Nat := msC (max (s.rf .fabPeriodCfg 0 7 0) 1)

/-- The fade factor in 2^-16 (R136); SRC 11b holds it at 0. -/
def State.fadeFactor (s : State) : Nat :=
  let p := s.loop.period
  if s.rf .fabPeriodCfg 0 31 30 = 3 then 0
  else if p.fading then
    let x := min (s.now - p.fadeFrom) s.fadeCycles * 65536 / s.fadeCycles
    if p.fadeUp then x else 65536 - x
  else if p.factor1 then 65536 else 0

/-! ### The M loop (R100 to R103, R112 to R116) -/

def Mode.holds (m : Mode) : Bool := m = .holdPosition || m = .holdOptical

/-- Start of the frame of a cell's M loop at raw count `t`: its aperture (R102, R103). -/
def frameOf (c t : Nat) : Nat := t - (t + 64 - localOf c) % 64

/-- Start of the conversion of a cell's taps in the O period whose results are posted by raw count `t`: the conversion
starts at cycle 16n of the period and its results are posted 112 cycles later (R102, R105). -/
def convOf (c t : Nat) : Nat := t - 112 - (t - 112 + 1024 - 16 * localOf c) % 1024

def State.aperture (s : State) (c : Nat) : Nat := frameOf c s.now

/-- The M sample of the present frame is due: the frame has reached phase 48 and has not been sampled (R103). -/
def State.frameDue (s : State) (c : Nat) : Bool :=
  s.pstate (chamberOf c) = .on && decide (s.aperture c + 48 ≤ s.now) && (s.cell c).m.frame ≠ some (s.aperture c)

/-- The O sample of the present period is due: its results are to be posted, and it has not been taken (R105). -/
def State.periodDue (s : State) (c : Nat) : Bool :=
  s.pstate (chamberOf c) = .on && decide (16 * localOf c + 112 ≤ s.now) && (s.cell c).o.period ≠ some (convOf c s.now)

/-- The trim that the M sample with aperture `a` uses: the latest one posted before its phase 12 (R103). -/
def OLoop.trimAt (o : OLoop) (a : Nat) : Int := if o.postAt < a + 12 then o.trim else o.prev

/-- Target of the ramp of a mode (R112). -/
def State.rampTarget (s : State) (c : Nat) : Int :=
  let x := s.cell c
  match x.mode, x.cal with
  | .cal, some j => j.target
  | _, _ => sat32 (s.calHold c x.state + x.o.trimAt (s.aperture c))

/-- Rate of the ramp (R115): a requested rate is clipped to the RAMP_RATE now in force. -/
def State.rampRate (s : State) (c : Nat) : Int :=
  let x := s.cell c
  let top : Int := s.param x.midx.toNat 2
  match x.mode, x.cal with
  | .cal, some j => if 0 < j.rate then min j.rate top else top
  | _, _ => top

/-- One step of the ramp toward `t` (R113). -/
def rampStep (r t rate : Int) : Int :=
  sat32 (if r < t then min (r + rate) t else if t < r then max (r - rate) t else r)

/-- Set-point of the sample with position `y`, and the ramp output (R112, R113). -/
def State.setPoint (s : State) (c : Nat) (y : Int) : Int × Int :=
  let x := s.cell c
  match x.mode with
  | .park => (y, y)
  | .trajectory =>
    let t := s.aperture c + 12 - x.stitchRaw
    let p := if t < Config.trajLen c x.state then sw (Config.trajPos c x.state t) else s.calHold c x.state
    (p, p)
  | _ =>
    let r := rampStep (if x.m.rampStart then y else x.m.r) (s.rampTarget c) (s.rampRate c)
    (r, r)

/-- Level of the trajectory sequencer at phase 48 of the present frame (R100). -/
def State.seqLevel (s : State) (c : Nat) : Int := s.seqAt c (s.aperture c + 48)

/-- The f term (R100, R132). -/
def State.flowTerm (s : State) (c : Nat) : Int :=
  let x := s.cell c
  let p := x.midx.toNat
  if x.mode.holds && (s.profByte p 1).testBit 0 then
    asr (s.term p 7 (s.flowBin c (s.loop.period.binAt s.now)) * s.fadeFactor) 16
  else 0

/-- The integrator with which C5 and C6 make the correction `corr` from the shaped error `v0`, by the inverse of their
products; 0 where a coefficient is 0 (R120, R148). -/
def State.preload (s : State) (c : Nat) (corr v0 : Int) : Int :=
  let p := (s.cell c).midx.toNat
  if s.coef p 5 = 0 || s.coef p 6 = 0 then 0
  else sat32 ((corr * 2 ^ s.shift p 6 / s.coef p 6 - v0) * 2 ^ s.shift p 5 / s.coef p 5)

/-- The shaped error of a sample: five products in a saturating accumulator (R98, R100). -/
def State.shaped (s : State) (p : Nat) (m : MLoop) (e0 : Int) : Int :=
  let acc := sat64 (s.term p 0 e0 + s.term p 1 m.e1)
  let acc := sat64 (acc + s.term p 2 m.e2)
  let acc := sat64 (acc - s.term p 3 m.v1)
  sat32 (sat64 (acc - s.term p 4 m.v2))

/-- The M loop after one sample at position `y`, by the pseudocode of R100; in the first sample after an analog hold the
integrator is pre-loaded so that the drive stays at what was held (R120). -/
def State.mStep (s : State) (c : Nat) (y : Int) : MLoop :=
  let x := s.cell c
  let m := x.m
  let p := x.midx.toNat
  let (sp, r) := s.setPoint c y
  if x.mode = .park then { m with y := y, r := y, sp := sp, corr := 0, u := 0, f := 0 }
  else
    let e0 := sat32 (sp - y)
    let v0 := s.shaped p m e0
    let f := s.flowTerm c
    let seq := s.seqLevel c
    let integ := match m.resume with
      | some (held, _) => s.preload c (held - seq - f) v0
      | none => if m.msat then m.integ else sat32 (m.integ + e0)
    let w := sat32 (v0 + s.term p 5 integ)
    let u := sat32 (s.term p 6 w)
    let d := sat64 (sat64 (seq + u) + f)
    let dout := clampI d (s.param p 0) (s.param p 1)
    { m with y := y, sp := sp, r := r, tgt := s.rampTarget c, rampStart := false, e0 := e0, e1 := e0, e2 := m.e1,
             v1 := v0, v2 := m.v1, integ := integ, u := u, f := f, dout := dout, msat := decide (dout ≠ d),
             corr := sat32 (dout - seq), resume := none }

/-- WIN and CNT_TH as they act (LOOP_CHnn_ODET_CFG). -/
def State.odWin (s : State) (h : Nat) : Nat := 2 ^ min (max (s.rf .loopOdetCfg h 29 26) 6) 14
def State.odTh (s : State) (h : Nat) : Nat := max (s.rf .loopOdetCfg h 25 16) 1
def State.odAmp (s : State) (h : Nat) : Nat := max (s.rf .loopOdetCfg h 7 0) 1 * 16384

/-- The oscillation detector on one sample in a hold mode (R139). -/
def State.odStep (s : State) (h : Nat) (m : MLoop) : MLoop :=
  let sgn := Int.sign m.e0
  let armed := m.odArmed || decide (s.odAmp h ≤ mag m.e0)
  let hit := armed && decide (sgn ≠ 0 ∧ sgn ≠ m.odRef)
  let cnt := if hit then m.odCnt + 1 else m.odCnt
  let n := m.odN + 1
  let last := decide (n = s.odWin h)
  { m with odArmed := armed && !hit, odRef := if hit then sgn else m.odRef,
           odCnt := if last then 0 else cnt, odN := if last then 0 else n,
           odDue := m.odDue || (last && decide (s.odTh h ≤ cnt)) }

/-- The settle band in 2^-16 nm (R77). -/
def State.settleBand (s : State) : Nat := max (s.rf .fabStitchCfg 0 15 12) 1 * 16384

/-- SETTLE_DEADLINE as it acts, in ns. -/
def State.settleNs (s : State) : Nat := min (max (s.rf .fabStitchCfg 0 9 0) 650) 800

/-! ### Stitch records (R160, R161) -/

/-- The spool holds 65,536 records. -/
def spoolSize : Nat := 65536

/-- A record is generated; with the spool full it is dropped and counted (R160). -/
def State.spool (s : State) (type ch info nt : Nat) (payload : List Byte) : State :=
  let f := s.fab
  let q : SpoolRec := { type := BitVec.ofNat 8 type, ch := BitVec.ofNat 8 ch, info := BitVec.ofNat 16 info, nt := nt,
                        seq := f.spoolSeq, payload := payload }
  s.onFab fun f =>
    if f.spool.length < spoolSize then { f with spool := f.spool ++ [q], spoolSeq := f.spoolSeq + 1 }
    else { f with spoolSeq := f.spoolSeq + 1, spoolDrops := satN (f.spoolDrops + 1) 0xFFFF,
                  dropsUnmarked := f.dropsUnmarked + 1 }

/-- The stitch record of a cell: outcome 0 settled, 1 dropped at the deadline, 2 dropped at hand-over. -/
def State.stitchRec (s : State) (c outcome : Nat) : State :=
  if !bit (s.rg .fabHistCtrl) 30 then s
  else
    let x := s.cell c
    let t := if outcome = 1 then 0xFFFF else satN (x.settledIn * 1000 / 1024) 0xFFFF
    s.spool 2 (chamberOf c) (localOf c + at_ x.state 6 + at_ x.stageMove 7 + outcome * 256) x.stitchNt
      (leBytes 2 t ++ leBytes 1 ((x.hist.filter (·.1)).length) ++ zeros 1 ++ leBytes 6 (s.drip (2 * c)) ++ zeros 6)

/-- The outcome of a stitch enters the cell's last 16. -/
def addOutcome (l : List (Bool × Bool)) (dropped up : Bool) : List (Bool × Bool) := ((dropped, up) :: l).take 16

/-! ### Settling (R76 to R78, R118 row 4) -/

def Cell.posOf (x : Cell) : Pos := if x.state then .cross else .bar

/-- The stitch of a cell ends in HOLD-POSITION (R114, R118 rows 4 and 5). -/
def State.endStitch (s : State) (c : Nat) : State :=
  let r := s.calHold c (s.cell c).state
  (s.modCell c fun x =>
    { x.leave s.now .holdPosition with
      stitching := false, recovering := false,
      m := { x.m.clearOd with r := r, rampStart := false, settle := 0, stayed := false },
      b := { x.b with bal := relBal c x.state } }).endInvolved (chamberOf c)

/-- The cell has settled at the aperture `a`, in time (STITCH_SETTLED). -/
def State.settled (s : State) (c a : Nat) : State :=
  let s := (s.endStitch c).modCell c fun x =>
    { x with pos := x.posOf, settledIn := a - x.stitchRaw, hist := addOutcome x.hist false x.state,
             o := { x.o with check := true } }
  s.stitchRec c 0

/-- A dropped stitch settles later (STITCH_RECOVERED). -/
def State.recovered (s : State) (c a : Nat) : State :=
  let s := (s.endStitch c).modCell c fun x => { x with pos := x.posOf, settledIn := a - x.stitchRaw }
  s.event 2 0 c (leBytes 2 (satN ((s.cell c).settledIn * 1000 / 1024) 0xFFFF))

/-- The settle test on the sample with aperture `a` (R77, R78): counted samples from 400 ns on, four in a row. -/
def State.settleTest (s : State) (c a : Nat) : State :=
  let x := s.cell c
  let band := s.settleBand
  if x.mode = .trajectory then
    if a < x.stitchRaw + nsC 400 then s
    else
      let n := if mag x.m.e0 ≤ band then x.m.settle + 1 else 0
      let s := s.modCell c fun x => { x with m := { x.m with settle := n } }
      if n < 4 then s
      else if x.stitching then (if a ≤ x.stitchRaw + s.settleNs * 1024 / 1000 then s.settled c a else s)
      else if x.recovering then s.recovered c a
      else s
  else if x.timedOut && x.mode ≠ .park then
    let n := if mag (x.m.y - s.calHold c x.state) ≤ band then min (x.m.settle + 1) 4 else 0
    s.modCell c fun x =>
      { x with m := { x.m with settle := n }, pos := if n = 0 then .moving else if n = 4 then x.posOf else x.pos }
  else s

/-! ### Calibration legs (R147, R149, R284) -/

/-- r has reached the set-point of a calibration at this sample, and the leg's hold has run out: the next leg. A
requested rate above RAMP_RATE is clipped, which the completion reports (R115). -/
def State.calLeg (s : State) (c : Nat) : State :=
  match (s.cell c).cal with
  | none => s
  | some j =>
    let j := { j with clipped := j.clipped || decide ((s.param (s.cell c).midx.toNat 2 : Int) < j.rate) }
    let j := if j.reached.isNone && (s.cell c).m.r = j.target then { j with reached := some (s.aperture c + 12) } else j
    let j := match j.legs, j.reached with
      | l :: ls, some t => if t + j.hold ≤ s.now then { j with target := l, legs := ls, reached := none } else j
      | _, _ => j
    s.modCell c fun x => { x with cal := some j }

/-! ### The M sample -/

/-- Bookkeeping of a sample in a hold mode: detector, flowstone visit, polarity interval. -/
def State.afterM (s : State) (c : Nat) : State :=
  let x := s.cell c
  if x.mode.holds then
    let m := if (s.profByte x.midx.toNat 1).testBit 1 then s.odStep (chamberOf c) x.m else x.m
    s.modCell c fun x =>
      { x with m := { m with sumU := m.sumU + m.u, nU := m.nU + 1, clean := m.clean && !m.msat,
                             stayed := m.stayed && !m.msat } }
  else s.modCell c fun x => { x with m := { x.m with clean := false, stayed := false } }

/-- The first sample after an analog hold measures the position that the trim is set from (R120). -/
def State.resumeTrim (s : State) (c : Nat) (y : Int) : State :=
  match (s.cell c).m.resume with
  | some (_, false) =>
    s.modCell c fun x =>
      let top : Int := s.param x.oidx.toNat 0
      let trim := clampI (y - s.calHold c x.state) (-top) top
      { x with o := { x.o with trim := trim, prev := trim } }
  | _ => s

/-- At one sample a settled stitch goes before the 8 us of R78 (R118 rows 4 and 5). -/
def State.rowFour (s : State) (c : Nat) : State :=
  let x := s.cell c
  if x.timedOut && x.mode = .holdPosition && x.wasAt = some s.now && x.was = .trajectory then
    s.modCell c fun x =>
      { x with mode := .trajectory, recovering := true, timedOut := false, m := { x.m with settle := x.m.late } }
  else s

/-- Mean e0 of the cells of a chamber that are in a hold mode, none where no cell is held (R134). -/
def State.meanError (s : State) (h : Nat) : Option Int :=
  let l := s.loop.cells.filter fun p => chamberOf p.1 = h && p.2.mode.holds
  if l.isEmpty then none else some ((l.foldl (fun a p => a + p.2.m.e0) 0) / (l.length : Int))

/-- The period estimator takes a sample of its chamber: the mean error goes through the band-pass filter, and a
positive-going zero crossing of its output waits for its edge (R134; assumption 61). -/
def State.feedEstimator (s : State) (c : Nat) : State :=
  let h := s.rf .fabPeriodCfg 0 12 8
  match if chamberOf c = h then s.meanError h else none with
  | none => s
  | some e =>
    s.onLoop fun l =>
      let q := l.period.filter
      let k := Config.bandPass q.filter e
      let v := Config.bandOut k
      let cross := decide (q.out < 0) && decide (0 ≤ v)
      { l with period.filter := { filter := k, out := v, crossAt := if cross then some s.now else q.crossAt } }

/-- The snapshot of LOOP_CHnn_SEL that falls on this sample is taken after it (R130). -/
def State.snapAfter (s : State) (c : Nat) : State :=
  if (s.chan (chamberOf c)).snapDue.any fun d => d.1 = c then s.takeSnap (chamberOf c) else s

/-- One M sample of a cell at position `y` (R100): the settle test, calibration legs and the estimator follow it. -/
def State.mWork (s : State) (c : Nat) (y : Int) : State :=
  let s := ((s.modCell c Cell.takeM).rowFour c).resumeTrim c y
  let m := s.mStep c y
  let a := s.aperture c
  let s := s.modCell c fun x => { x with m := { m with frame := some a, count := m.count + 1 } }
  ((((s.afterM c).settleTest c a).calLeg c).feedEstimator c).snapAfter c

/-- The M sample of a frame, once (R103), at the position by the linearisation to which SWEEP's offset is added (R149): a
row that comes before phase 48, or for a frame already sampled, has no effect. -/
def State.mSample (s : State) (c : Nat) (y : Int) : State :=
  if s.frameDue c then s.mWork c (sat32 (y + (s.calOf c).lin)) else s

def execMSample (dt : Nat) (cell : Fin 2048) (y : Word) (s : State) : Host.Outcome State Fault Refusal :=
  .next (s.onClock dt fun s => s.mSample cell.val (sw y))

/-! ### Dropped stitches (R78) -/

/-- A drop: status, fault source, the change's count, the trace trigger and the record. -/
def State.drop (s : State) (c outcome : Nat) : State :=
  let s := (s.modCell c fun x =>
    { x with dropped := true, failDue := decide (4 ≤ (x.hist.filter (·.1)).length) }).mark (bar0Size + c) (w32 (2 ^ 20))
  let note := fun (ch : Change) =>
    if !(s.cell c).stageMove && c ∈ ch.cells && !(c ∈ ch.dropped) then { ch with dropped := ch.dropped ++ [c] } else ch
  let s := s.onFab fun f =>
    { f with change := f.change.map fun ch => if ch.stage = .started then note ch else ch, verify := f.verify.map note }
  ((s.fire 48 c (some (chamberOf c))).traceEvent (chamberOf c) 3).stitchRec c outcome

/-- A stitch is not settled at its deadline, or its deferral runs out (R78, R122, R123). -/
def State.dropStitch (s : State) (c : Nat) : State :=
  let x := s.cell c
  if s.pstate (chamberOf c) ≠ .on then s
  else if x.stitching && x.stitchRaw + nsC s.settleNs ≤ s.now then
    (s.modCell c fun x =>
      { x with stitching := false, recovering := true, hist := addOutcome x.hist true x.state }).drop c 1
  else if x.o.defer && decide (8 ≤ x.o.deferCnt) then
    (s.modCell c fun x =>
      { x with hist := addOutcome (x.hist.drop 1) true x.state,
               o := { x.o with defer := false, deferCnt := 0, retry := some 1024 } }).drop c 2
  else s

def execDroppedStitch (dt : Nat) (cell : Fin 2048) (s : State) : Host.Outcome State Fault Refusal :=
  .next (s.onClock dt fun s => s.dropStitch cell.val)

/-- 8 us after the start the element of a dropped stitch is held at its hold drive (R78, R118 row 5). -/
def State.settleTimeout (s : State) (c : Nat) : State :=
  let x := s.cell c
  if s.pstate (chamberOf c) = .on && x.recovering && x.mode = .trajectory && x.stitchRaw + nsC 8000 ≤ s.now then
    (s.endStitch c).modCell c fun y => { y with timedOut := true, m := { y.m with late := x.m.settle } }
  else s

def execSettleTimeout (dt : Nat) (cell : Fin 2048) (s : State) : Host.Outcome State Fault Refusal :=
  .next (s.onClock dt fun s => s.settleTimeout cell.val)

/-! ### The leakage estimate (R106) -/

/-- Connections that pass a cell in the map in force, each with its hop before this one. -/
def State.hopsAt (s : State) (c : Nat) : List (Hop × Option Hop) :=
  match s.fab.inForce with
  | none => []
  | some m =>
    (s.mapConns m).filterMap fun d =>
      let p := s.mapPath m d.1
      match p.findIdx? (·.cell = c) with
      | none => none
      | some k => (p[k]?).map fun h => (h, if k = 0 then none else p[k - 1]?)

/-- A fraction of the light in Q1.30, from 0 to 1. -/
def fraction (n d : Int) : Int := if d ≤ 0 then 0 else clampI (n * 1073741824 / d) 0 1073741824

/-- Power on the output of a hop, as an integer. -/
def State.hopPower (s : State) (h : Hop) : Int := (s.outPower h.cell h.out : Nat)

/-- A power exceeds another by at least 3 dB: the tenth power of their ratio is at least 10^3. -/
def threeDb (weak strong : Int) : Bool := decide (weak < strong) && decide (1000 * weak ^ 10 ≤ strong ^ 10)

/-- The output of the previous gallery that feeds an input of a cell carries light; in G00 no cell feeds it. -/
def State.inputLit (s : State) (c : Nat) (i : Bool) : Bool :=
  let g := c / 128
  if g = 0 then false
  else
    let (d, o) := cellAt (g - 1) (tau (beta g) (c % 128 * 2 + at_ i 0))
    decide (s.darkTh d < (if o then (s.cell d).o.tap1 else (s.cell d).o.tap0).toNat)

/-- λ of a cell: an estimate, a hold sample (`some none`), or a value that the manual does not state (`none`): one
connection with light on the other input, or no light on either tap (assumption 63). -/
def State.estimate (s : State) (c : Nat) : Option (Option Int) :=
  match s.hopsAt c with
  | [(h, _)] =>
    let w := s.hopPower h
    let u : Int := (s.outPower c (!h.out) : Nat)
    if w + u = 0 || s.inputLit c (!h.inp) then none else some (some (fraction u (w + u)))
  | [(h, some a), (k, some b)] =>
    let pa := s.hopPower a
    let pb := s.hopPower b
    if threeDb pa pb then some (some (fraction (s.hopPower h - pa) (pb - pa)))
    else if threeDb pb pa then some (some (fraction (s.hopPower k - pb) (pa - pb)))
    else some none
  | _ => some none

/-- A free λ: a hold sample or any fraction of the light (assumption 63). -/
def State.freeLam (s : State) : Option Int :=
  if s.freeNat % 2 = 0 then none else some ((s.freeNat / 2 % 1073741825 : Nat) : Int)

/-! ### The O loop (R108, R121 to R124) -/

/-- eo (R108). -/
def leakError (c : Nat) (x : Bool) (lam : Int) : Int :=
  let d := lam - relLeak c x
  sat32 (if Config.calDir c x then d else -d)

/-- One O step with the estimate `lam` (R108). -/
def State.oStep (s : State) (c : Nat) (lam : Int) : State :=
  let x := s.cell c
  let p := x.oidx.toNat
  let eo := leakError c x.state lam
  let oint := if x.m.msat || x.o.osat then x.o.oint else sat32 (x.o.oint + s.term p 1 eo)
  let treq := sat32 (oint + s.term p 0 eo)
  let top : Int := s.param p 0
  let st : Int := s.param p 1
  let trim := clampI (x.o.trim + clampI (treq - x.o.trim) (-st) st) (-top) top
  let osat := decide (mag trim = s.param p 0)
  let s := s.modCell c fun x =>
    { x with o := { x.o with oint := oint, trim := trim, osat := osat, prev := x.o.trim, postAt := convOf c s.now + 112 } }
  if osat then s.setBit .loopEvt (chamberOf c) 2 else s

/-- The hand-over check on a sample with estimate `lam`; a hold sample passes (R107, R121). -/
def State.checkPasses (s : State) (c : Nat) (lam : Option Int) : Bool :=
  match lam with
  | none => true
  | some l =>
    let x := s.cell c
    let p := x.oidx.toNat
    decide (mag (sat32 (s.term p 2 (leakError c x.state l))) ≤ s.param p 2)

/-- Hand-over (R109, R121, R118 row 7): O is pre-loaded so that the set-point stays. A hold sample has no eo: the
integrator then takes the trim (DESIGN CHOICE, assumption 62). -/
def State.handOver (s : State) (c : Nat) (lam : Option Int) : State :=
  s.modCell c fun x =>
    let pre := match lam with
      | some l => sat32 (x.o.trim - s.term x.oidx.toNat 0 (leakError c x.state l))
      | none => x.o.trim
    { x.leave s.now .holdOptical with
             m := x.m.clearOd,
             o := { x.o with oint := pre, check := false, defer := false, deferCnt := 0, refused := false, retry := none },
             b := { x.b with bint := x.b.bal, sign := 1, lamPrev := lam.getD x.b.lamPrev, prevEst := lam.isSome,
                             oCnt := 0, bCnt := 0, bAt := 0, settled := false } }

/-- The conditions of the check but light (R121). -/
def State.mayCheck (s : State) (c : Nat) : Bool :=
  let x := s.cell c
  x.mode = .holdPosition && x.m.resume.isNone && (s.profByte x.oidx.toNat 1).testBit 0 && !(s.hopsAt c).isEmpty

/-- A check outside a deferral fails: it repeats after 1,024 O samples (R123). -/
def State.refuseCheck (s : State) (c : Nat) : State :=
  (s.modCell c fun x => { x with o := { x.o with refused := true, retry := some 1024 } }).setBit .loopEvt (chamberOf c) 1

/-- An O sample in HOLD-POSITION (R121 to R123). -/
def State.oHold (s : State) (c : Nat) (lit : Bool) (lam : Option Int) : State :=
  let x := s.cell c
  if x.o.defer then
    if !lit then s.modCell c fun x => { x with o := { x.o with defer := false, deferCnt := 0 } }
    else if !s.mayCheck c then s
    else if s.checkPasses c lam then s.handOver c lam
    else s.modCell c fun x => { x with o := { x.o with deferCnt := min (x.o.deferCnt + 1) 8, refused := true } }
  else if !s.mayCheck c || (x.o.check && decide (convOf c s.now ≤ x.stitchRaw + x.settledIn)) then s
  else if x.o.check then
    if !lit then s.modCell c fun x => { x with o := { x.o with check := false } }
    else if s.checkPasses c lam then s.handOver c lam
    else s.modCell c fun x => { x with o := { x.o with check := false, defer := true, deferCnt := 0, refused := true } }
  else
    match x.o.retry with
    | some n => s.modCell c fun x => { x with o := { x.o with retry := some (max (n - 1) 1) } }
    | none => if !lit then s else if s.checkPasses c lam then s.handOver c lam else s.refuseCheck c

/-- LOSS_COUNT (R127); 0 acts as 1. -/
def State.lossCount (s : State) (c : Nat) : Nat := max (s.param (s.cell c).oidx.toNat 4 % 256) 1

/-- The taps of a cell are converted: the readings, the dark count, and the estimate. -/
def State.readTaps (s : State) (c : Nat) (t0 t1 : Word) : Option Int × State :=
  let s := (s.modCell c Cell.takeO).modCell c fun x =>
    { x with o := { x.o with tap0 := t0, tap1 := t1, period := some (convOf c s.now) } }
  let dark := if s.isLit c then 0 else (s.cell c).o.dark + 1
  let (lam, s) := match s.estimate c with
    | some l => (l, s)
    | none => (s.freeLam, s.tick)
  let gone := decide (s.lossCount c ≤ dark)
  (lam, s.modCell c fun x =>
    { x with o := { x.o with dark := dark, lam := lam.getD x.o.lam, holdSmp := lam.isNone,
                             retry := if gone then none else x.o.retry } })

/-- What the O sample of a period does in its mode (R108, R117, R121). -/
def State.oWork (s : State) (c : Nat) (t0 t1 : Word) : State :=
  let (lam, s) := s.readTaps c t0 t1
  match (s.cell c).mode with
  | .holdOptical =>
    let s := s.modCell c fun x => { x with b := { x.b with oCnt := x.b.oCnt + 1 } }
    (match lam with
     | some l => s.oStep c l
     | none => s)
  | .holdPosition => s.oHold c (s.isLit c) lam
  | _ => s

/-- The O sample of a period, once (R105): a row that comes before its results are to be posted, or for a period already
sampled, has no effect. -/
def State.oSample (s : State) (c : Nat) (t0 t1 : Word) : State := if s.periodDue c then s.oWork c t0 t1 else s

def execOSample (dt : Nat) (cell : Fin 2048) (tap0 tap1 : Word) (s : State) : Host.Outcome State Fault Refusal :=
  .next (s.onClock dt fun s => s.oSample cell.val tap0 tap1)

/-- The check repeats on the 1,024th O sample after a refused one, while the cell is lit (R123). -/
def State.retryCheck (s : State) (c : Nat) (t0 t1 : Word) : State :=
  if !s.periodDue c then s
  else
    let (lam, s) := s.readTaps c t0 t1
    if (s.cell c).o.retry = some 1 && s.mayCheck c && s.isLit c then
      if s.checkPasses c lam then s.handOver c lam else s.refuseCheck c
    else s

def execHandoverRetry (dt : Nat) (cell : Fin 2048) (tap0 tap1 : Word) (s : State) : Host.Outcome State Fault Refusal :=
  .next (s.onClock dt fun s => s.retryCheck cell.val tap0 tap1)

/-- A cell in HOLD-OPTICAL has lost its light (R124, R118 row 6): the trim is frozen and the balance drive held. -/
def State.loseLight (s : State) (c : Nat) : State :=
  let x := s.cell c
  if x.mode = .holdOptical && decide (s.lossCount c ≤ x.o.dark) then
    s.modCell c fun x =>
      { x.leave s.now .holdPosition with
               m := x.m.clearOd, o := { x.o with check := false, retry := none },
               b := { x.b with settled := false } }
  else s

def execLightLoss (dt : Nat) (cell : Fin 2048) (s : State) : Host.Outcome State Fault Refusal :=
  .next (s.onClock dt fun s => s.loseLight cell.val)

/-! ### The B loop (R109, R111) -/

/-- BAL_EN of the cell's B profile. -/
def State.balEn (s : State) (c : Nat) : Bool := (s.profByte (s.cell c).bidx.toNat 1).testBit 0

/-- The balance loop after one B sample, by the pseudocode of R109. -/
def State.bStep (s : State) (c : Nat) : BLoop :=
  let x := s.cell c
  let b := x.b
  let p := x.bidx.toNat
  let lo : Int := s.param p 0 + s.param p 2
  let hi : Int := s.param p 1 - s.param p 2
  let est := !x.o.holdSmp
  let g := sat32 (b.sign * (x.o.lam - b.lamPrev))
  let bint := if est && b.prevEst then min (max (b.bint - s.term p 0 g) lo) hi else b.bint
  { b with bint := bint, bsat := decide (bint = lo) || decide (bint = hi), sign := -b.sign,
           bal := bint - b.sign * s.param p 2, lamPrev := x.o.lam, prevEst := est, bCnt := b.bCnt + 1 }

/-- The latest O sample is a sixteenth since hand-over and its B step has not run (R109). -/
def State.bDue (s : State) (c : Nat) : Bool :=
  let x := s.cell c
  s.pstate (chamberOf c) = .on && x.mode = .holdOptical && decide (x.b.oCnt % 16 = 0) && decide (x.b.bAt < x.b.oCnt)

/-- The B step on every sixteenth O sample since hand-over, on the profile then selected (R109, R129). -/
def State.bSample (s : State) (c : Nat) : State :=
  if s.bDue c then
    let s := s.modCell c fun x => { x.takeB with b := { x.b with bAt := x.b.oCnt } }
    if s.balEn c then
      let b := s.bStep c
      s.modCell c fun x => { x with b := b }
    else s
  else s

def execBSample (dt : Nat) (cell : Fin 2048) (s : State) : Host.Outcome State Fault Refusal :=
  .next (s.onClock dt fun s => s.bSample cell.val)

def State.balanceSettled (s : State) (c : Nat) : State :=
  let x := s.cell c
  if x.mode = .holdOptical && s.balEn c && 256 ≤ x.b.bCnt then
    s.modCell c fun x => { x with b := { x.b with settled := true } }
  else s

def execBalanceSettled (cell : Fin 2048) (s : State) : Host.Outcome State Fault Refusal :=
  .next (s.onPin fun s => s.balanceSettled cell.val)

/-! ### Profile indices and snapshots (R92, R129, R130) -/

/-- A loop selects a profile of its kind, 1 M, 2 O, 3 B, from its next sample on (R129). -/
def State.setIdx (s : State) (kind idx c : Nat) : State :=
  let v := BitVec.ofNat 8 idx
  s.modCell c fun x =>
    if kind = 1 then { x with mnew := some v } else if kind = 2 then { x with onew := some v } else { x with bnew := some v }

/-- A write of LOOP_CHnn_PROFILE_IDX (R129): without a grant, or naming no profile of the kind, it is ignored and sets
IDX_ERR. -/
def State.writeProfileIdx (s : State) (h : Nat) (v : Word) : State :=
  let kind := fld v 15 14
  if !s.grantOk then s.denyWrite.setBit .loopEvt h 0
  else if kind = 0 || s.profKind (fld v 7 0) ≠ kind then s.setBit .loopEvt h 0
  else
    let cs := if bit v 31 then cellsOf h else [64 * h + fld v 13 8]
    s.protWrite (Reg.loopProfileIdx.addr h) (s.readWord .loopProfileIdx h 0) (s.written .loopProfileIdx h 0 v) fun s =>
      cs.foldl (fun s c => s.setIdx kind (fld v 7 0) c) (s.putReg .loopProfileIdx h 0 v)

def execLoopProfileIdx (chamber : Fin 32) (value : Word) (s : State) : Host.Outcome State Fault Refusal :=
  .next (s.onHost fun s => s.writeProfileIdx chamber.val value)

/-- A write of LOOP_CHnn_SEL: the snapshot of the selected cell is taken at its M loop's next phase 48 (R130). -/
def State.writeLoopSel (s : State) (h : Nat) (v : Word) : State :=
  let s := s.putReg .loopSel h 0 v
  let c := 64 * h + fld v 5 0
  let p := frameOf c s.now + 48
  s.modChan h fun k => { k with snapDue := some (c, if p < s.now then p + 64 else p) }

def execLoopSel (dt : Nat) (chamber : Fin 32) (value : Word) (s : State) : Host.Outcome State Fault Refusal :=
  .next ((s.pass dt).onHost fun s => s.writeLoopSel chamber.val value)

def execFabCellSel (value : Word) (s : State) : Host.Outcome State Fault Refusal :=
  .next (s.onHost fun s => s.putReg .fabCellSel 0 0 value)

end Sys2Proof.Machine
end

