-- ==== Sys2Proof/Machine/Supervision.lean ====
section
/-! DEFINITION. Loop supervision: profiles, set-points and calibration, the oscillation detector's reaction, flowstone
tables and the period, polarity reversal, and the drift tracker (R115, R125 to R150, R284). -/

namespace Sys2Proof.Machine

/-! ### Profile writes (R126 to R128, R142, R284) -/

/-- The bits of FLAGS that a kind gives a meaning (R126). -/
def flagMask (kind : Nat) : Byte := if kind = 1 then 3#8 else if kind = 2 ∨ kind = 3 then 1#8 else 0#8

/-- A profile as it is stored: ignored flags and reserved bytes read back as 0. -/
def cleanProfile (b : List Byte) : List Byte :=
  let b := putBytes b 1 [b.getD 1 0#8 &&& flagMask (byteAt b 0)]
  putBytes (putBytes b 2 (zeros 2)) 41 (zeros 3)

/-- The signed 32-bit word at byte `o` of a profile. -/
def profInt (b : List Byte) (o : Nat) : Int := signed 32 (lef b o 4)

/-- The range checks of R128 by kind. -/
def profRangeOk (b : List Byte) : Bool :=
  let p := fun k => profInt b (44 + 4 * k)
  match byteAt b 0 with
  | 0 => true
  | 1 => 0 ≤ p 0 && p 1 ≤ 0x40000000 && p 0 ≤ p 1 && 1 ≤ p 2
  | 2 => 0 ≤ p 0 && 1 ≤ p 1 && 0 ≤ p 2
  | 3 => 0 ≤ p 0 && p 1 ≤ 0x40000000 && 0 ≤ p 2 && 2 * p 2 ≤ p 1 - p 0
  | _ => false

/-- The maker limits of the Relpety record. -/
def State.profLimitOk (s : State) (b : List Byte) : Bool :=
  s.flash.relpety.limits.all fun q =>
    q.kind ≠ byteAt b 0 || (decide (q.lo ≤ profInt b (4 * q.word)) && decide (profInt b (4 * q.word) ≤ q.hi))

/-- Some loop selects profile `p`, in force or from its next sample on. -/
def State.profSelected (s : State) (p : Nat) : Bool :=
  let v := BitVec.ofNat 8 p
  (s.loop.cells.any fun q => q.2.midx = v || q.2.oidx = v || q.2.bidx = v || q.2.mnew = some v || q.2.onew = some v ||
    q.2.bnew = some v || q.2.mfall = some v) || (decide (p ≤ 2) && decide (s.loop.cells.length < 2048))

/-- Status of a write of the resulting profile `b` to profile `p` (R128). -/
def State.profVerdict (s : State) (p : Nat) (b : List Byte) : Nat :=
  if !profRangeOk b then 0x20
  else if !s.profLimitOk b then 0x21
  else if byteAt b 0 ≠ s.profKind p && s.profSelected p then 0x22
  else 0

def State.profileBytes (s : State) (p : Nat) : List Byte := rdBytes s.loop.profiles (64 * p) 64

/-- The 32-bit words in which two profiles differ, those of the second, in ascending order (R142). -/
def wordsDiffer (a b : List Byte) : List (Nat × List Byte) :=
  ((List.range 16).filter fun k => lef a (4 * k) 4 ≠ lef b (4 * k) 4).map fun k => (4 * k, (b.drop (4 * k)).take 4)

/-- PROFILE_WRITE in the form given: checked whole; then the changed words are applied one in each frame, from the next
frame on, and the command completes after the last (R128, R142). -/
def State.profileWrite (s : State) (r form : Nat) (result : State → Entry → List Byte) : State :=
  match s.readyHead r 0x10 with
  | none => s
  | some e =>
    if byteAt e.bytes 25 ≠ form then s
    else
      let p := byteAt e.bytes 24
      let b := cleanProfile (result s e)
      let st := s.profVerdict p b
      if st ≠ 0 then s.finishCmd r e.idx st false
      else
        let ws := wordsDiffer (s.profileBytes p) b
        let j : ProfJob := { ring := r, idx := e.idx, prof := p, words := ws, next := (s.now / 64 + 1) * 64, total := ws.length }
        (s.begin_ r e.idx).profJob j

def execProfileWrite (ring : Fin 16) (s : State) : Host.Outcome State Fault Refusal :=
  .next (s.onPin fun s => s.profileWrite ring.val 0 fun _ e => rdBytes e.payload 0 64)

def execProfileWriteField (ring : Fin 16) (s : State) : Host.Outcome State Fault Refusal :=
  .next (s.onPin fun s => s.profileWrite ring.val 1 fun s e =>
    putBytes (s.profileBytes (byteAt e.bytes 24)) (byteAt e.bytes 26) ((e.bytes.drop 28).take (byteAt e.bytes 27)))

def State.profileRead (s : State) (r : Nat) : State :=
  match s.readyHead r 0x11 with
  | none => s
  | some e => s.finishCmd r e.idx 0 true [] 0 (some (lef e.bytes 8 8, s.profileBytes (byteAt e.bytes 24)))

def execProfileRead (ring : Fin 16) (s : State) : Host.Outcome State Fault Refusal :=
  .next (s.onPin fun s => s.profileRead ring.val)

/-! ### Calibration (R147, R149, R284, R118 rows 9 and 10) -/

/-- Maps that a cell must be DON'T-CARE in (R147): the map in force, and that of the next change, which is the one under
way or first in preparation where there is one. -/
def State.mapsAhead (s : State) : List Nat :=
  s.fab.inForce.toList ++ (s.fab.change.map (·.map)).toList ++ (s.fab.waiting.head?.map (·.map)).toList ++
    (s.nextChange.map (·.1)).toList

/-- A cell is eligible for a probe (R147). -/
def State.eligible (s : State) (c : Nat) : Bool :=
  let x := s.cell c
  (s.mapsAhead.all fun m => (s.caredState m c).isNone) && !s.isLit c && !x.staged && !x.revertDue && (s.failed c).isNone &&
    s.pstate (chamberOf c) = .on && (x.mode = .park || x.mode = .holdPosition)

/-- A cell enters CAL (R114, R118 row 9). -/
def State.enterCal (s : State) (c : Nat) (j : CalJob) : State :=
  s.modCell c fun x =>
    { x.leave s.now .cal with cal := some { j with back := x.mode }, m := { x.m with rampStart := true } }

/-- LOOP_SETPOINT: RATE 0 is RAMP_RATE, and a higher one is clipped to it (R115). -/
def State.loopSetpoint (s : State) (r : Nat) : State :=
  match s.readyHead r 0x12 with
  | none => s
  | some e =>
    let c := lef e.bytes 24 2
    if !s.eligible c then s.finishCmd r e.idx 0x23 false
    else
      let top := s.param (s.cell c).midx.toNat 2
      let want := lef e.bytes 32 4
      (s.begin_ r e.idx).enterCal c
        { op := 2, issuer := some (r, e.idx), back := .park, target := signed 32 (lef e.bytes 28 4), rate := want,
          clipped := decide (top < want), hold := usC (lef e.bytes 36 2) }

def execLoopSetpoint (ring : Fin 16) (s : State) : Host.Outcome State Fault Refusal :=
  .next (s.onPin fun s => s.loopSetpoint ring.val)

/-- The probe: 10 nm away from the nearer end of travel, and back (R147). -/
def State.probeJob (s : State) (c : Nat) (issuer : Option (Nat × Nat)) : CalJob :=
  let y := (s.cell c).m.y
  let mid := (s.calHold c false + s.calHold c true) / 2
  { op := 0, issuer := issuer, back := .park, target := if y ≤ mid then y + 655360 else y - 655360, legs := [y],
    hold := usC 64 }

/-- The sweep: full travel from BAR to CROSS and back (R149). -/
def State.sweepJob (s : State) (c : Nat) (issuer : Option (Nat × Nat)) : CalJob :=
  { op := 1, issuer := issuer, back := .park, target := s.calHold c false, legs := [s.calHold c true, s.calHold c false] }

/-- CAL with OP PROBE or SWEEP; a sweep adds two drip counts (R149). -/
def State.calCommand (s : State) (r op : Nat) : State :=
  match s.readyHead r 0x13 with
  | none => s
  | some e =>
    let c := lef e.bytes 24 2
    if byteAt e.bytes 26 ≠ op then s
    else if !s.eligible c then s.finishCmd r e.idx 0x23 false
    else
      let s := s.begin_ r e.idx
      if op = 0 then s.enterCal c (s.probeJob c (some (r, e.idx)))
      else (s.enterCal c (s.sweepJob c (some (r, e.idx)))).addDrip (2 * c) 2

def execCalProbe (ring : Fin 16) (s : State) : Host.Outcome State Fault Refusal :=
  .next (s.onPin fun s => s.calCommand ring.val 0)

def execCalSweep (ring : Fin 16) (s : State) : Host.Outcome State Fault Refusal :=
  .next (s.onPin fun s => s.calCommand ring.val 1)

/-- RES of CAL: cal_hold of both states and the stiffness scale. -/
def State.calRes (s : State) (c : Nat) : List Byte :=
  leBytes 4 (unsigned 32 (s.calHold c false)) ++ leBytes 4 (unsigned 32 (s.calHold c true)) ++ leBytes 2 (s.calOf c).stiff

/-- CAL with OP RESET: the Relpety values of one cell or of all (R149). -/
def State.calReset (s : State) (r : Nat) : State :=
  match s.readyHead r 0x13 with
  | none => s
  | some e =>
    let c := lef e.bytes 24 2
    if byteAt e.bytes 26 ≠ 2 then s
    else if c = 0xFFFF then (s.onLoop fun l => { l with calOff := [] }).finishCmd r e.idx 0 true
    else
      let s := s.modCal c fun _ => {}
      s.finishCmd r e.idx 0 true (s.calRes c)

def execCalReset (ring : Fin 16) (s : State) : Host.Outcome State Fault Refusal :=
  .next (s.onPin fun s => s.calReset ring.val)

/-- The stiffness scale as measured, within 0.75 to 1.33 (R148). -/
def State.setStiff (s : State) (c n : Nat) : State :=
  let w := min (max n 12288) 21790
  let s := s.modCal c fun k => { k with stiff := w }
  if 12288 < n && n ≤ 21790 then s else s.driftLimit 2 c

/-- A hold drive as measured, within ±DRV_MAX of the Relpety value (R148). -/
def State.setHoldDrive (s : State) (c : Nat) (x : Bool) (d : Int) : State := (s.moveHoldDrive c x (d - s.holdDrive c x)).1

/-- The last leg of a calibration has reached its set-point and its hold has run out (R147, R149, R284). -/
def CalJob.over (j : CalJob) (now : Nat) : Bool :=
  j.legs.isEmpty && (match j.reached with | some t => decide (t + j.hold ≤ now) | none => false)

/-- A change needs the cell within 200 us (R118 row 2). -/
def State.changeNeeds (s : State) (c : Nat) : Bool :=
  match s.nextChange with
  | some (m, t, _) => decide (t ≤ s.nt + 200000 * 65536) && (s.caredState m c).any fun x => x ≠ (s.cell c).state
  | none => false

/-- What a calibration that is over changes, and its completion (R147, R149, R281, R284). -/
def State.calResult (s : State) (c : Nat) (j : CalJob) (m : CalMeasure) : State :=
  let rate := s.rampRate c
  let y := (s.cell c).m.y
  let s := s.exitCal c j.back
  let s := match j.op with
    | 0 => s.setStiff c m.stiffness
    | 1 => (((s.modCal c fun k => { k with lin := m.linOffset }).setHoldDrive c false m.driveBar).setHoldDrive c true
        m.driveCross).setStiff c m.stiffness
    | _ => s
  match j.issuer with
  | none => s
  | some (r, i) =>
    if j.op = 2 then s.finishCmd r i 0 true (leBytes 4 (unsigned 32 y) ++ leBytes 4 (unsigned 32 rate)) (at_ j.clipped 0)
    else s.finishCmd r i 0 true (s.calRes c)

/-- A calibration command or set-point hold that is over ends, and the cell leaves CAL (R118 row 10); at the same sample a
change that needs the cell takes it first (row 2). -/
def State.calDone (s : State) (c : Nat) (m : CalMeasure) : State :=
  match (s.cell c).cal with
  | none => s
  | some j =>
    if !j.over s.now then s
    else if s.changeNeeds c then s.leaveCal c 0x24 true
    else s.calResult c j m

def execCalComplete (dt : Nat) (cell : Fin 2048) (meas : CalMeasure) (s : State) : Host.Outcome State Fault Refusal :=
  .next (s.onClock dt fun s => s.calDone cell.val meas)

/-- The drift tracker's own probe: one cell per chamber at a time, each at most once per PROBE_PERIOD (R147). -/
def State.driftProbe (s : State) (c : Nat) : State :=
  let period := secC (10 * max (s.rf .fabDriftCfg 0 7 0) 1)
  let soon := match (s.cell c).probedAt with
    | some t => decide (s.now < t + period)
    | none => false
  let busy := (cellsOf (chamberOf c)).any fun d => (s.cell d).cal.any fun j => j.op = 0 && j.issuer.isNone
  if !bit (s.rg .fabDriftCfg) 30 || soon || busy || !s.eligible c then s
  else (s.enterCal c (s.probeJob c none)).modCell c fun x => { x with probedAt := some s.now }

def execDriftProbe (dt : Nat) (cell : Fin 2048) (s : State) : Host.Outcome State Fault Refusal :=
  .next (s.onClock dt fun s => s.driftProbe cell.val)

/-! ### The oscillation detector's reaction (R140) -/

/-- The flowstone table of a cell is zeroed. -/
def State.clearFlow (s : State) (c : Nat) : State := { s with sram := clearBytes s.sram (flowBase c) 512 }

/-- The loop goes to its fallback profile at its next sample (R140, R141); ON_FALLBACK where there is no index to change. -/
def State.fallback (s : State) (c : Nat) : State :=
  let h := chamberOf c
  let k := s.rf .loopOdetCfg h 15 8
  if s.profKind k ≠ 1 || (s.cell c).midx.toNat = k then s.setBit .loopOdetStatus h 29
  else (s.modCell c fun x => { x with mfall := some (BitVec.ofNat 8 k) }).setBit .loopOdetStatus h 30

def State.oscDetect (s : State) (c : Nat) : State :=
  if !(s.cell c).m.odDue then s
  else
    let h := chamberOf c
    let act := s.rf .loopOdetCfg h 31 30
    let s := s.modCell c fun x => { x with m := { x.m with odDue := false } }
    let s := s.modChan h fun k => { k with lastCell := localOf c, odetCount := satN (k.odetCount + 1) 0xFFFF }
    let s := s.setBit .loopOdetStatus h 31
    let s := if act = 0 then s else s.fallback c
    let s := if act = 2 then s.clearFlow c else s
    let s := s.event 7 (localOf c) h [BitVec.ofNat 8 act, (s.cell c).mNext]
    (s.fire 54 c (some h)).traceEvent h 4

def execOscDetect (cell : Fin 2048) (s : State) : Host.Outcome State Fault Refusal :=
  .next (s.onPin fun s => s.oscDetect cell.val)

/-! ### The period (R132 to R136) -/

/-- A reference edge of a source (R133); it locks after `need` consecutive accepted intervals. -/
def PerSrc.edge (q : PerSrc) (now need : Nat) : PerSrc :=
  match q.refAt with
  | none => { q with refAt := some now }
  | some t =>
    let iv := now - t
    let ok := msC 5 ≤ iv && iv ≤ msC 500 && (q.lastOk = 0 || 4 * (max iv q.lastOk - min iv q.lastOk) ≤ q.lastOk)
    if ok then { q with refAt := some now, lastOk := iv, run := q.run + 1, bad := 0, acceptedAt := some now,
                        locked := q.locked || decide (need ≤ q.run + 1) }
    else { q with refAt := some now, run := 0, bad := q.bad + 1, locked := q.locked && decide (q.bad + 1 < 2) }

/-- No accepted edge has arrived within 1.5 T (R133). -/
def PerSrc.overdue (q : PerSrc) (now : Nat) : Bool :=
  q.locked && (match q.acceptedAt with | some t => decide (2 * t + 3 * q.lastOk ≤ 2 * now) | none => true)

/-- The source that SRC selects, of those that are locked (R135): 0 PERIOD_IN, 1 the estimator, 3 none. -/
def Period.choose (p : Period) (src : Nat) : Nat :=
  if src = 0 then (if p.pin.locked then 0 else 3)
  else if src = 1 then (if p.est.locked then 1 else 3)
  else if src = 2 then (if p.pin.locked then 0 else if p.est.locked then 1 else 3)
  else 3

/-- Mean delay of the estimator's edges over the last 8 periods, as a fraction of T in 2^-16 (R135). -/
def Period.meanDelay (p : Period) : Int :=
  if p.delays.isEmpty then 0 else p.delays.foldl (· + ·) 0 / (p.delays.length : Int)

/-- An interval of the source in use becomes T and its edge the reference instant. -/
def Period.take (p : Period) (q : PerSrc) : Period :=
  match q.acceptedAt with
  | some t => { p with period := q.lastOk, tref := t }
  | none => p

/-- The fade starts, up or down (R136). -/
def Period.startFade (p : Period) (now : Nat) (up : Bool) : Period :=
  { p with fadeFrom := now, fadeUp := up, fading := true, factor1 := false }

/-- T as the PERIOD event reports it. -/
def State.periodEvent (s : State) (sub : Nat) : State := s.event 6 sub 0 (leBytes 4 (s.loop.period.period / 1024))

def State.onPeriod (s : State) (f : Period → Period) : State := s.onLoop fun l => { l with period := f l.period }

/-- Source and lock follow the sources' locks: lock, fallback, return, or loss with its event (R135, R136). -/
def State.periodSelect (s : State) : State :=
  let p := s.loop.period
  let was := p.active.toNat
  let k := p.choose (s.rf .fabPeriodCfg 0 31 30)
  let on := fun (q : Period) => { q with active := BitVec.ofNat 2 k, locked := decide (k ≠ 3) }
  let use := fun (q : Period) => if k = 0 then { q with shift := 0 }.take q.pin else q.take q.est
  if k = was then s
  else if k = 3 then
    let s := s.onPeriod fun q => (on q).startFade s.now false
    ((s.setBit .fabPeriodStatus 0 28).periodEvent 1).fire 56
  else if was = 3 then (s.onPeriod fun q => (use (on q)).startFade s.now true).periodEvent 0
  else if k = 1 then (s.onPeriod fun q => use { on q with shift := q.meanDelay }).periodEvent 2
  else (s.onPeriod fun q => use (on q)).periodEvent 3

/-- The source in use has accepted an edge: its interval and its instant. -/
def State.periodTake (s : State) (k : Nat) : State :=
  s.onPeriod fun p =>
    let q := if k = 0 then p.pin else p.est
    if p.active.toNat = k || (p.active = 3#2 && s.rf .fabPeriodCfg 0 31 30 ≠ 3 &&
        (s.rf .fabPeriodCfg 0 31 30 = k || s.rf .fabPeriodCfg 0 31 30 = 2)) then p.take q else p

/-- A rising edge of PERIOD_IN; every PPR-th is a reference edge (R133). -/
def State.periodIn (s : State) : State :=
  let ppr := max (s.rf .fabPeriodCfg 0 21 16) 1
  let n := s.loop.period.pin.edges + 1
  let s := if n < ppr then s.onPeriod fun p => { p with pin := { p.pin with edges := n } }
    else ((s.onPeriod fun p => { p with pin := { p.pin.edge s.now 3 with edges := 0 } }).periodTake 0).periodSelect
  { s with pwr.periodIn := true }

def execPeriodIn (dt : Nat) (s : State) : Host.Outcome State Fault Refusal :=
  .next (s.onClock dt fun s => if s.core then s.periodIn else s)

/-- A held cell feeds the estimator (R134). -/
def State.estimatorFed (s : State) : Bool := (s.meanError (s.rf .fabPeriodCfg 0 12 8)).isSome

/-- A positive-going zero crossing at raw count `t` is a reference edge of the estimator; while both sources are locked its
delay after PERIOD_IN's is measured (R134, R135). -/
def State.takeCrossing (s : State) (t : Nat) : State :=
  let p := s.loop.period
  let d : Int := if p.pin.locked && p.est.locked && 0 < p.pin.lastOk then
    ((t - (p.pin.acceptedAt.getD t) : Nat) : Int) * 65536 / (p.pin.lastOk : Int) % 65536 else 0
  let s := s.onPeriod fun p =>
    { p with filter := { p.filter with crossAt := none },
             est := { p.est.edge t 8 with locked := (p.est.edge t 8).locked && s.estimatorFed },
             delays := if p.pin.locked && p.est.locked then (d :: p.delays).take 8 else p.delays }
  (s.periodTake 1).periodSelect

/-- The estimator reports the crossing that its filter's output has made (R134). -/
def State.estimatorEdge (s : State) : State :=
  match s.loop.period.filter.crossAt with
  | some t => s.takeCrossing t
  | none => s

def execEstimatorEdge (dt : Nat) (s : State) : Host.Outcome State Fault Refusal :=
  .next (s.onClock dt fun s => if s.core then s.estimatorEdge else s)

/-- Lock is lost with no accepted edge within 1.5 T. -/
def State.periodLoss (s : State) : State :=
  (s.onPeriod fun p =>
    { p with pin := { p.pin with locked := p.pin.locked && !p.pin.overdue s.now },
             est := { p.est with locked := p.est.locked && !p.est.overdue s.now } }).periodSelect

def execPeriodLockLoss (dt : Nat) (s : State) : Host.Outcome State Fault Refusal :=
  .next (s.onClock dt State.periodLoss)

/-- FADE has passed: the factor is 0 or 1 (R136). -/
def State.fadeEnds (s : State) : State :=
  let p := s.loop.period
  if p.fading && p.fadeFrom + s.fadeCycles ≤ s.now then s.onPeriod fun p => { p with fading := false, factor1 := p.fadeUp }
  else s

def execFadeEnd (dt : Nat) (s : State) : Host.Outcome State Fault Refusal := .next (s.onClock dt State.fadeEnds)

/-! ### Flowstone learning (R137, R138) -/

/-- The learned bin after a clean visit, by the pseudocode of R137. -/
def State.learned (s : State) (h : Nat) (b ubar : Int) : Int :=
  let c := s.rg .loopFlowCfg h
  let b := if fld c 24 21 = 0 then b else b - Int.tdiv b (2 ^ fld c 24 21)
  clampI (b + asr (signed 16 (fld c 15 0) * ubar) (fld c 29 25)) (-32768) 32767

/-- One loop's update at the end of a visit to bin `k`. -/
def State.learnCell (s : State) (k c : Nat) : State :=
  let h := chamberOf c
  let m := (s.cell c).m
  if m.clean && decide (0 < m.nU) && (s.profByte (s.cell c).midx.toNat 1).testBit 0 && bit (s.rg .loopFlowCfg h) 31 then
    let j := (k + 256 - s.rf .loopFlowCfg h 20 17) % 256
    let v := s.learned h (s.flowBin c j) (Int.tdiv m.sumU m.nU)
    { s with sram := wrBytes s.sram (flowBase c + 2 * j) (leBytes 2 (unsigned 16 v)) }
  else s

/-- The visit to a bin ends: clean loops learn, and the next visit begins (R137). -/
def State.visitEnds (s : State) : State :=
  let p := s.loop.period
  let k := p.bin
  let n := p.binAt s.now
  if n = k then s
  else
    let clean := p.locked && !p.fading && p.factor1 && decide (n = (k + 1) % 256)
    let ids := s.loop.cells.map (·.1)
    let s := if clean then ids.foldl (fun s c => s.learnCell k c) s else s
    let s := ids.foldl (fun s c => s.modCell c fun x =>
      { x with m := { x.m with sumU := 0, nU := 0, clean := x.mode.holds } }) s
    s.onPeriod fun p => { p with bin := n }

def execBinVisitEnd (dt : Nat) (s : State) : Host.Outcome State Fault Refusal :=
  .next (s.onClock dt State.visitEnds)

/-- A write of LOOP_CHnn_FLOW_CFG; CLEAR zeros the chamber's tables (R138). -/
def State.writeFlowCfg (s : State) (h : Nat) (v : Word) : State :=
  s.protReg .loopFlowCfg h v fun s => if bit v 30 then (cellsOf h).foldl State.clearFlow s else s

def execFlowstoneClear (chamber : Fin 32) (value : Word) (s : State) : Host.Outcome State Fault Refusal :=
  .next (s.onHost fun s => s.writeFlowCfg chamber.val value)

/-! ### Drive polarity (R145, R150, R151) -/

/-- The polarity interval in force, in ms (R150). -/
def State.polMs (s : State) : Nat :=
  let n := match s.loop.polNew with
    | some (v, t) => if t ≤ s.now then v else s.loop.polNext
    | none => s.loop.polNext
  min (max n 10) 60000

/-- The latest raw count at or before `now` at which the reversal of element `e` falls due with an interval of `ms`. -/
def dueCount (ms e now : Nat) : Option Nat :=
  let p := ms * 1024000
  let o := e * ms * 250
  if now < o then none else some (now - (now - o) % p)

/-- The latest instant at or before now at which the reversal of element `e` falls due (R150): an instant of a written
interval counts from the start of that interval on, an instant of the old one before it. -/
def State.reversalAt (s : State) (e : Nat) : Option Nat :=
  let old := min (max s.loop.polNext 10) 60000
  match s.loop.polNew with
  | none => dueCount old e s.now
  | some (v, t) =>
    if s.now < t then dueCount old e s.now
    else
      match dueCount (min (max v 10) 60000) e s.now with
      | some c => if t ≤ c then some c else dueCount old e (t - 1)
      | none => dueCount old e (t - 1)

/-- The first opportunity at or after raw count `t`: phase 48 of the M loop for a main element, cycle 16n + 112 of the O
period for a balance element (R150). -/
def opportunity (e t : Nat) : Nat :=
  let c := e / 2
  if e % 2 = 0 then t + (localOf c + 48 + 64 - t % 64) % 64 else t + (16 * localOf c + 112 + 1024 - t % 1024) % 1024

/-- The fold of R145: the integrator's value moves into the hold drive; what DRV_MAX leaves over stays. -/
def State.fold (s : State) (c : Nat) : State :=
  let x := s.cell c
  let p := x.midx.toNat
  let d := sat32 (s.term p 6 (sat32 (s.term p 5 x.m.integ)))
  let (s, rest) := s.moveHoldDrive c x.state d
  let i := if rest = 0 then 0 else s.preload c rest 0
  s.modCell c fun x => { x with m := { x.m with integ := i } }

/-- A reversal may be performed now (R150). -/
def State.mayReverse (s : State) (c : Nat) : Bool :=
  let h := chamberOf c
  (s.cell c).mode.holds && s.pstate h = .on &&
    !(s.fab.change.any fun ch => ch.stage = .started && ch.cells.any fun d => chamberOf d = h)

/-- The fold of a main element at the end of a polarity interval, where it applies (R145); the next interval begins. -/
def State.foldInterval (s : State) (c : Nat) : State :=
  let s := if bit (s.rg .fabDriftCfg) 31 && (s.cell c).m.stayed then s.fold c else s
  s.modCell c fun x => { x with m := { x.m with stayed := x.mode.holds } }

/-- The instant `t` of an element is dealt with: with EN set at it the polarity reverses, and a balance element counts
(R93, R150). -/
def State.reverseAt (s : State) (e t : Nat) : State :=
  let c := e / 2
  let on := bit (s.rg .fabPolCfg) 31 && decide (s.loop.polOnAt ≤ t)
  if e % 2 = 0 then (s.foldInterval c).modCell c fun x => { x with mpol := x.mpol != on, mpolAt := some t }
  else if on then (s.addDrip e 1).modCell c fun x => { x with bpol := !x.bpol, bpolAt := some t }
  else s.modCell c fun x => { x with bpolAt := some t }

/-- The reversal of an element falls due: it is performed at its first opportunity, or stays deferred (R145, R150). -/
def State.reversePol (s : State) (e : Nat) : State :=
  let x := s.cell (e / 2)
  match s.reversalAt e with
  | none => s
  | some t =>
    let last := if e % 2 = 0 then x.mpolAt else x.bpolAt
    let done := match last with
      | some u => decide (t ≤ u)
      | none => false
    if done || decide (s.now < opportunity e t) || !s.mayReverse (e / 2) then s else s.reverseAt e t

def execPolarityReversal (dt : Nat) (elem : Fin 4096) (s : State) : Host.Outcome State Fault Refusal :=
  .next (s.onClock dt fun s => s.reversePol elem.val)

/-- A write of FAB_POL_CFG: the new interval applies from the next multiple of its own length (R150). -/
def State.writePolCfg (s : State) (v : Word) : State :=
  s.protReg .fabPolCfg 0 v fun t =>
    let n := min (max (fld v 15 0) 10) 60000
    let p := n * 1024000
    let on := !bit (s.rg .fabPolCfg) 31 && bit v 31
    t.onLoop fun l =>
      { l with polOnAt := if on then t.now else l.polOnAt, polNext := t.polMs, polNew := some (n, (t.now / p + 1) * p) }

def execFabPolCfgWrite (value : Word) (s : State) : Host.Outcome State Fault Refusal :=
  .next (s.onHost fun s => s.writePolCfg value)

end Sys2Proof.Machine
end

