-- ==== Sys2Proof/Machine/Wear.lean ====
section
/-! DEFINITION. Wear: drip counters, wear levels and rates, and wear summaries (R93 to R96, R152 to R155). -/

namespace Sys2Proof.Machine

/-- Seconds since the first count of an element (R96, R155). -/
def State.wearSecs (s : State) (e : Nat) : Nat :=
  s.ns / 1000000000 % 2 ^ 32 - tget (fun _ => 0) s.fab.firsts e

/-- Average actuation rate of an element since its first count, per second. -/
def State.wearAvg (s : State) (e : Nat) : Nat := if s.wearSecs e = 0 then 0 else s.drip e / s.wearSecs e

/-- The WEAR event and its fault source (R293). -/
def State.wearEvent (s : State) (sub src e : Nat) : State :=
  (s.event 5 sub e (leBytes 6 (s.drip e) ++ leBytes 4 (s.wearAvg e))).fire src e

/-- A wear level that has not been reported is reached (R94). -/
def State.wearLevel (s : State) (e : Nat) : State :=
  let k := tget (fun _ => 0) s.fab.wearSeen e
  if k < min (wearLevelOf (s.drip e)) 3 then
    (s.onFab fun f => { f with wearSeen := tset (fun _ => 0) f.wearSeen e (k + 1) }).wearEvent (k + 1) 52 e
  else s

def execWearLevel (elem : Fin 4096) (s : State) : Host.Outcome State Fault Refusal :=
  .next (s.onPin fun s => s.wearLevel elem.val)

/-- The average over at least a day exceeds 15,800 per second (R96). -/
def State.wearRate (s : State) (e : Nat) : State :=
  let high := decide (86400 ≤ s.wearSecs e) && decide (15800 * s.wearSecs e < s.drip e)
  let seen := tget (fun _ => 0) s.fab.rateSeen e
  let s := s.onFab fun f => { f with rateSeen := tset (fun _ => 0) f.rateSeen e (if high then 1 else 0) }
  if high && seen = 0 then s.wearEvent 4 53 e else s

def execWearRate (dt : Nat) (elem : Fin 4096) (s : State) : Host.Outcome State Fault Refusal :=
  .next (s.onClock dt fun s => s.wearRate elem.val)

/-! ### Summaries (R153 to R155) -/

/-- The summary interval in cycles; 0 acts as 1 minute. -/
def State.sumCycles (s : State) : Nat := secC (60 * max (s.rf .fabWearSumCfg 0 7 0) 1)

/-- A summary is to be written; a CLOSING one stays CLOSING. -/
def State.askSummary (s : State) (closing : Bool) : State :=
  s.onFab fun f => { f with sumDue := some (closing || f.sumDue.getD false) }

/-- The interval has passed. -/
def State.summaryDue (s : State) : State :=
  if s.core && s.expired s.fab.sumTimer then
    (s.onFab fun f => { f with sumTimer := some (s.now + s.sumCycles) }).askSummary false
  else s

def execWearSummary (dt : Nat) (s : State) : Host.Outcome State Fault Refusal := .next (s.onClock dt State.summaryDue)

/-- A write of FAB_WEAR_SUM_CFG; NOW asks for a summary. -/
def State.writeWearSumCfg (s : State) (v : Word) : State :=
  s.protReg .fabWearSumCfg 0 v fun s =>
    if bit v 31 then (s.onFab fun f => { f with sumNow := true }).askSummary false else s

def execWearSummaryNow (value : Word) (s : State) : Host.Outcome State Fault Refusal :=
  .next (s.onHost fun s => s.writeWearSumCfg value)

/-- An offset in 2^-16 nm or 2^-30 as a summary keeps it, and back (R155). -/
def State.driftRec (s : State) : Tab (Int × Int × Int × Int × Nat) :=
  s.loop.calOff.map fun p =>
    (p.1, (clampI (asr p.2.posBar 8) (-32768) 32767, clampI (asr p.2.posCross 8) (-32768) 32767,
      clampI (asr p.2.drvBar 10) (-32768) 32767, clampI (asr p.2.drvCross 10) (-32768) 32767, p.2.stiff))

/-- The summary as it stands at writing. -/
def State.summary (s : State) (closing : Bool) : WearSummary :=
  { seq := s.fab.sumSeq, sec := s.ns / 1000000000, closing := closing, estimated := s.fab.estimated,
    counts := s.fab.drips, first := s.fab.firsts, drift := s.driftRec }

/-- Flash block of a summary's slot (R26, R335). -/
def sumBlock (slot : Nat) : Nat := (0x3400000 + 131072 * slot) / 65536

/-- The writing of a summary ends; a failed one fires FLASH_ERROR and leaves its slot without a valid summary. -/
def State.summaryWritten (s : State) (ok : Bool) : State :=
  match s.fab.sumDue with
  | none => s
  | some closing =>
    if !s.sup.available then s
    else
      let k := s.fab.sumSeq % 256
      let q := s.summary closing
      let s := (s.irqPulse 85).onFab fun f =>
        { f with sumDue := none, sumNow := false, sumSeq := f.sumSeq + 1,
                 summaries := if ok then tset (fun _ => {}) f.summaries k q else f.summaries.filter (·.1 ≠ k) }
      let s := if closing then s.onPwr fun p => { p with closingDone := true } else s
      if ok then s else s.fire 69 (sumBlock k)

/-! ### Reading a counter (R152) -/

def State.writeDripSel (s : State) (v : Word) : State :=
  let s := s.putReg .fabDripSel 0 0 v
  let n := s.dripWord (fld v 11 0)
  s.onFab fun f => { f with dripSnap := n }

def execFabDripSel (value : Word) (s : State) : Host.Outcome State Fault Refusal :=
  .next (s.onHost fun s => s.writeDripSel value)

end Sys2Proof.Machine
end

