-- ==== Sys2Proof/Machine/Traces.lean ====
section
/-! DEFINITION. Chamber traces, the spool and the history store (R156 to R163). -/

namespace Sys2Proof.Machine

/-- SRAM offset of a chamber's trace buffer, of 16,384 words (R156). -/
def trcBase (h : Nat) : Nat := 0xC00000 + 0x10000 * h

def trcWords : Nat := 16384

/-! ### Selectors (R157) -/

/-- CELL and NODE of selector `k`, as a cell number and a node. -/
def State.selector (s : State) (h k : Nat) : Nat × Nat :=
  let v := s.rg .loopTrcSel (4 * h + k)
  (64 * h + fld v 9 4, fld v 3 0)

/-- The status node. -/
def State.statusNode (s : State) (c : Nat) : Word :=
  let x := s.cell c
  w32 (x.mode.code * 2 ^ 29 + at_ x.m.msat 28 + at_ x.o.osat 27 + at_ x.b.bsat 26 + at_ x.o.defer 25 +
    at_ (s.isLit c) 24 + s.loop.period.binAt s.now * 2 ^ 16 + s.drip (2 * c) % 2 ^ 16)

/-- In a chamber with its bit of TST_ADC_RAW set, nodes 1, 11 and 12 return converter words (R436). -/
def State.rawNode (s : State) (c node : Nat) : Bool :=
  bit (s.rg .tstAdcRaw) (chamberOf c) && (node = 1 || node = 11 || node = 12)

/-- The latest value of a node of a cell; the converter words are free values (assumption 3). -/
def State.nodeWord (s : State) (c node : Nat) : Word :=
  let x := s.cell c
  match node with
  | 1 => BitVec.ofInt 32 x.m.y
  | 2 => BitVec.ofInt 32 x.m.sp
  | 3 => BitVec.ofInt 32 x.m.e0
  | 4 => BitVec.ofInt 32 x.m.u
  | 5 => BitVec.ofInt 32 x.m.f
  | 6 => BitVec.ofInt 32 x.m.dout
  | 7 => BitVec.ofInt 32 x.m.integ
  | 8 => BitVec.ofInt 32 x.o.lam
  | 9 => BitVec.ofInt 32 x.o.trim
  | 10 => BitVec.ofInt 32 (s.balDrive c)
  | 11 => x.o.tap0
  | 12 => x.o.tap1
  | 13 => s.statusNode c
  | _ => 0#32

/-- The word that selector `k` of chamber `h` writes at this tick. -/
def State.traceWord (s : State) (h k : Nat) : Word :=
  let (c, node) := s.selector h k
  if s.rawNode c node then w32 (Config.freeNat (s.free + k) % 4096) else s.nodeWord c node

/-! ### Ticks and triggers (R157 to R159) -/

/-- Selector 0's value crosses the level in the sense of EDGE: 0 rising, 1 falling, 2 and 3 either. -/
def crosses (edge : Nat) (level last v : Int) : Bool :=
  let up := decide (last < level) && decide (level ≤ v)
  let down := decide (level ≤ last) && decide (v < level)
  if edge = 0 then up else if edge = 1 then down else up || down

/-- The level source of an armed trace takes its trigger. -/
def State.levelTrigger (s : State) (h : Nat) (v : Int) : State :=
  let t := (s.chan h).trace
  if t.armed && t.seen && fld t.ctrl 29 27 = 1 && crosses (fld t.ctrl 26 25) (sw (s.rg .loopTrcLevel h)) t.last v then
    s.traceTrigger h
  else s

/-- The buffer takes the four words of a tick and the count of ticks after the trigger goes down. -/
def State.capture (s : State) (h : Nat) (d : List Byte) (v : Int) : State :=
  let t := (s.chan h).trace
  if !t.armed || t.doneDue then s
  else
    let s := { s with sram := wrBytes s.sram (trcBase h + 4 * t.wrIdx) d }
    s.modChan h fun k => { k with trace := { k.trace with
      wrIdx := (k.trace.wrIdx + 4) % trcWords, last := v, seen := true,
      post := k.trace.post - 1, doneDue := k.trace.triggered && decide (k.trace.post ≤ 1) } }

/-- A tick of a chamber falls at phase 49 of the M loop of selector 0's cell, after every 2^DEC of its samples (R157). The
first tick after an arm, or with another cell, falls on the next sample (DESIGN CHOICE, assumption 62). While armed DEC
is the one taken at the arm (R158). -/
def State.tickDue (s : State) (h : Nat) : Bool :=
  let t := (s.chan h).trace
  let c := (s.selector h 0).1
  let m := (s.cell c).m
  let dec := fld (if t.armed then t.ctrl else s.rg .loopTrcCtrl h) 24 21
  s.pstate h = .on && (t.armed || bit (s.rg .loopTrcCtrl h) 20) && m.frame = some (s.aperture c) &&
    decide (s.aperture c + 49 ≤ s.now) &&
    (match t.tickAt with
     | some (d, k) => if d = c then decide (k + 2 ^ dec ≤ m.count) else true
     | none => true)

/-- What a tick writes: the buffer of an armed trace, and the spool (R157, R160). -/
def State.tickWork (s : State) (h : Nat) : State :=
  let c := (s.selector h 0).1
  let s := s.modChan h fun k => { k with trace := { k.trace with tickAt := some (c, (s.cell c).m.count) } }
  let ws := [0, 1, 2, 3].map (s.traceWord h)
  let d := ws.flatMap fun w => leBytes 4 w.toNat
  let s := if (s.rg .tstAdcRaw) ≠ 0#32 then { s with free := s.free + 4 } else s
  let v := sw (ws.getD 0 0#32)
  let s := (s.levelTrigger h v).capture h d v
  if bit (s.rg .loopTrcCtrl h) 20 then s.spool 1 h 0 s.nt d else s

/-- A tick of a chamber, armed or spooling (R157, R160). -/
def State.traceTick (s : State) (h : Nat) : State := if s.tickDue h then s.tickWork h else s

def execTraceTick (dt : Nat) (chamber : Fin 32) (s : State) : Host.Outcome State Fault Refusal :=
  .next (s.onClock dt fun s => s.traceTick chamber.val)

/-- A write of TRC_CTRL: ARM takes the fields for the capture; SWTRIG and SPOOL act at once (R158, R159). -/
def State.writeTrcCtrl (s : State) (h : Nat) (v : Word) : State :=
  let s := s.putReg .loopTrcCtrl h 0 v
  let s := if bit v 31 then
      ((s.setRg .loopTrcStatus h 0 (s.rg .loopTrcStatus h &&& ~~~(0x20000000#32 &&& ~~~s.marked (Reg.loopTrcStatus.addr h)))).modChan h fun k =>
        { k with trace := { k.trace with armed := true, triggered := false, doneDue := false, seen := false, tickAt := none, post := 0,
                                         ctrl := s.rg .loopTrcCtrl h } })
    else s
  if bit v 30 then s.traceTrigger h else s

def execTraceArm (chamber : Fin 32) (value : Word) (s : State) : Host.Outcome State Fault Refusal :=
  .next (s.onHost fun s => s.writeTrcCtrl chamber.val value)

def execSwtrig (chamber : Fin 32) (value : Word) (s : State) : Host.Outcome State Fault Refusal :=
  .next (s.onHost fun s => s.writeTrcCtrl chamber.val value)

/-- POST ticks after the trigger capture stops: DONE and its event (R158, R293). -/
def State.traceDone (s : State) (h : Nat) : State :=
  let t := (s.chan h).trace
  if t.doneDue then
    let s := (s.modChan h fun k => { k with trace := { k.trace with armed := false, doneDue := false } })
    (s.setBit .loopTrcStatus h 29).event 21 0 h (leBytes 2 t.trigIdx)
  else s

def execTraceDone (chamber : Fin 32) (s : State) : Host.Outcome State Fault Refusal :=
  .next (s.onPin fun s => s.traceDone chamber.val)

/-! ### Spool and history store (R160 to R163) -/

/-- The 32 bytes of a spool record (R161). -/
def SpoolRec.bytes (q : SpoolRec) : List Byte :=
  [q.type, q.ch] ++ leBytes 2 q.info.toNat ++ leBytes 4 (nsOf q.nt % 1000000000) ++ leBytes 4 (nsOf q.nt / 1000000000) ++
    leBytes 4 q.seq.toNat ++ (q.payload ++ zeros (16 - q.payload.length))

/-- With room for two records again after drops, a drop marker is written (R160). -/
def State.markDrops (s : State) : State :=
  if 0 < s.fab.dropsUnmarked && s.fab.spool.length + 2 ≤ spoolSize then
    (s.spool 3 0xFF 0 s.nt (leBytes 4 s.fab.dropsUnmarked)).onFab fun f => { f with dropsUnmarked := 0 }
  else s

def State.histSize (s : State) : Nat := 2 ^ s.rf .fabHistCtrl 0 5 0

/-- Ring traffic waits, which takes precedence over the history store (R162, R261). -/
def State.ringsBusy (s : State) : Bool := s.rings.any fun p => s.hasWork p.1

/-- The oldest record goes to the history store and OFFSET advances (R162). -/
def State.historyCopy (s : State) : State :=
  if !(s.bmeUp && bit (s.rg .fabHistCtrl) 31) || s.ringsBusy then s
  else match s.fab.spool with
    | [] => s
    | q :: qs =>
      let n := s.histSize
      let base := s.rg8 .fabHistBase / n * n
      let s := s.emit (.hostWrite (base + s.fab.histOff) q.bytes)
      let o := s.fab.histOff + 32
      (s.onFab fun f => { f with spool := qs, spoolAt := (f.spoolAt + 1) % spoolSize, histOff := o % n,
                                 histLap := (f.histLap + o / n) % 65536 }).markDrops

def execHistoryCopy (s : State) : Host.Outcome State Fault Refusal := .next (s.onPin State.historyCopy)

/-- A write of FAB_HIST_CTRL: EN from 0 to 1 restarts the store; EN stays 0 with SIZE outside 12 to 42 (R163). -/
def State.writeHistCtrl (s : State) (v : Word) : State :=
  let was := bit (s.rg .fabHistCtrl) 31
  let ok := 12 ≤ fld v 5 0 && fld v 5 0 ≤ 42
  let s := s.putReg .fabHistCtrl 0 0 (if ok then v else v &&& 0x7FFFFFFF#32)
  if ok && bit v 31 && !was then s.onFab fun f => { f with histOff := 0, histLap := 0 } else s

def execFabHistCtrlWrite (value : Word) (s : State) : Host.Outcome State Fault Refusal :=
  .next (s.onHost fun s => s.writeHistCtrl value)

end Sys2Proof.Machine
end

