-- ==== Sys2Proof/Machine/Time.lean ====
section
/-! DEFINITION. Network time: the servo, gPTP, PPS, holdover and steps (chapter 06). -/

namespace Sys2Proof.Machine

/-! ### Settings -/

def incNom : Int := 4194304000
def incSpan : Int := 2097152

/-- SRC: 0 and 1 an instance, 2 PPS_IN, 3 none. -/
def State.src (s : State) : Nat := s.rf .timeCtrl 0 1 0

/-- JUMP_TH and DRIFT_LIM in ns as they act. -/
def State.jumpTh (s : State) : Nat := min (max (s.rf .timeJumpTh 0 19 0) 32) 1000000
def State.driftLim (s : State) : Nat := max (s.rf .timeDrift 0 15 0) 32
def State.holdRate (s : State) : Nat := max (s.rf .timeDrift 0 31 24) 1

/-- Sync transmit interval of an instance in cycles. -/
def State.syncCycles (s : State) (n : Nat) : Nat := secC 1 / 2 ^ min (s.rf .timeDomCfg n 27 25) 5

/-- Latest θ of the selected source and its raw count (R183). -/
def State.srcSample (s : State) : Option (Int × Nat) :=
  if s.src < 2 then (s.inst s.src).sampleAt.map fun t => ((s.inst s.src).theta, t)
  else if s.src = 2 then s.time.thetaAt.map fun t => (s.time.theta, t)
  else none

/-- Timeout of a source in cycles (R170). -/
def State.srcTimeout (s : State) (n : Nat) : Nat := if n < 2 then nsC (3 * (s.inst n).interval) else nsC 1500000000

/-! ### State, rate and level -/

/-- STATE changes: the TIME_STATE event, the pulse, and the holdover level (R170, R293, R335, R366). -/
def State.setTime (s : State) (st : TimeState) : State :=
  let old := s.time.state
  if old = st then s
  else
    let th := (s.srcSample.map (·.1)).getD 0
    let s := s.onTime fun t => { t with state := st, relocked := t.relocked || st = .locked }
    ((s.event 10 st.code old.code (leBytes 4 (thetaWord th).toNat)).irqPulse 83).setLevel 63 (st = .holdover)

/-- The time unit no longer knows the time: FREE, and the next sample is the first (R380, R389). -/
def State.loseTime (s : State) : State :=
  if s.src = 3 then s
  else (s.onTime fun t => { t with accepted := false, good := 0, calm := 0, drift := true }).setTime .free

/-- Load a new INC: the anchor moves to the present cycle first (R166). -/
def State.setInc (s : State) (inc : Int) : State :=
  let n := s.nt
  s.onTime fun t => { t.reanchor n with inc := inc.toNat }

/-- PPS_IN_LOSS: SRC is 10b and PPS_VALID is 0 (R335). -/
def State.ppsLevel (s : State) : State := s.setLevel 65 (s.src = 2 && !s.time.ppsValid)

/-! ### Samples (R169 to R171, R182) -/

/-- One servo update; a clamped INC sets RATE_LIM and fires source 64 (R167, R169). -/
def State.servo (s : State) (theta : Int) : State :=
  let v := s.rg .timeServo
  let p := asr ((fld v 7 0 : Nat) * theta) (fld v 12 8)
  let i := clampI (s.time.integ + asr ((fld v 23 16 : Nat) * theta) (fld v 28 24)) (-incSpan) incSpan
  let ask := incNom - (p + i)
  let inc := clampI ask (incNom - incSpan) (incNom + incSpan)
  let s := (s.onTime fun t => { t with integ := i }).setInc inc
  if inc = ask then s else (s.setBit .timeStatus 0 26).fire 64

/-- |θ| lies within half the drift limit; above the drift limit. -/
def State.inBand (s : State) (theta : Int) : Bool := 2 * mag theta ≤ s.driftLim * 65536
def State.beyond (s : State) (theta : Int) : Bool := s.driftLim * 65536 < mag theta

/-- What an accepted sample does to STATE and DRIFT (R170, R171). -/
def State.countSample (s : State) (theta : Int) : State :=
  let t := s.time
  let ok := s.inBand theta
  let good := if ok then min (t.good + 1) 8 else 0
  let calm := if ok then min (t.calm + 1) 8 else 0
  let drift := s.beyond theta || (t.drift && decide (calm < 8))
  let s := s.onTime fun t =>
    { t with accepted := true, acceptedAt := t.raw.toNat, good := good, calm := calm, drift := drift }
  s.setTime (if 8 ≤ good then .locked else .locking)

/-- An accepted sample (R169). -/
def State.acceptSample (s : State) (theta : Int) : State :=
  ((s.servo theta).onTime fun t => { t with refCnt := 0, refSince := 0, jumpFired := false }).countSample theta

/-- A refused sample (R182): no servo update, and no change of STATE. -/
def State.refuseSample (s : State) (theta : Int) : State :=
  let far := s.beyond theta
  (s.setBit .timeStatus 0 27).onTime fun t =>
    { t with refCnt := satN (t.refCnt + 1) 255, refSince := t.refSince + 1, calm := 0, drift := t.drift || far }

/-! ### Authorising a step (R183 to R185) -/

/-- A step is authorised; with a pattern running the time unit asks for static hold. -/
def State.authStep (s : State) (w : StepCase) (delta : Option Int) (issuer : Option (Nat × Nat)) : State :=
  let s := s.onTime fun t => { t with step := some { why := w, delta := delta, authAt := t.raw.toNat, issuer := issuer } }
  (s.askHold .step).irqPulse 83

/-- The first sample is stepped to source (R184). -/
def State.acquires (s : State) : Bool :=
  s.time.state = .free && bit (s.rg .timeCtrl) 31 && s.sched.run.isNone && s.sup.available && s.time.step.isNone

/-- One sample of the selected source. -/
def State.takeSample (s : State) (theta : Int) : State :=
  if s.time.state = .freeRun then s
  else if s.acquires then (s.authStep .acquisition none none).countSample 0
  else if mag theta ≤ s.jumpTh * 65536 then s.acceptSample theta
  else s.refuseSample theta

/-- A sample of an instance, selected or not (R178). -/
def State.instSample (s : State) (n : Nat) (theta : Int) : State :=
  let s := s.modInst n fun k => { k with theta := theta, sampleAt := some s.now, valid := true }
  if s.src = n then (s.takeSample theta).coupleCheck else s

/-! ### gPTP (R172 to R175) -/

/-- A Sync can be used: enabled instance, SLAVE lane, valid link delay (R173). -/
def State.syncUsable (s : State) (n l : Nat) : Bool :=
  s.ptpRx l && s.instEn n && s.ptpRole n l = 1 && (s.delayOf l).valid

/-- θ of a Sync received at `t2` (R173). -/
def State.syncTheta (s : State) (l t2 origin : Nat) (corr : Int) : Int :=
  (t2 : Int) - (origin + corr + (s.delayOf l).mean + sw (s.rg .timeAsym l))

/-- Interval of a logMessageInterval, in ns; 127 leaves it as it is. -/
def syncInterval (old : Nat) (k : BitVec 8) : Nat :=
  let i := k.toInt
  if k = 127#8 then old else if 0 ≤ i then 1000000000 * 2 ^ i.toNat else 1000000000 / 2 ^ (-i).toNat

/-- A Sync whose start of frame arrives now (R173, R176). -/
def State.syncArrives (s : State) (n l : Nat) (m : PtpMsg) : State :=
  if !s.syncUsable n l then s
  else
    let t2 := s.nt - (s.lane l).rxDelay
    let s := s.modInst n fun k => { k with interval := syncInterval k.interval m.logInt }
    if m.twoStep then s.modInst n fun k => { k with pending := some (m.seqId, t2, m.corr, s.now) }
    else (s.modInst n fun k => { k with pending := none }).instSample n (s.syncTheta l t2 m.origin m.corr)

def execSync (dt : Nat) (inst : Fin 2) (lane : Fin 8) (msg : PtpMsg) (s : State) : Host.Outcome State Fault Refusal :=
  .next (s.onClock dt fun s => s.syncArrives inst.val lane.val msg)

/-- The Follow_Up of a two-step Sync, within one Sync interval (R173). -/
def State.followUp (s : State) (n l : Nat) (m : PtpMsg) : State :=
  match (s.inst n).pending with
  | none => s
  | some (q, t2, corr, at1) =>
    if s.syncUsable n l && q = m.seqId && s.now ≤ at1 + nsC (s.inst n).interval && (s.lane l).connEnd ≤ at1 then
      (s.modInst n fun k => { k with pending := none }).instSample n (s.syncTheta l t2 m.origin (corr + m.corr))
    else s

def execFollowUp (dt : Nat) (inst : Fin 2) (lane : Fin 8) (msg : PtpMsg) (s : State) : Host.Outcome State Fault Refusal :=
  .next (s.onClock dt fun s => s.followUp inst.val lane.val msg)

/-- REF_CNT has reached 8 (R182). -/
def State.timeJump (s : State) : State :=
  if 8 ≤ s.time.refCnt && !s.time.jumpFired then (s.onTime fun t => { t with jumpFired := true }).fire 61 s.time.refCnt
  else s

def execTimeJump (s : State) : Host.Outcome State Fault Refusal := .next (s.onPin State.timeJump)

/-- A link delay exchange completes on a lane, after its request left (R172, R174). -/
def State.delayExchange (s : State) (l : Nat) (mean ratio : Int) : State :=
  if s.ptpRx l && s.txRuns l && s.delayRuns l && (s.delayOf l).asked.any (· < s.now) then
    s.modDelay l fun d => { d with valid := true, mean := mean, rateRatio := ratio, asked := none }
  else s

def execLinkDelayExchange (dt : Nat) (lane : Fin 8) (meanDelay rateRatio : Int) (s : State) :
    Host.Outcome State Fault Refusal :=
  .next (s.onClock dt fun s => s.delayExchange lane.val meanDelay rateRatio)

/-! Messages sent (R172, R175, R177). Their fields beyond the manual's are those of IEEE 802.1AS (assumption 32). -/

/-- Octets of a Sync, a short one padded to 60; the origin and the correction of a one-step Sync are written as it leaves. -/
def State.syncFrame (s : State) (n l : Nat) (one : Bool) (seq : Nat) : List Byte :=
  let log := min (s.rf .timeDomCfg n 27 25) 5
  let clock := (List.range 8).map Config.clockIdentity
  s.ptpHead l ++ [0x10#8, 0x12#8] ++ beBytes 2 (if one then 76 else 44) ++
    [BitVec.ofNat 8 (s.rf .timeDomCfg n 22 16), 0#8, (if one then 0#8 else 2#8), 8#8] ++ zeros 12 ++
    clock ++ beBytes 2 (l + 1) ++ beBytes 2 seq ++ [0#8, BitVec.ofNat 8 ((256 - log) % 256)] ++ zeros 10 ++
    (if one then beBytes 2 3 ++ beBytes 2 28 ++ [0x00#8, 0x80#8, 0xC2#8, 0#8, 0#8, 1#8] ++ zeros 22 else zeros 2)

/-- A MASTER role is permitted for an instance (R175). -/
def State.masterOk (s : State) (n : Nat) : Bool := s.src = n || s.instGm n

/-- An instance may send on a lane as MASTER. -/
def State.sendsAsMaster (s : State) (n l : Nat) : Bool :=
  s.core && s.instEn n && s.ptpRole n l = 2 && s.masterOk n && s.txEn l && (s.lane l).linkUp

/-- The Sync interval of a MASTER lane is over. -/
def State.syncTransmit (s : State) (n l : Nat) : State :=
  let k := s.inst n
  if !s.sendsAsMaster n l || s.now < tget (fun _ => 0) k.nextSync l then s
  else
    let one := bit (s.rg .timeDomCfg n) 29
    let seq := tget (fun _ => 0) k.txSeq l
    let f : TxFrame := { octets := s.syncFrame n l one seq, src := if one then .own else .twoStep n, sync := one }
    let next := s.now + s.syncCycles n
    (s.modInst n fun k => { k with nextSync := tset (fun _ => 0) k.nextSync l next,
                                   txSeq := tset (fun _ => 0) k.txSeq l ((seq + 1) % 65536) }).sendOwn l f

def execSyncTransmit (dt : Nat) (inst : Fin 2) (lane : Fin 8) (s : State) : Host.Outcome State Fault Refusal :=
  .next (s.onClock dt fun s => s.syncTransmit inst.val lane.val)

/-- An Announce with the contents that host software set. -/
def State.announce (s : State) (n l : Nat) (body : List Byte) : State :=
  if s.sendsAsMaster n l then s.sendOwn l { octets := s.ptpHead l ++ body, src := .own } else s

def execAnnounceTransmit (dt : Nat) (inst : Fin 2) (lane : Fin 8) (body : List Byte) (s : State) :
    Host.Outcome State Fault Refusal :=
  .next (s.onClock dt fun s => s.announce inst.val lane.val body)

/-! ### Holdover (R170, R171, R178) -/

/-- The automatic domain switch as HOLDOVER is entered (R178). -/
def State.autoSwitch (s : State) : State :=
  let n := s.src
  if bit (s.rg .timeCtrl) 30 && n < 2 && (s.inst (1 - n)).valid then
    let s := (s.setRg .timeCtrl 0 0 ((s.rg .timeCtrl &&& ~~~3#32) ||| w32 (1 - n))).setBit .timeStatus 0 25
    if s.instGm n then s
    else
      let role := fun (r : Nat) => (List.range 8).foldl (fun r l =>
        if bits r (2 * l + 1) (2 * l) = 2 then r + 2 ^ (2 * l) else r) r
      let w := s.rg .timeDomCfg n
      let s := s.setRg .timeDomCfg n 0 (w32 (w.toNat / 65536 * 65536 + role (w.toNat % 65536)))
      s.modInst n fun k => { k with roleOld := BitVec.ofNat 16 (role k.roleOld.toNat) }
  else s

/-- Holdover since the last accepted sample times HOLD_RATE exceeds DRIFT_LIM (R171). -/
def State.heldTooLong (s : State) : Bool :=
  s.driftLim * 1024 * 1000000000 < (s.now - s.time.acceptedAt) * 1000 * s.holdRate

/-- Enter HOLDOVER: INC is what the integral alone asks for (R169). -/
def State.enterHoldover (s : State) : State :=
  let s := s.setInc (incNom - s.time.integ)
  ((s.onTime fun t => { t with good := 0 }).setTime .holdover).autoSwitch

def State.holdoverDue (s : State) : Bool :=
  (s.time.state = .locking || s.time.state = .locked) && s.time.acceptedAt + s.srcTimeout s.src ≤ s.now

def State.holdover (s : State) : State := if s.holdoverDue then s.enterHoldover else s

def execHoldover (dt : Nat) (s : State) : Host.Outcome State Fault Refusal := .next (s.onClock dt State.holdover)

def State.holdoverDrift (s : State) : State :=
  if s.time.state = .holdover && !s.time.drift && s.heldTooLong then s.onTime fun t => { t with drift := true, calm := 0 }
  else s

def execHoldoverDrift (dt : Nat) (s : State) : Host.Outcome State Fault Refusal := .next (s.onClock dt State.holdoverDrift)

/-- An instance delivers no sample within its timeout; where the time unit enters HOLDOVER in the same cycle, it does
so now (R170, R178). -/
def State.instTimeout (s : State) (n : Nat) : State :=
  match (s.inst n).sampleAt with
  | none => s
  | some t =>
    if (s.inst n).valid && t + s.srcTimeout n ≤ s.now then
      (s.modInst n fun k => { k with valid := false }).holdover
    else s

def execInstanceValidTimeout (dt : Nat) (inst : Fin 2) (s : State) : Host.Outcome State Fault Refusal :=
  .next (s.onClock dt fun s => s.instTimeout inst.val)

/-! ### Registers of the time unit -/

/-- SRC was written: FREE_RUN is entered or left (R170, R171). -/
def State.sourceWritten (s : State) (old : Nat) : State :=
  if old ≠ 3 && s.src = 3 then (s.onTime fun t => { t with drift := false }).setTime .freeRun
  else if old = 3 && s.src ≠ 3 then
    (if s.time.accepted then
      let s := s.enterHoldover
      let d := s.heldTooLong
      s.onTime fun t => { t with drift := d, calm := 0 }
    else (s.onTime fun t => { t with drift := true, calm := 0 }).setTime .free)
  else s

def State.writeTimeCtrl (s : State) (v : Word) : State :=
  let old := s.src
  s.protReg .timeCtrl 0 v fun s => (s.sourceWritten old).ppsLevel

def execTimeCtrlWrite (value : Word) (s : State) : Host.Outcome State Fault Refusal :=
  .next (s.onHost fun s => s.writeTimeCtrl value)

/-- DRIFT_LIM above a bank's CHECK_DRIFT sets its MARGIN_STALE (R203). -/
def State.writeTimeDrift (s : State) (v : Word) : State :=
  s.protReg .timeDrift 0 v fun s =>
    (List.range 4).foldl (fun s b =>
      if (s.bank b).checkDrift < s.driftLim then
        s.modBank b fun k => { k with marginStale := true }
      else s) s

def execDriftLimWrite (value : Word) (s : State) : Host.Outcome State Fault Refusal :=
  .next (s.onHost fun s => s.writeTimeDrift value)

/-- A value of TIME_DOMn_CFG breaks a rule (R175). -/
def State.domBad (s : State) (n : Nat) (v : Word) : Bool :=
  let role := fun l => fld v (2 * l + 1) (2 * l)
  let slaves := ((List.range 8).filter fun l => role l = 1).length
  1 < slaves || (0 < slaves && bit v 30) ||
    ((List.range 8).any fun l => role l = 2) && !(s.src = n || bit v 30)

/-- Raw count at which a new ROLE of a lane takes effect: the lane's next Sync interval boundary (R175). -/
def State.roleStart (s : State) (n l : Nat) : Nat :=
  let k := s.inst n
  match s.ptpRole n l with
  | 2 => tget (fun _ => 0) k.nextSync l
  | 1 => (k.sampleAt.map (· + nsC k.interval)).getD 0
  | _ => 0

/-- Roles as they act now, and the starts of those that change. -/
def State.turnRoles (s : State) (n : Nat) : State :=
  let old := (List.range 8).foldl (fun r l => r + s.ptpRole n l * 2 ^ (2 * l)) 0
  let starts := (List.range 8).foldl (fun t l => tset (fun _ => 0) t l (s.roleStart n l)) []
  s.modInst n fun k => { k with roleOld := BitVec.ofNat 16 old, roleAt := starts }

/-- The accepted value of TIME_DOMn_CFG is stored. -/
def State.putDom (s : State) (n : Nat) (v : Word) : State := (s.turnRoles n).putReg .timeDomCfg n 0 v

/-- A write of TIME_DOMn_CFG: ignored with CFG_ERR where it breaks a rule (R175). -/
def State.writeTimeDom (s : State) (n : Nat) (v : Word) : State :=
  if s.grantOk && s.domBad n v then s.setBit .timeDomCfg n 28
  else s.protWrite (Reg.timeDomCfg.addr n) (s.readWord .timeDomCfg n 0) ((s.putDom n v).readWord .timeDomCfg n 0) fun s => s.putDom n v

def execTimeDomCfgWrite (inst : Fin 2) (value : Word) (s : State) : Host.Outcome State Fault Refusal :=
  .next (s.onHost fun s => s.writeTimeDom inst.val value)

/-- A write of TIME_PPS_CFG: IN_EN set clears PPS_VALID, OUT_EN 0 ends a pulse (R179, R180). -/
def State.writePpsCfg (s : State) (v : Word) : State :=
  let was := bit (s.rg .timePpsCfg) 29
  s.protReg .timePpsCfg 0 v fun s =>
    let s := if bit v 29 && !was then (s.onTime fun t => { t with ppsValid := false }).ppsLevel else s
    if bit v 31 then s else s.onTime fun t => { t with ppsOut := false, ppsOutEnd := none }

/-- The seconds value written before the present cycle governs the next edge (R179). -/
def TimeUnit.commitTod (t : TimeUnit) : TimeUnit :=
  match t.todNext with
  | some (v, c) => if c < t.raw.toNat then { t with tod := v, todWritten := true, todNext := none } else t
  | none => t

def State.writeTod (s : State) (v : Dword) : State :=
  let s := (s.putReg .timeTodNext 0 0 (loW v)).putReg .timeTodNext 0 1 (hiW v)
  s.onTime fun t => { t.commitTod with todNext := some (v.toNat % 2 ^ 48, t.raw.toNat) }

/-! ### PPS (R179, R180) -/

/-- An edge comes too soon or, while PPS_VALID is 1, too late. -/
def State.edgeIgnored (s : State) : Bool :=
  match s.time.ppsLast with
  | none => false
  | some t => s.now < t + nsC 500000000 || (s.time.ppsValid && decide (t + nsC 1500000000 < s.now))

/-- An accepted edge: its seconds value and its sample. -/
def State.ppsSample (s : State) : State :=
  let t := s.time.commitTod
  let stale := !t.todWritten && t.ppsLast.isSome
  let sec := if stale then t.tod + 1 else t.tod
  let theta : Int := (s.nt : Int) - (sec * 1000000000 + s.rf .timePpsIn 0 15 0 : Nat) * 65536
  let t := { t with tod := sec, todWritten := false, ppsLast := some s.now, ppsValid := true,
                    theta := theta, thetaAt := some s.now }
  let s := s.onTime fun _ => t
  let s := if stale then s.setBit .timePpsIn 0 31 else s
  let s := s.ppsLevel
  if s.src = 2 then (s.takeSample theta).coupleCheck else s

/-- A rising edge of PPS_IN (R179). -/
def State.ppsEdge (s : State) : State :=
  let s := s.onPwr fun p => { p with ppsIn := true }
  if !(s.core && bit (s.rg .timePpsCfg) 29) || s.edgeIgnored then s else s.ppsSample

def execPpsIn (dt : Nat) (s : State) : Host.Outcome State Fault Refusal := .next (s.onClock dt State.ppsEdge)

def State.ppsLoss (s : State) : State :=
  match s.time.ppsLast with
  | none => s
  | some t =>
    if s.time.ppsValid && t + nsC 1500000000 ≤ s.now then (s.onTime fun t => { t with ppsValid := false }).ppsLevel
    else s

def execPpsInLoss (dt : Nat) (s : State) : Host.Outcome State Fault Refusal := .next (s.onClock dt State.ppsLoss)

/-- Pulse width in cycles. -/
def State.ppsWidth (s : State) : Nat := usC (min (max (s.rf .timePpsCfg 0 19 0) 1) 500000)

/-- The present cycle is the first at or after a whole second of network time; a second that a step passes over has no
edge (R180). -/
def State.secondNow (s : State) : Bool :=
  if s.time.steppedNow then s.ns % 1000000000 = 0 else s.dueNow (s.ns / 1000000000 * 1000000000)

/-- A whole second of network time: PPS_OUT rises where enabled and qualified (R180). -/
def State.ppsRise (s : State) : State :=
  let c := s.rg .timePpsCfg
  if s.core && s.secondNow && bit c 31 && (!bit c 30 || s.time.state = .locked) then
    let e := s.now + s.ppsWidth
    s.onTime fun t => { t with ppsOut := true, ppsOutEnd := some e }
  else s

def execPpsOut (dt : Nat) (s : State) : Host.Outcome State Fault Refusal := .next (s.onClock dt State.ppsRise)

/-- The next whole second is 10 us away or less. -/
def State.secondNear (s : State) : Bool := decide ((999990000 : Nat) ≤ s.ns % 1000000000)

/-- The pulse ends: its width is over, or the next rising edge is 10 us away (R180). -/
def State.ppsFall (s : State) : State :=
  if s.expired s.time.ppsOutEnd || s.secondNear then s.onTime fun t => { t with ppsOut := false, ppsOutEnd := none } else s

def execPpsOutPulseEnd (dt : Nat) (s : State) : Host.Outcome State Fault Refusal := .next (s.onClock dt State.ppsFall)

/-! ### Steps (R183 to R187, R215, R286) -/

def State.timeStepCmd (s : State) (r mode : Nat) (delta : List Byte → Option Int) : State :=
  match s.readyHead r 0x30 with
  | none => s
  | some e =>
    if byteAt e.bytes 24 ≠ mode || !s.sup.available then s
    else if s.time.step.isSome then s.finishCmd r e.idx 0x31 false
    else (s.begin_ r e.idx).authStep .command (delta e.bytes) (some (r, e.idx))

def execTimeStep (ring : Fin 16) (s : State) : Host.Outcome State Fault Refusal :=
  .next (s.onPin fun s => s.timeStepCmd ring.val 0 fun b => some (signed 64 (lef b 32 8)))

def execTimeStepToSource (ring : Fin 16) (s : State) : Host.Outcome State Fault Refusal :=
  .next (s.onPin fun s => s.timeStepCmd ring.val 1 fun _ => none)

/-- Start of the present row of the running bank. -/
def State.rowStart (s : State) (r : Run) : Nat := r.next - imgRow (s.bankImg r.bank)

/-- The authorised step may execute in this cycle: with a pattern running, at a row boundary after the one at which the
hold took effect, with no guard interval running (R185, R215). -/
def State.stepReady (s : State) : Bool :=
  match s.sched.run with
  | none => true
  | some r =>
    if s.sched.hold.isNone && s.sched.holdReq.isNone then true
    else s.sched.hold.any (fun h => 0 < h.bounds) && s.dueNow (ceilNs (s.rowStart r)) &&
      !(s.fab.change.any fun c => c.stage = .started)

/-- Δ of the step: its own, or −θ of the latest sample within the timeout (R183, R186). -/
def State.stepDelta (s : State) (q : StepReq) : Option Int :=
  match q.delta with
  | some d => some d
  | none => match s.srcSample with
    | some (th, t) => if s.now ≤ t + s.srcTimeout s.src then some (-th) else none
    | none => none

/-- A step from `old` to `new` ns passes a start time, or puts it too far away (R187). `new` is negative where the step
leads behind time 0. -/
def timeLost (old : Nat) (new : Int) (t : Nat) : Bool := (old < t && decide ((t : Int) ≤ new)) || decide (new + 2 ^ 39 < t)

/-- A timed MAP_APPLY that has not started and loses its time. -/
def Change.loses (old : Nat) (new : Int) (c : Change) : Bool :=
  (match c.src with | .apply _ _ => true | _ => false) && c.at_.any (timeLost old new)

/-- Timed MAP_APPLYs whose time is lost complete with TIME_STEPPED (R187). -/
def State.stepApplies (s : State) (old : Nat) (new : Int) : State :=
  let late := s.fab.applies.filter fun a => timeLost old new a.time
  let s := s.onFab fun f => { f with applies := f.applies.filter fun a => !timeLost old new a.time }
  let s := late.foldl (fun s a => s.cancelStaging.finishCmd a.ring a.idx 9 false (applyRes 0 0 0 0 0 0 0)) s
  let lost := s.fab.waiting.any (Change.loses old new)
  let s := s.dropWaiting (Change.loses old new) 9 fun _ => 0
  if lost then s.cancelStaging else s

/-- A waiting start or swap that the step puts too far away ends with TIME_STEPPED (R187). -/
def State.stepFar (s : State) (new : Int) : State :=
  let s := match s.sched.start with
    | some q =>
      if new + 2 ^ 39 < ((q.boundary.map ceilNs).getD q.time : Nat) then
        let s := (s.onSched fun c => { c with start := none }).modBank q.bank fun b => { b with state := .valid }
        let s := s.onFab fun f => { f with
          waiting := f.waiting.filter fun (c : Change) => decide (c.src ≠ ChangeSrc.startMap) }
        s.finishCmd q.ring q.idx 9 false
      else s
    | none => s
  match s.sched.swap with
  | some q =>
    if new + 2 ^ 39 < ceilNs q.boundary then
      let s := (s.onSched fun c => { c with swap := none }).modBank q.bank fun b => { b with state := .valid }
      match q.issuer with
      | some (r, i) => s.finishCmd r i 9 false
      | none => s
    else s
  | none => s

/-- A start whose boundary the step passes takes effect in the step cycle; ROWCNT stays (R215, R217). -/
def State.stepStart (s : State) (nt : Nat) (new : Int) : State :=
  match s.sched.start, s.sched.run with
  | some q, none =>
    if q.boundary.any fun (b : Nat) => decide ((b : Int) ≤ new) then
      let n := s.sched.rowCnt
      (s.startBank q (lastMatrix (s.bankImg q.bank) nt) nt (nsOf nt)).onSched fun c => { c with rowCnt := n }
    else s
  | _, _ => s

/-- A stop or swap whose boundary the step passes takes effect in the step cycle (R215). -/
def State.stepEnds (s : State) (nt : Nat) (new : Int) : State :=
  match s.sched.run with
  | none => s
  | some r =>
    let stop := s.sched.stopAt.filter fun (b : Nat) => decide ((b : Int) ≤ new)
    let s := match s.sched.swap with
      | some q =>
        if decide ((q.boundary : Int) ≤ new) && stop.all (q.boundary < ·) then
          s.swapNow r q (lastMatrix (s.bankImg q.bank) nt) nt (nsOf nt)
        else s
      | none => s
    if stop.isSome then (s.endBank (nsOf nt)).followPolicies else s

/-- The running bank's row and offset from the new time: entries between are not fired, gates stand as defined there,
and waiting stops keep to the next matrix boundary (R215, R208). -/
def State.replaceRun (s : State) (nt : Nat) : State :=
  match s.sched.run with
  | none => s
  | some r =>
    let g := s.bankImg r.bank
    let (m, row) := placeOf g nt
    let s := s.onSched fun c =>
      { c with run := some (runFrom g r.bank m row nt), stopAt := c.stopAt.map fun _ => (m + imgM g).toNat }
    let s := s.onFab fun f => { f with casts := [] }
    (s.setGates g m nt).planRow nt

/-- Events that a forward step passes fall due in the step cycle, in context order (R241), 8 in it and the others in
the slots after it (R240). -/
def State.stepWheel (s : State) : State :=
  let k := s.slotNo
  let due := ((s.ept.wheel ++ s.ept.ovfl).filter s.slotDue).map fun v => { v with slot := k }
  let s := s.onEpt fun e => { e with wheel := due.foldl (fun l v => insertEvent v l) (e.wheel.filter fun v => !s.slotDue v),
                                     ovfl := e.ovfl.filter fun v => !s.slotDue v }
  s.serveWhile due.length fun v => v.slot = k

/-- What the step from `old` ns to `new` in 2^-16 ns makes of the schedule and of timed actions. -/
def State.afterStep (s : State) (old : Nat) (new : Int) : State :=
  let s := (s.stepApplies old (new / 65536)).stepFar (new / 65536)
  ((((s.stepStart s.nt new).stepEnds s.nt new).replaceRun s.nt).stepWheel).shutGates

def StepCase.code : StepCase → Nat
  | .acquisition => 0 | .coupling => 1 | .command => 2

/-- The step cycle (R166, R187). -/
def State.stepNow (s : State) (q : StepReq) (d : Int) : State :=
  let old := s.ns
  let new := (s.nt : Int) + d
  let n := new % (ntMod : Int)
  let raw := s.time.raw
  let s := s.onTime fun t => { t.reanchor n.toNat with refCnt := 0, refSince := 0, jumpFired := false, step := none,
                                                       stepped := true }
  let s := (s.setBit .timeStatus 0 24).event 9 q.why.code 0 (leBytes 8 raw.toNat ++ leBytes 8 (unsigned 64 d))
  let s := (s.afterStep old new).coupleCheck
  match q.issuer with
  | some (r, i) => s.finishCmd r i 0 true (leBytes 8 (unsigned 64 d) ++ leBytes 8 raw.toNat)
  | none => s

/-- The step lapses (R186); a hold that has not taken effect is no longer asked for. -/
def State.lapseStep (s : State) (q : StepReq) : State :=
  let s := s.onTime fun t => { t with step := none, lapsed := true }
  let s := s.onSched fun c => { c with holdReq := if c.holdReq = some HoldWhy.step then none else c.holdReq }
  let s := s.setBit .timeStatus 0 23
  match q.issuer with
  | some (r, i) => s.finishCmd r i 0x32 false
  | none => s

def State.stepTooLate (s : State) (q : StepReq) : Bool := q.authAt + secC 1 ≤ s.now

def State.doStep (s : State) : State :=
  match s.time.step with
  | none => s
  | some q =>
    if !s.core || !s.sup.available || !s.stepReady then s
    else match s.stepDelta q with
      | none => s.lapseStep q
      | some d => if s.stepTooLate q then s.lapseStep q else s.stepNow q d

def execStep (dt : Nat) (s : State) : Host.Outcome State Fault Refusal := .next (s.onClock dt State.doStep)

def State.stepLapsed (s : State) : State :=
  match s.time.step with
  | none => s
  | some q => if s.stepTooLate q || (s.sup.available && s.stepReady && (s.stepDelta q).isNone) then s.lapseStep q else s

def execStepLapsed (dt : Nat) (s : State) : Host.Outcome State Fault Refusal := .next (s.onClock dt State.stepLapsed)

/-- TIME_SNAP takes the raw counter and the network time of the present cycle (R168). -/
def State.latchTime (s : State) : State :=
  let n := s.nt
  s.onTime fun t => { t with snapRaw := t.raw, snapNt := n }

/-- A read of TIME_SNAP (R168). -/
def State.snapTime (s : State) : State := s.latchTime.emit (.readData 0x8020 s.time.raw)

def execTimeSnap (dt : Nat) (s : State) : Host.Outcome State Fault Refusal :=
  .next (s.onClock dt fun s => if s.hostUp then s.snapTime else s)

end Sys2Proof.Machine
end

