-- ==== Sys2Proof/Machine/Consist.lean ====
section
/-! DEFINITION. Consists: the accepted record, heartbeats and membership, the election, coupling and uncoupling, and
the distribution of schedules (R295 to R317). -/

namespace Sys2Proof.Machine

/-! ### Accepting a frame (R300, R301) -/

/-- The fields of a Biarn frame, from octets without VLAN tag (R298). -/
structure BiarnHdr where
  type     : Nat
  consist  : Nat
  sender   : Nat
  slot     : Nat
  role     : Nat
  priority : Nat
  nconsist : Nat
  counter  : Nat
  plen     : Nat
  keyId    : Nat
  ttl      : Nat
  payload  : List Byte
  deriving DecidableEq, Repr

def biarnHdr (o : List Byte) : BiarnHdr :=
  { type := byteAt o 17, consist := bef o 18 4, sender := bef o 22 8, slot := byteAt o 30, role := byteAt o 31,
    priority := byteAt o 32, nconsist := byteAt o 33, counter := bef o 34 8, plen := bef o 42 2, keyId := byteAt o 44,
    ttl := byteAt o 45, payload := o.drop 46 }

/-- The sender has a manager's role. -/
def BiarnHdr.manages (h : BiarnHdr) : Bool := h.role = 2 || h.role = 3 || h.role = 4

def State.casCount (s : State) (k : Nat) : State :=
  s.onCasc fun c => { c with cnt := tmod (fun _ => 0) c.cnt k fun n => satN (n + 1) 0xFFFFFFFF }

/-- A frame refused by check 2 or by check 3 with a lower counter, for BIARN_REFUSED (R335; assumption 41). -/
def State.noteBiarn (s : State) (check : Nat) : State :=
  s.onCasc fun c => { c with refusals := ((s.now, check) :: c.refusals.filter fun p => s.now < p.1 + secC 1).take 16 }

def State.senderOf (s : State) (id : Nat) : Option Sender := s.casc.senders.find? fun q => q.id.toNat = id

/-- The table of 128 senders takes an accepted frame; the one heard least recently gives way (R300). -/
def State.noteSender (s : State) (h : BiarnHdr) : State :=
  let q : Sender := { id := BitVec.ofNat 64 h.sender, counter := BitVec.ofNat 64 h.counter, heardAt := s.now,
                      slot := h.slot, consist := w32 h.consist, isMgr := h.manages }
  let l := s.casc.senders.filter fun x => x.id.toNat ≠ h.sender
  let l := if l.length < 128 then l else match minBy (·.heardAt) l with
    | some x => l.filter (· ≠ x)
    | none => l
  s.onCasc fun c => { c with senders := l ++ [q] }

/-- The tag of a frame matches a held key, and its length is that of its payload. -/
def State.biarnTagOk (s : State) (f : BiarnFrame) (h : BiarnHdr) : Bool :=
  h.keyId < 64 && (s.key h.keyId).held && h.plen ≤ 1024 && h.payload.length = h.plen &&
    f.tag = biarnTag (s.key h.keyId).material f.octets

/-- The first check of R300 that a frame fails: its counter, and the check number where it is a refusal. -/
def State.biarnFail (s : State) (f : BiarnFrame) (h : BiarnHdr) : Option (Nat × Option Nat) :=
  let last := (s.senderOf h.sender).map (·.counter.toNat)
  if h.sender = s.unitId then some (5, none)
  else if !s.biarnTagOk f h then some (2, some 2)
  else if last = some h.counter then some (4, none)
  else if last.any (h.counter < ·) then some (3, some 3)
  else if !((s.memberSlot h.sender).isSome || (h.manages && h.consist ≠ s.consistId)) then some (2, none)
  else none

/-- Relay to every other Biarn lane, TTL reduced by one and all other octets as they came (R301); a full queue takes
none (assumption 30). -/
def State.relay (s : State) (l : Nat) (f : BiarnFrame) (h : BiarnHdr) : State :=
  let ls := s.biarnLanes.filter (· ≠ l)
  if h.ttl ≤ 1 || ls.isEmpty then s
  else
    let o := putBytes f.octets 45 [BitVec.ofNat 8 (h.ttl - 1)]
    (ls.foldl (fun s k => s.sendOwn k { octets := withVlan o f.tag f.vlan, src := .own }) s).casCount 1

/-- A Biarn frame of type `type` arrives on lane `l`: the checks, the relay, then what the type does. -/
def State.biarnArrives (s : State) (l type : Nat) (f : BiarnFrame) (act : State → BiarnHdr → State) : State :=
  let h := biarnHdr f.octets
  if !s.biarnUp || !isBiarn f.octets || h.type ≠ type then s
  else match s.biarnFail f h with
    | some (k, refused) =>
      let s := s.casCount k
      (match refused with
       | some c => s.noteBiarn c
       | none => s)
    | none =>
      let s := ((s.noteSender h).casCount 0).relay l f h
      act s h

/-- 16 refusals within 1 s (R335). -/
def State.biarnRefused (s : State) : State :=
  match s.casc.refusals with
  | [] => s
  | p :: ps =>
    if (p :: ps).length = 16 && ((p :: ps).all fun x => s.now < x.1 + secC 1) then
      (s.onCasc fun c => { c with refusals := [] }).fire 91 p.2
    else s

def execBiarnRefused (dt : Nat) (s : State) : Host.Outcome State Fault Refusal := .next (s.onClock dt State.biarnRefused)

/-! ### Heartbeats sent (R299, R304) -/

/-- Consist list of a HEARTBEAT or CLAIM. -/
def State.trainBytes (s : State) : List Byte := s.casc.train.flatMap fun t => beBytes 4 t.id.toNat ++ beBytes 8 t.mgr.toNat

/-- A manager that serves a train. -/
def State.servesTrain (s : State) : Bool :=
  s.casc.role = .trainMgr || s.casc.role = .deputy || (s.casc.role = .claiming && s.casc.wasTm)

/-- Payload of a HEARTBEAT; the outcome of no coupling and the tag of no bank are free values (assumption 3). -/
def State.hbPayload (s : State) : List Byte :=
  let bank := s.sched.run.map (·.bank)
  [BitVec.ofNat 8 s.time.state.code, BitVec.ofNat 8 (at_ s.time.drift 0), BitVec.ofNat 8 (bank.getD 0xFF),
    s.casc.lastOutcome.getD (Config.freeByte s.free)] ++
    (match bank with
     | some b => beBytes 4 (imgLE (s.bankImg b) 40 4)
     | none => [1, 2, 3, 4].map fun k => Config.freeByte (s.free + k)) ++
    (if s.servesTrain then beBytes 2 s.casc.inaugCnt.toNat ++ beBytes 8 s.casc.tmId.toNat ++ s.trainBytes else [])

def State.sendHeartbeat (s : State) : State :=
  let p := s.hbPayload
  ({ s with free := s.free + 5 }).sendBiarn 1 p

/-- HB_MS has passed. -/
def State.heartbeatInterval (s : State) : State :=
  if s.biarnUp && s.expired s.casc.hbAt then
    (s.onCasc fun c => { c with hbAt := some (s.now + s.hbCycles) }).sendHeartbeat
  else s

def execHeartbeatInterval (dt : Nat) (s : State) : Host.Outcome State Fault Refusal :=
  .next (s.onClock dt State.heartbeatInterval)

/-! ### Election (R310 to R312) -/

/-- Key `a` is better than key `b`: PRIORITY, then the lower identity (R310). -/
def betterKey (a b : Nat × Nat) : Bool := b.1 < a.1 || (a.1 = b.1 && decide (a.2 < b.2))

def State.ownKey (s : State) : Nat × Nat := (s.casc.priority.toNat, s.unitId)

/-- The consist list of a payload. -/
def parseTrain (now : Nat) : Nat → List Byte → List TrainConsist
  | 0, _ => []
  | n + 1, b =>
    if b.length < 12 then []
    else { id := w32 (bef b 0 4), mgr := BitVec.ofNat 64 (bef b 4 8), heardAt := now } :: parseTrain now n (b.drop 12)

/-- Two consist lists as one, each consist once. -/
def mergeTrain (a b : List TrainConsist) : List TrainConsist := a ++ b.filter fun t => !(a.any (·.id = t.id))

/-- The supervisor's write of GM and ROLE of instance `n`, ignored with CFG_ERR where it breaks a rule (R175). -/
def State.roleWrite (s : State) (n : Nat) (gm : Bool) (role : Nat) : State :=
  let w := (s.rg .timeDomCfg n).toNat
  let v := w32 (w / 2 ^ 31 * 2 ^ 31 + at_ gm 30 + bits w 29 29 * 2 ^ 29 + bits w 27 16 * 2 ^ 16 + role)
  if s.domBad n v then s.setBit .timeDomCfg n 28 else s.putDom n v

/-- Train manager: ROLE_TM and GM_TM into TIME_DOMn_CFG (R312, R315). -/
def State.trainRoles (s : State) : State :=
  [0, 1].foldl (fun s n => s.roleWrite n ((s.recByte 32).testBit n) (s.recLE (24 + 2 * n) 2)) s

/-- Deputy: GM 0, then ROLE_DEP0 and ROLE_DEP1 (R313). -/
def State.deputyRoles (s : State) : State :=
  let s := [0, 1].foldl (fun s n => s.roleWrite n false (fld (s.rg .timeDomCfg n) 15 0)) s
  [0, 1].foldl (fun s n => s.roleWrite n (bit (s.rg .timeDomCfg n) 30) (s.recLE (28 + 2 * n) 2)) s

/-- A CLAIM on every Biarn lane. -/
def State.sendClaim (s : State) : State := s.sendBiarn 2 (beBytes 2 s.casc.inaugCnt.toNat ++ s.trainBytes)

/-- Enter CLAIMING at t_s; `foreign` is the manager heard, 0 for none (R311, R312 rows 2 and 5). -/
def State.enterClaiming (s : State) (foreign : Nat) : State :=
  let s := s.onCasc fun c =>
    { c with wasTm := c.role = .trainMgr, role := .claiming, claimAt := some s.now, claimRounds := 1, bestKey := none,
             bestCnt := c.inaugCnt, heardList := [] }
  (s.consistEvent 0 0 (leBytes 8 foreign)).sendClaim

/-- A CLAIM or train manager's HEARTBEAT from outside the train is considered (R311). -/
def State.consider (s : State) (h : BiarnHdr) (cnt : Nat) (list : List TrainConsist) : State :=
  let k : Byte × Dword := (BitVec.ofNat 8 h.priority, BitVec.ofNat 64 h.sender)
  let own : TrainConsist := { id := w32 h.consist, mgr := BitVec.ofNat 64 h.sender, heardAt := s.now }
  s.onCasc fun c =>
    { c with bestKey := match c.bestKey with
               | some b => if betterKey (h.priority, h.sender) (b.1.toNat, b.2.toNat) then some k else some b
               | none => some k,
             bestCnt := BitVec.ofNat 16 (max c.bestCnt.toNat cnt),
             heardList := mergeTrain c.heardList (if list.isEmpty then [own] else list) }

/-- The trains together have more than four consists: TRAIN_FULL, and the frame is left out (R311). -/
def State.trainFull (s : State) (h : BiarnHdr) : State :=
  (s.setBit .cascRoleStatus 0 25).consistEvent 0x0B 0 (leBytes 4 h.consist ++ [BitVec.ofNat 8 h.nconsist])

/-- An election frame from a manager outside the train: a train manager claims, and in CLAIMING the frame is considered
or left out. -/
def State.foreignClaim (s : State) (h : BiarnHdr) (cnt : Nat) (list : List TrainConsist) : State :=
  let own := s.casc.train.length
  let open_ := match s.casc.claimAt with
    | some t => decide (s.now < t + msC 6)
    | none => false
  if s.casc.train.any fun t => t.mgr.toNat = h.sender then s
  else if s.casc.role = .claiming then
    (if !open_ then s else if 4 < h.nconsist + own then s.trainFull h else s.consider h cnt list)
  else if s.casc.role = .trainMgr then
    let s := s.enterClaiming h.sender
    if 4 < h.nconsist + own then s.trainFull h else s.consider h cnt list
  else s

/-- An accepted CLAIM (R311). -/
def State.claimArrives (s : State) (h : BiarnHdr) : State :=
  if h.consist = s.consistId then s
  else s.foreignClaim h (bef h.payload 0 2) (parseTrain s.now 4 (h.payload.drop 2))

def execClaim (dt : Nat) (lane : Fin 8) (frame : BiarnFrame) (s : State) : Host.Outcome State Fault Refusal :=
  .next (s.onClock dt fun s => s.biarnArrives lane.val 2 frame State.claimArrives)

/-- The CLAIMs at t_s plus 2 ms and plus 4 ms. -/
def State.claimRound (s : State) : State :=
  match s.casc.claimAt with
  | none => s
  | some t =>
    if s.biarnUp && s.casc.role = .claiming && s.casc.claimRounds < 3 && t + msC (2 * s.casc.claimRounds) ≤ s.now then
      (s.onCasc fun c => { c with claimRounds := c.claimRounds + 1 }).sendClaim
    else s

def execClaimRound (dt : Nat) (s : State) : Host.Outcome State Fault Refusal := .next (s.onClock dt State.claimRound)

/-! ### The coupling sequence (R313, R314) -/

/-- COUPLING is set and the coupling limit starts. -/
def State.startCoupling (s : State) : State :=
  let e := s.now + msC (100 * s.recByte 11)
  let s := s.onCasc fun c =>
    { c with coupling := true, coupleEnd := some e, outcome := none, stepAuth := false, readySlots := [] }
  s.onTime fun t => { t with stepped := false, lapsed := false, relocked := false, refSince := 0 }

/-- The deputy manager's part: its roles, COUPLE to its workers, and the sequence itself. -/
def State.coupleConsist (s : State) : State :=
  let s := s.deputyRoles
  (s.sendBiarn 3 (beBytes 8 s.casc.tmId.toNat ++ beBytes 2 s.casc.inaugCnt.toNat)).startCoupling

/-- Event: became deputy, or adopted a new train manager. -/
def State.deputyEvent (s : State) : State :=
  s.consistEvent 2 0 (leBytes 8 s.casc.tmId.toNat ++ leBytes 2 s.casc.inaugCnt.toNat)

/-- Rows 3 and 4 of R312, at t_s plus 6 ms. -/
def State.decideClaim (s : State) : State :=
  let lost := s.casc.bestKey.filter fun b => betterKey (b.1.toNat, b.2.toNat) s.ownKey
  match lost with
  | none =>
    let s := s.onCasc fun c =>
      { c with role := .trainMgr, claimAt := none, wasTm := false, inaugCnt := c.bestCnt + 1,
               tmId := BitVec.ofNat 64 s.unitId, train := mergeTrain c.train c.heardList }
    let s := s.trainRoles
    s.sendHeartbeat.consistEvent 1 s.casc.train.length (leBytes 2 s.casc.inaugCnt.toNat)
  | some b =>
    let s := s.onCasc fun c =>
      { c with role := .deputy, claimAt := none, wasTm := false, inaugCnt := c.bestCnt, tmId := b.2, tmHeard := s.now,
               train := mergeTrain c.train c.heardList }
    s.deputyEvent.coupleConsist

def State.claimEnd (s : State) : State :=
  match s.casc.claimAt with
  | none => s
  | some t => if s.biarnUp && s.casc.role = .claiming && t + msC 6 ≤ s.now then s.decideClaim else s

def execClaimEnd (dt : Nat) (s : State) : Host.Outcome State Fault Refusal := .next (s.onClock dt State.claimEnd)

/-- A worker takes its consist's manager's orders, except while that manager is lost (R305). -/
def State.hearsManager (s : State) (h : BiarnHdr) : Bool :=
  s.casc.role = .worker && !s.casc.mgrLost && h.consist = s.consistId && h.manages

/-- COUPLE at a worker, from its consist's manager. -/
def State.coupleArrives (s : State) (h : BiarnHdr) : State :=
  if s.hearsManager h then
    (s.onCasc fun c => { c with tmId := BitVec.ofNat 64 (bef h.payload 0 8),
                                inaugCnt := BitVec.ofNat 16 (bef h.payload 8 2) }).startCoupling
  else s

def execCouple (dt : Nat) (lane : Fin 8) (frame : BiarnFrame) (s : State) : Host.Outcome State Fault Refusal :=
  .next (s.onClock dt fun s => s.biarnArrives lane.val 3 frame State.coupleArrives)

/-- STEP_REF refused samples since COUPLING was set: a coupling hold and a step to source (R313). -/
def State.couplingStep (s : State) : State :=
  if s.biarnUp && s.casc.coupling && s.casc.outcome.isNone && s.time.step.isNone && !s.time.stepped &&
      !s.time.relocked && s.recByte 10 ≤ s.time.refSince then
    let n := s.time.refCnt
    let s := (s.onSched fun c => { c with couplingHeld := true }).askHold .coupling
    let s := s.onTime fun t => { t with refSince := 0 }
    ((s.onCasc fun c => { c with stepAuth := true }).authStep .coupling none none).consistEvent 3 0 [BitVec.ofNat 8 n]
  else s

def execCouplingStep (dt : Nat) (s : State) : Host.Outcome State Fault Refusal := .next (s.onClock dt State.couplingStep)

/-- HOLD_MAX expires: READY with what became of the module, RELEASE from a deputy, and the hold's release (R313, R314). -/
def State.couplingLimit (s : State) : State :=
  if s.biarnUp && s.casc.coupling && s.expired s.casc.coupleEnd then
    let s := if s.casc.outcome.isNone then s.sendReady (if s.time.lapsed then 2 else 3) else s
    if !s.casc.coupling then s else if s.casc.role = .deputy then s.sendRelease else s.releaseCoupling
  else s

def execCouplingLimit (dt : Nat) (s : State) : Host.Outcome State Fault Refusal := .next (s.onClock dt State.couplingLimit)

/-- READY at the deputy manager (R314). -/
def State.readyArrives (s : State) (h : BiarnHdr) : State :=
  if s.casc.role.manages && h.consist = s.consistId then
    let s := s.consistEvent 4 h.slot (h.payload.take 1)
    (s.onCasc fun c => { c with readySlots := c.readySlots ++ [h.slot] }).checkRelease
  else s

def execReady (dt : Nat) (lane : Fin 8) (frame : BiarnFrame) (s : State) : Host.Outcome State Fault Refusal :=
  .next (s.onClock dt fun s => s.biarnArrives lane.val 4 frame State.readyArrives)

/-- RELEASE at a worker (R314). -/
def State.releaseArrives (s : State) (h : BiarnHdr) : State :=
  if s.hearsManager h then
    (s.consistEvent 5 0 (h.payload.take 1)).releaseCoupling
  else s

def execRelease (dt : Nat) (lane : Fin 8) (frame : BiarnFrame) (s : State) : Host.Outcome State Fault Refusal :=
  .next (s.onClock dt fun s => s.biarnArrives lane.val 5 frame State.releaseArrives)

/-! ### Heartbeats received (R304 to R306, R312) -/

/-- A HEARTBEAT of a manager of the module's own consist at another manager: the worse key becomes a worker (R306). -/
def State.conflict (s : State) (h : BiarnHdr) : State :=
  let s := (s.setBit .cascRoleStatus 0 26).consistEvent 0x0A 0 (leBytes 8 h.sender)
  if betterKey (h.priority, h.sender) s.ownKey then
    s.onCasc fun c => { c with role := .worker, demoted := true, priority := 0#8, members := [], train := [],
                               claimAt := none, mgrHeard := some s.now }
  else s

/-- A member is heard by its manager (R304). -/
def State.heardMember (s : State) (k : Nat) : State :=
  let first := !(s.casc.members.any (·.1 = k))
  let s := s.onCasc fun c => { c with members := tset (fun _ => 0) c.members k (s.now + 1) }
  if first then s.consistEvent 0x0F k else s

/-- A worker hears its manager (R305). -/
def State.heardManager (s : State) (h : BiarnHdr) : State :=
  let was := s.casc.mgrLost
  let s := s.onCasc fun c =>
    { c with mgrHeard := some s.now, mgrLost := false,
             inaugCnt := if 18 ≤ h.payload.length then BitVec.ofNat 16 (bef h.payload 8 2) else c.inaugCnt,
             tmId := if 18 ≤ h.payload.length then BitVec.ofNat 64 (bef h.payload 10 8) else c.tmId }
  if was then s.consistEvent 9 h.slot else s

/-- Consists of the train whose manager is heard. -/
def State.heardConsist (s : State) (h : BiarnHdr) : State :=
  s.onCasc fun c =>
    { c with tmHeard := if c.tmId.toNat = h.sender then s.now else c.tmHeard,
             train := c.train.map fun t => if t.id.toNat = h.consist then { t with heardAt := s.now } else t }

/-- A train manager's list at a deputy: its own is followed, another that lists the consist is adopted (row 6). -/
def State.followTrain (s : State) (h : BiarnHdr) (cnt : Nat) (list : List TrainConsist) : State :=
  let keep := list.map fun t => match s.casc.train.find? (·.id = t.id) with
    | some o => { t with heardAt := o.heardAt }
    | none => t
  let take := fun (s : State) => s.onCasc fun c => { c with inaugCnt := BitVec.ofNat 16 cnt, train := keep }
  if s.casc.tmId.toNat = h.sender then take s
  else if list.any fun t => t.id.toNat = s.consistId then
    ((take s).onCasc fun c => { c with tmId := BitVec.ofNat 64 h.sender, tmHeard := s.now }).deputyEvent.coupleConsist
  else s

/-- An accepted HEARTBEAT. -/
def State.heartbeatArrives (s : State) (h : BiarnHdr) : State :=
  let cnt := bef h.payload 8 2
  let list := parseTrain s.now 4 (h.payload.drop 18)
  if h.consist = s.consistId then
    (if s.casc.role = .worker then (if h.manages then s.heardManager h else s)
     else if h.manages then s.conflict h
     else match s.memberSlot h.sender with
       | some k => s.heardMember k
       | none => s)
  else if !s.casc.role.manages then s
  else
    let s := s.heardConsist h
    if h.role ≠ 3 then s
    else if s.casc.role = .deputy then s.followTrain h cnt list
    else s.foreignClaim h cnt list

def execHeartbeat (dt : Nat) (lane : Fin 8) (frame : BiarnFrame) (s : State) : Host.Outcome State Fault Refusal :=
  .next (s.onClock dt fun s => s.biarnArrives lane.val 1 frame State.heartbeatArrives)

/-- A member has been silent for 3 × HB_MS (R304); RELEASE no longer waits for it (R314). -/
def State.memberLost (s : State) (k : Nat) : State :=
  let t := tget (fun _ => 0) s.casc.members k
  if s.biarnUp && s.casc.role.manages && t ≠ 0 && t - 1 + s.hbLost ≤ s.now then
    ((s.onCasc fun c => { c with members := tset (fun _ => 0) c.members k 0 }).consistEvent 0x0E k).checkRelease
  else s

def execMemberLost (dt : Nat) (slot : Fin 32) (s : State) : Host.Outcome State Fault Refusal :=
  .next (s.onClock dt fun s => s.memberLost slot.val)

/-- Slot of the consist's manager as last heard; of one never heard a free value (assumption 3). -/
def State.managerSlot (s : State) : Nat :=
  match s.casc.senders.find? fun q => q.isMgr && q.consist.toNat = s.consistId with
  | some q => q.slot
  | none => s.freeNat % 32

/-- A worker hears no manager for 3 × HB_MS (R305). -/
def State.mgrSilent (s : State) : State :=
  match s.casc.mgrHeard with
  | none => s
  | some t =>
    if s.biarnUp && s.casc.role = .worker && !s.casc.mgrLost && t + s.hbLost ≤ s.now then
      let k := s.managerSlot
      ((s.tick.onCasc fun c => { c with mgrLost := true }).consistEvent 8 k)
    else s

def execMgrLost (dt : Nat) (s : State) : Host.Outcome State Fault Refusal := .next (s.onClock dt State.mgrSilent)

/-- A deputy hears no train manager for 3 × HB_MS and promotes itself (R312 row 7, R315). -/
def State.promote (s : State) : State :=
  if s.biarnUp && s.casc.role = .deputy && s.casc.tmHeard + s.hbLost ≤ s.now then
    let lost := s.hbLost
    let own := s.consistId
    let s := s.onCasc fun c =>
      { c with role := .trainMgr, inaugCnt := c.inaugCnt + 1, tmId := BitVec.ofNat 64 s.unitId,
               train := c.train.filter fun t => t.id.toNat = own || s.now < t.heardAt + lost }
    let s := s.trainRoles
    s.sendHeartbeat.consistEvent 7 0 (leBytes 2 s.casc.inaugCnt.toNat)
  else s

def execPromotion (dt : Nat) (s : State) : Host.Outcome State Fault Refusal := .next (s.onClock dt State.promote)

/-- A consist of the train whose manager has been silent for 3 × HB_MS leaves it (R316). -/
def State.consistLeft (s : State) (id : Word) : State :=
  if s.biarnUp && s.casc.role = .trainMgr && id.toNat ≠ s.consistId &&
      (s.casc.train.any fun t => t.id = id && t.heardAt + s.hbLost ≤ s.now) then
    (s.onCasc fun c => { c with inaugCnt := c.inaugCnt + 1, train := c.train.filter (·.id ≠ id) }).consistEvent 6 0
      (leBytes 4 id.toNat)
  else s

def execConsistLeft (dt : Nat) (consist : Word) (s : State) : Host.Outcome State Fault Refusal :=
  .next (s.onClock dt fun s => s.consistLeft consist)

/-! ### Configuration (R295 to R297, R312 rows 1 and 2) -/

/-- The role that a module takes with an enabling record; in the compatibility profile it stays STACK (R318). -/
def State.takeRole (s : State) : State :=
  if s.casc.role = .stack then s else
  let mgr := s.pwr.straps.mgr && !s.casc.demoted
  let own : TrainConsist := { id := w32 s.consistId, mgr := BitVec.ofNat 64 s.unitId, heardAt := s.now }
  let s := s.onCasc fun c => { c with priority := if mgr then BitVec.ofNat 8 (s.recByte 2) else 0#8,
                                      hbAt := some (s.now + s.hbCycles) }
  if !mgr then
    (if s.casc.role = .worker then s else s.onCasc fun c => { c with role := .worker, mgrHeard := some s.now })
  else if s.casc.role = .deputy || s.casc.role = .claiming then s
  else
    (s.onCasc fun c => { c with train := if c.train.isEmpty then [own] else c.train }).enterClaiming 0

/-- CONSIST_CFG with a record of operation `op`. -/
def State.consistCfg (s : State) (r op : Nat) (act : State → Entry → State) : State :=
  match s.readyHead r 0x54 with
  | none => s
  | some e => if (rd e.payload 0).toNat ≠ op || !s.sup.available then s else act s e

/-- OP 00h CONFIGURE: the record is taken; with ENABLE clear the role is DISABLED. -/
def State.configure (s : State) (r : Nat) (e : Entry) : State :=
  let rec_ := wrBytes [] 0 (rdBytes e.payload 0 recordSize)
  let on := byteAt (rdBytes e.payload 0 2) 1 = 1
  let s := if on then (s.onCasc fun c => { c with record := rec_, enabled := true }).takeRole
    else
      let s := s.releaseCoupling
      s.onCasc fun c => { role := if c.role = .stack then .stack else .disabled, record := rec_, cnt := c.cnt, senders := c.senders, txCount := c.txCount,
                          inaugCnt := c.inaugCnt, demoted := c.demoted, lastOutcome := c.lastOutcome }
  s.finishCmd r e.idx 0 true

def execConsistConfigure (ring : Fin 16) (s : State) : Host.Outcome State Fault Refusal :=
  .next (s.onPin fun s => s.consistCfg ring.val 0 fun s e => s.configure ring.val e)

/-- A manager with ENABLE set may distribute and order swaps (R297). -/
def State.mayOrder (s : State) : Bool := s.casc.enabled && s.casc.role.manages

/-! ### Distribution (R307, R308) -/

def chunkSize : Nat := 1016

/-- Number of the last chunk of a set. -/
def lastChunk (len : Nat) : Nat := (len - 1) / chunkSize

/-- Send the chunks of a job from number `n` on. -/
def State.sendChunks (s : State) (j : DistJob) (n : Nat) : State :=
  let last := lastChunk j.set.length
  ((List.range (last + 1)).filter (n ≤ ·)).foldl (fun s k =>
    s.sendBiarn 6 ([BitVec.ofNat 8 j.slot, BitVec.ofNat 8 j.bank] ++ beBytes 2 k ++ beBytes 2 last ++ zeros 2 ++
      (j.set.drop (chunkSize * k)).take chunkSize)) s

/-- Audit entry of one step that the supervisor applies in installer role, with the payload of its command (R329,
R330). -/
def State.distAudit (s : State) (op : Nat) (arg payload : List Byte) : State :=
  let q := s.sec.auditSeq
  let e : AuditEntry :=
    { kind := 5#8, role := 2#8, keyId := BitVec.ofNat 8 (s.recByte 3), source := if s.casc.distLocal then 0x12#8 else 0x11#8,
      opcode := BitVec.ofNat 8 op, where_ := w32 s.slotNum, arg := arg,
      digest := if payload.isEmpty then [] else sha256 payload }
  (s.writeAudit e true).onCasc fun c => { c with distSeq := q }

/-- A set for the module's own slot is taken up for applying, in installer role. -/
def State.distTake (s : State) (bank : Nat) (set : List Byte) : State :=
  s.onCasc fun c => { c with distApply := true, distLocal := true, distStep := 0, distAt := none,
                             distIn := wrBytes [] 0 set, distBank := bank }

/-- The next set for the own slot that waits for the one applied (assumption 67). -/
def State.distWaiting (s : State) : State :=
  match s.casc.distOut.find? (·.slot = s.slotNum) with
  | none => s
  | some j => (s.onCasc fun c => { c with distOut := c.distOut.erase j }).distTake j.bank j.set

/-- The set has been applied, or a step was refused: the result goes to the manager. -/
def State.distEnd (s : State) (st item index : Nat) : State :=
  let here := s.casc.distLocal
  let s := s.onCasc fun c => { c with distApply := false, distLocal := false, distStep := 0, distIn := [], distGot := [],
                                      distLast := 0, distAt := none, distAsked := 0 }
  let s := if here then s.consistEvent 0x0C s.slotNum ([BitVec.ofNat 8 st, BitVec.ofNat 8 item] ++ leBytes 2 index)
    else s.sendBiarn 7 ([0#8, BitVec.ofNat 8 st, BitVec.ofNat 8 item, 0#8] ++ beBytes 2 index)
  s.distWaiting

/-- RESULT of the step under way, and the end of the work where it is a refusal. -/
def State.distStepDone (s : State) (st item index : Nat) : State :=
  let s := s.setResult s.casc.distSeq (BitVec.ofNat 8 st)
  if st = 0 then s else s.distEnd st item index

def State.distMaps (s : State) : Nat := leNat (rdBytes s.casc.distIn 0 4)

/-- The bank image of the set goes to its bank (R201, R308). -/
def State.distBank (s : State) : State :=
  let b := s.casc.distBank
  let s := s.distAudit 0x20 [BitVec.ofNat 8 b] (rdBytes s.casc.distIn (64 + 296 * s.distMaps) 131072)
  match (s.bank b).state with
  | .running | .pending => s.distStepDone 0x28 0xFF 0
  | _ =>
    let s := { s with sram := copyIn s.sram (bankBase b) s.casc.distIn (64 + 296 * s.distMaps) 131072 }
    s.modBank b fun k => { k with state := .loading, marginStale := false, issuer := none, remote := true }

/-- MAP_ROUTE of a loaded map record. -/
def State.distRoute (s : State) (m bw : Nat) : State :=
  let base := if bits bw 15 15 = 1 then none else some (bits bw 9 0)
  let s := s.distAudit 2 (leBytes 2 m ++ leBytes 2 m ++ leBytes 2 bw) []
  if base.any fun b => !s.mapRouted b then s.distStepDone 0x13 0 0
  else
    let j : RouteJob := { ring := noRing, idx := 0, src := m, dst := m, base := base, since := s.now,
                          gen := s.fab.failGen, remote := true }
    s.onFab fun f => { f with routes := f.routes ++ [j] }

/-- The next step of the set: MAP_LOAD and MAP_ROUTE of a map record, or BANK_LOAD; a busy map or bank is waited for. -/
def State.distNext (s : State) : State :=
  if !s.casc.distApply || (s.fab.routes.any (·.remote)) ||
      ([0, 1, 2, 3].any fun b => (s.bank b).remote && decide ((s.bank b).state = .loading)) then s
  else if s.distMaps ≤ s.casc.distStep then
    (if (s.bank s.casc.distBank).state = .loading then s else s.distBank)
  else
    let o := 64 + 296 * s.casc.distStep
    let m := leNat (rdBytes s.casc.distIn o 2)
    let bw := leNat (rdBytes s.casc.distIn (o + 2) 2)
    let base := if bits bw 15 15 = 1 then none else some (bits bw 9 0)
    let ports := rdBytes s.casc.distIn (o + 8) 288
    if 1024 ≤ m || bits bw 14 10 ≠ 0 then (s.distAudit 1 (leBytes 2 m) ports).distStepDone 1 0 0
    else if s.mapBusy m || (base.any fun b => s.mapRouting b) then s
    else
      let s := s.distAudit 1 (leBytes 2 m) ports
      if s.mapProtected m then s.distStepDone 0x11 0 0
      else
        let (st, s) := s.loadPorts m ports
        let s := s.distStepDone st 0 0
        if st = 0 then s.distRoute m bw else s

/-- Start applying a set received complete. -/
def State.distStart (s : State) : State :=
  (s.onCasc fun c => { c with distApply := true, distLocal := false, distStep := 0, distAt := none }).distNext

/-- A route computation of the set ends. -/
def State.distRouted (s : State) (st : Nat) : State :=
  if !s.casc.distApply then s.setResult s.casc.distSeq (BitVec.ofNat 8 st)
  else
    let s := s.distStepDone st 0 0
    if st = 0 then (s.onCasc fun c => { c with distStep := c.distStep + 1 }).distNext else s

/-- The routing engine ends a computation (R66). -/
def State.routeDone (s : State) : State :=
  match s.routeEnd with
  | (some (j, st), s) => if j.remote then s.distRouted st else s
  | (none, s) => s

def execRouteDone (dt : Nat) (s : State) : Host.Outcome State Fault Refusal := .next (s.onClock dt State.routeDone)

/-- The check of a bank ends, for a BANK_LOAD or for a set (R201, R308). -/
def State.bankLoadChecked (s : State) (b : Nat) : State :=
  let k := s.bank b
  if k.state = .loading && k.remote then
    let (v, s) := s.bankChecked b
    let s := s.setResult s.casc.distSeq (BitVec.ofNat 8 v.status)
    if !s.casc.distApply then s else s.distEnd v.status v.item v.index
  else s.loadDone b

def execBankLoadChecked (dt : Nat) (bank : Fin 4) (s : State) : Host.Outcome State Fault Refusal :=
  .next (s.onClock dt fun s => s.bankLoadChecked bank.val)

/-- OP 01h DISTRIBUTE at the manager. -/
def State.distribute (s : State) (r : Nat) (e : Entry) : State :=
  if !s.mayOrder then s.refuseRole r e 7
  else
    let p := rdBytes e.payload 0 32
    let set := rdBytes e.payload recordSize (lef p 24 4)
    let bank := byteAt p 8
    let slots := maskList (lef p 4 4) 32
    let s := s.finishCmd r e.idx 0 true
    let s := (slots.filter (· ≠ s.slotNum)).foldl (fun s k =>
      let j : DistJob := { slot := k, bank := bank, set := set }
      (s.onCasc fun c => { c with distOut := c.distOut.filter (·.slot ≠ k) ++ [j] }).sendChunks j 0) s
    if !(s.slotNum ∈ slots) then s
    else if s.casc.distApply then
      s.onCasc fun c => { c with distOut := c.distOut ++ [{ slot := s.slotNum, bank := bank, set := set }] }
    else (s.distTake bank set).distNext

def execConsistDistribute (ring : Fin 16) (s : State) : Host.Outcome State Fault Refusal :=
  .next (s.onPin fun s => s.consistCfg ring.val 1 fun s e => s.distribute ring.val e)

/-- First chunk that the target has not received. -/
def State.firstMissing (s : State) : Option Nat :=
  (List.range (s.casc.distLast + 1)).find? fun k => !(k ∈ s.casc.distGot)

/-- DIST_RESULT 01h: resend from chunk `n`. -/
def State.sendResend (s : State) (n : Nat) : State := s.sendBiarn 7 ([1#8, 0xFF#8, 0#8, 0#8] ++ beBytes 2 n)

/-- Ask for a resend from the first missing chunk: after three resends without progress the manager ends the
distribution at the next ask, and the target drops the set. -/
def State.askResend (s : State) (n : Nat) : State :=
  if 4 ≤ s.casc.distAsked then
    s.onCasc fun c => { c with distIn := [], distGot := [], distLast := 0, distAt := none, distAsked := 0 }
  else
    let t := s.now + msC 50
    (s.onCasc fun c => { c with distAsked := c.distAsked + 1, distAt := some t }).sendResend n

/-- A chunk for this slot is stored; after the last chunk the set is applied or the missing part asked for. While
another set is applied no chunk is stored, and the last one is answered with chunk 0 missing (assumption 67). -/
def State.chunkArrives (s : State) (h : BiarnHdr) : State :=
  let p := h.payload
  let n := bef p 2 2
  let last := bef p 4 2
  if !(h.consist = s.consistId && h.manages && !s.casc.mgrLost && byteAt p 0 = s.slotNum) then s
  else if s.casc.distApply then (if n = last then s.sendResend 0 else s)
  else
    let bank := byteAt p 1
    let same := s.casc.distAt.isSome && decide (s.casc.distBank = bank) && decide (s.casc.distLast = last) &&
      !(n = 0 && 0 ∈ s.casc.distGot)
    let s := if same then s else s.onCasc fun c => { c with distIn := [], distGot := [], distAsked := 0 }
    let fresh := !(n ∈ s.casc.distGot)
    let t := s.now + msC 50
    let s := s.onCasc fun c =>
      { c with distIn := wrBytes c.distIn (chunkSize * n) (p.drop 8), distGot := if fresh then n :: c.distGot else c.distGot,
               distAsked := if fresh then 0 else c.distAsked, distLast := last, distBank := bank, distAt := some t }
    if n ≠ last then s
    else match s.firstMissing with
      | some k => s.askResend k
      | none => s.distStart

def execDistData (dt : Nat) (lane : Fin 8) (frame : BiarnFrame) (s : State) : Host.Outcome State Fault Refusal :=
  .next (s.onClock dt fun s => s.biarnArrives lane.val 6 frame State.chunkArrives)

/-- 50 ms without a chunk; a step that waited for a busy map or bank is tried again. -/
def State.resendTimeout (s : State) : State :=
  if s.casc.distApply then s.distNext
  else if s.biarnUp && s.expired s.casc.distAt then s.askResend (s.firstMissing.getD 0)
  else s

def execDistResendTimeout (dt : Nat) (s : State) : Host.Outcome State Fault Refusal :=
  .next (s.onClock dt State.resendTimeout)

/-- A distribution to a slot is over. -/
def State.distOver (s : State) (slot : Nat) (data : List Byte) : State :=
  (s.onCasc fun c => { c with distOut := c.distOut.filter (·.slot ≠ slot) }).consistEvent 0x0C slot data

/-- DIST_RESULT at the manager: the result, or a resend, at most three without progress. -/
def State.resultArrives (s : State) (h : BiarnHdr) : State :=
  let p := h.payload
  match s.casc.distOut.find? (·.slot = h.slot) with
  | none => s
  | some j =>
    if !(s.casc.role.manages && h.consist = s.consistId) then s
    else if byteAt p 0 = 0 then s.distOver h.slot ((p.drop 1).take 2 ++ leBytes 2 (bef p 4 2))
    else
      let n := bef p 4 2
      let j := if j.missing < n then { j with missing := n, resends := 0 } else j
      if 3 ≤ j.resends then s.distOver h.slot [0xFF#8]
      else
        let j := { j with resends := j.resends + 1 }
        (s.onCasc fun c => { c with distOut := c.distOut.filter (·.slot ≠ h.slot) ++ [j] }).sendChunks j n

def execDistResult (dt : Nat) (lane : Fin 8) (frame : BiarnFrame) (s : State) : Host.Outcome State Fault Refusal :=
  .next (s.onClock dt fun s => s.biarnArrives lane.val 7 frame State.resultArrives)

/-! ### Swaps (R309) -/

/-- PATTERN_SWAP for a Biarn order: its status and boundary. -/
def State.orderSwap (s : State) (b t : Nat) : (Nat × Nat) × State :=
  let time := if t = 2 ^ 64 - 1 then none else some t
  let (st, at1) := s.swapCheck b time
  if st = 0 then ((0, ceilNs at1), s.setSwap b at1 none) else ((st, 0), s)

/-- Swap-result event (R317). -/
def State.swapEvent (s : State) (slot st at1 : Nat) : State :=
  s.consistEvent 0x0D slot ([BitVec.ofNat 8 st] ++ zeros 7 ++ leBytes 8 at1)

/-- Payload of a SWAP. -/
def swapPayload (scope bank t : Nat) : List Byte :=
  [BitVec.ofNat 8 scope, BitVec.ofNat 8 bank] ++ zeros 6 ++ beBytes 8 t

/-- OP 02h SWAP at the manager: T at least 20 ms ahead. -/
def State.consistSwap (s : State) (r : Nat) (e : Entry) : State :=
  let p := rdBytes e.payload 0 32
  let t := lef p 16 8
  if !s.mayOrder then s.refuseRole r e 7
  else if t = 2 ^ 64 - 1 || t < s.ns + 20000000 || s.ns + 2 ^ 39 < t then s.finishCmd r e.idx 8 false
  else
    let s := (s.finishCmd r e.idx 0 true).sendBiarn 8 (swapPayload (byteAt p 1) (byteAt p 8) t)
    let (q, s) := s.orderSwap (byteAt p 8) t
    s.swapEvent s.slotNum q.1 q.2

def execConsistSwap (ring : Fin 16) (s : State) : Host.Outcome State Fault Refusal :=
  .next (s.onPin fun s => s.consistCfg ring.val 2 fun s e => s.consistSwap ring.val e)

/-- SWAP_RESULT of a module. -/
def State.sendSwapResult (s : State) (q : Nat × Nat) : State :=
  s.sendBiarn 9 ([BitVec.ofNat 8 q.1] ++ zeros 7 ++ beBytes 8 q.2)

/-- SWAP at a member of the consist, or forwarded by a deputy for the whole train; each module answers. -/
def State.swapArrives (s : State) (h : BiarnHdr) : State :=
  let p := h.payload
  let b := byteAt p 1
  let t := bef p 8 8
  if h.consist = s.consistId && h.manages then
    if s.casc.mgrLost then s
    else
      let (q, s) := s.orderSwap b t
      s.sendSwapResult q
  else if byteAt p 0 = 1 && s.casc.role = .deputy && h.sender = s.casc.tmId.toNat then
    let s := s.sendBiarn 8 (swapPayload 1 b t)
    let (q, s) := s.orderSwap b t
    (s.swapEvent s.slotNum q.1 q.2).sendSwapResult q
  else s

def execSwap (dt : Nat) (lane : Fin 8) (frame : BiarnFrame) (s : State) : Host.Outcome State Fault Refusal :=
  .next (s.onClock dt fun s => s.biarnArrives lane.val 8 frame State.swapArrives)

/-- SWAP_RESULT at a manager. -/
def State.swapResultArrives (s : State) (h : BiarnHdr) : State :=
  if s.casc.role.manages && h.consist = s.consistId then s.swapEvent h.slot (byteAt h.payload 0) (bef h.payload 8 8)
  else s

def execSwapResult (dt : Nat) (lane : Fin 8) (frame : BiarnFrame) (s : State) : Host.Outcome State Fault Refusal :=
  .next (s.onClock dt fun s => s.biarnArrives lane.val 9 frame State.swapResultArrives)

end Sys2Proof.Machine
end

