-- ==== Sys2Proof/Machine/Internal.lean ====
section
/-! DEFINITION. The registers of the bus matrix, the DMA channels' registers and triggers, and the interrupt controller
(R352 to R372). The matrix itself is in Matrix.lean and the burst of a channel in DmaBurst.lean, since both may write
any register. -/

namespace Sys2Proof.Machine

/-- A write to the DMA_ or IRQ_ block: a host write acts only under a maker grant with TEST_EN active, and otherwise
sets HOST_WR_IGN (R372). -/
def State.internalWrite (s : State) (by_ : Nat) (f : State → State) : State :=
  if by_ = 2 then
    (if !s.hostUp then s else if s.makerOk then f s else s.setBit .sysBusmxStatus 0 31)
  else if s.core then f s else s

/-! ### Default target and remap -/

/-- The default target answers an access with an error (R352). -/
def State.defaultTarget (s : State) (master addr : Nat) (write : Bool) : State :=
  let b := { s.bus with master := BitVec.ofNat 3 master, dir := write, deftAddr := w32 addr,
                        deftCnt := satN (s.bus.deftCnt + 1) 0xFFFF }
  (({ s with bus := b }).setBit .sysBusmxStatus 0 30).fire 77 master

/-- A write of SYS_BUSMX_CTRL: only master 0 can write REMAP (R355). -/
def State.writeRemap (s : State) (by_ : Nat) (v : Word) : State :=
  if by_ = 0 && s.core then { s with bus.remapTo := some (bit v 0) } else s

/-- Requests are issued; between a write of REMAP and the switch those to the zero window are held (R355). -/
def State.issue (s : State) (l : List BusReq) : State :=
  let zero := fun (r : BusReq) => s.bus.remapTo.isSome && r.master = 0 && decide (r.addr < 0x200000)
  { s with bus := { s.bus with waiting := s.bus.waiting ++ l.filter fun r => !zero r
                               held := s.bus.held ++ l.filter zero } }

/-- What masters have put to the matrix by the time of an access is outstanding when it acts. -/
def State.meet (s : State) (a : BusAccess) : State := if s.core then s.issue a.others else s

/-- A row that a master's access makes. -/
def State.onBus (s : State) (a : BusAccess) (f : State → State) : State := s.onPin fun s => f (s.meet a)

def execRemapWrite (acc : BusAccess) (value : Word) (s : State) : Host.Outcome State Fault Refusal :=
  .next (s.onBus acc fun s => s.writeRemap acc.by_.val value)

/-! ### DMA channels -/

/-- The trigger code is refused at start, or names the channel itself (R356, R357 check 4). -/
def trigBad (n t : Nat) : Bool := (6 ≤ t && t ≤ 15) || 32 ≤ t || t = 16 + n

/-- Byte range of a side: first address and length (R361). -/
def sideRange (mode wrap base count : Nat) : Nat × Nat :=
  if mode = 1 then (base, 4) else if mode = 2 then (base - base % 2 ^ wrap, 2 ^ wrap) else (base, count)

def overlaps (a b : Nat × Nat) : Bool := a.1 < b.1 + b.2 && b.1 < a.1 + a.2

/-- The checks at start, in the order of WHY; 0 where all pass (R357). -/
def DmaCh.whyNot (c : DmaCh) (n : Nat) : Nat :=
  let src := c.src.toNat
  let dst := c.dst.toNat
  let circ := c.srcMode = 2 || c.dstMode = 2
  if src % 4 ≠ 0 || dst % 4 ≠ 0 || c.count % 4 ≠ 0 then 1
  else if c.count < 4 || 16777212 < c.count then 2
  else if c.srcMode = 3 || c.dstMode = 3 || (circ && (c.wrapLog < 4 || 24 < c.wrapLog)) ||
      c.burstLog < 2 || 8 < c.burstLog then 3
  else if trigBad n c.trig then 4
  else if circ && overlaps (sideRange c.srcMode c.wrapLog src c.count) (sideRange c.dstMode c.wrapLog dst c.count) then 5
  else 0

/-- The channel is armed with the transfer that its registers hold; a kept pulse is taken (R356, R358). -/
def DmaCh.arm (c : DmaCh) : DmaCh :=
  { c with busy := true, triggered := c.pendTrig && 16 ≤ c.trig, pendTrig := if 16 ≤ c.trig then false else c.pendTrig,
           curSrc := c.src.toNat, curDst := c.dst.toNat, total := c.count, left := c.count }

/-- START: CODE, WHY and LINKS clear, then the checks (R356, R357). -/
def DmaCh.start (c : DmaCh) (n : Nat) : DmaCh :=
  let c := { c with code := .none, why := 0#4, links := 0, dir := false }
  if c.whyNot n = 0 then c.arm else { c with code := .refused, why := BitVec.ofNat 4 (c.whyNot n) }

/-- A channel stops: COUNT reads the bytes not yet written (R365). -/
def DmaCh.halt (c : DmaCh) (code : DmaCode) : DmaCh :=
  { c with busy := false, triggered := false, code := code, count := c.left }

def ctrlMask : Word := 0x3FFE7F0F#32

/-- A write of DMA_CHnn_CTRL (R365): ABORT acts before START; a busy channel takes nothing else. -/
def State.writeDmaCtrl (s : State) (n : Nat) (v : Word) : State :=
  let c := s.dmac n
  if c.busy then
    (if bit v 30 then s.modDma n fun c => c.halt .aborted else s.setBit .dmaStatus n 24)
  else s.modDma n fun c =>
    let c := { c with ctrl := v &&& ctrlMask }
    if bit v 31 && !bit v 30 then c.start n else c

def execDmaStart (acc : BusAccess) (ch : Fin 16) (value : Word) (s : State) : Host.Outcome State Fault Refusal :=
  .next (s.onBus acc fun s => s.internalWrite acc.by_.val fun s => s.writeDmaCtrl ch.val value)

def execDmaAbort (acc : BusAccess) (ch : Fin 16) (value : Word) (s : State) : Host.Outcome State Fault Refusal :=
  .next (s.onBus acc fun s => s.internalWrite acc.by_.val fun s => s.writeDmaCtrl ch.val value)

/-- A write of SRC, DST, COUNT or LINK; ignored with WR_IGN on a busy channel. -/
def State.writeDmaReg (s : State) (n : Nat) (f : DmaCh → DmaCh) : State :=
  if (s.dmac n).busy then s.setBit .dmaStatus n 24 else s.modDma n f

/-- The completion pulse of channel `k` reaches every channel whose TRIG names it (R358, R364). -/
def State.pulseTo (s : State) (k : Nat) : State :=
  (List.range 16).foldl (fun s n =>
    let c := s.dmac n
    if c.trig ≠ 16 + k then s
    else if c.busy then s.modDma n fun c => { c with triggered := true }
    else s.modDma n fun c => { c with pendTrig := true }) s

/-- A request line changes its level, or a completion pulse arrives (R358). -/
def State.trigger (s : State) (t : Nat) (level : Bool) : State :=
  if !s.core then s
  else if 1 ≤ t && t ≤ 5 then
    let m := BitVec.ofNat 6 (2 ^ t)
    { s with dma.lines := if level then s.dma.lines ||| m else s.dma.lines &&& ~~~m }
  else if 16 ≤ t && t < 32 && level then s.pulseTo (t - 16)
  else s

def execDmaTrigger (trig : BitVec 6) (level : Bool) (s : State) : Host.Outcome State Fault Refusal :=
  .next (s.onPin fun s => s.trigger trig.toNat level)

/-! ### Interrupt controller -/

/-- A read of IRQ_CLAIM: master 0 claims; any other read changes nothing (R368, R372). -/
def State.readClaim (s : State) (by_ : Nat) : State :=
  if !s.core || (by_ = 2 && !s.hostUp) then s else
  match s.claim with
  | none => s.emit (.readData 0x4240 0#64)
  | some n =>
    let s := if by_ = 0 then s.modIrq n fun q => { q with active := true, pending := false } else s
    s.emit (.readData 0x4240 (BitVec.ofNat 64 (2 ^ 31 + n)))

def execIrqClaim (by_ : Master) (s : State) : Host.Outcome State Fault Refusal :=
  .next (s.onPin fun s => s.readClaim by_.val)

/-- A write of IRQ_COMPLETE (R369). -/
def State.completeIrq (s : State) (n : Nat) : State :=
  if (s.irqs n).active then
    s.modIrq n fun q => { q with active := false, pending := if q.sense = 0#2 then s.irqInput n else q.pending }
  else s

def execIrqComplete (by_ : Master) (value : Word) (s : State) : Host.Outcome State Fault Refusal :=
  .next (s.onPin fun s => s.internalWrite by_.val fun s => s.completeIrq (fld value 6 0))

/-- Software sets PENDING of the sources in a mask, or clears it, but for one set in this cycle (R7, R370). -/
def State.setPend (s : State) (k : Nat) (v : Word) (on : Bool) : State :=
  let v := if on then v else v &&& ~~~(s.marked (Reg.irqPend.addr k))
  (maskList v.toNat 32).foldl (fun s j => s.modIrq (32 * k + j) fun q => { q with pending := on }) s

def execIrqSetpend (by_ : Master) (k : Fin 4) (mask : Word) (s : State) : Host.Outcome State Fault Refusal :=
  .next (s.onPin fun s => s.internalWrite by_.val fun s => s.setPend k.val mask true)

def execIrqPendClear (by_ : Master) (k : Fin 4) (mask : Word) (s : State) : Host.Outcome State Fault Refusal :=
  .next (s.onPin fun s => s.internalWrite by_.val fun s => s.setPend k.val mask false)

/-- A write of IRQ_SRCnnn_CFG: EN, PRIO and SENSE; PENDING clears, but for one set in this cycle, and the edge detector
takes the present input (R7, R367). -/
def State.writeIrqCfg (s : State) (n : Nat) (v : Word) : State :=
  let new := bit (s.marked (Reg.irqPend.addr (n / 32))) (n % 32)
  s.modIrq n fun q => { q with en := bit v 31, sense := BitVec.ofNat 2 (fld v 30 29),
                               prio := BitVec.ofNat 4 (fld v 27 24), pending := q.pending && new, raw := s.irqInput n }

def execIrqSrcCfgWrite (by_ : Master) (src : Fin 128) (value : Word) (s : State) : Host.Outcome State Fault Refusal :=
  .next (s.onPin fun s => s.internalWrite by_.val fun s => s.writeIrqCfg src.val value)

/-- The supervisor watchdog is at half its time (R366). -/
def execWatchdogHalfTime (dt : Nat) (s : State) : Host.Outcome State Fault Refusal :=
  .next (s.onClock dt fun s =>
    if s.sup.available then s.irqPulse 88 else s)

end Sys2Proof.Machine
end

