-- ==== Sys2Proof/Machine/Faults.lean ====
section
/-! DEFINITION. The fault collector's commands: firings, the ends of conditions, ERR_N, the FLT registers and fault
injection (R334 to R343). -/

namespace Sys2Proof.Machine

/-- Level sources whose condition is part of this state, so that other commands raise and end them (R335): FAIL_QUIET,
TIME_HOLDOVER, PPS_IN_LOSS, RELPETY_CRC, TEST_EN_ACTIVE. -/
def ownCondition (n : Nat) : Bool := n ∈ [62, 63, 65, 71, 93]

/-- Index of the chamber or lane of a source's unit. -/
def Unit_.index (u : Unit_) : Option Nat :=
  match u with
  | .none => Option.none
  | .chamber n => some n
  | .lane n => some n

/-- What the monitors read with a supply, temperature or link fault: its DETAIL is the measured value (R335). A
CLOCK_FAULT with which the TCXO itself has stopped: the time unit enters FREE (R380). -/
def State.monitor (s : State) (n d : Nat) (stopped : Bool) : State :=
  if n = 83 then { s with pwr.tcase := BitVec.ofNat 8 d }
  else if n = 84 then { s with pwr.tdie := BitVec.ofNat 8 d }
  else if n = 85 ∨ n = 86 then { s with pwr.vin10mV := BitVec.ofNat 16 d }
  else if n = 79 then { s with pwr.linkL0 := false }
  else if n = 88 ∧ stopped then (s.onTime fun t => { t with xoStopped := true }).loseTime
  else s

/-- DETAIL of a firing: that of CASC_STACK is the position, and that of CLOCK_FAULT is 0 (R335). -/
def State.detailOf (s : State) (n d : Nat) : Nat :=
  if n = 95 then s.pwr.straps.slotId.toNat % 4 else if n = 88 then 0 else d

/-- A source's condition is detected (R334, R336). A broken trunk is one of a stack (R318). -/
def State.detect (s : State) (n d : Nat) (stopped : Bool) : State :=
  if !s.core || n = 94 || ownCondition n || (n = 95 && s.casc.role ≠ .stack) then s
  else if isLevelSource n then
    (s.monitor n d stopped).setLevel n true (s.detailOf n d) (unitOf n d).index
  else s.fire n d

def execFaultFire (dt : Nat) (src : Fin 96) (detail : BitVec 16) (stopped : Bool) (s : State) : Host.Outcome State Fault Refusal :=
  .next (s.onClock dt fun s => s.detect src.val detail.toNat stopped)

/-- PEWAKE_N is released when the link has trained (R387). -/
def State.linkUpAgain (s : State) : State :=
  { s with pwr := { s.pwr with linkL0 := true, pewake := none } }

/-- The condition of a level source ends (R334). -/
def State.conditionEnds (s : State) (n : Nat) : State :=
  if !isLevelSource n || ownCondition n then s
  else
    (if n = 79 then s.linkUpAgain else if n = 88 then s.onTime fun t => { t with xoStopped := false } else s).setLevel n false

def execLevelSourceEnd (dt : Nat) (src : Fin 96) (s : State) : Host.Outcome State Fault Refusal :=
  .next (s.onClock dt fun s => s.conditionEnds src.val)

/-- The ERR_N pulse ends; ERR_MODE decides what follows (R340). -/
def State.pulseEnds (s : State) : State :=
  if s.expired s.flt.pulseEnd then
    let hold := s.errMode = 1 || (s.errMode = 2 && !s.flt.relWritten)
    { s with flt := { s.flt with pulseEnd := none, errHeld := hold, relWritten := false } }
  else s

def execErrNPulseEnd (dt : Nat) (s : State) : Host.Outcome State Fault Refusal :=
  .next (s.onClock dt State.pulseEnds)

/-! ### Writes of the FLT registers -/

/-- FLT_STICKY_k: write 1 to clear, but for a bit set in this cycle (R7, R341); `finish` sets the bits of active level
sources again (R334). -/
def State.clearSticky (s : State) (k : Nat) (v : Word) : State :=
  let v := v &&& ~~~(s.marked (Reg.fltSticky.addr k))
  { s with flt.sticky := s.flt.sticky &&& ~~~(BitVec.ofNat 96 (v.toNat * 2 ^ (32 * k))) }

def execStickyClear (k : Fin 3) (mask : Word) (s : State) : Host.Outcome State Fault Refusal :=
  .next (s.onHost fun s => s.clearSticky k.val mask)

def execSeverityWrite (k : Fin 12) (value : Word) (s : State) : Host.Outcome State Fault Refusal :=
  .next (s.onHost fun s => s.protReg .fltSev k.val value)

/-- RELEASE: it acts in mode 10b, at once after the pulse or at the end of the pulse in force (R340). -/
def State.errRelease (s : State) : State :=
  if s.flt.pulseEnd.isSome then { s with flt.relWritten := true }
  else if s.errMode = 2 then { s with flt.errHeld := false } else s

/-- A level source with that chamber as its unit is active. -/
def State.chamberHeld (s : State) (h : Nat) : Bool :=
  [58, 59].any fun n => let q := s.fsrc n; q.conds.any (·.2 = some h) || (q.forced && q.forcedUnit = some h)

/-- The release of one chamber's park; the chamber then follows its POLICY (R342, R88). -/
def State.releasePark (s : State) (h : Nat) : State :=
  ({ s with flt.park := s.flt.park &&& ~~~(BitVec.ofNat 32 (2 ^ h)) }).followPolicy h

/-- A release that is refused sets RELEASE_REF (R342). -/
def State.refuseRelease (s : State) : State := s.setBit .fltStatus 0 28

/-- The park of a chamber, the isolation of a lane and PARK_ALL that began in this cycle: a release in it leaves them
(R7). -/
def State.newPark (s : State) (h : Nat) : Bool := bit (s.marked (Reg.fltPark.addr 0)) h
def State.newIsol (s : State) (l : Nat) : Bool := bit (s.marked (Reg.fltIsol.addr 0)) l
def State.newParkAll (s : State) : Bool := bit (s.marked (Reg.fltStatus.addr 0)) 29

/-- ALL_CLR (R342). -/
def State.allClr (s : State) : State :=
  if (List.range 96).any fun n => s.activeSrc n && decide (s.severity n = 4) then s.refuseRelease
  else
    (List.range 32).foldl (fun s h =>
      if !s.parked h || s.newPark h then s else if s.chamberHeld h then s.refuseRelease else s.releasePark h)
      { s with flt.parkedAll := s.flt.parkedAll && s.newParkAll }

/-- A write of FLT_CTRL: FORCE takes its bit, RELEASE and ALL_CLR act where written 1. -/
def State.writeFltCtrl (s : State) (v : Word) : State :=
  let s := s.putReg .fltCtrl 0 0 v
  let s := if bit v 31 then s.errRelease else s
  if bit v 29 then s.allClr else s

def execErrForce (value : Word) (s : State) : Host.Outcome State Fault Refusal :=
  .next (s.onHost fun s => s.writeFltCtrl value)

def execErrRelease (value : Word) (s : State) : Host.Outcome State Fault Refusal :=
  .next (s.onHost fun s => s.writeFltCtrl value)

def execAllClr (value : Word) (s : State) : Host.Outcome State Fault Refusal :=
  .next (s.onHost fun s => s.writeFltCtrl value)

/-- FLT_PARK: write 1 to release a chamber (R342). -/
def State.writePark (s : State) (v : Word) : State :=
  (maskList v.toNat 32).foldl (fun s h =>
    if !s.parked h || s.newPark h then s else if s.flt.parkedAll || s.chamberHeld h then s.refuseRelease else s.releasePark h) s

def execParkRelease (mask : Word) (s : State) : Host.Outcome State Fault Refusal :=
  .next (s.onHost fun s => s.writePark mask)


/-- FLT_ISOL: write 1 to release a lane (R342). -/
def State.writeIsol (s : State) (v : Word) : State :=
  (maskList v.toNat 8).foldl (fun s l =>
    if !s.isolated l || s.newIsol l then s
    else if s.flt.parkedAll || s.activeSrc (32 + l) then s.refuseRelease
    else { s with flt.isol := s.flt.isol &&& ~~~(BitVec.ofNat 8 (2 ^ l)) }) s

def execIsolationRelease (mask : Word) (s : State) : Host.Outcome State Fault Refusal :=
  .next (s.onHost fun s => s.writeIsol mask)

/-- The snapshot that FLT_SEL takes: FLT_INFO and FLT_INFO_TIME of a source; zeros above 95. -/
def State.fltSnap (s : State) (n : Nat) : State :=
  let x := s.fsrc n
  let v := if 96 ≤ n then 0 else
    x.count * 2 ^ 32 + x.detail.toNat * 2 ^ 16 + at_ x.injected 15 + at_ (s.activeSrc n) 14 + s.severity n * 2 ^ 11
  let t := if 96 ≤ n then 0#64 else x.time
  { s with flt := { s.flt with infoSnap := BitVec.ofNat 64 v, timeSnap := t } }

def State.writeFltSel (s : State) (v : Word) : State := (s.putReg .fltSel 0 0 v).fltSnap (fld v 6 0)

def execFltSel (value : Word) (s : State) : Host.Outcome State Fault Refusal :=
  .next (s.onHost fun s => s.writeFltSel value)

/-! ### Fault injection (R343) -/

def State.injectOnce (s : State) (n d : Nat) : State :=
  { s with flt.fireQ := s.flt.fireQ ++ [{ src := n, detail := d, injected := true }] }

/-- Hold a level source active until `until_`; it fires if it was not active. -/
def State.injectHold (s : State) (n d until_ : Nat) : State :=
  let was := s.activeSrc n
  let t := s.modFsrc n fun q =>
    { q with forced := true, forcedEnd := some until_, forcedUnit := (unitOf n d).index }
  if was then t else t.injectOnce n d

def State.injectEnd (s : State) (n : Nat) : State :=
  s.modFsrc n fun q => { q with forced := false, forcedEnd := none, forcedUnit := none }

/-- The FAULT_INJECT at the head of a ring, in the MODE given; it completes once its reactions are made. -/
def State.faultInject (s : State) (r mode : Nat) (act : State → List Byte → State) : State :=
  match s.readyHead r 0x5F with
  | none => s
  | some e =>
    if byteAt e.bytes 25 ≠ mode then s
    else ((act (s.begin_ r e.idx) e.bytes).drainFires 8).finishCmd r e.idx 0 true

def execFaultInject (ring : Fin 16) (s : State) : Host.Outcome State Fault Refusal :=
  .next (s.onPin fun s => s.faultInject ring.val 0 fun s b => s.injectOnce (byteAt b 24) (lef b 26 2))

def execFaultInjectHold (ring : Fin 16) (s : State) : Host.Outcome State Fault Refusal :=
  .next (s.onPin fun s => s.faultInject ring.val 1 fun s b =>
    s.injectHold (byteAt b 24) (lef b 26 2) (s.now + usC (lef b 28 4)))

def execFaultInjectEnd (ring : Fin 16) (s : State) : Host.Outcome State Fault Refusal :=
  .next (s.onPin fun s => s.faultInject ring.val 2 fun s b => s.injectEnd (byteAt b 24))

/-- A held injection ends after its DURATION. -/
def State.injectionEnds (s : State) (n : Nat) : State :=
  if s.expired (s.fsrc n).forcedEnd then s.injectEnd n else s

def execInjectionExpiry (dt : Nat) (src : Fin 96) (s : State) : Host.Outcome State Fault Refusal :=
  .next (s.onClock dt fun s => s.injectionEnds src.val)

end Sys2Proof.Machine
end

