-- ==== Sys2Proof/Machine/Roles.lean ====
section
/-! DEFINITION. Roles: register grants, keys, the audit log's reading and the entries that fall due (chapter 12, R18). -/

namespace Sys2Proof.Machine

/-! ### Grants (R328) -/

/-- The authentication block that SEC_GRANT_BLOCK holds. -/
def State.grantBlock (s : State) : List Byte :=
  (List.range 16).flatMap fun w => leBytes 4 (s.rg .secGrantBlock 0 w).toNat

/-- Audit entry of a grant request (R330); its ARG is the value written. -/
def grantEntry (blk : List Byte) (v : Word) (status : Nat) : AuditEntry :=
  { kind := 2#8, role := BitVec.ofNat 8 (byteAt blk 0), keyId := BitVec.ofNat 8 (byteAt blk 1),
    status := BitVec.ofNat 8 status, counter := BitVec.ofNat 64 (lef blk 8 8), source := 0x10#8, where_ := 0x2040#32,
    tag := (blk.drop 16).take 32, arg := leBytes 4 v.toNat }

/-- LAST_STATUS of SEC_GRANT_STATUS. -/
def State.setGrantStatus (s : State) (st : Nat) : State :=
  s.onSec fun c => { c with lastStatus := BitVec.ofNat 8 st }

/-- DURATION in s as it acts. -/
def State.grantSecs (s : State) : Nat := max (s.rf .secGrantCtrl 0 7 0) 1

/-- A grant takes force and replaces any other; `q` is the SEQ of its audit entry. -/
def State.giveGrant (s : State) (role : Role) (k q : Nat) : State :=
  s.onSec fun c => { c with grant := some { role := role, keyId := k, ends := s.now + secC s.grantSecs, audit := q },
                            grantOld := c.grant }

/-- The audit entry of the grant in force could not be written: the request is refused, and the grant that it replaced
stands (R326). -/
def State.refuseGrant (s : State) (q : Nat) : State :=
  match s.sec.grant with
  | some g =>
    if g.audit = q then
      (s.noteRefusal g.keyId).onSec fun c => { c with grant := c.grantOld, lastStatus := 0x50#8 }
    else s
  | none => s

/-- The request is checked under R326. -/
def State.requestGrant (s : State) (v : Word) (flashOk : Bool) : State :=
  let blk := s.grantBlock
  if !s.sup.available || s.sup.recovery then (s.holdAudit { grantEntry blk v 4 with result := 4#8 }).setGrantStatus 4
  else
    let (cr, s) := s.credCheck blk (s.ident ++ leBytes 4 v.toNat) fun r => r ≠ .operator
    let q := s.sec.auditSeq
    let s := s.writeAudit (grantEntry blk v cr.status) flashOk
    let st := if cr.status = 0 && !flashOk then 0x50 else cr.status
    let s := s.setGrantStatus st
    if st ≠ 0 then s.noteRefusal (byteAt blk 1)
    else match cr.role with
      | some role => s.giveGrant role (byteAt blk 1) q
      | none => s

def State.endGrant (s : State) : State := s.onSec fun c => { c with grant := none }

/-- A write of SEC_GRANT_CTRL: DURATION is taken, REVOKE ends the grant in force, and REQUEST asks for one. -/
def State.writeGrantCtrl (s : State) (v : Word) (flashOk : Bool) : State :=
  let s := s.putReg .secGrantCtrl 0 0 v
  let s := if bit v 30 then s.endGrant else s
  if bit v 31 then (s.irqPulse 86).requestGrant v flashOk else s

def execSecGrantRequest (dt : Nat) (value : Word) (flashOk : Bool) (s : State) : Host.Outcome State Fault Refusal :=
  .next ((s.pass dt).onHost fun s => s.writeGrantCtrl value flashOk)

def execRevoke (value : Word) (s : State) : Host.Outcome State Fault Refusal :=
  .next (s.onHost fun s => s.writeGrantCtrl value true)

/-- The grant's time has passed. -/
def State.grantExpires (s : State) : State := if s.sec.grant.isSome && !s.grantOk then s.endGrant else s

def execGrantExpiry (dt : Nat) (s : State) : Host.Outcome State Fault Refusal := .next (s.onClock dt State.grantExpires)

/-- A grant in maker role ends (R328, R415). -/
def State.endMakerGrant (s : State) : State :=
  match s.sec.grant with
  | some g => if g.role = .maker then s.endGrant else s
  | none => s

/-! ### Denied writes (R327) -/

/-- The entry that counts the denied writes; the manual gives its STATUS no value (assumption 3). -/
def State.deniedEntry (s : State) (n : Nat) : AuditEntry :=
  { kind := 4#8, source := 0x10#8, status := Config.freeByte s.free, old := w32 n }

/-- At most one entry per 100 ms. -/
def State.auditDenied (s : State) : State :=
  if s.sec.denied = 0 || (s.sec.deniedAt.isSome && !s.expired s.sec.deniedAt) then s
  else
    let t := s.recordOrHold (s.deniedEntry s.sec.denied) true
    t.tick.onSec fun c => { c with denied := 0, deniedAt := some (s.now + msC 100) }

def execDeniedWriteAudit (dt : Nat) (s : State) : Host.Outcome State Fault Refusal := .next (s.onClock dt State.auditDenied)

/-- SEC_KEY_SEL chooses the key whose LAST SEC_KEY_CTR returns (R429). -/
def execSecKeySel (value : Word) (s : State) : Host.Outcome State Fault Refusal :=
  .next (s.onHost fun s => s.putReg .secKeySel 0 0 value)

/-- 8 refusals under R326 within 10 s (R335). -/
def State.authBurst (s : State) : State :=
  if s.sec.refusals.length = 8 then
    (s.onSec fun c => { c with refusals := [] }).fire 92 s.sec.lastKeyId.toNat
  else s

def execAuthBurst (dt : Nat) (s : State) : Host.Outcome State Fault Refusal := .next (s.onClock dt State.authBurst)

/-! ### Waiting for the supervisor (R18) -/

/-- The head of a ring has waited 500 ms: the command is not executed, and the attempt is recorded later (R332). -/
def State.waitExpires (s : State) (r : Nat) : State :=
  match (s.ring r).entries with
  | e :: _ =>
    if e.state = .waitSup && e.done.isNone && s.expired (s.ring r).supWait then
      (s.holdAudit { cmdAudit r e 4 with result := 4#8 }).finishCmd r e.idx 4 false
    else s
  | [] => s

def execSupervisorWaitExpiry (dt : Nat) (ring : Fin 16) (s : State) : Host.Outcome State Fault Refusal :=
  .next (s.onClock dt fun s => s.waitExpires ring.val)

/-! ### Reading the log (R333) -/

/-- The valid entries that the log holds, oldest first. -/
def State.auditHeld (s : State) : List AuditEntry :=
  let k := s.sec.auditSeq % 65536
  let l := s.sec.audit.filter fun p => p.2.stored
  ((l.filter fun p => k ≤ p.1) ++ l.filter fun p => p.1 < k).map (·.2)

/-- A command that the supervisor carries out, at the head of a ring. -/
def State.supHead (s : State) (r op : Nat) : Option Entry := if s.sup.available then s.readyHead r op else none

def State.auditRead (s : State) (r : Nat) : State :=
  match s.supHead r 0x51 with
  | none => s
  | some e =>
    let l := s.auditHeld
    let out := (l.filter fun q => lef e.bytes 24 4 ≤ q.seq).take (lef e.bytes 28 2)
    let oldest := (l.head?.map (·.seq)).getD s.sec.auditSeq
    s.finishCmd r e.idx 0 true (leBytes 4 out.length ++ leBytes 4 oldest) 0
      (some (lef e.bytes 8 8, out.flatMap AuditEntry.bytes))

def execAuditRead (ring : Fin 16) (s : State) : Host.Outcome State Fault Refusal :=
  .next (s.onPin fun s => s.auditRead ring.val)

/-! ### Keys (R321 to R323) -/

/-- A KEY_SET whose record has operation `op`. -/
def State.keyCommand (s : State) (r op : Nat) (act : State → Entry → State) : State :=
  match s.supHead r 0x52 with
  | none => s
  | some e => if (rd e.payload 1).toNat = op then act s e else s

def xorBytes (a b : List Byte) : List Byte := List.zipWith (· ^^^ ·) a b

/-- The key that a record wraps under the key of the command's block. -/
def State.unwrap (s : State) (e : Entry) : List Byte :=
  let id := byteAt e.bytes 24
  xorBytes (rdBytes e.payload 16 32)
    (hmac (s.key (byteAt e.auth 1)).material (s.ident ++ (e.auth.drop 8).take 8 ++ [BitVec.ofNat 8 id]))

def keyCheckValue (k : List Byte) : List Byte := (hmac k (zeros 16)).take 16

/-- A flash operation begins for the command at the head of a ring. -/
def State.startFlash (s : State) (r i : Nat) (j : FlashJob) : State :=
  (s.begin_ r i).onFlash fun f => { f with pending := f.pending ++ [(j, r, i)] }

def State.keySet (s : State) (r : Nat) (e : Entry) : State :=
  let k := s.unwrap e
  if keyCheckValue k = rdBytes e.payload 48 16 then s.startFlash r e.idx (.key (byteAt e.bytes 24) (some k))
  else s.refuseRole r e 5

def execKeySet (ring : Fin 16) (s : State) : Host.Outcome State Fault Refusal :=
  .next (s.onPin fun s => s.keyCommand ring.val 0 fun s e => s.keySet ring.val e)

/-- The installer keys that are held and that no command is clearing. -/
def State.installerKeys (s : State) : List Nat :=
  ((List.range 16).map (16 + ·)).filter fun k =>
    (s.key k).held && !(s.flash.pending.any fun p => p.1 = .key k none)

/-- Key `k` is the last installer key (R323). -/
def State.lastInstaller (s : State) (k : Nat) : Bool := s.installerKeys = [k]

def State.keyClear (s : State) (r : Nat) (e : Entry) : State :=
  if s.lastInstaller (byteAt e.bytes 24) then s.refuseRole r e 7
  else s.startFlash r e.idx (.key (byteAt e.bytes 24) none)

def execKeyClear (ring : Fin 16) (s : State) : Host.Outcome State Fault Refusal :=
  .next (s.onPin fun s => s.keyCommand ring.val 1 fun s e => s.keyClear ring.val e)

end Sys2Proof.Machine
end

