-- ==== Sys2Proof/Machine/Images.lean ====
section
/-! DEFINITION. The supervisor's restarts and return, firmware images, and the flash operations of the commands (R17,
R287, R399 to R405). -/

namespace Sys2Proof.Machine

/-! ### The choice of an image (R400, R405) -/

/-- SYS_PROFILE_REQ as the boot ROM reads it from the store; 0 where the store fails its check. -/
def State.storedReq (s : State) : Word :=
  if s.flash.store.valid then tget (fun _ => 0#32) s.flash.store.regs (Reg.sysProfileReq.addr 0) else 0#32

/-- Revision that an image implements for the selected profile. -/
def State.imageRev (s : State) (k : Nat) : BitVec 16 :=
  if s.sup.profile = 1#2 then (s.img k).compatRev else (s.img k).nativeRev

/-- The slots that the boot ROM considers. -/
def State.bootable (s : State) (k : Nat) : Bool :=
  ((s.img k).state = .trial || (s.img k).state = .good) && (s.img k).checks

/-- Of some slots, the one with the highest ACT_SEQ. -/
def State.highestSeq (s : State) (l : List Nat) : Option Nat :=
  l.foldl (fun b k => match b with
    | some j => if (s.img j).actSeq < (s.img k).actSeq then some k else b
    | none => some k) none

/-- The slot that starts (R400); none where neither checks (R404). -/
def State.bootSlot (s : State) : Option Nat :=
  let l := [0, 1].filter s.bootable
  let req := fld s.storedReq 15 0
  let fit := if req = 0 then [] else l.filter fun k => (s.imageRev k).toNat = req
  s.highestSeq (if fit.isEmpty then l else fit)

/-- The supervisor starts from boot ROM: an image, or the recovery loader; the sender table is empty under a new EPOCH
(R300, R303), and REMAP is 1 (R391). -/
def State.startSupervisor (s : State) : State :=
  let b := s.bootSlot
  let slot := b.getD 0
  let trial := b.isSome && (s.img slot).state = .trial
  let s := s.onSup fun c =>
    { c with available := true, recovery := b.isNone, slot := BitVec.ofNat 1 slot,
             revLast := if b.isSome then s.imageRev slot else 0#16,
             trial := if trial then some (s.now + secC 60) else none }
  let s := s.onFlash fun f => { f with epoch := f.epoch + 1 }
  let s := s.onSec fun c => { c with recLast := [] }
  let s := s.onCasc fun c => { c with senders := [], txCount := 0#32 }
  { s with bus := { s.bus with remap := true, remapTo := none } }

/-! ### Restarts (R396, R399, R403) -/

/-- The matrix at a supervisor restart: REMAP clears (R355), and the transactions and locks of master 0 end with it
(assumption 64). -/
def BusMx.restart (b : BusMx) : BusMx :=
  { b with remap := false, remapTo := none, held := [], broken := false, waiting := b.waiting.filter (·.master ≠ 0),
           ports := tmapAll (fun _ => {}) b.ports fun p => { p with lock := none } }

/-- Registers of domain "module reset and supervisor restart" return to their reset values (R431). -/
def State.restartRegs (s : State) : State :=
  { s with irq := [], bus := s.bus.restart }

/-- Image writes in progress end with FLASH_FAIL, TAKEN 1, and their slots stay EMPTY (R399). -/
def State.abandonImages (s : State) : State :=
  let isImg := fun (p : FlashJob × Nat × Nat) => match p.1 with | .image _ _ => true | _ => false
  let l := s.flash.pending.filter isImg
  let s := s.onFlash fun f => { f with pending := f.pending.filter fun p => !isImg p }
  l.foldl (fun s p => s.finishCmd p.2.1 p.2.2 0x50 true) s

/-- The supervisor stops: what needs it waits (R17), and a closing summary that is due has 500 ms (R385). -/
def State.supervisorDown (s : State) : State :=
  let s := s.onSup fun c => { c with available := false, trial := none }
  let s := s.restartRegs.abandonImages
  if s.pwr.phase = .stabling && !s.pwr.closingDone then s.onPwr fun p => { p with closing := some (s.now + msC 500) } else s

/-- A restart of a GOOD image; the third within 60 s leaves the supervisor stopped (R399). -/
def State.countRestart (s : State) : State :=
  let l := s.now :: s.sup.restarts.filter fun t => s.now < t + secC 60
  s.onSup fun c => { c with restarts := l, stopped := decide (3 ≤ l.length) }

/-- A restart during trial; the third fails the slot, and the other starts under a new count (R403). -/
def State.countTrial (s : State) : State :=
  let k := s.sup.slot.toNat
  let s := s.modImg k fun g => { g with fails := g.fails + 1 }
  if 3 ≤ (s.img k).fails then
    (s.modImg k fun g => { g with state := .failed }).onSup fun c => { c with fallback := true, restarts := [] }
  else s

/-- The watchdog expires or the pair mismatches: `src` fires and `b` is the bit of SYS_RESET_CAUSE. The mismatch is
detected in hardware, and fires while the supervisor is away too (R336). The recovery loader runs no image, so its
restarts are not counted (R399, R403, R404). -/
def State.supervisorFails (s : State) (src b : Nat) : State :=
  if !s.sup.available then (if src = 67 && s.core then s.fire src else s)
  else
    let trial := (s.img s.sup.slot.toNat).state = .trial
    let s := (s.setBit .sysResetCause 0 b).fire src
    let s := if s.sup.recovery then s else if trial then s.countTrial else s.countRestart
    s.supervisorDown.event 17 (if s.sup.stopped then 0 else 1) 0

def execSupervisorWdt (dt : Nat) (s : State) : Host.Outcome State Fault Refusal :=
  .next (s.onClock dt fun s => s.supervisorFails 68 28)

def execLockstepMismatch (dt : Nat) (s : State) : Host.Outcome State Fault Refusal :=
  .next (s.onClock dt fun s => s.supervisorFails 67 27)

/-- A held item is written, with the time of its happening; the refusal of a command for want of the supervisor is
reported now, with its SEQ (R293, R332). -/
def State.writeHeldOne (s : State) (e : AuditEntry) : State :=
  let q := s.sec.auditSeq
  let s := s.appendAudit e true
  if e.kind = 1#8 && e.status = 4#8 then s.event 19 4 e.opcode.toNat (leBytes 4 q) else s

/-- The items held while the supervisor was away are written, then the count of those left out (R327, R332). -/
def State.writeHeld (s : State) : State :=
  let l := s.sec.held
  let n := s.sec.heldMissed
  let s := s.onSec fun c => { c with held := [], heldMissed := 0 }
  let s := l.foldl State.writeHeldOne s
  if n = 0 then s else (s.writeAudit { s.deniedEntry n with source := 0x12#8 } true).tick

/-- A command waits for the supervisor at the head of a ring. -/
def State.waitsForSup (s : State) (r : Nat) : Bool :=
  match (s.ring r).entries with
  | e :: _ => e.state = .waitSup && e.done.isNone
  | [] => false

/-- The rings whose heads wait for the supervisor, in the order in which they came to wait (R326). -/
def State.waitOrder (s : State) : List Nat :=
  ((List.range 16).filter s.waitsForSup).foldl
    (fun l r => insertBy (fun r => ((s.ring r).supWait.getD 0)) r l) []

/-- Commands that wait at their ring heads are checked now (R18, R326). -/
def State.resumeWaits (s : State) : State :=
  s.waitOrder.foldl (fun s r =>
    match (s.ring r).entries with
    | e :: _ =>
      ((s.modEntry r e.idx fun e => { e with state := .fetched }).modRing r fun g => { g with supWait := none }).drain r
    | [] => s) s

/-- What the return reports of an activation or a fallback (R401, R403). -/
def State.reportImage (s : State) : State :=
  let k := s.sup.slot.toNat
  let s := if s.sup.activating then s.event 20 1 k else s
  let s := if s.sup.fallback then (s.fire 73 k).event 20 2 k else s
  s.onSup fun c => { c with activating := false, fallback := false }

/-- The supervisor returns (R17, R303, R332). -/
def State.supervisorReturns (s : State) : State :=
  if s.sup.available || s.sup.stopped || !s.core then s
  else
    let s := s.startSupervisor
    let s := s.onCasc fun c => { c with distIn := [], distGot := [], distOut := [], distApply := false, distAt := none }
    let s := s.onPwr fun p => { p with closing := none }
    ((s.event 17 2 0).reportImage.writeHeld).resumeWaits

def execSupervisorReturn (dt : Nat) (s : State) : Host.Outcome State Fault Refusal :=
  .next (s.onClock dt State.supervisorReturns)

/-- 60 s without a restart: the TRIAL image is GOOD (R403). -/
def State.trialEnds (s : State) : State :=
  if s.sup.available && s.expired s.sup.trial then
    (s.modImg s.sup.slot.toNat fun g => if g.state = .trial then { g with state := .good } else g).onSup fun c =>
      { c with trial := none }
  else s

def execTrialEnd (dt : Nat) (s : State) : Host.Outcome State Fault Refusal := .next (s.onClock dt State.trialEnds)

/-! ### The IMAGE command (R400 to R402) -/

/-- An image as its slot keeps it: its bytes, and the fields of its header. -/
def imageSlot (m : Memory) : ImgSlot :=
  let h := rdBytes m 0 256
  { state := .valid, version := w32 (lef h 8 4), nativeRev := BitVec.ofNat 16 (lef h 12 2),
    compatRev := BitVec.ofNat 16 (lef h 14 2), length := lef h 16 4, digest := (h.drop 24).take 32, checks := true,
    image := some m }

/-- Header, digest and signature of an image of `n` bytes check (R400). -/
def imageOk (m : Memory) (n : Nat) : Bool :=
  let h := rdBytes m 0 256
  lef h 0 4 = 0x4B4E5946 && byteAt h 4 = 1 && allZero h 5 3 && lef h 16 4 = n && 4096 ≤ n && n ≤ 8388608 && n % 256 = 0 &&
    allZero h 20 4 && allZero h 120 136 && (h.drop 24).take 32 = sha256 (rdBytes m 256 (n - 256)) &&
    Config.imageSigned (h.take 56) ((h.drop 56).take 64)

/-- The supervisor runs this slot. -/
def State.runsSlot (s : State) (k : Nat) : Bool := s.sup.available && !s.sup.recovery && s.sup.slot.toNat = k

/-- IMAGE with operation `op`. -/
def State.imageCommand (s : State) (r op : Nat) (act : State → Entry → Nat → State) : State :=
  match s.supHead r 0x53 with
  | none => s
  | some e => if byteAt e.bytes 24 = op then act s e (byteAt e.bytes 25 % 2) else s

/-- OP 00h: the slot is erased and the image is programmed. -/
def State.imageWrite (s : State) (r : Nat) (e : Entry) (k : Nat) : State :=
  if s.runsSlot k || !imageOk e.payload (lef e.bytes 4 4) then s.finishCmd r e.idx 0x51 false
  else (s.modImg k fun _ => {}).startFlash r e.idx (.image k (imageSlot e.payload))

def execImageWrite (ring : Fin 16) (s : State) : Host.Outcome State Fault Refusal :=
  .next (s.onPin fun s => s.imageCommand ring.val 0 fun s e k => s.imageWrite ring.val e k)

/-- OP 01h: the slot is activated, the command completes, and the supervisor restarts onto it. -/
def State.imageActivate (s : State) (r : Nat) (e : Entry) (k : Nat) : State :=
  let g := s.img k
  let req := s.rf .sysProfileReq 0 15 0
  if !(g.state = .valid || g.state = .good) || (req ≠ 0 && (s.imageRev k).toNat ≠ req) then s.finishCmd r e.idx 0x51 false
  else
    let s := s.modImg k fun g =>
      { g with actSeq := (s.img (1 - k)).actSeq + 1, state := if g.state = .valid then .trial else g.state }
    let s := (s.finishCmd r e.idx 0 true).setBit .sysResetCause 0 26
    (s.onSup fun c => { c with activating := true }).supervisorDown.event 17 1 0

def execImageActivate (ring : Fin 16) (s : State) : Host.Outcome State Fault Refusal :=
  .next (s.onPin fun s => s.imageCommand ring.val 1 fun s e k => s.imageActivate ring.val e k)

def SlotState.code : SlotState → Nat
  | .empty => 0 | .valid => 1 | .trial => 2 | .good => 3 | .failed => 4

/-- The 64-byte status of a slot (R402). -/
def State.slotStatus (s : State) (k : Nat) : List Byte :=
  let g := s.img k
  [BitVec.ofNat 8 g.state.code, BitVec.ofNat 8 (at_ (s.runsSlot k) 0), BitVec.ofNat 8 g.fails, 0#8] ++ leBytes 4 g.actSeq ++
    leBytes 4 g.version.toNat ++ leBytes 2 g.nativeRev.toNat ++ leBytes 2 g.compatRev.toNat ++ leBytes 4 g.length ++
    (g.digest ++ zeros (32 - g.digest.length)).take 32 ++ zeros 12

def State.imageQuery (s : State) (r : Nat) (e : Entry) (k : Nat) : State :=
  s.finishCmd r e.idx 0 true [] 0 (some (lef e.bytes 8 8, s.slotStatus k))

def execImageQuery (ring : Fin 16) (s : State) : Host.Outcome State Fault Refusal :=
  .next (s.onPin fun s => s.imageCommand ring.val 2 fun s e k => s.imageQuery ring.val e k)

/-! ### The installer configuration store (R287) -/

/-- A register word that the store holds. LOOP_CHnn_PROFILE_IDX selects an index; the indices themselves are stored. -/
def storedWord (off : Nat) : Option Word :=
  match regAt off with
  | some (r, _, b) => if r.info.stored && r ≠ .loopProfileIdx then some (r.rwMask (b / 4)) else none
  | none => none

/-- The stored register words in force, without their sticky bits. -/
def State.storeRegs (s : State) : Tab Word :=
  s.regs.filterMap fun p => (storedWord p.1).map fun m => (p.1, p.2 &&& m)

/-- RATE, FEC and PREEMPT_EN of every lane. -/
def State.storeLanes (s : State) : Tab Nat :=
  (List.range 8).filterMap fun l =>
    let x := s.lane l
    let v := x.rate.toNat + at_ x.fec 2 + at_ x.preempt 3
    if v = 0 then none else some (l, v)

/-- Configuration bytes of the valid contexts. -/
def State.storeCtxs (s : State) : Memory :=
  s.sram.filterMap fun p =>
    let o := p.1 - ctxBase 0
    if ctxBase 0 ≤ p.1 && o < 4096 * 256 && o % 256 < 64 && ctxValid (s.ctx (o / 256)) then some (o / 256 * 64 + o % 256, p.2)
    else none

/-- What CFG_STORE writes; GENERATION rises by one when it has been written. -/
def State.storeImage (s : State) : CfgStore :=
  { valid := true, gen := 0, regs := s.storeRegs, laneCfg := s.storeLanes,
    profiles := s.loop.profiles.filter fun p => 512 ≤ p.1,
    indices := s.loop.cells.filterMap fun p =>
      let v := (p.2.mNext, p.2.oNext, p.2.bNext)
      if v = (0#8, 1#8, 2#8) then none else some (p.1, v),
    failed := s.fab.failed.filter (·.src = .installer), contexts := s.storeCtxs, keys := s.flash.store.keys }

def State.cfgStore (s : State) (r : Nat) : State :=
  match s.supHead r 0x50 with
  | none => s
  | some e => s.startFlash r e.idx (.store s.storeImage)

def execCfgStore (ring : Fin 16) (s : State) : Host.Outcome State Fault Refusal :=
  .next (s.onPin fun s => s.cfgStore ring.val)

/-! ### The end of a flash operation -/

/-- A job is of the kind of an operation. -/
def FlashJob.isOp (j : FlashJob) (op : FlashOp) : Bool :=
  match j, op with
  | .store _, .cfgStore => true
  | .image _ _, .imageWrite => true
  | .key _ _, .keySet => true
  | _, _ => false

/-- Flash block of a job (R26, R335). -/
def FlashJob.block : FlashJob → Nat
  | .store _ => 0x140
  | .image k _ => 0x80 * k
  | .key id _ => if id < 16 then 0x100 else 0x140

/-- A key is set, with LAST 0, or cleared (R321, R323); flash and the supervisor's table agree. -/
def State.putKey (s : State) (id : Nat) (m : Option (List Byte)) : State :=
  let q : Key := match m with
    | some k => { material := k, last := 0#64, held := true }
    | none => {}
  let put := fun (t : Tab Key) => tset (fun _ => {}) t id q
  let s := s.modKey id fun _ => q
  let s := s.onFlash fun f => { f with lasts := tset (fun _ => 0#64) f.lasts id 0#64,
                                       lastsOld := tset (fun _ => 0#64) f.lastsOld id 0#64 }
  if id < 16 then s.onRelpety fun r => { r with keys := put r.keys }
  else s.onFlash fun f => { f with store := { f.store with keys := put f.store.keys } }

/-- Flash may take the job: the Relpety record is written with TEST_EN active only (R27). -/
def State.mayWrite (s : State) : FlashJob → Bool
  | .key id _ => s.pwr.testEn || 16 ≤ id
  | _ => true

/-- The job has been written and read back; RES of its command. -/
def State.jobWritten (s : State) : FlashJob → State × List Byte
  | .store c =>
    let g := s.flash.store.gen + 1
    (s.onFlash fun f => { f with store := { c with gen := g, keys := f.store.keys } }, leBytes 4 g)
  | .image k g => ((s.modImg k fun _ => g).event 20 0 k, [])
  | .key id m => (s.putKey id m, [])

/-- The oldest operation of a kind ends. -/
def State.jobEnds (s : State) (op : FlashOp) (ok : Bool) : State :=
  match s.flash.pending.find? fun p => p.1.isOp op with
  | none => s
  | some (j, r, i) =>
    if !s.sup.available then s
    else
      let s := (s.irqPulse 85).onFlash fun f => { f with pending := f.pending.erase (j, r, i) }
      if !ok then (s.fire 69 j.block).finishCmd r i 0x50 false
      else if !s.mayWrite j then s.finishCmd r i 0x50 false
      else
        let (t, res) := s.jobWritten j
        t.finishCmd r i 0 true res

/-- The command whose audit entry could not be written completes with FLASH_FAIL, and nothing is executed (R326). -/
def State.refuseUnaudited (s : State) (seq : Nat) : State :=
  (List.range 16).foldl (fun s r =>
    match (s.ring r).entries with
    | e :: _ =>
      if e.state = .ready && e.done.isNone && e.audit = some seq then
        ((s.noteRefusal (byteAt e.auth 1)).event 19 0x50 (byteAt e.bytes 0) (leBytes 4 seq)).finishCmd r e.idx 0x50 false
      else s
    | [] => s) s

/-- The write of the newest audit entry fails: its position holds no valid entry, LAST waits for the next one, and
nothing of what it records is executed (R325, R326, R329). -/
def State.auditFails (s : State) : State :=
  let q := s.sec.auditSeq - 1
  if s.sec.auditSeq = 0 || !(s.audit q).stored then s
  else
    let s := s.onSec fun c => { c with audit := tmod (fun _ => {}) c.audit (q % 65536) fun e => { e with stored := false } }
    let s := s.onFlash fun f => { f with lasts := f.lastsOld }
    ((s.fire 69 ((0x2400000 + 256 * (q % 65536)) / 65536)).refuseUnaudited q).refuseGrant q

/-- The write of an audit entry has ended. -/
def State.auditDone (s : State) (ok : Bool) : State :=
  let s := if s.core && s.sec.auditSeq ≠ 0 then s.irqPulse 85 else s
  if ok then s else s.auditFails

/-- A flash operation ends well or fails; interrupt source 85 pulses (R366). -/
def State.flashDone (s : State) (op : FlashOp) (ok : Bool) (rest : State → State) : State :=
  match op with
  | .auditEntry => s.auditDone ok
  | .wearSummary => (if s.pwr.phase = .stabling then rest s else s).summaryWritten ok
  | _ => s.jobEnds op ok

end Sys2Proof.Machine
end

