-- ==== Sys2Proof/Machine/Power.lean ====
section
/-! DEFINITION. Power-up, resets, the host function, stabling and wake, and the SMBus target (R45, R271, R272, R373 to
R396, R411 to R417, R424, R431). -/

namespace Sys2Proof.Machine

/-! ### Register domains (R431) -/

/-- Stored words of the registers of domain FLR return to their reset values. -/
def flrWord (off : Nat) : Bool :=
  match regAt off with
  | some (r, _, _) => r.info.dom = .flr
  | none => false

/-- Registers of domain power-up only. -/
def powerUpWord (off : Nat) : Bool :=
  match regAt off with
  | some (r, _, _) => r.info.dom = .powerUp
  | none => false

/-- Each selector that a reset returned to 0 takes the snapshot of selection 0 (R429). -/
def State.snapSelectors (s : State) : State :=
  let s := s.onFab fun f => { f with dripSnap := s.dripWord 0 }
  let s := (List.range 32).foldl (fun s h => s.modChan h fun k => { k with snap := s.loopSnap (64 * h) }) s
  (s.fltSnap 0).strSnapshot 0

/-- The host's side after a function-level reset, PERST_N or stabling: domain FLR, the held words of 8-byte registers,
MSI-X, the grant (R328, R425, R428, R431). -/
def State.hostRegs (s : State) : State :=
  let s := { s with regs := s.regs.filter fun p => !flrWord p.1 }
  let s := { s with latch := [], lowHeld := [] }
  let s := { s with msixTab := [], msixPba := 0#64 }
  let s := s.onSec fun c => { c with grant := none, lastStatus := 0#8 }
  (s.onFab fun f => { f with histOff := 0, histLap := 0 }).snapSelectors

/-- The effect of a function-level reset on the rings and the host's registers (R19, R271). The PCI Express Command
register and power state return to their reset values too (assumption 14). -/
def State.hostReset (s : State) : State :=
  s.disableRings.hostRegs.onPwr fun p => { p with bme := false, d3hot := false }

/-! ### Loading at the start (R391 to R395) -/

/-- An empty module but for what flash, the pins and the always-on part keep. -/
def State.blank (s : State) : State :=
  { pending := s.pending, out := s.out, free := s.free, flash := { s.flash with pending := [] },
    pwr := { s.pwr with phase := .reset, endpointReady := false, bme := false, d3hot := false, linkL0 := false,
                        wakeCause := 0#3, xoKept := false, stableTime := 0#32, stabledAt := 0, wakeTimer := none,
                        wakeLatched := none, closing := none, closingDone := false, pewake := none, clkreq := false,
                        errHeldAtStabling := false },
    sec := { audit := s.sec.audit, auditSeq := s.sec.auditSeq, held := s.sec.held, heldMissed := s.sec.heldMissed },
    sup := { revLast := s.sup.revLast, startedOnce := s.sup.startedOnce },
    fab := { summaries := s.fab.summaries, sumSeq := s.fab.sumSeq },
    flt := { src := s.flt.src.filterMap fun p =>
              if p.2.active && !ownCondition p.1 && p.1 ≠ 79 then some (p.1, { active := true, conds := p.2.conds }) else none },
    regs := s.regs.filter fun p => powerUpWord p.1, tap := s.tap }

/-- A stored register word goes to its register; a word that no store holds is left out (R287, R395). -/
def loadWord (t : Tab Word) (p : Nat × Word) : Tab Word :=
  match regAt p.1, storedWord p.1 with
  | some (r, i, b), some m =>
    let d := r.resetWord i (b / 4)
    tset (fun _ => d) t p.1 ((d &&& ~~~m) ||| (p.2 &&& m))
  | _, _ => t

/-- Registers, keys, profiles, loop indices, lanes and polarity interval come from the store and the Relpety record. -/
def State.loadStore (s : State) : State :=
  let c : CfgStore := if s.flash.store.valid then s.flash.store else { valid := false, keys := [] }
  let r : Relpety := if s.flash.relpety.valid then s.flash.relpety else { valid := false, keys := [], profiles := [] }
  let s := { s with regs := c.regs.foldl loadWord s.regs }
  let s := s.onFlash fun f =>
    if f.store.valid then f
    else { f with store := { f.store with keys := [] }, lasts := f.lasts.filter (·.1 < 16),
                  lastsOld := f.lastsOld.filter (·.1 < 16) }
  let s := s.onSec fun q => { q with keys := (r.keys ++ c.keys).map fun p =>
    (p.1, { p.2 with last := tget (fun _ => 0#64) s.flash.lasts p.1 }) }
  let s := s.onLoop fun l => { l with profiles := r.profiles ++ c.profiles }
  let s := c.indices.foldl (fun s p => s.modCell p.1 fun x => { x with midx := p.2.1, oidx := p.2.2.1, bidx := p.2.2.2 }) s
  let s := c.laneCfg.foldl (fun s p => s.modLane p.1 fun x =>
    { x with rate := BitVec.ofNat 2 (bits p.2 1 0), fec := p.2.testBit 2, preempt := p.2.testBit 3 }) s
  let s := s.onLoop fun l => { l with polNext := s.rf .fabPolCfg 0 15 0 }
  if s.flash.store.valid then s else s.fire 72

/-- One entry of the failed-cell list as it is loaded: a cell listed already is skipped, and one beyond the sixteenth is
not listed (R50, R52). -/
def State.loadFailed (s : State) (f : FailEntry) : State :=
  if (s.failed f.cell).isSome then s
  else if s.fab.failed.length < 16 then s.onFab fun b => { b with failed := b.failed ++ [f] }
  else (s.setBit .fabFailStatus 0 5).fire 51 f.cell

/-- The failed-cell list: the factory entries, then the installer entries (R50). -/
def State.loadFailedList (s : State) : State :=
  let l := (if s.flash.relpety.valid then s.flash.relpety.failed else []) ++
    (if s.flash.store.valid then s.flash.store.failed else [])
  let s := l.foldl State.loadFailed s
  if s.flash.relpety.valid then s else s.setLevel 71 true

/-- The stored stream contexts, each valid with its state cleared (R395). -/
def State.loadContexts (s : State) : State :=
  let m : Memory := if s.flash.store.valid then s.flash.store.contexts else []
  let s := { s with sram := m.map fun (p : Nat × Byte) => (ctxBase (p.1 / 64) + p.1 % 64, p.2) }
  s.ctxList.foldl (fun s x =>
    let c := s.ctx x
    let t := s.firstCredit c
    s.modStream x fun q => { q with credits := ctxPolBurst c, creditAt := t }) s

/-- The summary with the highest SEQ, and the one before it (R154). -/
def lastSummaries (t : Tab WearSummary) : Option WearSummary × Option WearSummary :=
  t.foldl (fun b p => match b with
    | (some a, c) =>
      if a.seq < p.2.seq then (some p.2, some a)
      else (match c with
        | some d => if d.seq < p.2.seq then (some a, some p.2) else b
        | none => (some a, some p.2))
    | (none, c) => (some p.2, c)) (none, none)

/-- The counts after a summary that is not CLOSING: what each element made since the one before is added (R154). -/
def carriedCounts (a b : WearSummary) : Tab Nat :=
  a.counts.map fun p => (p.1, satN (p.2 + (p.2 - tget (fun _ => 0) b.counts p.1)) (2 ^ 48 - 1))

/-- Drift results of a summary as the working calibration takes them (R144, R155). -/
def summaryDrift (a : WearSummary) : Tab CalOffset :=
  a.drift.map fun (p : Nat × Int × Int × Int × Int × Nat) =>
    (p.1, { posBar := p.2.1 * 256, posCross := p.2.2.1 * 256, drvBar := p.2.2.2.1 * 1024, drvCross := p.2.2.2.2.1 * 1024,
            stiff := p.2.2.2.2.2 })

/-- Wear levels that the loaded counts have reached already. -/
def loadedLevels (t : Tab Nat) : Tab Nat :=
  t.filterMap fun (p : Nat × Nat) => let k := min (wearLevelOf p.2) 3; if k = 0 then none else some (p.1, k)

/-- The latest wear summary is loaded, and the timer of the next one starts (R144, R153, R154). -/
def State.loadSummary (s : State) : State :=
  let s := s.onFab fun f => { f with sumTimer := some (s.now + s.sumCycles) }
  match lastSummaries s.fab.summaries with
  | (none, _) => s
  | (some a, b) =>
    let add := !a.closing && b.isSome
    let n := match b with
      | some q => if a.closing then a.counts else carriedCounts a q
      | none => a.counts
    let s := s.onFab fun f => { f with drips := n, firsts := a.first, wearSeen := loadedLevels n,
                                       estimated := a.estimated || add, sumSeq := a.seq + 1 }
    s.onLoop fun l => { l with calOff := summaryDrift a }

/-- A break in the audit log fires AUDIT_CHAIN with the SEQ of the entry that was not written (R329, R335). -/
def State.checkLog (s : State) : State :=
  match s.sec.audit.find? fun p => !p.2.stored with
  | some p => s.fire 70 (p.2.seq % 65536)
  | none => s

/-- The start entry (R329, R330). -/
def State.startEntry (s : State) : AuditEntry :=
  { kind := 6#8, source := 0x12#8,
    start := leBytes 2 s.sup.revLast.toNat ++ [BitVec.ofNat 8 s.sup.slot.toNat, BitVec.ofNat 8 (at_ s.pwr.testEn 0)] }

/-- The profile that PROFILE_SEL selects (R405). -/
def State.chooseProfile (s : State) : BitVec 2 :=
  match s.pwr.straps.profileSel.toNat with
  | 1 => 1#2
  | 2 => if fld s.storedReq 17 16 = 1 then 1#2 else 0#2
  | _ => 0#2

/-- Conditions of level sources that still hold are found again, with their DETAIL (R334), and the link is not yet
trained (R335). -/
def State.refireLevels (s : State) : State :=
  let l := (s.flt.src.filter (·.2.active)).flatMap fun p => p.2.conds.map fun c => (p.1, c)
  let s := l.foldl (fun s q => s.fire q.1 q.2.1 q.2.2) s
  (s.setLevel 93 s.pwr.testEn).setLevel 79 (!s.pwr.linkL0)

/-- The start sequence up to endpoint-ready, from t0 on (R391 to R395). -/
def State.startSequence (s : State) : State :=
  let s := s.onPwr fun p => { p with phase := .starting, straps := p.strapPins, clkreq := true }
  let s := s.onTime fun t => { t with running := true }
  let s := s.onSup fun c => { c with profile := s.chooseProfile, startedOnce := true }
  let s := s.startSupervisor
  let s := s.loadStore.loadFailedList.loadContexts
  let s := s.loadSummary.checkLog
  let s := if s.sup.profile = 1#2 then s.onCasc fun c => { c with role := .stack } else s
  let s := (s.writeHeld.writeAudit s.startEntry true).refireLevels
  let s := (s.sourceWritten 0).ppsLevel
  s.followPolicies.snapSelectors

/-- Module reset and the start that follows it at once; `b` is the bit of SYS_RESET_CAUSE. -/
def State.moduleReset (s : State) (b : Nat) : State := (s.blank.setBit .sysResetCause 0 b).startSequence

/-! ### Power-up and resets (R45, R374, R391, R394, R407) -/

/-- VIN has been in range for 10 ms with RST_N high. -/
def State.powerUp (s : State) (st : Straps) (vin : BitVec 16) : State :=
  if s.pwr.phase = .unpowered || (s.pwr.phase = .reset && s.pwr.rstN) then
    let s := s.blank
    let s := { s with regs := [], sup := {}, tap := {}, flt := {} }
    let s := s.onSec fun c => { c with held := [], heldMissed := 0 }
    let s := s.onPwr fun p => { p with strapPins := st, vin10mV := vin, rstN := true }
    s.startSequence
  else s

def execPowerUp (straps : Straps) (vin10mV : BitVec 16) (s : State) : Host.Outcome State Fault Refusal :=
  .next (s.onPin fun s => s.powerUp straps vin10mV)

/-- VIN has been below 8.5 V for 50 µs, or a rail fails: the module stops. -/
def State.vinDrops (s : State) : State :=
  if s.pwr.phase = .unpowered then s
  else
    let s := s.blank
    let s := { s with regs := [], sup := {}, tap := {}, flt := {} }
    let s := s.onSec fun c => { c with held := [], heldMissed := 0 }
    s.onPwr fun p => { p with phase := .unpowered }

def execVinDropOut (s : State) : Host.Outcome State Fault Refusal := .next (s.onPin State.vinDrops)

/-- RST_N is recognised low. -/
def State.rstLow (s : State) : State :=
  if s.pwr.phase = .unpowered then s.onPwr fun p => { p with rstN := false }
  else (s.blank.setBit .sysResetCause 0 30).onPwr fun p => { p with rstN := false }

def execRstNAssert (s : State) : Host.Outcome State Fault Refusal := .next (s.onPin State.rstLow)

/-- RST_N is released: the start sequence begins from t0. -/
def State.rstHigh (s : State) : State :=
  if s.pwr.rstN then s
  else
    let s := s.onPwr fun p => { p with rstN := true }
    if s.pwr.phase = .reset then s.startSequence else s

def execRstNRelease (s : State) : Host.Outcome State Fault Refusal := .next (s.onPin State.rstHigh)

/-- SYS_CTRL.MODRST under a grant: the audit entry, then a module reset. -/
def State.writeSysCtrl (s : State) (v : Word) : State :=
  s.protWrite (Reg.sysCtrl.addr 0) 0#32 (v &&& 0x80000000#32) fun s => if bit v 31 then s.moduleReset 29 else s

def execModrst (value : Word) (s : State) : Host.Outcome State Fault Refusal :=
  .next (s.onHost fun s => s.writeSysCtrl value)

/-! ### The host function (R271, R272, R392, R424) -/

/-- ERR_N at the end of a wake, as at the end of a pulse (R417). -/
def State.wakeErr (s : State) : State :=
  let hold := (s.errMode = 1 && s.errSticky) || (s.errMode = 2 && s.pwr.errHeldAtStabling)
  s.onFlt fun f => { f with pulseEnd := none, relWritten := false, errHeld := hold }

/-- Endpoint-ready ends the start or the wake, once PERST_N is high (R392, R394). -/
def State.becomeReady (s : State) : State :=
  if (s.pwr.phase = .starting || s.pwr.phase = .waking) && s.pwr.perstN then
    let s := if s.pwr.phase = .waking then s.wakeErr else s
    (s.onPwr fun p => { p with phase := .running, endpointReady := true }).emit .deviceReadiness
  else s

def execEndpointReady (dt : Nat) (s : State) : Host.Outcome State Fault Refusal := .next (s.onClock dt State.becomeReady)

/-- PERST_N is asserted: the host interface is reset; circuits, time and schedule run on. -/
def State.perstLow (s : State) : State :=
  let s := s.onPwr fun p => { p with perstN := false, linkL0 := false }
  if s.core then (s.setLevel 79 true).hostReset else s

def execPerstNAssert (s : State) : Host.Outcome State Fault Refusal := .next (s.onPin State.perstLow)

def State.functionReset (s : State) : State := if s.hostUp || s.pwr.d3hot then s.hostReset else s

def execFunctionLevelReset (s : State) : Host.Outcome State Fault Refusal := .next (s.onPin State.functionReset)

/-- A message that waited while the module could not write host memory goes out (R272, R273). -/
def State.resumeMsg (s : State) (r : Nat) : State :=
  let g := s.ring r
  if g.msgDue && g.holdoff.isNone && s.bmeUp then (s.modRing r fun g => { g with msgDue := false }).ringMsg r else s

/-- The rings resume: completions, messages and events that waited go out (R272). -/
def State.resumeRings (s : State) : State :=
  (s.rings.map (·.1)).foldl (fun s r => (if isEvent r then s.flushEvents 34 r else s.drain r).resumeMsg r) s

def State.setBme (s : State) (on : Bool) : State :=
  let s := if s.hostUp || s.pwr.d3hot then s.onPwr fun p => { p with bme := on } else s
  s.resumeRings

def execBusMasterEnableClear (s : State) : Host.Outcome State Fault Refusal := .next (s.onPin fun s => s.setBme false)

def execBusMasterEnableSet (s : State) : Host.Outcome State Fault Refusal := .next (s.onPin fun s => s.setBme true)

def execD3hotEntry (s : State) : Host.Outcome State Fault Refusal :=
  .next (s.onPin fun s => if s.hostUp then s.onPwr fun p => { p with d3hot := true } else s)

def execD0Return (s : State) : Host.Outcome State Fault Refusal :=
  .next (s.onPin fun s => (s.onPwr fun p => { p with d3hot := false }).resumeRings)

/-! ### Stabling (R382 to R385) -/

/-- Every staged cell is to revert: no change comes next (R85). -/
def State.dropStaging (s : State) : State :=
  s.onLoop fun l => { l with cells := l.cells.map fun p =>
    (p.1, if p.2.staged then { p.2 with revertDue := true } else p.2) }

/-- The running bank ends at its next row boundary; what waits to start does not start. -/
def State.stableSched (s : State) : State :=
  let s := s.onSched fun c => { c with stopAt := c.run.map (·.next) }
  match s.sched.start with
  | some q => { s with sched.start := none }.modBank q.bank fun b => { b with state := .valid }
  | none => s

/-- STABLE_REQ_N has been held low for 10 ms. -/
def State.stable (s : State) : State :=
  if (s.pwr.phase = .running || s.pwr.phase = .starting) && s.pwr.stableReqN then
    let held := s.errMode = 2 && (s.flt.errHeld || (s.flt.pulseEnd.isSome && !s.flt.relWritten))
    let s := ((s.setLevel 79 true).hostReset).endTest true
    let s := s.onPwr fun p =>
      { p with phase := .stabling, stableReqN := false, endpointReady := false, linkL0 := false, wakeLatched := none,
               closingDone := false, errHeldAtStabling := held,
               closing := if s.sup.available then none else some (s.now + msC 500) }
    (s.stableSched.dropStaging).askSummary true
  else s.onPwr fun p => { p with stableReqN := false }

def execStabling (dt : Nat) (s : State) : Host.Outcome State Fault Refusal := .next (s.onClock dt State.stable)

/-- The fabric is at rest: the bank has ended, every chamber is OFF, and no map is in force. -/
def State.stableFabric (s : State) : State :=
  let s := s.endBank s.ns
  let s := s.onFab fun f => { f with change := none, verify := none, waiting := [], applies := [], armedEntry := none,
                                     casts := [], routes := [], inForce := none }
  (List.range 32).foldl (fun s h =>
    if s.pstate h = .off then s
    else (((s.restChamber h).stopTrace h).setPstate h .off).modChamber h fun _ => {}) s

/-- A lane that powers down keeps its configuration, shapers and counters. -/
def Lane.powerOff (x : Lane) : Lane :=
  { x with queues := [], cur := none, rest := [], blockLock := false, fecLock := false, linkUp := false,
           lockTimer := none, verify := 0#2, verifyTries := 0, verifyTimer := none, resetWait := false,
           resetTill := none, connBusy := false }

/-- Lanes whose link goes down have LINK_CHG set and are counted in LINK_DOWN (R221, R248). -/
def State.dropLinks (s : State) : State :=
  (List.range 8).foldl (fun s l => if (s.lane l).linkUp then (s.setBit .eptStatus l 28).laneCnt l 15 1 else s) s

/-- No light on any lane: queued and paced frames are discarded, and locks and link delays are lost. -/
def State.stableLanes (s : State) : State :=
  let s := s.dropLinks.onEpt fun e =>
    { e with lanes := tmapAll (fun _ => {}) e.lanes Lane.powerOff,
             streams := tmapAll (fun _ => {}) e.streams fun q => { q with paced := [], lastRelease := none },
             wheel := [], ovfl := [] }
  s.onTime fun t => { t with delays := [], insts := tmapAll (fun _ => {}) t.insts fun k => { theta := k.theta }, ppsValid := false, ppsLast := none, ppsOut := false,
                             ppsOutEnd := none, step := none }

/-- The period lock is lost (R389). -/
def State.stablePeriod (s : State) : State :=
  let was := s.loop.period.locked
  let s := s.onLoop fun l => { l with period := {} }
  if was then (s.setBit .fabPeriodStatus 0 28).fire 56 else s

def secsToMin (n : Nat) : Nat := 60 * n

/-- TIMER in minutes as it acts. -/
def State.wakeMinutes (s : State) : Nat := max (s.rf .pwrStableCfg 0 10 0) 1

/-- A bank whose load has not ended is EMPTY. -/
def Bank.ifUnloaded (b : Bank) : Bank := if b.state = .loading then {} else b

/-- The entry is complete: supervisor, CORE, chambers and lanes are off (R382, R383). -/
def State.powerDown (s : State) : State :=
  let s := s.stableFabric.stableLanes.stablePeriod
  let s := s.onSched fun c => { c with holdReq := none, banks := tmapAll (fun _ => {}) c.banks Bank.ifUnloaded }
  let s := s.onSup fun c => { c with available := false, trial := none }
  let s := s.onCasc fun c => { c with senders := [] }
  let s := s.onFlash fun f => { f with pending := [] }
  let keep := !bit (s.rg .pwrStableCfg) 31 || s.activeSrc 89
  s.onPwr fun p =>
    { p with phase := .stabled, clkreq := false, xoKept := keep, stabledAt := s.now, closing := none,
             wakeTimer := if bit (s.rg .pwrStableCfg) 30 then some (s.now + secC (secsToMin s.wakeMinutes)) else none }

/-! ### Wake (R386 to R389) -/

def WakeSource.code : WakeSource → BitVec 3
  | .wakeIn => 1#3 | .stableReqN => 2#3 | .perstN => 3#3 | .timer => 4#3

/-- The last sample is recent enough for HOLDOVER: the TCXO ran, and t_h × HOLD_RATE ≤ JUMP_TH (R389). -/
def State.holdsTime (s : State) : Bool :=
  s.time.accepted && !bit (s.rg .pwrStableCfg) 31 &&
    decide ((s.now - s.time.acceptedAt) * 1000 * s.holdRate ≤ s.jumpTh * 1024 * 1000000000)

/-- STATE and DRIFT after a wake (R389). -/
def State.wakeTime (s : State) : State :=
  if s.src = 3 then s
  else if s.holdsTime then
    let s := s.enterHoldover
    let d := s.heldTooLong
    s.onTime fun t => { t with drift := d, calm := 0 }
  else s.loseTime

/-- The module wakes: the cause, the length of the spell, PEWAKE_N, time, and the supervisor from boot ROM. -/
def State.wake (s : State) (w : WakeSource) : State :=
  let s := s.onPwr fun p =>
    { p with phase := .waking, clkreq := true, wakeCause := w.code, wakeLatched := none, wakeTimer := none,
             stableTime := w32 ((s.now - p.stabledAt) / secC 1),
             pewake := if w = .perstN then none else some (s.now + secC 1) }
  ((s.restartRegs.startSupervisor.writeHeld).wakeTime).ppsLevel

/-- A wake source: it wakes a stabled module, and is latched while stabling (R385, R386). -/
def State.wakeBy (s : State) (w : WakeSource) : State :=
  match s.pwr.phase with
  | .stabled => s.wake w
  | .stabling => s.onPwr fun p => { p with wakeLatched := some (p.wakeLatched.getD w) }
  | _ => s

def execWakeIn (dt : Nat) (s : State) : Host.Outcome State Fault Refusal :=
  .next (s.onClock dt fun s => (s.onPwr fun p => { p with wakeIn := true }).wakeBy .wakeIn)

def execStableReqNRelease (dt : Nat) (s : State) : Host.Outcome State Fault Refusal :=
  .next (s.onClock dt fun s => (s.onPwr fun p => { p with stableReqN := true }).wakeBy .stableReqN)

def execWakeTimer (dt : Nat) (s : State) : Host.Outcome State Fault Refusal :=
  .next (s.onClock dt fun s => if s.pwr.phase = .stabled && s.expired s.pwr.wakeTimer then s.wake .timer else s)

/-- PERST_N rises: link training, or a wake with PERST_WAKE set (R386, R392). -/
def State.perstHigh (s : State) : State :=
  let was := s.pwr.perstN
  let s := s.onPwr fun p => { p with perstN := true }
  if !was && bit (s.rg .pwrStableCfg) 29 then s.wakeBy .perstN else s

def execPerstNRelease (dt : Nat) (s : State) : Host.Outcome State Fault Refusal := .next (s.onClock dt State.perstHigh)

/-- The stabling sequence completes; a wake source latched in it wakes the module at once and sets LATE. -/
def State.becomeStabled (s : State) : State :=
  if s.pwr.phase = .stabling && s.pwr.closingDone then
    let s := s.powerDown
    match s.pwr.wakeLatched with
    | some w => (s.wake w).setBit .pwrStatus 0 28
    | none => s
  else s

def execStabled (dt : Nat) (s : State) : Host.Outcome State Fault Refusal := .next (s.onClock dt State.becomeStabled)

/-- The supervisor has not returned: the entry completes without a closing summary, and NO_CLOSE is set. -/
def State.closingTimeout (s : State) : State :=
  if s.pwr.phase = .stabling && s.expired s.pwr.closing && !s.sup.available then
    let s := s.onFab fun f => { f with sumDue := none, sumNow := false }
    (s.onPwr fun p => { p with closing := none, closingDone := true }).setBit .pwrStatus 0 27
  else s

def execClosingSummaryTimeout (dt : Nat) (s : State) : Host.Outcome State Fault Refusal :=
  .next (s.onClock dt State.closingTimeout)

/-- 1 s after a wake PEWAKE_N is released. -/
def State.pewakeEnds (s : State) : State :=
  if s.expired s.pwr.pewake then s.onPwr fun p => { p with pewake := none } else s

def execPewakeNTimeout (dt : Nat) (s : State) : Host.Outcome State Fault Refusal := .next (s.onClock dt State.pewakeEnds)

/-- The end of a flash operation; a closing summary is written with the fabric at rest. -/
def execFlashOperationDone (dt : Nat) (op : FlashOp) (ok : Bool) (s : State) : Host.Outcome State Fault Refusal :=
  .next (s.onClock dt fun s => s.flashDone op ok State.stableFabric)

/-! ### TEST_EN (R415, R436) -/

/-- TEST_EN is read while the module runs. -/
def State.readsTestEn (s : State) : Bool := s.pwr.phase = .starting || s.pwr.phase = .running

def State.testOn (s : State) : State :=
  if s.readsTestEn then (s.onPwr fun p => { p with testEn := true }).setLevel 93 true else s

def execTestEnActive (s : State) : Host.Outcome State Fault Refusal := .next (s.onPin State.testOn)

/-- Every held injection ends (R343). -/
def State.endInjections (s : State) : State :=
  ((s.flt.src.filter fun p => p.2.forced).map (·.1)).foldl State.injectEnd s

def State.testOff (s : State) : State :=
  if s.readsTestEn then
    let s := (s.onPwr fun p => { p with testEn := false }).setLevel 93 false
    let s := s.endMakerGrant.endInjections
    (s.setRg .tstMode 0 0 0#32).setRg .tstAdcRaw 0 0 0#32
  else s

def execTestEnInactive (s : State) : Host.Outcome State Fault Refusal := .next (s.onPin State.testOff)

/-! ### SMBus (R416) -/

/-- The target answers whenever VIN is in range. -/
def State.smbAnswer (s : State) (d : List Byte) : State := if s.pwr.phase = .unpowered then s else s.emit (.smbusData d)

def execSmbState (s : State) : Host.Outcome State Fault Refusal :=
  .next (s.onPin fun s => s.smbAnswer [BitVec.ofNat 8 s.pwr.phase.code])

def execSmbUnitId (s : State) : Host.Outcome State Fault Refusal :=
  .next (s.onPin fun s => s.smbAnswer (if s.sup.startedOnce then s.ident else zeros 8))

def execSmbVin (s : State) : Host.Outcome State Fault Refusal :=
  .next (s.onPin fun s => s.smbAnswer (leBytes 2 s.pwr.vin10mV.toNat))

def execSmbTcase (s : State) : Host.Outcome State Fault Refusal := .next (s.onPin fun s => s.smbAnswer [s.pwr.tcase])

def execSmbTdie (s : State) : Host.Outcome State Fault Refusal := .next (s.onPin fun s => s.smbAnswer [s.pwr.tdie])

/-- ERR_N and INT_N are released but in the start sequence and while running (R411, R417). -/
def State.errPin (s : State) : Bool := s.readsTestEn && s.errAsserted
def State.intPin (s : State) : Bool := s.readsTestEn && s.intAsserted

def execSmbPinStatus (s : State) : Host.Outcome State Fault Refusal :=
  .next (s.onPin fun s => s.smbAnswer (leBytes 2 (at_ s.errPin 0 + at_ s.intPin 1 + at_ s.flt.parkedAll 2)))

def execSmbRev (s : State) : Host.Outcome State Fault Refusal :=
  .next (s.onPin fun s => s.smbAnswer (leBytes 2 s.sup.revLast.toNat))

/-- A write, or a command code that is not listed, is not acknowledged. -/
def execSmbRefused (isWrite : Bool) (code : Byte) (s : State) : Host.Outcome State Fault Refusal :=
  .next (s.onPin fun s =>
    if s.pwr.phase ≠ .unpowered && (isWrite || decide (6 < code.toNat)) then s.emit .smbusNack else s)

end Sys2Proof.Machine
end

