-- ==== Sys2Proof/Machine/Test.lean ====
section
/-! DEFINITION. The test access port (R456 to R459) and the test block: factory test modes and the lane self-test (R436
to R439). -/

namespace Sys2Proof.Machine

/-! ### Test access port -/

/-- The port runs in reset and while the module runs (R411). -/
def State.tapRuns (s : State) : Bool := s.pwr.phase = .reset || s.readsTestEn

def TapInstr.takesPins : TapInstr → Bool
  | .extest => true | .clamp => true | .highz => true | .maker _ => true | _ => false

/-- The condition under which a pin-taking instruction is accepted (R457). -/
def State.pinsAllowed (s : State) (i : TapInstr) : Bool :=
  (s.pwr.phase = .reset && !s.pwr.rstN) ||
    (s.readsTestEn && s.pwr.testEn && (match i with
      | .maker _ => s.makerOk
      | _ => true))

/-- The device identification register: version, part 2560h, manufacturer 2B7h, 1 (R459, R463). -/
def State.deviceId (s : State) : Word :=
  w32 ((s.flash.relpety.letter.toNat + 16 - 0x42) % 16 * 2 ^ 28 + 0x2560 * 2 ^ 12 + 0x2B7 * 2 + 1)

/-- Levels at the low-speed contacts, in the order of R411, PERST_N first; those of the SMBus are free (assumption 3). -/
def State.contacts (s : State) : BitVec 22 :=
  let p := s.pwr
  let q := p.strapPins
  let smb := Config.freeNat s.free % 4
  let n := at_ p.perstN 0 + at_ (!p.clkreq) 1 + at_ p.pewake.isNone 2 + smb * 2 ^ 3 + at_ p.rstN 5 +
    at_ (!s.errPin) 6 + at_ (!s.intPin) 7 + at_ p.wakeIn 8 + at_ p.stableReqN 9 + at_ p.ppsIn 10 + at_ s.ppsOutPin 11 +
    at_ p.periodIn 12 + at_ q.mgr 13 + q.slotId.toNat * 2 ^ 14 + q.profileSel.toNat * 2 ^ 19 + at_ p.testEn 21
  BitVec.ofNat 22 n

/-- The data register of an instruction captures (IEEE 1149.1; assumption 50): the boundary-scan register the contacts,
the identification register its word, BYPASS a 0; what a maker private instruction selects is free. -/
def State.capture1149 (s : State) (i : TapInstr) : State :=
  match i with
  | .extest => let b := s.contacts
    s.tick.onTap fun t => { t with instr := i, bsr := b, dr := b.setWidth 32 }
  | .samplePreload => let b := s.contacts
    s.tick.onTap fun t => { t with instr := i, bsr := b, dr := b.setWidth 32 }
  | .idcode => let d := s.deviceId
    s.onTap fun t => { t with instr := i, dr := d }
  | .maker _ => let d := w32 s.freeNat
    s.tick.onTap fun t => { t with instr := i, dr := d }
  | _ => s.onTap fun t => { t with instr := i, dr := 0#32 }

/-- An instruction is loaded; a pin-taking one that is not accepted acts as BYPASS (R457). -/
def State.tapLoad (s : State) (i : TapInstr) : State :=
  if !s.tapRuns then s
  else
    let i := if i.takesPins && !s.pinsAllowed i then TapInstr.bypass else i
    (s.onPwr fun p => { p with trstN := true }).capture1149 i

/-- TRST_N low: Test-Logic-Reset loads IDCODE (R411, R456). -/
def execTapReset (s : State) : Host.Outcome State Fault Refusal :=
  .next (s.onPin fun s =>
    if s.tapRuns then (s.capture1149 .idcode).onPwr fun p => { p with trstN := false } else s)

def execExtest (s : State) : Host.Outcome State Fault Refusal := .next (s.onPin fun s => s.tapLoad .extest)

def execSamplePreload (s : State) : Host.Outcome State Fault Refusal := .next (s.onPin fun s => s.tapLoad .samplePreload)

def execIdcode (s : State) : Host.Outcome State Fault Refusal := .next (s.onPin fun s => s.tapLoad .idcode)

def execClamp (s : State) : Host.Outcome State Fault Refusal := .next (s.onPin fun s => s.tapLoad .clamp)

def execHighz (s : State) : Host.Outcome State Fault Refusal := .next (s.onPin fun s => s.tapLoad .highz)

def execMakerPrivateInstruction (code : Byte) (s : State) : Host.Outcome State Fault Refusal :=
  .next (s.onPin fun s => s.tapLoad (.maker code))

/-- BYPASS, or any code that is not listed. -/
def execBypass (_code : Byte) (s : State) : Host.Outcome State Fault Refusal := .next (s.onPin fun s => s.tapLoad .bypass)

/-- The condition of a pin-taking instruction has ended. -/
def State.pinsEnd (s : State) : State :=
  if s.tap.instr.takesPins && !s.pinsAllowed s.tap.instr then s.capture1149 .bypass else s

def execPinTakingEnd (dt : Nat) (s : State) : Host.Outcome State Fault Refusal := .next (s.onClock dt State.pinsEnd)

/-! ### Test modes (R436) -/

/-- Errors that the receivers of lanes on a test pattern have counted: free values (assumption 3). -/
def State.countPattern (s : State) : State :=
  let ls := (List.range 8).filter fun l => bit (s.rg .tstMode) l
  let s := s.onTst fun t => { t with err := ls.foldl (fun e l =>
    tset (fun _ => 0) e l (Config.freeNat (s.free + l) % 2 ^ 32)) t.err }
  if ls.isEmpty then s else { s with free := s.free + 8 }

/-- A host write of TST_MODE or TST_ADC_RAW. -/
def State.writeTst (s : State) (r : Reg) (v : Word) : State :=
  if s.makerOk then (if r = .tstMode then (s.putReg r 0 0 v).countPattern else s.putReg r 0 0 v)
  else s.setBit .secGrantStatus 0 28

def execTstModeWrite (adcRaw : Bool) (value : Word) (s : State) : Host.Outcome State Fault Refusal :=
  .next (s.onHost fun s => s.writeTst (if adcRaw then .tstAdcRaw else .tstMode) value)

/-! ### Lane self-test (R437, R438) -/

/-- Why a START with these PAIRS is refused; 0 where the test may start. -/
def State.testRefusal (s : State) (pairs : Nat) : Nat :=
  if !s.grantOk then 1
  else if s.fab.inForce.isSome || s.sched.run.isSome then 2
  else if pairs = 0 then 3
  else if [0, 1, 2, 3].any fun p => pairs.testBit p &&
      ((s.lane (2 * p)).rate ≠ (s.lane (2 * p + 1)).rate || (s.lane (2 * p)).fec ≠ (s.lane (2 * p + 1)).fec) then 4
  else 0

/-- The test starts with the SECONDS and PAIRS of the write. -/
def State.startTest (s : State) (v : Word) : State :=
  let s := s.putReg .tstStCtrl 0 0 v
  s.onTst fun _ => { busy := true, pairs := BitVec.ofNat 4 (fld v 3 0), since := s.now,
                     ends := some (s.now + secC (max (fld v 11 4) 1)) }

/-- A write of TST_ST_CTRL. -/
def State.writeStCtrl (s : State) (v : Word) : State :=
  if s.tst.busy then (if bit v 30 then s.endTest true else s)
  else if bit v 31 then
    let k := s.testRefusal (fld v 3 0)
    if k = 0 then s.startTest v
    else (s.onTst fun t => { t with why := BitVec.ofNat 4 k }).setBit .tstStStatus 0 28
  else s.putReg .tstStCtrl 0 0 v

def execSelfTestStart (value : Word) (s : State) : Host.Outcome State Fault Refusal :=
  .next (s.onHost fun s => s.writeStCtrl value)

def execSelfTestStop (value : Word) (s : State) : Host.Outcome State Fault Refusal :=
  .next (s.onHost fun s => s.writeStCtrl value)

/-- SECONDS have passed. -/
def State.testTimeUp (s : State) : State := if s.tst.busy && s.expired s.tst.ends then s.endTest false else s

def execSelfTestEnd (dt : Nat) (s : State) : Host.Outcome State Fault Refusal := .next (s.onClock dt State.testTimeUp)

end Sys2Proof.Machine
end

