-- ==== Sys2Proof/Machine/Registers.lean ====
section
/-! DEFINITION. Host accesses: the write of any BAR0 or BAR2 offset, the reads that change state, and what a read
returns (R6 to R8, R244, R353, R372, R425 to R429). -/

namespace Sys2Proof.Machine

/-! ### Words of 4-byte registers, by block -/

/-- A register of the store is protected; any other takes its RW bits and clears its W1C bits; a write of a read-only
word has no effect (R6, R327). -/
def State.plainWord (s : State) (r : Reg) (i w : Nat) (v : Word) : State :=
  if r.protected then s.protReg r i v
  else if r.rwMask w ||| r.w1cMask w = 0#32 then s
  else s.putReg r i w v

def State.writeSys (s : State) (by_ : Nat) (r : Reg) (i w : Nat) (v : Word) : State :=
  match r with
  | .sysBusmxCtrl => s.writeRemap by_ v
  | .sysCtrl => s.writeSysCtrl v
  | .sysChrst => s.writeChrst v
  | .sysLanerst => s.laneReset v
  | .tstMode => s.writeTst .tstMode v
  | .tstAdcRaw => s.writeTst .tstAdcRaw v
  | .tstStCtrl => s.writeStCtrl v
  | _ => s.plainWord r i w v

def State.writeSec (s : State) (r : Reg) (i w : Nat) (v : Word) : State :=
  match r with
  | .secGrantCtrl => s.writeGrantCtrl v true
  | _ => s.plainWord r i w v

def State.writeFlt (s : State) (r : Reg) (i w : Nat) (v : Word) : State :=
  match r with
  | .fltSticky => s.clearSticky i v
  | .fltCtrl => s.writeFltCtrl v
  | .fltPark => s.writePark v
  | .fltIsol => s.writeIsol v
  | .fltSel => s.writeFltSel v
  | _ => s.plainWord r i w v

/-- A write in the IRQ_ block, taken (R367 to R371). -/
def State.writeIrq (s : State) (r : Reg) (i : Nat) (v : Word) : State :=
  match r with
  | .irqSrcCfg => s.writeIrqCfg i v
  | .irqPend => s.setPend i v false
  | .irqSetpend => s.setPend i v true
  | .irqComplete => s.completeIrq (fld v 6 0)
  | _ => s

/-- A write in the DMA_ block, taken (R365): a busy channel takes only ABORT. -/
def State.writeDma (s : State) (r : Reg) (i : Nat) (v : Word) : State :=
  match r with
  | .dmaSrc => s.writeDmaReg i fun c => { c with src := v }
  | .dmaDst => s.writeDmaReg i fun c => { c with dst := v }
  | .dmaLink => s.writeDmaReg i fun c => { c with link := v }
  | .dmaCount => s.writeDmaReg i fun c => { c with count := fld v 23 0 }
  | .dmaCtrl => s.writeDmaCtrl i v
  | _ => if (s.dmac i).busy then s.setBit .dmaStatus i 24 else s.putReg r i 0 v

def State.writeTime (s : State) (r : Reg) (i w : Nat) (v : Word) : State :=
  match r with
  | .timeCtrl => s.writeTimeCtrl v
  | .timeDrift => s.writeTimeDrift v
  | .timeDomCfg => s.writeTimeDom i v
  | .timePpsCfg => s.writePpsCfg v
  | _ => s.plainWord r i w v

def State.writeEpt (s : State) (r : Reg) (i w : Nat) (v : Word) : State :=
  match r with
  | .eptCfg => s.writeEptCfg i v
  | .eptPreempt => s.writeEptPreempt i v
  | .eptStrSel => s.writeStrSel v
  | _ => s.plainWord r i w v

def State.writeRing (s : State) (r : Reg) (i w : Nat) (v : Word) : State :=
  match r with
  | .ringCtrl => s.writeRingCtrl i v
  | .ringCfg => s.writeRingCfg i fun s => s.putReg .ringCfg i 0 v
  | .ringPoll => s.writeRingCfg i fun s => s.putReg .ringPoll i 0 v
  | _ => s.plainWord r i w v

/-- DROPPED and REVERTED of the selected cell clear where written 1, but for one set in this cycle (R7, R92). -/
def State.clearCellBits (s : State) (v : Word) : State :=
  let c := s.rf .fabCellSel 0 10 0
  let v := v &&& ~~~(s.marked (bar0Size + c))
  s.modCell c fun x =>
    { x with dropped := x.dropped && !bit v 20, reverted := x.reverted && !bit v 19 }

def State.writeFab (s : State) (r : Reg) (i w : Nat) (v : Word) : State :=
  match r with
  | .fabChCtrl => s.writeChCtrl i v
  | .fabCellStatus => s.clearCellBits v
  | .fabPolCfg => s.writePolCfg v
  | .fabWearSumCfg => s.writeWearSumCfg v
  | .fabDripSel => s.writeDripSel v
  | .fabHistCtrl => s.writeHistCtrl v
  | _ => s.plainWord r i w v

def State.writeLoop (s : State) (r : Reg) (i w : Nat) (v : Word) : State :=
  match r with
  | .loopProfileIdx => s.writeProfileIdx i v
  | .loopSel => s.writeLoopSel i v
  | .loopFlowCfg => s.writeFlowCfg i v
  | .loopTrcCtrl => s.writeTrcCtrl i v
  | _ => s.plainWord r i w v

/-- Write word `w` of instance `i` of a register that is not 8 bytes wide, as master `by_`. -/
def State.writeWord (s : State) (by_ : Nat) (r : Reg) (i w : Nat) (v : Word) : State :=
  match blkOf r.info.base with
  | .sys => s.writeSys by_ r i w v
  | .sec => s.writeSec r i w v
  | .flt => s.writeFlt r i w v
  | .irq => s.internalWrite by_ fun s => s.writeIrq r i v
  | .dma => s.internalWrite by_ fun s => s.writeDma r i v
  | .time => s.writeTime r i w v
  | .ept => s.writeEpt r i w v
  | .ring => s.writeRing r i w v
  | .fab => s.writeFab r i w v
  | .loop => s.writeLoop r i w v
  | .casc => s.plainWord r i w v

/-! ### Registers of 8 bytes (R428) -/

/-- The 8-byte registers that software writes; the doorbells act on their low word alone. -/
def Reg.wide (r : Reg) : Bool :=
  r = .eptMac || r = .eptShape || r = .ringBase || r = .fabHistBase || r = .timeTodNext

/-- Both halves of an 8-byte register in one cycle. -/
def State.writeWide (s : State) (r : Reg) (i : Nat) (v : Dword) : State :=
  match r with
  | .eptMac => s.protReg8 .eptMac i v
  | .eptShape => s.writeShape i v
  | .timeTodNext => s.writeTod v
  | .ringBase => s.writeRingCfg i fun s => (s.putReg .ringBase i 0 (loW v)).putReg .ringBase i 1 (hiW v)
  | .fabHistBase => (s.putReg .fabHistBase 0 0 (loW v)).putReg .fabHistBase 0 1 (hiW v)
  | .ringDb => s.writeDoorbell i (loW v)
  | _ => s

/-- A word kept with a mark that it is there. -/
def keptGet (t : Tab Word) (off : Nat) : Option Word :=
  if tget (fun _ => 0#32) t (off + 1) = 0#32 then none else some (tget (fun _ => 0#32) t off)
def keptSet (t : Tab Word) (off : Nat) (v : Word) : Tab Word :=
  tset (fun _ => 0#32) (tset (fun _ => 0#32) t off v) (off + 1) 1#32
def keptDrop (t : Tab Word) (off : Nat) : Tab Word :=
  tset (fun _ => 0#32) (tset (fun _ => 0#32) t off 0#32) (off + 1) 0#32

def joinW (lo hi : Word) : Dword := BitVec.ofNat 64 (hi.toNat * 2 ^ 32 + lo.toNat)

/-- The low word that goes with a write of the high word: the held one, else the current one. -/
def State.lowFor (s : State) (r : Reg) (i : Nat) : Word := (keptGet s.lowHeld (r.addr i)).getD (s.readWord r i 0)

/-- A 32-bit write of one half of an 8-byte register. -/
def State.writeHalf (s : State) (r : Reg) (i w : Nat) (v : Word) : State :=
  if w = 0 then
    (if r = .ringDb then s.writeDoorbell i v
    else if r.wide then { s with lowHeld := keptSet s.lowHeld (r.addr i) v } else s)
  else
    let lo := s.lowFor r i
    let t := { s with lowHeld := keptDrop s.lowHeld (r.addr i) }
    t.writeWide r i (joinW lo v)

/-! ### BAR0 -/

/-- Writable bits of a word of an MSI-X table entry (PCI Express Base Specification; assumption 14). -/
def msixMask (k : Nat) : Word := if k % 4 = 0 then 0xFFFFFFFC#32 else if k % 4 = 3 then 1#32 else 0xFFFFFFFF#32

/-- A word of the MSI-X table is written; an unmasked vector that is pending is sent. -/
def State.writeMsix (s : State) (k : Nat) (v : Word) : State :=
  let s := { s with msixTab := tset msixDefault s.msixTab k (v &&& msixMask k) }
  if k % 4 = 3 && !bit v 0 && s.msixPba.getLsbD (k / 4) then
    let t := { s with msixPba := s.msixPba &&& ~~~(BitVec.ofNat 64 (2 ^ (k / 4))) }
    t.emit (.msix (k / 4))
  else s

/-- An aligned 32-bit write of BAR0 by a master; an offset with no register ignores it (R353, R425). -/
def State.writeBar0 (s : State) (by_ off : Nat) (v : Word) : State :=
  if 0x6000 ≤ off ∧ off < 0x6400 then s.writeMsix ((off - 0x6000) / 4) v
  else match regAt off with
    | some (r, i, b) =>
      if r.info.bytes = 8 then s.writeHalf r i (b / 4) v else s.writeWord by_ r i (b / 4) v
    | none => if 0x4000 ≤ off ∧ off < 0x6000 then s.internalWrite by_ id else s

/-- An aligned 64-bit write of BAR0: both halves of an 8-byte register at once, or two words (R427, R428). -/
def State.writeBar0Wide (s : State) (off : Nat) (v : Dword) : State :=
  match regAt off with
  | some (r, i, b) =>
    if r.info.bytes = 8 && b = 0 then
      let t := { s with lowHeld := keptDrop s.lowHeld (r.addr i) }
      t.writeWide r i v
    else (s.writeBar0 2 off (loW v)).writeBar0 2 (off + 4) (hiW v)
  | none => (s.writeBar0 2 off (loW v)).writeBar0 2 (off + 4) (hiW v)

/-- A refused access leaves its bit and its offset in SYS_HOST_ACC (R427). -/
def State.hostAcc (s : State) (b off : Nat) : State :=
  (s.setRg .sysHostAcc 0 0 (w32 (fld (s.rg .sysHostAcc) 31 30 * 2 ^ 30 ||| 2 ^ b ||| off % 0x100000))).mark
    (Reg.sysHostAcc.addr 0) (w32 (2 ^ b))

/-! ### BAR2 -/

/-- A slot is bound to a context with SLOT_DIR 1, or to one with SLOT_DIR 0. -/
def State.slotBound (s : State) (n : Nat) (rx : Bool) : Bool :=
  s.ctxList.any fun x =>
    let c := s.ctx x
    ctxValid c && ctxSlotEn c && (ctxSlotRx c == rx) && ctxSlot c = n

/-- The module takes a host byte at BAR2 offset `x` (R426). -/
def State.takesByte (s : State) (x : Nat) : Bool :=
  decide (x < 0x400000) && !s.slotBound (x / 0x800) true &&
    !(s.slotBound (x / 0x800) false && decide (8 ≤ x % 0x800) && decide (x % 0x800 < 20))

/-- A host write of any length and alignment in BAR2. -/
def State.writeBar2 (s : State) (x : Nat) : List Byte → State
  | [] => s
  | b :: bs =>
    let t := if s.takesByte x then { s with sram := wr s.sram x b } else s
    t.writeBar2 (x + 1) bs

/-- A byte of BAR2 as a read returns it (R426). -/
def State.readBar2 (s : State) (x : Nat) : Byte :=
  if x < 0x400000 then rd s.sram x else if x < 0x600000 then rd s.sram (x - 0x400000 + 0xC00000) else 0#8

/-! ### The rows -/

/-- A host write of `size` bytes. The offset is one of BAR0 below 100000h; BAR2 offset x is 100000h + x. -/
def State.hostWrite (s : State) (off size : Nat) (v : Dword) : State :=
  if bar0Size ≤ off then s.writeBar2 (off - bar0Size) (leBytes (min size 8) v.toNat)
  else if size < 4 then s.hostAcc 31 off
  else if size = 4 && off % 4 = 0 then s.writeBar0 2 off (loW v)
  else if size = 8 && off % 8 = 0 then s.writeBar0Wide off v
  else s.hostAcc 30 off

def execRegisterWrite (offset size : Nat) (value : Dword) (s : State) : Host.Outcome State Fault Refusal :=
  .next (s.onHost fun s => s.hostWrite offset size value)

/-- An 8-byte register whose high word a read of its low word latches. -/
def lowOf8 (off : Nat) : Option (Reg × Nat) :=
  match regAt off with
  | some (r, i, b) => if r.info.bytes = 8 && b = 0 then some (r, i) else none
  | none => none

/-- What the read of a word changes: TIME_SNAP and the high words of 8-byte registers latch (R429). -/
def State.latchRead (s : State) (off : Nat) : State :=
  if off = 0x8020 then s.latchTime
  else match lowOf8 off with
    | some (r, i) => { s with latch := keptSet s.latch off (s.readWord r i 1) }
    | none => s

/-- An aligned 32-bit read of BAR0: the high word of an 8-byte register reads as latched, or the current one where
nothing latched it since the last function-level reset (R428). -/
def State.readHost (s : State) (off : Nat) : Word :=
  if 4 ≤ off && (lowOf8 (off - 4)).isSome then (keptGet s.latch (off - 4)).getD (s.readBar0 off)
  else s.readBar0 off

def State.readLow (s : State) (off : Nat) : State :=
  let t := s.latchRead off
  t.emit (.readData off (BitVec.ofNat 64 (t.readHost off).toNat))

def execLowWordRead (offset : Nat) (s : State) : Host.Outcome State Fault Refusal :=
  .next (s.onHost fun s => s.readLow offset)

/-- The reads of BAR0 that are refused (R427). -/
def badRead (off size : Nat) : Bool :=
  decide (off < bar0Size) &&
    !((size = 4 && off % 4 = 0) || (size = 8 && off % 8 = 0) || (1 ≤ size && size ≤ 3 && off % 4 + size ≤ 4))

/-- A refused read returns 0. -/
def State.readBad (s : State) (off size : Nat) : State :=
  if badRead off size then (s.hostAcc 30 off).emit (.readData off 0#64) else s

def execBadAlignRead (offset size : Nat) (s : State) : Host.Outcome State Fault Refusal :=
  .next (s.onHost fun s => s.readBad offset size)

end Sys2Proof.Machine
end

