-- ==== Sys2Proof/Machine/Matrix.lean ====
section
/-! DEFINITION. The internal bus matrix: the targets of the address map and what an access to each does, the grants of
a target port, LOCKED sequences, outstanding transactions and the order of their answers, and the switch of the zero
window (R344, R346 to R352, R354, R355). -/

namespace Sys2Proof.Machine

/-! ### Targets of the internal map (R346, R354) -/

/-- The target of an internal address outside the zero window. -/
def targetOf (a : Nat) : Target :=
  if 0x10000000 ≤ a ∧ a < 0x11800000 then .sram
  else if 0x20000000 ≤ a ∧ a < 0x20010000 then .rom
  else if 0x30000000 ≤ a ∧ a < 0x38000000 then .flash
  else if 0x40000000 ≤ a ∧ a < 0x40100000 then .regs
  else .default

/-- The address that master `m` reaches at `a`: the zero window shows master 0 the boot ROM, or with REMAP the
supervisor area of SRAM (R354). -/
def State.busAddr (s : State) (m a : Nat) : Nat :=
  if m = 0 ∧ a < 0x200000 then
    (if s.bus.remap then 0x11000000 + a else if a < 0x10000 then 0x20000000 + a else a)
  else a

/-- The target of an access of master `m`; the zero window is master 0's alone. -/
def State.busTarget (s : State) (m a : Nat) : Target := targetOf (s.busAddr m a)

/-! ### Bytes of SRAM and flash -/

/-- SRAM whose layout the manual does not give: spool, supervisor, loop state, calibration, and the module's part of a
stream context (R24, R232; assumption 3). -/
def openSram (x : Nat) : Bool :=
  (0xE00000 ≤ x && x < 0x1380000) || (0x1480000 ≤ x && x < 0x1580000) ||
    (0x1580000 ≤ x && x < 0x1680000 && 64 ≤ x % 256)

/-- The margin reads 0. -/
def marginSram (x : Nat) : Bool := 0x1788000 ≤ x

/-- The spool's record at SRAM offset `x`: the records lie in order in slots of 32 bytes (assumption 3). -/
def State.spoolByte (s : State) (x : Nat) : Option Byte :=
  if 0xE00000 ≤ x && x < 0x1000000 then
    let k := (x - 0xE00000) / 32
    match s.fab.spool[(k + spoolSize - s.fab.spoolAt) % spoolSize]? with
    | some q => some (q.bytes.getD (x % 32) 0#8)
    | none => none
  else none

/-- A byte of SRAM; none where neither the manual nor a write says what it holds, as in the part of a stream context that
the module itself goes on writing. -/
def State.sramByte (s : State) (x : Nat) : Option Byte :=
  if marginSram x then some 0#8
  else if openSram x then
    if 0x1580000 ≤ x then none else
    match s.spoolByte x with
    | some b => some b
    | none =>
      let v := tget (fun _ => 0) s.openRam x
      if v = 0 then none else some (BitVec.ofNat 8 (v - 1))
  else some (rd s.sram x)

/-- Write bytes of SRAM by the matrix; the margin takes none. -/
def State.sramWrite (s : State) (x : Nat) (l : List Byte) : State :=
  if marginSram x then s
  else if openSram x then
    if 0x1580000 ≤ x then s else
    { s with openRam := ((List.range l.length).zip l).foldl (fun t p => tset (fun _ => 0) t (x + p.1) (p.2.toNat + 1)) s.openRam }
  else { s with sram := wrBytes s.sram x l }

/-- The bytes of a wear summary (R155). -/
def WearSummary.body (q : WearSummary) (o : Nat) : Byte :=
  let of (n : Nat) (k : Nat) : Byte := BitVec.ofNat 8 (n / 256 ^ k)
  if o < 8 then of q.seq o
  else if o < 14 then of q.sec (o - 8)
  else if o = 14 then of (at_ q.closing 0 + at_ q.estimated 1) 0
  else if o < 32 then 0#8
  else if o < 24608 then of (tget (fun _ => 0) q.counts ((o - 32) / 6)) ((o - 32) % 6)
  else if o < 40992 then of (tget (fun _ => 0) q.first ((o - 24608) / 4)) ((o - 24608) % 4)
  else if o < 73760 then
    let d := tget (fun _ => (0, 0, 0, 0, 0)) q.drift ((o - 40992) / 16)
    let k := (o - 40992) % 16
    let h := fun (v : Int) => of (unsigned 16 v) (k % 2)
    if k < 2 then h d.1 else if k < 4 then h d.2.1 else if k < 6 then h d.2.2.1 else if k < 8 then h d.2.2.2.1
    else if k < 10 then of d.2.2.2.2 (k % 2) else 0#8
  else 0xFF#8

def WearSummary.byte (q : WearSummary) (o : Nat) : Byte :=
  if o < 131068 then q.body o
  else BitVec.ofNat 8 ((crc32 ((List.range 131068).map q.body)).toNat / 256 ^ (o - 131068))

/-- A byte of the image that a slot holds (R26, R401). -/
def ImgSlot.byte (g : ImgSlot) (o : Nat) : Option Byte :=
  match g.image with
  | some m => if o < g.length then some (rd m o) else none
  | none => none

/-- A byte of flash, where the manual's layout and this state give it (R26, R155, R330). -/
def State.flashByte (s : State) (x : Nat) : Option Byte :=
  if x < 0x1000000 then (s.img (x / 0x800000)).byte (x % 0x800000)
  else if 0x2400000 ≤ x && x < 0x3400000 then
    let e := tget (fun _ => ({} : AuditEntry)) s.sec.audit ((x - 0x2400000) / 256)
    if e.stored then some (e.bytes.getD (x % 256) 0#8) else none
  else if 0x3400000 ≤ x && x < 0x5400000 then
    let k := (x - 0x3400000) / 131072
    if s.fab.summaries.any fun p => p.1 = k then
      some ((tget (fun _ => ({} : WearSummary)) s.fab.summaries k).byte ((x - 0x3400000) % 131072))
    else none
  else none

/-- Four bytes of memory, each from `f`, a free byte where `f` gives none (assumption 3). -/
def State.word4 (s : State) (f : Nat → Option Byte) (a : Nat) : Nat × State :=
  let b := fun k => (f (a + k)).getD (Config.freeByte (s.free + k))
  let open4 := [0, 1, 2, 3].any fun k => (f (a + k)).isNone
  (leNat [b 0, b 1, b 2, b 3], if open4 then { s with free := s.free + 4 } else s)

/-! ### One word -/

/-- A register word as a master reads it: a read of IRQ_CLAIM by master 0 claims (R368). -/
def State.regRead (s : State) (m off : Nat) : Nat × State :=
  let v := (s.readHost off).toNat
  if m = 0 && off = 0x4240 then
    match s.claim with
    | some n => (v, s.modIrq n fun q => { q with active := true, pending := false })
    | none => (v, s)
  else (v, s.latchRead off)

/-- A word that master `m` reads; none where the access ends in an error response (R352). -/
def State.busRead (s : State) (m a : Nat) : Option Nat × State :=
  let x := s.busAddr m a
  match targetOf x with
  | .sram =>
    let q := s.word4 s.sramByte (x - 0x10000000)
    (some q.1, q.2)
  | .rom => (some (leNat ((List.range 4).map fun k => Config.bootRom (x - 0x20000000 + k))), s)
  | .flash =>
    let q := s.word4 s.flashByte (x - 0x30000000)
    (some q.1, q.2)
  | .regs =>
    let q := s.regRead m (x - 0x40000000)
    (some q.1, q.2)
  | .default => (none, s.defaultTarget m a false)

/-- A word that master `m` writes; false where the access ends in an error response. -/
def State.busWrite (s : State) (m a v : Nat) : Bool × State :=
  let x := s.busAddr m a
  match targetOf x with
  | .sram => (true, s.sramWrite (x - 0x10000000) (leBytes 4 v))
  | .regs => (true, s.writeBar0 m (x - 0x40000000) (w32 v))
  | _ => (false, s.defaultTarget m a true)

/-- Read words one after another: the data, or the address of the access that failed. -/
def State.readBurst (s : State) (m : Nat) : List Nat → Except Nat (List Nat) × State
  | [] => (.ok [], s)
  | a :: as =>
    match s.busRead m a with
    | (none, t) => (.error a, t)
    | (some v, t) =>
      match t.readBurst m as with
      | (.ok vs, u) => (.ok (v :: vs), u)
      | (.error b, u) => (.error b, u)

/-- Write words one after another: the words written, and the address of the access that failed. -/
def State.writeBurst (s : State) (m : Nat) : List (Nat × Nat) → Nat × Option Nat × State
  | [] => (0, none, s)
  | (a, v) :: rest =>
    match s.busWrite m a v with
    | (false, t) => (0, some a, t)
    | (true, t) =>
      match t.writeBurst m rest with
      | (n, e, u) => (n + 1, e, u)

/-! ### Target ports and their grants (R347, R348, R350) -/

def Target.code : Target → Nat
  | .sram => 0 | .rom => 1 | .flash => 2 | .regs => 3 | .default => 4

def State.port (s : State) (p : Target) : Port := tget (fun _ => {}) s.bus.ports p.code
def State.modPort (s : State) (p : Target) (f : Port → Port) : State :=
  { s with bus := { s.bus with ports := tmod (fun _ => {}) s.bus.ports p.code f } }

/-- The target port that a request asks for. -/
def State.portOf (s : State) (r : BusReq) : Target := s.busTarget r.master.val r.addr

/-- The request at a place is outstanding, and the oldest of its master and identifier: a master has at most 32
transactions outstanding, and those of one identifier are answered in issue order (R350). -/
def busReady (l : List BusReq) (i : Nat) : Bool :=
  match l[i]? with
  | some r =>
    let before := (l.take i).filter fun q => q.master = r.master
    decide (before.length < 32) && before.all fun q => q.id ≠ r.id
  | none => false

/-- The places of the requests that a port may grant. -/
def State.candidates (s : State) (p : Target) : List Nat :=
  (List.range s.bus.waiting.length).filter fun i =>
    busReady s.bus.waiting i && (match s.bus.waiting[i]? with | some r => s.portOf r = p | none => false)

/-- A property of the request at a place. -/
def State.reqIs (s : State) (f : BusReq → Bool) (i : Nat) : Bool :=
  match s.bus.waiting[i]? with
  | some r => f r
  | none => false

/-- The class that a port grants from: the LOCKED sequence that holds it, CONTROL up to 4 times in a row while a BULK
piece waits, and BULK (R348). -/
def State.granted (s : State) (p : Target) : List Nat × Nat :=
  let c := s.candidates p
  let q := s.port p
  let ctl := c.filter (s.reqIs fun r => r.cls ≠ .bulk)
  let blk := c.filter (s.reqIs fun r => r.cls = .bulk)
  if q.lock.isSome then (c.filter (s.reqIs fun r => r.cls = .locked), q.lastCtl)
  else if ctl ≠ [] && (blk = [] || q.run < 4) then (ctl, q.lastCtl)
  else (blk, q.lastBlk)

/-- The request that a port grants: round robin over the masters, after the one granted last; responses to different
identifiers of one master may return in any order, so which of its requests comes is a free value (assumption 64). -/
def State.pick (s : State) (p : Target) : Option Nat :=
  let (c, last) := s.granted p
  let order := fun i => match s.bus.waiting[i]? with | some r => (r.master.val + 7 - last) % 8 | none => 8
  match minBy order c with
  | some i =>
    let l := c.filter fun j => order j = order i
    l[if l.length = 1 then 0 else Config.freeNat s.free % l.length]?
  | none => none

/-- The lock of a port after a LOCKED access (R347, R349): its first access opens the sequence, its last ends it. -/
def lockAfter (r : BusReq) (now : Nat) (l : Option PortLock) : Option PortLock :=
  if r.rest = 0 then none
  else if r.first then some ⟨now, r.rest⟩
  else l.map fun k => { k with left := r.rest }

/-- The port remembers whom it granted (R348). -/
def State.noteGrant (s : State) (p : Target) (r : BusReq) : State :=
  let bulkWaits := ((s.candidates p).any (s.reqIs fun q => q.cls = .bulk))
  let s := s.modPort p fun q =>
    match r.cls with
    | .bulk => { q with lastBlk := r.master.val, run := 0 }
    | .control => { q with lastCtl := r.master.val, run := if bulkWaits then q.run + 1 else 0 }
    | .locked => { q with lastCtl := r.master.val, lock := lockAfter r s.now q.lock }
  s.tick

/-- Bytes that one grant moves: a BULK piece ends at a 256-byte boundary (R347). -/
def pieceOf (r : BusReq) : Nat := if r.cls = .bulk then min r.len (256 - r.addr % 256) else r.len

/-- The words of a grant. -/
def wordAddrs (r : BusReq) : List Nat := (List.range (pieceOf r / 4)).map fun k => r.addr + 4 * k

/-- The little-endian words of a byte string. -/
def wordsOf (l : List Byte) (n : Nat) : List Nat := (List.range n).map fun k => leNat ((l.drop (4 * k)).take 4)

/-- The piece moves: its answer. A failed read has data 0 (R352). -/
def State.move (s : State) (r : BusReq) : BusAnswer × State :=
  let a : BusAnswer := { master := r.master.val, id := r.id.val }
  if r.write then
    let q := s.writeBurst r.master.val ((wordAddrs r).zip (wordsOf r.data (wordAddrs r).length))
    ({ a with error := q.2.1.isSome }, q.2.2)
  else match s.readBurst r.master.val (wordAddrs r) with
    | (.ok vs, t) => ({ a with data := vs.flatMap (leBytes 4) }, t)
    | (.error _, t) => ({ a with error := true, data := zeros (pieceOf r) }, t)

/-- The rest of a request after a piece. -/
def restOf (r : BusReq) : BusReq :=
  { r with addr := r.addr + pieceOf r, len := r.len - pieceOf r, data := r.data.drop (pieceOf r) }

/-- The request at place `i` is answered; it leaves, or asks again with its next piece. -/
def State.answer (s : State) (i : Nat) (r : BusReq) (a : BusAnswer) : State :=
  let l := s.bus.waiting
  { s with bus := { s.bus with
      waiting := if a.error || r.len ≤ pieceOf r then l.eraseIdx i else l.set i (restOf r)
      answers := s.bus.answers ++ [a] } }

/-- Port `p` grants the request at place `i`. The access after a sequence that the matrix ended gets an error response
(R349). -/
def State.grant (s : State) (p : Target) (i : Nat) : State :=
  match s.bus.waiting[i]? with
  | some r =>
    if r.cls = .locked && !r.first && s.bus.broken then
      ({ s with bus := { s.bus with broken := false } }).answer i r { master := r.master.val, id := r.id.val, error := true }
    else
      let (a, t) := (s.noteGrant p r).move r
      t.answer i r a
  | none => s

def allTargets : List Target := [.sram, .rom, .flash, .regs, .default]

/-- The ports grant, up to `n` times in all. -/
def State.grants : Nat → State → State
  | 0, s => s
  | n + 1, s =>
    match allTargets.findSome? fun p => (s.pick p).map fun i => (p, i) with
    | some (p, i) => State.grants n (s.grant p i)
    | none => s

/-- Grants that the waiting requests can take. -/
def grantBound (l : List BusReq) : Nat := (l.map fun r => r.len / 4 + 1).sum

/-- The matrix serves what its ports can grant. -/
def State.drainBus (s : State) : State := s.grants (grantBound s.bus.waiting)

/-- Port `p` serves other requests until it grants the request `own`; false where a LOCKED sequence keeps it. -/
def State.obtain (p : Target) (own : BusReq) : Nat → State → Bool × State
  | 0, s => (false, s)
  | n + 1, s =>
    match s.pick p with
    | some i =>
      if s.reqIs (fun r => r.master = own.master) i then
        let t := s.noteGrant p own
        (true, { t with bus := { t.bus with waiting := t.bus.waiting.eraseIdx i } })
      else State.obtain p own n (s.grant p i)
    | none => (false, s)

/-- The engine's own request stands at its port and takes its turn there. -/
def State.turnAt (s : State) (own : BusReq) : Bool × State :=
  let t := { s with bus := { s.bus with waiting := s.bus.waiting ++ [own] } }
  let (ok, u) := State.obtain (s.portOf own) own (grantBound t.bus.waiting + 1) t
  if ok then (true, u)
  else (false, { u with bus := { u.bus with waiting := u.bus.waiting.filter fun r => r.master ≠ own.master } })

/-! ### Broken locks and the switch of the zero window -/

/-- A LOCKED sequence holds the port for longer than 256 matrix cycles (R349). -/
def State.overLocked (s : State) (p : Target) : Bool :=
  match (s.port p).lock with
  | some l => decide (l.at_ + 512 < s.now)
  | none => false

/-- The matrix ends the locks that last too long: the next access of the sequence gets an error response, LOCK_BRK is
set, and the port serves the others (R349). -/
def State.breakLocks (s : State) : State :=
  let l := allTargets.filter s.overLocked
  if !s.core || l.isEmpty then s
  else
    let t := l.foldl (fun s p => s.modPort p fun q => { q with lock := none }) s
    (({ t with bus := { t.bus with broken := true, answers := [] } }).setBit .sysBusmxStatus 0 29).drainBus

def execLockBrk (dt : Nat) (s : State) : Host.Outcome State Fault Refusal :=
  .next (s.onClock dt State.breakLocks)

/-- A zero-window transaction is outstanding. -/
def State.zeroBusy (s : State) : Bool := s.bus.waiting.any fun r => r.master = 0 && decide (r.addr < 0x200000)

/-- The outstanding zero-window transactions complete, the window switches, and the held requests go to the new target;
while a LOCKED sequence keeps one waiting, the switch waits with it (R355). -/
def State.switchRemap (s : State) : State :=
  if s.bus.remapTo.isNone then s
  else
    let t := State.drainBus { s with bus := { s.bus with answers := [] } }
    match t.bus.remapTo with
    | some b =>
      if t.zeroBusy then t
      else State.drainBus { t with bus := { t.bus with
        remap := b, remapTo := none, waiting := t.bus.waiting ++ t.bus.held, held := [] } }
    | none => t

def execRemapSwitch (s : State) : Host.Outcome State Fault Refusal := .next (s.onPin State.switchRemap)

end Sys2Proof.Machine
end

