-- ==== Sys2Proof/Machine/DmaBurst.lean ====
section
/-! DEFINITION. The bursts of the DMA engine over the bus matrix (R351, R356 to R365). -/

namespace Sys2Proof.Machine

/-! ### Ends of transfers (R360, R364, R365) -/

/-- The completion pulse of channel `n`. -/
def State.dmaPulse (s : State) (n : Nat) : State := (s.irqPulse n).pulseTo n

/-- A bus error halts the channel. -/
def State.dmaError (s : State) (n a : Nat) (write : Bool) : State :=
  (s.modDma n fun c => { c.halt .busError with errAddr := w32 a, dir := write }).fire 78 n

/-- The channel as a descriptor loads it; none where the descriptor is bad. -/
def State.descriptor (s : State) (n : Nat) (c : DmaCh) : Option DmaCh :=
  let a := c.link.toNat
  let b := (List.range 32).map fun k => (s.sramByte (a - 0x10000000 + k)).getD (Config.freeByte (s.free + k))
  let w := fun o => w32 (lef b o 4)
  let d := { c with src := w 0, dst := w 4, count := lef b 8 4, ctrl := w 12 &&& ctrlMask, link := w 16, links := c.links + 1 }
  if targetOf a = .sram && a % 32 = 0 && !bit (w 12) 31 && !bit (w 12) 30 && allZero b 20 12 && d.whyNot n = 0 then some d
  else none

/-- A transfer has ended: the chain goes on, ends, or halts. -/
def State.dmaEnd (s : State) (n : Nat) : State :=
  let c := s.dmac n
  if !bit c.ctrl 26 || c.link = 0#32 then
    (s.modDma n fun c => { c with busy := false, triggered := false, code := .done }).dmaPulse n
  else
    let s := if bit c.ctrl 8 then s.dmaPulse n else s
    if c.links = 4096 then s.modDma n fun c => { c.halt .linkLimit with errAddr := c.link }
    else match s.descriptor n (s.dmac n) with
      | some d => s.modDma n fun _ => d.arm
      | none => s.modDma n fun c => { c.halt .refused with errAddr := c.link, why := 6#4 }

/-! ### The burst -/

/-- A channel has a burst ready (R358, R363). -/
def State.dmaReady (s : State) (n : Nat) : Bool := (s.dmac n).busy && !s.dmaWaits n

/-- The channel that the engine grants: highest PRIO, then round robin (R363). -/
def State.dmaGrant (s : State) : Option Nat :=
  minBy (fun n =>
    let p := (s.dmac n).prio
    (3 - p) * 16 + (n + 16 - tget (fun _ => 0) s.dma.lastOf p % 16) % 16) ((List.range 16).filter s.dmaReady)

/-- The words of the next burst of a channel, as address pairs. -/
def DmaCh.words (c : DmaCh) : List (Nat × Nat) :=
  (List.range (c.burst.2 / 4)).map fun k =>
    (sideAddr c.srcMode c.wrapLog c.curSrc (c.burst.1 + 4 * k), sideAddr c.dstMode c.wrapLog c.curDst (c.burst.1 + 4 * k))

/-- A side of a burst of channel `n` as a request of master 1: reads carry identifier `n` and writes 16 + `n` (R351), and
an access to the register region is one CONTROL access of 32 bits (R359). -/
def dmaReq (n addr len : Nat) (write : Bool) : BusReq :=
  let reg := targetOf addr = .regs
  { master := 1, cls := if reg then .control else .bulk, id := Fin.ofNat 32 (if write then 16 + n else n), addr := addr,
    len := if reg then 4 else len, write := write, data := [], first := false, rest := 0 }

/-- The next access of a burst in the register region takes its own turn; a burst that has begun completes (R358, R359). -/
def State.nextTurn (s : State) (n : Nat) (write : Bool) : List Nat → State
  | [] => s
  | a :: _ => (s.turnAt (dmaReq n a 4 write)).2

/-- Registers are read by single accesses. -/
def State.regsGet (n : Nat) : List Nat → State → Except Nat (List Nat) × State
  | [], s => (.ok [], s)
  | a :: as, s =>
    match s.busRead 1 a with
    | (none, t) => (.error a, t)
    | (some v, t) =>
      match State.regsGet n as (t.nextTurn n false as) with
      | (.ok vs, u) => (.ok (v :: vs), u)
      | (.error b, u) => (.error b, u)

/-- Registers are written by single accesses. -/
def State.regsPut (n : Nat) : List (Nat × Nat) → State → Nat × Option Nat × State
  | [], s => (0, none, s)
  | (a, v) :: rest, s =>
    match s.busWrite 1 a v with
    | (false, t) => (0, some a, t)
    | (true, t) =>
      match State.regsPut n rest (t.nextTurn n true (rest.map (·.1))) with
      | (m, e, u) => (m + 1, e, u)

/-- The accesses of a burst whose first is granted: the data read, or the address that failed. -/
def State.dmaGet (s : State) (n : Nat) (l : List Nat) : Except Nat (List Nat) × State :=
  if l.any (targetOf · = .regs) then State.regsGet n l s else s.readBurst 1 l

/-- The same for a write: the words written, and the address that failed. -/
def State.dmaPut (s : State) (n : Nat) (l : List (Nat × Nat)) : Nat × Option Nat × State :=
  if l.any (targetOf ·.1 = .regs) then State.regsPut n l s else s.writeBurst 1 l

/-- The data of a burst of channel `n`, read whole, is written. -/
def State.dmaStore (s : State) (n : Nat) (c : DmaCh) (vs : List Nat) : State :=
  let s := s.modDma n fun k => { k with left := c.left - c.burst.2 }
  match s.dmaPut n ((c.words.map (·.2)).zip vs) with
  | (m, some a, t) => (t.modDma n fun k => { k with left := c.left - 4 * m }).dmaError n a true
  | (_, none, t) => if (t.dmac n).busy && (t.dmac n).left = 0 then t.dmaEnd n else t

/-- Channel `n` moves one burst, each side at its port's grant; a burst whose port a LOCKED sequence keeps is made
again later (assumption 64). -/
def State.dmaBurst (s : State) (n : Nat) : State :=
  let c := s.dmac n
  let (ok, s) := s.turnAt (dmaReq n c.nextSrc c.burst.2 false)
  if !ok || (s.port (targetOf c.nextDst)).lock.isSome then s
  else
    let s := { s with dma.lastOf := tset (fun _ => 0) s.dma.lastOf c.prio ((n + 1) % 16) }
    match s.dmaGet n (c.words.map (·.1)) with
    | (.error a, t) => t.dmaError n a false
    | (.ok vs, t) =>
      let (ok, t) := t.turnAt (dmaReq n c.nextDst c.burst.2 true)
      if ok then t.dmaStore n c vs else t

/-- The engine's grant among the outstanding requests of the other masters, which the ports then serve. -/
def State.dmaTurn (s : State) : State :=
  if !s.core then s
  else
    let s := { s with bus := { s.bus with answers := [] } }
    (match s.dmaGrant with
      | some n => s.dmaBurst n
      | none => s).drainBus

def execDmaBurst (s : State) : Host.Outcome State Fault Refusal :=
  .next (s.onPin State.dmaTurn)

end Sys2Proof.Machine
end

