-- ==== Sys2Proof/Machine/Dispatch.lean ====
section
/-! DEFINITION. The dispatch: one arm per command of the opcode table, each one direct call of its meaning. -/

namespace Sys2Proof.Machine

def exec (i : Instr) (s : State) : Host.Outcome State Fault Refusal :=
  match i with
  -- start, resets and host function
  | .powerUp straps vin10mV => Sys2Proof.Machine.execPowerUp straps vin10mV s
  | .endpointReady dt => Sys2Proof.Machine.execEndpointReady dt s
  | .vinDropOut => Sys2Proof.Machine.execVinDropOut s
  | .rstNAssert => Sys2Proof.Machine.execRstNAssert s
  | .rstNRelease => Sys2Proof.Machine.execRstNRelease s
  | .modrst value => Sys2Proof.Machine.execModrst value s
  | .perstNAssert => Sys2Proof.Machine.execPerstNAssert s
  | .perstNRelease dt => Sys2Proof.Machine.execPerstNRelease dt s
  | .functionLevelReset => Sys2Proof.Machine.execFunctionLevelReset s
  | .busMasterEnableClear => Sys2Proof.Machine.execBusMasterEnableClear s
  | .busMasterEnableSet => Sys2Proof.Machine.execBusMasterEnableSet s
  | .d3hotEntry => Sys2Proof.Machine.execD3hotEntry s
  | .d0Return => Sys2Proof.Machine.execD0Return s
  -- stabling and wake
  | .stabling dt => Sys2Proof.Machine.execStabling dt s
  | .stabled dt => Sys2Proof.Machine.execStabled dt s
  | .closingSummaryTimeout dt => Sys2Proof.Machine.execClosingSummaryTimeout dt s
  | .wakeIn dt => Sys2Proof.Machine.execWakeIn dt s
  | .stableReqNRelease dt => Sys2Proof.Machine.execStableReqNRelease dt s
  | .wakeTimer dt => Sys2Proof.Machine.execWakeTimer dt s
  | .testEnActive => Sys2Proof.Machine.execTestEnActive s
  | .testEnInactive => Sys2Proof.Machine.execTestEnInactive s
  -- test access port
  | .tapReset => Sys2Proof.Machine.execTapReset s
  | .extest => Sys2Proof.Machine.execExtest s
  | .samplePreload => Sys2Proof.Machine.execSamplePreload s
  | .idcode => Sys2Proof.Machine.execIdcode s
  | .clamp => Sys2Proof.Machine.execClamp s
  | .highz => Sys2Proof.Machine.execHighz s
  | .makerPrivateInstruction code => Sys2Proof.Machine.execMakerPrivateInstruction code s
  | .bypass code => Sys2Proof.Machine.execBypass code s
  | .pinTakingEnd dt => Sys2Proof.Machine.execPinTakingEnd dt s
  -- SMBus
  | .smbState => Sys2Proof.Machine.execSmbState s
  | .smbUnitId => Sys2Proof.Machine.execSmbUnitId s
  | .smbVin => Sys2Proof.Machine.execSmbVin s
  | .smbTcase => Sys2Proof.Machine.execSmbTcase s
  | .smbTdie => Sys2Proof.Machine.execSmbTdie s
  | .smbPinStatus => Sys2Proof.Machine.execSmbPinStatus s
  | .smbRev => Sys2Proof.Machine.execSmbRev s
  | .smbRefused isWrite code => Sys2Proof.Machine.execSmbRefused isWrite code s
  -- supervisor
  | .supervisorWdt dt => Sys2Proof.Machine.execSupervisorWdt dt s
  | .lockstepMismatch dt => Sys2Proof.Machine.execLockstepMismatch dt s
  | .supervisorReturn dt => Sys2Proof.Machine.execSupervisorReturn dt s
  | .trialEnd dt => Sys2Proof.Machine.execTrialEnd dt s
  | .supervisorWaitExpiry dt ring => Sys2Proof.Machine.execSupervisorWaitExpiry dt ring s
  -- faults
  | .faultFire dt src detail stopped => Sys2Proof.Machine.execFaultFire dt src detail stopped s
  | .levelSourceEnd dt src => Sys2Proof.Machine.execLevelSourceEnd dt src s
  | .errNPulseEnd dt => Sys2Proof.Machine.execErrNPulseEnd dt s
  | .stickyClear k mask => Sys2Proof.Machine.execStickyClear k mask s
  | .severityWrite k value => Sys2Proof.Machine.execSeverityWrite k value s
  | .errForce value => Sys2Proof.Machine.execErrForce value s
  | .errRelease value => Sys2Proof.Machine.execErrRelease value s
  | .allClr value => Sys2Proof.Machine.execAllClr value s
  | .parkRelease mask => Sys2Proof.Machine.execParkRelease mask s
  | .isolationRelease mask => Sys2Proof.Machine.execIsolationRelease mask s
  | .fltSel value => Sys2Proof.Machine.execFltSel value s
  | .faultInject ring => Sys2Proof.Machine.execFaultInject ring s
  | .faultInjectHold ring => Sys2Proof.Machine.execFaultInjectHold ring s
  | .faultInjectEnd ring => Sys2Proof.Machine.execFaultInjectEnd ring s
  | .injectionExpiry dt src => Sys2Proof.Machine.execInjectionExpiry dt src s
  -- register accesses
  | .timeSnap dt => Sys2Proof.Machine.execTimeSnap dt s
  | .lowWordRead offset => Sys2Proof.Machine.execLowWordRead offset s
  | .registerWrite offset size value => Sys2Proof.Machine.execRegisterWrite offset size value s
  -- roles
  | .secGrantRequest dt value flashOk => Sys2Proof.Machine.execSecGrantRequest dt value flashOk s
  | .revoke value => Sys2Proof.Machine.execRevoke value s
  | .grantExpiry dt => Sys2Proof.Machine.execGrantExpiry dt s
  | .deniedWriteAudit dt => Sys2Proof.Machine.execDeniedWriteAudit dt s
  | .secKeySel value => Sys2Proof.Machine.execSecKeySel value s
  -- command opcodes, at the head of a command ring
  | .nop ring => Sys2Proof.Machine.execNop ring s
  | .mapLoad ring => Sys2Proof.Machine.execMapLoad ring s
  | .mapLoadComplete ring => Sys2Proof.Machine.execMapLoadComplete ring s
  | .mapRoute ring => Sys2Proof.Machine.execMapRoute ring s
  | .routeDone dt => Sys2Proof.Machine.execRouteDone dt s
  | .mapApply ring => Sys2Proof.Machine.execMapApply ring s
  | .mapApplyPreparation dt ring => Sys2Proof.Machine.execMapApplyPreparation dt ring s
  | .mapCancel ring => Sys2Proof.Machine.execMapCancel ring s
  | .mapRead ring => Sys2Proof.Machine.execMapRead ring s
  | .mapFree ring => Sys2Proof.Machine.execMapFree ring s
  | .failAdd ring => Sys2Proof.Machine.execFailAdd ring s
  | .failRemove ring => Sys2Proof.Machine.execFailRemove ring s
  | .profileWrite ring => Sys2Proof.Machine.execProfileWrite ring s
  | .profileWriteField ring => Sys2Proof.Machine.execProfileWriteField ring s
  | .profileRead ring => Sys2Proof.Machine.execProfileRead ring s
  | .loopSetpoint ring => Sys2Proof.Machine.execLoopSetpoint ring s
  | .calProbe ring => Sys2Proof.Machine.execCalProbe ring s
  | .calSweep ring => Sys2Proof.Machine.execCalSweep ring s
  | .calReset ring => Sys2Proof.Machine.execCalReset ring s
  | .calComplete dt cell meas => Sys2Proof.Machine.execCalComplete dt cell meas s
  | .bankLoad ring => Sys2Proof.Machine.execBankLoad ring s
  | .patternStart ring => Sys2Proof.Machine.execPatternStart ring s
  | .patternSwap ring => Sys2Proof.Machine.execPatternSwap ring s
  | .patternStop ring => Sys2Proof.Machine.execPatternStop ring s
  | .timeStep ring => Sys2Proof.Machine.execTimeStep ring s
  | .timeStepToSource ring => Sys2Proof.Machine.execTimeStepToSource ring s
  | .laneConfig ring => Sys2Proof.Machine.execLaneConfig ring s
  | .streamWrite ring => Sys2Proof.Machine.execStreamWrite ring s
  | .streamRead ring => Sys2Proof.Machine.execStreamRead ring s
  | .cfgStore ring => Sys2Proof.Machine.execCfgStore ring s
  | .auditRead ring => Sys2Proof.Machine.execAuditRead ring s
  | .keySet ring => Sys2Proof.Machine.execKeySet ring s
  | .keyClear ring => Sys2Proof.Machine.execKeyClear ring s
  | .imageWrite ring => Sys2Proof.Machine.execImageWrite ring s
  | .imageActivate ring => Sys2Proof.Machine.execImageActivate ring s
  | .imageQuery ring => Sys2Proof.Machine.execImageQuery ring s
  | .consistConfigure ring => Sys2Proof.Machine.execConsistConfigure ring s
  | .consistDistribute ring => Sys2Proof.Machine.execConsistDistribute ring s
  | .consistSwap ring => Sys2Proof.Machine.execConsistSwap ring s
  -- rings
  | .ringStart ring => Sys2Proof.Machine.execRingStart ring s
  | .ringReset ring => Sys2Proof.Machine.execRingReset ring s
  | .ringResetComplete ring => Sys2Proof.Machine.execRingResetComplete ring s
  | .doorbell ring value => Sys2Proof.Machine.execDoorbell ring value s
  | .eventDoorbell ring value => Sys2Proof.Machine.execEventDoorbell ring value s
  | .pollTimer dt ring control => Sys2Proof.Machine.execPollTimer dt ring control s
  | .entryFetch dt ring reads flashOk => Sys2Proof.Machine.execEntryFetch dt ring reads flashOk s
  | .holdoffExpiry dt ring => Sys2Proof.Machine.execHoldoffExpiry dt ring s
  -- endpoint
  | .transmitEntry dt ring => Sys2Proof.Machine.execTransmitEntry dt ring s
  | .frameStart dt lane => Sys2Proof.Machine.execFrameStart dt lane s
  | .frameSent dt lane => Sys2Proof.Machine.execFrameSent dt lane s
  | .txNofit dt lane queue => Sys2Proof.Machine.execTxNofit dt lane queue s
  | .frameReceive dt lane frame => Sys2Proof.Machine.execFrameReceive dt lane frame s
  | .blockLockChange dt lane lock fecLock => Sys2Proof.Machine.execBlockLockChange dt lane lock fecLock s
  | .linkUp dt lane => Sys2Proof.Machine.execLinkUp dt lane s
  | .linkDown dt lane => Sys2Proof.Machine.execLinkDown dt lane s
  | .preemptVerify dt lane response => Sys2Proof.Machine.execPreemptVerify dt lane response s
  | .shaperRefill dt lane queue => Sys2Proof.Machine.execShaperRefill dt lane queue s
  | .eptShapeWrite lane queue value => Sys2Proof.Machine.execEptShapeWrite lane queue value s
  | .pacedRelease dt ctx => Sys2Proof.Machine.execPacedRelease dt ctx s
  | .calendarSlot dt => Sys2Proof.Machine.execCalendarSlot dt s
  | .overflowMove dt => Sys2Proof.Machine.execOverflowMove dt s
  | .policeCredit dt ctx => Sys2Proof.Machine.execPoliceCredit dt ctx s
  | .recoveryReset dt ctx => Sys2Proof.Machine.execRecoveryReset dt ctx s
  | .slotRelease dt ctx => Sys2Proof.Machine.execSlotRelease dt ctx s
  | .laneReset mask => Sys2Proof.Machine.execLaneReset mask s
  | .eptStrSel value => Sys2Proof.Machine.execEptStrSel value s
  -- time
  | .sync dt inst lane msg => Sys2Proof.Machine.execSync dt inst lane msg s
  | .followUp dt inst lane msg => Sys2Proof.Machine.execFollowUp dt inst lane msg s
  | .timeJump => Sys2Proof.Machine.execTimeJump s
  | .linkDelayExchange dt lane meanDelay rateRatio => Sys2Proof.Machine.execLinkDelayExchange dt lane meanDelay rateRatio s
  | .syncTransmit dt inst lane => Sys2Proof.Machine.execSyncTransmit dt inst lane s
  | .announceTransmit dt inst lane body => Sys2Proof.Machine.execAnnounceTransmit dt inst lane body s
  | .holdover dt => Sys2Proof.Machine.execHoldover dt s
  | .holdoverDrift dt => Sys2Proof.Machine.execHoldoverDrift dt s
  | .timeCtrlWrite value => Sys2Proof.Machine.execTimeCtrlWrite value s
  | .driftLimWrite value => Sys2Proof.Machine.execDriftLimWrite value s
  | .timeDomCfgWrite inst value => Sys2Proof.Machine.execTimeDomCfgWrite inst value s
  | .ppsIn dt => Sys2Proof.Machine.execPpsIn dt s
  | .ppsInLoss dt => Sys2Proof.Machine.execPpsInLoss dt s
  | .ppsOut dt => Sys2Proof.Machine.execPpsOut dt s
  | .ppsOutPulseEnd dt => Sys2Proof.Machine.execPpsOutPulseEnd dt s
  | .step dt => Sys2Proof.Machine.execStep dt s
  | .stepLapsed dt => Sys2Proof.Machine.execStepLapsed dt s
  -- schedule
  | .rowBoundary dt => Sys2Proof.Machine.execRowBoundary dt s
  | .gateEvent dt lane => Sys2Proof.Machine.execGateEvent dt lane s
  | .bankStart dt => Sys2Proof.Machine.execBankStart dt s
  | .bankSwap dt => Sys2Proof.Machine.execBankSwap dt s
  | .bankEnd dt => Sys2Proof.Machine.execBankEnd dt s
  | .failQuietStart dt => Sys2Proof.Machine.execFailQuietStart dt s
  | .failQuietEnd dt => Sys2Proof.Machine.execFailQuietEnd dt s
  | .holdStart dt => Sys2Proof.Machine.execHoldStart dt s
  | .holdEnd dt => Sys2Proof.Machine.execHoldEnd dt s
  -- fabric
  | .castOnOrder dt => Sys2Proof.Machine.execCastOnOrder dt s
  | .castOnComplete dt chamber => Sys2Proof.Machine.execCastOnComplete dt chamber s
  | .bindOff dt chamber => Sys2Proof.Machine.execBindOff dt chamber s
  | .bindOffComplete dt chamber => Sys2Proof.Machine.execBindOffComplete dt chamber s
  | .fabChCtrlWrite chamber value => Sys2Proof.Machine.execFabChCtrlWrite chamber value s
  | .stagingStitch dt cell => Sys2Proof.Machine.execStagingStitch dt cell s
  | .revert dt cell => Sys2Proof.Machine.execRevert dt cell s
  | .sequencerArmed dt => Sys2Proof.Machine.execSequencerArmed dt s
  | .circuitChangeStart dt => Sys2Proof.Machine.execCircuitChangeStart dt s
  | .guardIntervalEnd dt => Sys2Proof.Machine.execGuardIntervalEnd dt s
  | .changeComplete dt => Sys2Proof.Machine.execChangeComplete dt s
  -- loops
  | .mSample dt cell y => Sys2Proof.Machine.execMSample dt cell y s
  | .droppedStitch dt cell => Sys2Proof.Machine.execDroppedStitch dt cell s
  | .settleTimeout dt cell => Sys2Proof.Machine.execSettleTimeout dt cell s
  | .cellFailed cell => Sys2Proof.Machine.execCellFailed cell s
  | .oSample dt cell tap0 tap1 => Sys2Proof.Machine.execOSample dt cell tap0 tap1 s
  | .handoverRetry dt cell tap0 tap1 => Sys2Proof.Machine.execHandoverRetry dt cell tap0 tap1 s
  | .lightLoss dt cell => Sys2Proof.Machine.execLightLoss dt cell s
  | .bSample dt cell => Sys2Proof.Machine.execBSample dt cell s
  | .balanceSettled cell => Sys2Proof.Machine.execBalanceSettled cell s
  | .oscDetect cell => Sys2Proof.Machine.execOscDetect cell s
  | .loopProfileIdx chamber value => Sys2Proof.Machine.execLoopProfileIdx chamber value s
  | .loopSel dt chamber value => Sys2Proof.Machine.execLoopSel dt chamber value s
  | .fabCellSel value => Sys2Proof.Machine.execFabCellSel value s
  | .periodIn dt => Sys2Proof.Machine.execPeriodIn dt s
  | .estimatorEdge dt => Sys2Proof.Machine.execEstimatorEdge dt s
  | .periodLockLoss dt => Sys2Proof.Machine.execPeriodLockLoss dt s
  | .fadeEnd dt => Sys2Proof.Machine.execFadeEnd dt s
  | .binVisitEnd dt => Sys2Proof.Machine.execBinVisitEnd dt s
  | .flowstoneClear chamber value => Sys2Proof.Machine.execFlowstoneClear chamber value s
  | .polarityReversal dt elem => Sys2Proof.Machine.execPolarityReversal dt elem s
  | .fabPolCfgWrite value => Sys2Proof.Machine.execFabPolCfgWrite value s
  | .driftProbe dt cell => Sys2Proof.Machine.execDriftProbe dt cell s
  | .wearLevel elem => Sys2Proof.Machine.execWearLevel elem s
  | .wearRate dt elem => Sys2Proof.Machine.execWearRate dt elem s
  | .wearSummary dt => Sys2Proof.Machine.execWearSummary dt s
  | .wearSummaryNow value => Sys2Proof.Machine.execWearSummaryNow value s
  | .fabDripSel value => Sys2Proof.Machine.execFabDripSel value s
  | .traceTick dt chamber => Sys2Proof.Machine.execTraceTick dt chamber s
  | .traceArm chamber value => Sys2Proof.Machine.execTraceArm chamber value s
  | .swtrig chamber value => Sys2Proof.Machine.execSwtrig chamber value s
  | .traceDone chamber => Sys2Proof.Machine.execTraceDone chamber s
  | .historyCopy => Sys2Proof.Machine.execHistoryCopy s
  | .fabHistCtrlWrite value => Sys2Proof.Machine.execFabHistCtrlWrite value s
  -- chamber stops
  | .engineLoss dt chamber => Sys2Proof.Machine.execEngineLoss dt chamber s
  | .chamberReset mask => Sys2Proof.Machine.execChamberReset mask s
  | .analogHoldExpiry dt chamber => Sys2Proof.Machine.execAnalogHoldExpiry dt chamber s
  | .chamberResetComplete dt chamber => Sys2Proof.Machine.execChamberResetComplete dt chamber s
  -- consists
  | .heartbeatInterval dt => Sys2Proof.Machine.execHeartbeatInterval dt s
  | .heartbeat dt lane frame => Sys2Proof.Machine.execHeartbeat dt lane frame s
  | .memberLost dt slot => Sys2Proof.Machine.execMemberLost dt slot s
  | .mgrLost dt => Sys2Proof.Machine.execMgrLost dt s
  | .promotion dt => Sys2Proof.Machine.execPromotion dt s
  | .consistLeft dt consist => Sys2Proof.Machine.execConsistLeft dt consist s
  | .claim dt lane frame => Sys2Proof.Machine.execClaim dt lane frame s
  | .claimRound dt => Sys2Proof.Machine.execClaimRound dt s
  | .claimEnd dt => Sys2Proof.Machine.execClaimEnd dt s
  | .couple dt lane frame => Sys2Proof.Machine.execCouple dt lane frame s
  | .couplingStep dt => Sys2Proof.Machine.execCouplingStep dt s
  | .couplingLimit dt => Sys2Proof.Machine.execCouplingLimit dt s
  | .ready dt lane frame => Sys2Proof.Machine.execReady dt lane frame s
  | .release dt lane frame => Sys2Proof.Machine.execRelease dt lane frame s
  | .distData dt lane frame => Sys2Proof.Machine.execDistData dt lane frame s
  | .distResult dt lane frame => Sys2Proof.Machine.execDistResult dt lane frame s
  | .distResendTimeout dt => Sys2Proof.Machine.execDistResendTimeout dt s
  | .swap dt lane frame => Sys2Proof.Machine.execSwap dt lane frame s
  | .swapResult dt lane frame => Sys2Proof.Machine.execSwapResult dt lane frame s
  | .biarnRefused dt => Sys2Proof.Machine.execBiarnRefused dt s
  | .authBurst dt => Sys2Proof.Machine.execAuthBurst dt s
  -- internal bus matrix, DMA, interrupts
  | .dmaStart acc ch value => Sys2Proof.Machine.execDmaStart acc ch value s
  | .dmaAbort acc ch value => Sys2Proof.Machine.execDmaAbort acc ch value s
  | .dmaTrigger trig level => Sys2Proof.Machine.execDmaTrigger trig level s
  | .dmaBurst => Sys2Proof.Machine.execDmaBurst s
  | .lockBrk dt => Sys2Proof.Machine.execLockBrk dt s
  | .remapWrite acc value => Sys2Proof.Machine.execRemapWrite acc value s
  | .remapSwitch => Sys2Proof.Machine.execRemapSwitch s
  | .irqClaim by_ => Sys2Proof.Machine.execIrqClaim by_ s
  | .irqComplete by_ value => Sys2Proof.Machine.execIrqComplete by_ value s
  | .irqSetpend by_ k mask => Sys2Proof.Machine.execIrqSetpend by_ k mask s
  | .irqPendClear by_ k mask => Sys2Proof.Machine.execIrqPendClear by_ k mask s
  | .irqSrcCfgWrite by_ src value => Sys2Proof.Machine.execIrqSrcCfgWrite by_ src value s
  -- test block
  | .selfTestStart value => Sys2Proof.Machine.execSelfTestStart value s
  | .selfTestStop value => Sys2Proof.Machine.execSelfTestStop value s
  | .selfTestEnd dt => Sys2Proof.Machine.execSelfTestEnd dt s
  | .tstModeWrite adcRaw value => Sys2Proof.Machine.execTstModeWrite adcRaw value s
  -- endings
  | .bankLoadChecked dt bank => Sys2Proof.Machine.execBankLoadChecked dt bank s
  | .flashOperationDone dt op ok => Sys2Proof.Machine.execFlashOperationDone dt op ok s
  | .watchdogHalfTime dt => Sys2Proof.Machine.execWatchdogHalfTime dt s
  | .pewakeNTimeout dt => Sys2Proof.Machine.execPewakeNTimeout dt s
  | .instanceValidTimeout dt inst => Sys2Proof.Machine.execInstanceValidTimeout dt inst s
  | .badAlignRead offset size => Sys2Proof.Machine.execBadAlignRead offset size s

end Sys2Proof.Machine
end

