-- ==== Sys2Proof/Machine/Step.lean ====
section
/-! DEFINITION. The step: the command at the front of the queue runs on the state with the queue's rest. -/

namespace Sys2Proof.Machine

/-- With no command waiting, a running fast clock counts one cycle, with what falls due in it (R15, R164); otherwise the
block idles (DESIGN CHOICE, assumption 2). -/
def State.idle (s : State) : State := if s.time.running then (s.pass 1).finish else s

/-- The queue without its front. -/
def State.withPending (s : State) (q : List Instr) : State := { s with pending := q }

/-- One step. -/
def step (s : State) : Host.Outcome State Fault Refusal :=
  match s.pending with
  | [] => .next s.idle
  | c :: rest => exec c (s.withPending rest)

/-- The command that a word spells, put at the front of the queue; none of the table's rows has bits. -/
def State.withFetchWord (s : State) (nbits w : Nat) : State :=
  match decodeTableWord nbits w with
  | some c => s.withPending (c :: s.pending)
  | none => s

end Sys2Proof.Machine
end

