-- ==== Sys2Proof/Safety.lean ====
section
/-! DEFINITION. What counts as a safe run, and the invariants that claims use. -/

namespace Sys2Proof.Machine

/-- A step is safe if it answers a next state: nothing faults and nothing is refused. -/
def State.stepsSafely (s : State) : Prop := ∃ t, step s = .next t

/-- The fault collector is consistent: no firing waits for its reactions (R336), every active level source has its
sticky bit set (R334), and ERR_N is held after a pulse only as its mode allows (R340). -/
def State.collectorInv (s : State) : Prop :=
  s.flt.fireQ = [] ∧ (∀ n < 96, s.activeSrc n = true → s.sticky n = true) ∧
    (s.flt.errHeld = true → s.errMode = 2 ∨ (s.errMode = 1 ∧ s.errSticky = true))

/-- Every byte of SRAM but those of `n` bytes from `a` is unchanged. -/
def State.sramKept (s t : State) (a n : Nat) : Prop := ∀ x, (x < a ∨ a + n ≤ x) → rd t.sram x = rd s.sram x

/-- The state without what completions, events, messages, audit entries and firings change: the rings and the count of
their accepted commands, the fault collector, the interrupt sources, the roles, the flash, what the module has sent, the
free values used, and the marks of the bits set in this cycle. -/
def State.frame (s : State) : State :=
  { s with marks := {}, sec := {}, flt := {}, irq := [], rings := [], accepts := 0, msixPba := 0#64, flash := {},
           out := [], free := 0 }

end Sys2Proof.Machine
end

