-- ==== Sys2Proof/WellFormed.lean ====
section
/-! DEFINITION. The well-formed commands: what a command's row says of its operands. `exec` is total all the same. -/

namespace Sys2Proof

/-- The reads of one fetch: an entry of the ring's size, a payload in canonical form, and an authentication block of 64
bytes (R250, R275, R276). -/
def FetchRead.wf (ring : Nat) (r : FetchRead) : Bool :=
  (match r.entry with
    | some b => b.length = Machine.entrySize ring
    | none => true) &&
  (match r.payload with
    | some m => Machine.Memory.wf m
    | none => true) &&
  (match r.auth with
    | some a => a.length = 64
    | none => true)

/-- A Biarn frame: header, Biarn header, a TAG of 16 octets, and a VLAN tag or none (R298). -/
def BiarnFrame.wf (f : BiarnFrame) : Bool :=
  decide (14 ≤ f.octets.length) && f.tag.length = 16 && (f.vlan.length = 0 || f.vlan.length = 4)

/-- The classes that a master issues (R344). -/
def issuesClass (m : Master) (c : TrafficClass) : Bool :=
  match c with
  | .bulk => true
  | .control => m = 0 || m = 1 || m = 2 || m = 7
  | .locked => m = 0

/-- A transaction of the matrix: a class of its master, words within the class's length, a LOCKED access within a
sequence of 2 to 4 (R344, R347). -/
def BusReq.wf (r : BusReq) : Bool :=
  issuesClass r.master r.cls && decide (r.addr % 4 = 0) && decide (r.len % 4 = 0) && decide (4 ≤ r.len) &&
    decide (r.addr + r.len ≤ 2 ^ 32) && (r.data.length = if r.write then r.len else 0) &&
    (match r.cls with
      | .bulk => decide (r.len ≤ 0x1000000) && !r.first && decide (r.rest = 0)
      | .control => decide (r.addr / 64 = (r.addr + r.len - 1) / 64) && !r.first && decide (r.rest = 0)
      | .locked => decide (r.addr / 64 = (r.addr + r.len - 1) / 64) && decide (r.rest ≤ 3) && (!r.first || decide (1 ≤ r.rest)) &&
          (r.first || decide (r.rest ≤ 2)))

/-- The transactions beside an access are such as masters issue; the DMA engine's are its bursts. -/
def BusAccess.wf (a : BusAccess) : Bool := a.others.all fun r => r.wf && decide (r.master ≠ 1)

/-- A code that selects BYPASS: neither a named instruction of the port nor a maker private one (R456). -/
def bypassCode (c : Byte) : Bool := decide (4 < c.toNat) && (decide (c.toNat < 0x80) || decide (0xBF < c.toNat))

/-- The operands of a command are such as its row admits. -/
def Instr.wf : Instr → Bool
  -- start, resets and host function
  | .powerUp _ vin10mV => decide (900 ≤ vin10mV.toNat) && decide (vin10mV.toNat ≤ 1600)
  | .endpointReady _ => true
  | .vinDropOut => true
  | .rstNAssert => true
  | .rstNRelease => true
  | .modrst value => value.getLsbD 31
  | .perstNAssert => true
  | .perstNRelease _ => true
  | .functionLevelReset => true
  | .busMasterEnableClear => true
  | .busMasterEnableSet => true
  | .d3hotEntry => true
  | .d0Return => true
  -- stabling and wake
  | .stabling _ => true
  | .stabled _ => true
  | .closingSummaryTimeout _ => true
  | .wakeIn _ => true
  | .stableReqNRelease _ => true
  | .wakeTimer _ => true
  | .testEnActive => true
  | .testEnInactive => true
  -- test access port
  | .tapReset => true
  | .extest => true
  | .samplePreload => true
  | .idcode => true
  | .clamp => true
  | .highz => true
  | .makerPrivateInstruction code => decide (0x80 ≤ code.toNat) && decide (code.toNat ≤ 0xBF)
  | .bypass code => bypassCode code
  | .pinTakingEnd _ => true
  -- SMBus
  | .smbState => true
  | .smbUnitId => true
  | .smbVin => true
  | .smbTcase => true
  | .smbTdie => true
  | .smbPinStatus => true
  | .smbRev => true
  | .smbRefused isWrite code => isWrite || decide (6 < code.toNat)
  -- supervisor
  | .supervisorWdt _ => true
  | .lockstepMismatch _ => true
  | .supervisorReturn _ => true
  | .trialEnd _ => true
  | .supervisorWaitExpiry _ _ => true
  -- faults
  | .faultFire _ src _ stopped => !stopped || src.val = 88
  | .levelSourceEnd _ _ => true
  | .errNPulseEnd _ => true
  | .stickyClear _ _ => true
  | .severityWrite _ _ => true
  | .errForce _ => true
  | .errRelease value => value.getLsbD 31
  | .allClr value => value.getLsbD 29
  | .parkRelease _ => true
  | .isolationRelease _ => true
  | .fltSel _ => true
  | .faultInject _ => true
  | .faultInjectHold _ => true
  | .faultInjectEnd _ => true
  | .injectionExpiry _ _ => true
  -- register accesses
  | .timeSnap _ => true
  | .lowWordRead offset => (Machine.lowOf8 offset).isSome
  | .registerWrite offset size _ => decide (1 ≤ size) && decide (size ≤ 8) && decide (offset + size ≤ 0x900000) &&
    (decide (offset + size ≤ 0x100000) || decide (0x100000 ≤ offset))
  -- roles
  | .secGrantRequest _ value _ => value.getLsbD 31
  | .revoke value => value.getLsbD 30
  | .grantExpiry _ => true
  | .deniedWriteAudit _ => true
  | .secKeySel _ => true
  -- command opcodes, at the head of a command ring
  | .nop _ => true
  | .mapLoad _ => true
  | .mapLoadComplete _ => true
  | .mapRoute _ => true
  | .routeDone _ => true
  | .mapApply _ => true
  | .mapApplyPreparation _ _ => true
  | .mapCancel _ => true
  | .mapRead _ => true
  | .mapFree _ => true
  | .failAdd _ => true
  | .failRemove _ => true
  | .profileWrite _ => true
  | .profileWriteField _ => true
  | .profileRead _ => true
  | .loopSetpoint _ => true
  | .calProbe _ => true
  | .calSweep _ => true
  | .calReset _ => true
  | .calComplete _ _ _ => true
  | .bankLoad _ => true
  | .patternStart _ => true
  | .patternSwap _ => true
  | .patternStop _ => true
  | .timeStep _ => true
  | .timeStepToSource _ => true
  | .laneConfig _ => true
  | .streamWrite _ => true
  | .streamRead _ => true
  | .cfgStore _ => true
  | .auditRead _ => true
  | .keySet _ => true
  | .keyClear _ => true
  | .imageWrite _ => true
  | .imageActivate _ => true
  | .imageQuery _ => true
  | .consistConfigure _ => true
  | .consistDistribute _ => true
  | .consistSwap _ => true
  -- rings
  | .ringStart _ => true
  | .ringReset _ => true
  | .ringResetComplete _ => true
  | .doorbell _ _ => true
  | .eventDoorbell _ _ => true
  | .pollTimer _ _ _ => true
  | .entryFetch _ ring reads _ => reads.all (FetchRead.wf ring.val)
  | .holdoffExpiry _ _ => true
  -- endpoint
  | .transmitEntry _ _ => true
  | .frameStart _ _ => true
  | .frameSent _ _ => true
  | .txNofit _ _ _ => true
  | .frameReceive _ _ frame => decide (14 ≤ frame.octets.length)
  | .blockLockChange _ _ _ _ => true
  | .linkUp _ _ => true
  | .linkDown _ _ => true
  | .preemptVerify _ _ _ => true
  | .shaperRefill _ _ _ => true
  | .eptShapeWrite _ _ _ => true
  | .pacedRelease _ _ => true
  | .calendarSlot _ => true
  | .overflowMove _ => true
  | .policeCredit _ _ => true
  | .recoveryReset _ _ => true
  | .slotRelease _ _ => true
  | .laneReset _ => true
  | .eptStrSel _ => true
  -- time
  | .sync _ _ _ _ => true
  | .followUp _ _ _ _ => true
  | .timeJump => true
  | .linkDelayExchange _ _ _ _ => true
  | .syncTransmit _ _ _ => true
  | .announceTransmit _ _ _ body => decide (46 ≤ body.length) && decide (body.length ≤ 1500)
  | .holdover _ => true
  | .holdoverDrift _ => true
  | .timeCtrlWrite _ => true
  | .driftLimWrite _ => true
  | .timeDomCfgWrite _ _ => true
  | .ppsIn _ => true
  | .ppsInLoss _ => true
  | .ppsOut _ => true
  | .ppsOutPulseEnd _ => true
  | .step _ => true
  | .stepLapsed _ => true
  -- schedule
  | .rowBoundary _ => true
  | .gateEvent _ _ => true
  | .bankStart _ => true
  | .bankSwap _ => true
  | .bankEnd _ => true
  | .failQuietStart _ => true
  | .failQuietEnd _ => true
  | .holdStart _ => true
  | .holdEnd _ => true
  -- fabric
  | .castOnOrder _ => true
  | .castOnComplete _ _ => true
  | .bindOff _ _ => true
  | .bindOffComplete _ _ => true
  | .fabChCtrlWrite _ _ => true
  | .stagingStitch _ _ => true
  | .revert _ _ => true
  | .sequencerArmed _ => true
  | .circuitChangeStart _ => true
  | .guardIntervalEnd _ => true
  | .changeComplete _ => true
  -- loops
  | .mSample _ _ _ => true
  | .droppedStitch _ _ => true
  | .settleTimeout _ _ => true
  | .cellFailed _ => true
  | .oSample _ _ _ _ => true
  | .handoverRetry _ _ _ _ => true
  | .lightLoss _ _ => true
  | .bSample _ _ => true
  | .balanceSettled _ => true
  | .oscDetect _ => true
  | .loopProfileIdx _ _ => true
  | .loopSel _ _ _ => true
  | .fabCellSel _ => true
  | .periodIn _ => true
  | .estimatorEdge _ => true
  | .periodLockLoss _ => true
  | .fadeEnd _ => true
  | .binVisitEnd _ => true
  | .flowstoneClear _ value => value.getLsbD 30
  | .polarityReversal _ _ => true
  | .fabPolCfgWrite _ => true
  | .driftProbe _ _ => true
  | .wearLevel _ => true
  | .wearRate _ _ => true
  | .wearSummary _ => true
  | .wearSummaryNow value => value.getLsbD 31
  | .fabDripSel _ => true
  | .traceTick _ _ => true
  | .traceArm _ value => value.getLsbD 31
  | .swtrig _ value => value.getLsbD 30
  | .traceDone _ => true
  | .historyCopy => true
  | .fabHistCtrlWrite _ => true
  -- chamber stops
  | .engineLoss _ _ => true
  | .chamberReset _ => true
  | .analogHoldExpiry _ _ => true
  | .chamberResetComplete _ _ => true
  -- consists
  | .heartbeatInterval _ => true
  | .heartbeat _ _ frame => frame.wf
  | .memberLost _ _ => true
  | .mgrLost _ => true
  | .promotion _ => true
  | .consistLeft _ _ => true
  | .claim _ _ frame => frame.wf
  | .claimRound _ => true
  | .claimEnd _ => true
  | .couple _ _ frame => frame.wf
  | .couplingStep _ => true
  | .couplingLimit _ => true
  | .ready _ _ frame => frame.wf
  | .release _ _ frame => frame.wf
  | .distData _ _ frame => frame.wf
  | .distResult _ _ frame => frame.wf
  | .distResendTimeout _ => true
  | .swap _ _ frame => frame.wf
  | .swapResult _ _ frame => frame.wf
  | .biarnRefused _ => true
  | .authBurst _ => true
  -- internal bus matrix, DMA, interrupts
  | .dmaStart acc _ value => acc.wf && value.getLsbD 31 && !value.getLsbD 30
  | .dmaAbort acc _ value => acc.wf && value.getLsbD 30
  | .dmaTrigger trig _ => (decide (1 ≤ trig.toNat) && decide (trig.toNat ≤ 5)) || (decide (16 ≤ trig.toNat) && decide (trig.toNat ≤ 31))
  | .dmaBurst => true
  | .lockBrk _ => true
  | .remapWrite acc _ => acc.wf
  | .remapSwitch => true
  | .irqClaim _ => true
  | .irqComplete _ _ => true
  | .irqSetpend _ _ _ => true
  | .irqPendClear _ _ _ => true
  | .irqSrcCfgWrite _ _ _ => true
  -- test block
  | .selfTestStart value => value.getLsbD 31
  | .selfTestStop value => value.getLsbD 30
  | .selfTestEnd _ => true
  | .tstModeWrite _ _ => true
  -- endings
  | .bankLoadChecked _ _ => true
  | .flashOperationDone _ _ _ => true
  | .watchdogHalfTime _ => true
  | .pewakeNTimeout _ => true
  | .instanceValidTimeout _ _ => true
  | .badAlignRead offset size => decide (1 ≤ size) && Machine.badRead offset size

end Sys2Proof
end

