-- ==== Sys2Proof/Certificates/Slice0/Obligations.lean ====
section
/-! DEFINITION. The statements for the provers. In each, `exec c s = .next t.finish` says that the command answers a
next state: `t` is the command's own effect and `finish` makes the reactions of what the command fired, keeps the sticky
bits of active level sources, and takes the interrupt inputs; with nothing fired `finish` changes only those. A command
that the module's own clock brings carries the cycles `dt` since the command before it: `s.pass dt` is the state `s`
after them (the first statement says what they change). -/

open Sys2Proof Sys2Proof.Machine

/-- A step runs the command at the front of the queue. For every command c, queue rest q and state s, the step of s
with queue c :: q is exec of c on s with queue q; with an empty queue the step lets one cycle of a running fast
clock pass, with what falls due in it, and changes nothing while the clock stands (the model's choice, log entry 2).
The passing of dt cycles counts them in the raw counter in whole steps of the clock; where no read-out of a loop,
profile word or link delay exchange is due it changes nothing else, and it never changes a register, memory, the
circuits, the schedule, the hierarchy or the power state. (95_what_each_step_holds.md, 01_architecture.md) -/
def Obligations.StepRunsTheFrontCommand : Prop :=
  (∀ (c : Instr) (q : List Instr) (s : State), step { s with pending := c :: q } = exec c { s with pending := q }) ∧
  (∀ s : State, s.pending = [] → s.time.running = true → step s = .next (s.pass 1).finish) ∧
  (∀ s : State, s.pending = [] → s.time.running = false → step s = .next s) ∧
  (∀ (s : State) (dt : Nat),
  (s.pass dt).time.raw = s.time.raw + (if s.time.running then BitVec.ofNat 64 (dt / s.clockStep * s.clockStep) else 0#64) ∧
  (s.loop.jobs = [] → (∀ p ∈ s.loop.chans, p.2.snapDue = none) → (∀ l < 8, (s.run dt).delayRuns l = false) →
    s.pass dt = { s with time := { s.time with raw := (s.pass dt).time.raw } }) ∧
  (s.pass dt).pending = s.pending ∧ (s.pass dt).regs = s.regs ∧ (s.pass dt).sram = s.sram ∧ (s.pass dt).fab = s.fab ∧
  (s.pass dt).sched = s.sched ∧ (s.pass dt).casc = s.casc ∧ (s.pass dt).pwr = s.pwr ∧ (s.pass dt).sup = s.sup ∧
  (s.pass dt).bus = s.bus ∧ (s.pass dt).dma = s.dma ∧ (s.pass dt).tst = s.tst ∧ (s.pass dt).tap = s.tap)

/-- Every command answers a next state in which no reaction is left to make. For every command and state, exec
answers a next state; that state is the end (finish) of some state, so no firing waits for its reactions, and every
active level source has its sticky bit set. Where nothing has fired, finish changes the fault collector, the
interrupt sources and the marks of the bits set in this cycle alone. (R334, R336) -/
def Obligations.EveryCommandEndsItsReactions : Prop :=
  (∀ (c : Instr) (s : State), ∃ t : State, exec c s = .next t.finish ∧ t.finish.flt.fireQ = [] ∧
    ∀ n < 96, t.finish.activeSrc n = true → t.finish.sticky n = true) ∧
  (∀ t : State, t.flt.fireQ = [] → ∃ (q : Tab IrqSrc) (m : SetMarks), t.finish = { t with flt := t.relevel.settleErr.flt, irq := q, marks := m } ∧
    t.finish.flt.src = t.flt.src ∧ t.finish.flt.park = t.flt.park ∧ t.finish.flt.isol = t.flt.isol ∧
    t.finish.flt.parkedAll = t.flt.parkedAll ∧ t.finish.flt.pulseEnd = t.flt.pulseEnd)

/-- Every step keeps the fault collector consistent. For every state that meets the invariant (no firing without its
reactions, the sticky bit of every active level source set, ERR_N held after a pulse only as its mode allows), the
step answers a next state that meets it. (R334, R336, R340) -/
def Obligations.StepKeepsTheFaultCollector : Prop :=
  ∀ s : State, s.collectorInv → ∃ t : State, step s = .next t ∧ t.collectorInv

/-- What reset leaves, and that it meets the invariant of the fault collector. State.reset meets the invariant of
StepKeepsTheFaultCollector; at it no map is in force, every map and every bank is EMPTY and none runs, every ring is
DISABLED, the hierarchy is DISABLED, no grant is in force, network time is FREE with DRIFT 1, every chamber is OFF
with its cells at rest, memory lists nothing, and no command waits. (R334, R340, R395) -/
def Obligations.ResetMeetsTheFaultCollector : Prop :=
  State.reset.collectorInv ∧ State.reset.pending = [] ∧ State.reset.fab.inForce = none ∧
  (∀ m, (State.reset.dir m).state = .empty) ∧ (∀ b, (State.reset.bank b).state = .empty) ∧ State.reset.sched.run = none ∧
  (∀ r, (State.reset.ring r).state = .disabled) ∧ State.reset.casc.role = .disabled ∧ State.reset.sec.grant = none ∧
  State.reset.time.state = .free ∧ State.reset.time.drift = true ∧ (∀ h, State.reset.pstate h = .off) ∧
  (∀ c, (State.reset.cell c).pos = .rest ∧ (State.reset.cell c).mode = .park) ∧ State.reset.sram = []

/-- What the SMBus target answers, and the instructions of the test access port. While VIN is in range, the SMBus
commands 00h to 06h return the state code, the unit identity (zeros before the first start), VIN, TCASE, TDIE, the
pin states and the revision of the last start; a write or any other code is not acknowledged. Where the port runs,
SAMPLE/PRELOAD, IDCODE and BYPASS are taken; EXTEST, CLAMP, HIGHZ and a maker private instruction are taken where
pin-taking is allowed and act as BYPASS elsewhere; IDCODE selects 0256056Fh at build B0; Test-Logic-Reset loads
IDCODE; when the condition of a pin-taking instruction has ended the port loads BYPASS. What the boundary-scan
register captures is in log entry 50. Without VIN no SMBus command, and where the port does not run no instruction,
does anything. (R416, R456, R457, R459) -/
def Obligations.SmbusAndTestPort : Prop :=
  (∀ s : State, s.pwr.phase ≠ .unpowered →
    (∀ p code, (p, code) ∈ [(Phase.starting, 0#8), (.running, 1#8), (.stabling, 2#8), (.stabled, 3#8), (.waking, 4#8), (.reset, 5#8)] →
      s.pwr.phase = p → exec .smbState s = .next (s.emit (.smbusData [code])).finish) ∧
    (s.sup.startedOnce = true →
      exec .smbUnitId s = .next (s.emit (.smbusData (leBytes 8 s.flash.relpety.unitId.toNat))).finish) ∧
    (s.sup.startedOnce = false → exec .smbUnitId s = .next (s.emit (.smbusData (zeros 8))).finish) ∧
    exec .smbVin s = .next (s.emit (.smbusData (leBytes 2 s.pwr.vin10mV.toNat))).finish ∧
    exec .smbTcase s = .next (s.emit (.smbusData [s.pwr.tcase])).finish ∧
    exec .smbTdie s = .next (s.emit (.smbusData [s.pwr.tdie])).finish ∧
    exec .smbPinStatus s =
      .next (s.emit (.smbusData (leBytes 2 (at_ s.errPin 0 + at_ s.intPin 1 + at_ s.flt.parkedAll 2)))).finish ∧
    exec .smbRev s = .next (s.emit (.smbusData (leBytes 2 s.sup.revLast.toNat))).finish ∧
    (∀ w c, (w = true ∨ 6 < c.toNat) → exec (.smbRefused w c) s = .next (s.emit .smbusNack).finish)) ∧
  (∀ (s : State) (w : Bool) (b : Byte), s.pwr.phase = .unpowered →
    ∀ c ∈ [Instr.smbState, .smbUnitId, .smbVin, .smbTcase, .smbTdie, .smbPinStatus, .smbRev, .smbRefused w b],
      exec c s = .next s.finish) ∧
  (∀ (s : State) (b : Byte), s.tapRuns = false →
    ∀ c ∈ [Instr.samplePreload, .idcode, .bypass b, .tapReset, .extest, .clamp, .highz, .makerPrivateInstruction b],
      exec c s = .next s.finish) ∧
  (∀ s : State, s.tapRuns = true →
    (∃ t : State, exec .samplePreload s = .next t.finish ∧ t.tap.instr = .samplePreload ∧ t.tap.bsr = s.contacts) ∧
    (∃ t : State, exec .idcode s = .next t.finish ∧ t.tap.instr = .idcode ∧ t.tap.dr = s.deviceId ∧
      (s.flash.relpety.letter = 0x42#8 → t.tap.dr = 0x0256056F#32)) ∧
    (∀ c, ∃ t : State, exec (.bypass c) s = .next t.finish ∧ t.tap.instr = .bypass ∧ t.tap.dr = 0#32) ∧
    (∃ t : State, exec .tapReset s = .next t.finish ∧ t.tap.instr = .idcode ∧ t.pwr.trstN = false) ∧
    (∀ i c, (i, c) ∈ [(TapInstr.extest, Instr.extest), (.clamp, .clamp), (.highz, .highz)] →
      (s.pinsAllowed i = true → ∃ t : State, exec c s = .next t.finish ∧ t.tap.instr = i) ∧
      (s.pinsAllowed i = false → ∃ t : State, exec c s = .next t.finish ∧ t.tap.instr = .bypass)) ∧
    (∀ b, (s.pinsAllowed (.maker b) = true →
        ∃ t : State, exec (.makerPrivateInstruction b) s = .next t.finish ∧ t.tap.instr = .maker b) ∧
      (s.pinsAllowed (.maker b) = false →
        ∃ t : State, exec (.makerPrivateInstruction b) s = .next t.finish ∧ t.tap.instr = .bypass))) ∧
  (∀ (s u : State) (dt : Nat), u = s.pass dt →
    (u.tap.instr.takesPins = true → u.pinsAllowed u.tap.instr = false →
      ∃ t : State, exec (.pinTakingEnd dt) s = .next t.finish ∧ t.tap.instr = .bypass) ∧
    (u.tap.instr.takesPins = false ∨ u.pinsAllowed u.tap.instr = true → exec (.pinTakingEnd dt) s = .next u.finish))

/-- PERST_N, function-level reset, Bus Master Enable and D3hot. A function that is reachable or in D3hot takes a
function-level reset (bus mastering, grant, latched and held words and the MSI-X table return to reset), Bus Master
Enable, D3hot and D0, and another takes none of them; PERST_N low resets the host side of a module that is powered
and is only noted by another; PERST_N high is noted by a running module; endpoint-ready with PERST_N high ends the
start, or a wake, with a Device Readiness message, and does nothing otherwise. That a reset clears Bus Master Enable
is log entry 14. (R271, R272, R328, R392, R424, R428) -/
def Obligations.HostFunctionEvents : Prop :=
  (∀ s : State,
    (s.hostUp = true ∨ s.pwr.d3hot = true →
      (∃ t : State, exec .functionLevelReset s = .next t.finish ∧ t.pwr.bme = false ∧ t.sec.grant = none ∧ t.latch = [] ∧
        t.lowHeld = [] ∧ t.msixTab = [] ∧ t.msixPba = 0#64 ∧ t.fab.histOff = 0 ∧ t.fab.histLap = 0) ∧
      (∃ t : State, exec .busMasterEnableSet s = .next t.finish ∧ t.pwr = { s.pwr with bme := true }) ∧
      (∃ t : State, exec .busMasterEnableClear s = .next t.finish ∧ t.pwr = { s.pwr with bme := false })) ∧
    (s.hostUp = false → s.pwr.d3hot = false →
      exec .functionLevelReset s = .next s.finish ∧
      (∃ t : State, exec .busMasterEnableSet s = .next t.finish ∧ t.pwr = s.pwr) ∧
      (∃ t : State, exec .busMasterEnableClear s = .next t.finish ∧ t.pwr = s.pwr)) ∧
    (s.hostUp = true → exec .d3hotEntry s = .next (s.onPwr fun p => { p with d3hot := true }).finish) ∧
    (s.hostUp = false → exec .d3hotEntry s = .next s.finish) ∧
    (∃ t : State, exec .d0Return s = .next t.finish ∧ t.pwr = { s.pwr with d3hot := false }) ∧
    (s.core = true → ∃ t : State, exec .perstNAssert s = .next t.finish ∧ t.pwr.perstN = false ∧ t.pwr.linkL0 = false ∧
      t.sec.grant = none ∧ t.latch = [] ∧ t.lowHeld = []) ∧
    (s.core = false → exec .perstNAssert s = .next (s.onPwr fun p => { p with perstN := false, linkL0 := false }).finish)) ∧
  (∀ (s u : State) (dt : Nat), u = s.pass dt →
    (u.pwr.phase = .running →
      ∃ t : State, exec (.perstNRelease dt) s = .next t.finish ∧ t.pwr = { u.pwr with perstN := true }) ∧
    (u.pwr.phase = .starting → u.pwr.perstN = true → exec (.endpointReady dt) s = .next
      ((u.onPwr fun p => { p with phase := .running, endpointReady := true }).emit .deviceReadiness).finish) ∧
    (u.pwr.phase = .waking → u.pwr.perstN = true →
      ∃ t : State, exec (.endpointReady dt) s = .next t.finish ∧
        t.pwr = { u.pwr with phase := .running, endpointReady := true } ∧ t.out = u.out ++ [.deviceReadiness] ∧
        t.flt.pulseEnd = none ∧ t.flt.relWritten = false) ∧
    (u.pwr.perstN = false ∨ (u.pwr.phase ≠ .starting ∧ u.pwr.phase ≠ .waking) →
      exec (.endpointReady dt) s = .next u.finish))

/-- Power-up, loss of VIN, RST_N and MODRST. From an unpowered module, and from State.reset's state with RST_N high,
power-up samples the straps and begins the start sequence with the clock running, the supervisor started under REMAP
1, no map in force and no bank running; a module that is up already it leaves alone. VIN below range leaves the
module unpowered and RST_N low leaves it in reset, each with every block blank but for what flash keeps (log entry
24), and RST_N low with its bit of SYS_RESET_CAUSE. RST_N high in reset begins the start sequence, and otherwise
only the pin changes. MODRST under a grant resets the module, with its bit of SYS_RESET_CAUSE, and begins the start
sequence. That the supervisor counts as started at t0 is log entry 13. (R373, R391, R394, R395, R407, R413) -/
def Obligations.PowerAndResetEvents : Prop :=
  (∀ (s : State) (st : Straps) (v : BitVec 16),
  (s.pwr.phase = .unpowered ∨ (s.pwr.phase = .reset ∧ s.pwr.rstN = true) →
    ∃ t : State, exec (.powerUp st v) s = .next t.finish ∧ t.pwr.phase = .starting ∧ t.pwr.straps = st ∧ t.pwr.vin10mV = v ∧
      t.time.running = true ∧ t.bus.remap = true ∧ t.sup.available = true ∧ t.fab.inForce = none ∧ t.sched.run = none) ∧
  (s.pwr.phase ≠ .unpowered → (s.pwr.phase ≠ .reset ∨ s.pwr.rstN = false) → exec (.powerUp st v) s = .next s.finish)) ∧
  (∀ s : State, s.pwr.phase ≠ .unpowered →
  (∃ t : State, exec .vinDropOut s = .next t.finish ∧ t.pwr.phase = .unpowered ∧ t.regs = [] ∧ t.sram = [] ∧ t.rings = [] ∧
    t.time.running = false ∧ t.fab.inForce = none ∧ t.sched.run = none ∧ t.flash.store = s.flash.store ∧
    t.sec.audit = s.sec.audit) ∧
  (∃ t : State, exec .rstNAssert s = .next t.finish ∧ t.pwr.phase = .reset ∧ t.pwr.rstN = false ∧ t.sram = [] ∧ t.rings = [] ∧
    t.fab.inForce = none ∧ t.sched.run = none ∧ t.sec.grant = none ∧ t.flash.store = s.flash.store ∧
    t.sec.audit = s.sec.audit ∧ bit (t.rg .sysResetCause) 30 = true)) ∧
  (∀ s : State, s.pwr.phase = .unpowered → exec .vinDropOut s = .next s.finish ∧
  exec .rstNAssert s = .next (s.onPwr fun p => { p with rstN := false }).finish) ∧
  (∀ s : State,
  (s.pwr.phase = .reset → s.pwr.rstN = false →
    ∃ t : State, exec .rstNRelease s = .next t.finish ∧ t.pwr.phase = .starting ∧ t.pwr.rstN = true ∧
      t.pwr.straps = s.pwr.strapPins ∧ t.time.running = true ∧ t.bus.remap = true) ∧
  (s.pwr.rstN = true → exec .rstNRelease s = .next s.finish) ∧
  (s.pwr.phase ≠ .reset → s.pwr.rstN = false →
    exec .rstNRelease s = .next (s.onPwr fun p => { p with rstN := true }).finish)) ∧
  (∀ (s : State) (v : Word), s.hostUp = true → s.grantOk = true → bit v 31 = true →
  ∃ t : State, exec (.modrst v) s = .next t.finish ∧ t.pwr.phase = .starting ∧ t.sec.grant = none ∧ t.fab.inForce = none ∧
    t.sched.run = none ∧ bit (t.rg .sysResetCause) 29 = true)

/-- Stabling, the stabled state and every wake. STABLE_REQ_N held low stables a module that runs or starts, and is
only noted otherwise; with the closing summary written the module is stabled, at rest and without supervisor, and a
wake source latched meanwhile wakes it at once, with LATE; the closing wait ends after its time with NO_CLOSE; each
wake source wakes a stabled module with its cause and PEWAKE_N as the source asks, is latched while stabling, the
first one kept, and is otherwise only noted; PEWAKE_N is released after its time. Otherwise only the time passes.
(R382, R383, R385, R386, R387) -/
def Obligations.StablingAndWake : Prop :=
  (∀ (s u : State) (dt : Nat), u = s.pass dt →
    ((u.pwr.phase = .running ∨ u.pwr.phase = .starting) → u.pwr.stableReqN = true →
      ∃ t : State, exec (.stabling dt) s = .next t.finish ∧ t.pwr.phase = .stabling ∧ t.pwr.stableReqN = false ∧
        t.pwr.endpointReady = false ∧ t.sec.grant = none ∧ t.fab.sumDue = some true) ∧
    ((u.pwr.phase ≠ .running ∧ u.pwr.phase ≠ .starting) ∨ u.pwr.stableReqN = false →
      exec (.stabling dt) s = .next (u.onPwr fun p => { p with stableReqN := false }).finish) ∧
    (u.pwr.phase = .stabling → u.pwr.closingDone = true → u.pwr.wakeLatched = none →
      ∃ t : State, exec (.stabled dt) s = .next t.finish ∧ t.pwr.phase = .stabled ∧ t.pwr.clkreq = false ∧
        t.sup.available = false ∧ t.fab.inForce = none ∧ t.sched.run = none ∧ t.ept.wheel = [] ∧ t.pwr.stabledAt = u.now) ∧
    (∀ w, u.pwr.phase = .stabling → u.pwr.closingDone = true → u.pwr.wakeLatched = some w →
      ∃ t : State, exec (.stabled dt) s = .next t.finish ∧ t.pwr.phase = .waking ∧ t.pwr.wakeCause = w.code ∧
        t.pwr.clkreq = true ∧ t.fab.inForce = none ∧ t.sched.run = none ∧ bit (t.rg .pwrStatus) 28 = true) ∧
    (u.pwr.phase ≠ .stabling ∨ u.pwr.closingDone = false → exec (.stabled dt) s = .next u.finish) ∧
    (u.pwr.phase = .stabling → u.expired u.pwr.closing = true → u.sup.available = false →
      ∃ t : State, exec (.closingSummaryTimeout dt) s = .next t.finish ∧ t.pwr.closingDone = true ∧ t.pwr.closing = none ∧
        bit (t.rg .pwrStatus) 27 = true) ∧
    (u.pwr.phase ≠ .stabling ∨ u.expired u.pwr.closing = false ∨ u.sup.available = true →
      exec (.closingSummaryTimeout dt) s = .next u.finish) ∧
    (u.pwr.phase = .stabled →
      (∃ t : State, exec (.wakeIn dt) s = .next t.finish ∧ t.pwr.phase = .waking ∧ t.pwr.wakeCause = 1#3 ∧
        t.pwr.wakeIn = true ∧ t.pwr.pewake = some (u.now + secC 1)) ∧
      (∃ t : State, exec (.stableReqNRelease dt) s = .next t.finish ∧ t.pwr.phase = .waking ∧ t.pwr.wakeCause = 2#3 ∧
        t.pwr.stableReqN = true) ∧
      (u.expired u.pwr.wakeTimer = true →
        ∃ t : State, exec (.wakeTimer dt) s = .next t.finish ∧ t.pwr.phase = .waking ∧ t.pwr.wakeCause = 4#3) ∧
      (u.pwr.perstN = false → bit (u.rg .pwrStableCfg) 29 = true →
        ∃ t : State, exec (.perstNRelease dt) s = .next t.finish ∧ t.pwr.phase = .waking ∧ t.pwr.wakeCause = 3#3 ∧
          t.pwr.pewake = none)) ∧
    (u.pwr.phase = .stabling →
      exec (.wakeIn dt) s = .next (u.onPwr fun p =>
        { p with wakeIn := true, wakeLatched := some (p.wakeLatched.getD .wakeIn) }).finish ∧
      exec (.stableReqNRelease dt) s = .next (u.onPwr fun p =>
        { p with stableReqN := true, wakeLatched := some (p.wakeLatched.getD .stableReqN) }).finish ∧
      (u.pwr.perstN = false → bit (u.rg .pwrStableCfg) 29 = true → exec (.perstNRelease dt) s = .next (u.onPwr fun p =>
        { p with perstN := true, wakeLatched := some (p.wakeLatched.getD .perstN) }).finish)) ∧
    (u.pwr.phase ≠ .stabled → u.pwr.phase ≠ .stabling →
      exec (.wakeIn dt) s = .next (u.onPwr fun p => { p with wakeIn := true }).finish ∧
      exec (.stableReqNRelease dt) s = .next (u.onPwr fun p => { p with stableReqN := true }).finish) ∧
    (u.pwr.phase ≠ .stabled ∨ u.expired u.pwr.wakeTimer = false → exec (.wakeTimer dt) s = .next u.finish) ∧
    ((u.pwr.perstN = true ∨ bit (u.rg .pwrStableCfg) 29 = false ∨ (u.pwr.phase ≠ .stabled ∧ u.pwr.phase ≠ .stabling)) →
      exec (.perstNRelease dt) s = .next (u.onPwr fun p => { p with perstN := true }).finish) ∧
    (u.expired u.pwr.pewake = true →
      exec (.pewakeNTimeout dt) s = .next (u.onPwr fun p => { p with pewake := none }).finish) ∧
    (u.expired u.pwr.pewake = false → exec (.pewakeNTimeout dt) s = .next u.finish))

/-- What a supervisor restart leaves, and its return. A watchdog expiry or a lockstep mismatch of an available
supervisor marks its bit of SYS_RESET_CAUSE, fires source 68 or 67, makes the supervisor unavailable and clears
REMAP; of a GOOD image the third restart within 60 s leaves the supervisor stopped, of a TRIAL image each one adds
to FAILS and the third makes the slot FAILED. With the supervisor away a mismatch only fires and a watchdog expiry
changes nothing. The return of a supervisor that is away, not stopped and powered makes it available under the next
EPOCH with REMAP 1 and an empty sender table; otherwise nothing returns. 60 s without a restart make a TRIAL image
GOOD. A command that has waited 500 ms for the supervisor completes with status 04h and its attempt is held for the
log. At half the watchdog time interrupt source 88 pulses. What a restart does to waiting heads is log entry 25.
(R17, R18, R300, R303, R332, R336, R355, R366, R396, R399, R403) -/
def Obligations.SupervisorRestartsAndReturns : Prop :=
  (∀ (s u : State) (dt : Nat), u = s.pass dt →
  (u.sup.available = true →
    (∃ t : State, exec (.supervisorWdt dt) s = .next t.finish ∧ t.sup.available = false ∧ t.bus.remap = false ∧
      bit (t.rg .sysResetCause) 28 = true ∧ ∃ q ∈ t.flt.fireQ, q.src = 68) ∧
    (∃ t : State, exec (.lockstepMismatch dt) s = .next t.finish ∧ t.sup.available = false ∧ t.bus.remap = false ∧
      bit (t.rg .sysResetCause) 27 = true ∧ ∃ q ∈ t.flt.fireQ, q.src = 67)) ∧
  (u.sup.available = true → u.sup.recovery = false →
    ∃ t : State, exec (.supervisorWdt dt) s = .next t.finish ∧
      ((u.img u.sup.slot.toNat).state = .good →
        t.sup.stopped = decide (2 ≤ (u.sup.restarts.filter fun a => u.now < a + secC 60).length)) ∧
      ((u.img u.sup.slot.toNat).state = .trial →
        (t.img u.sup.slot.toNat).fails = (u.img u.sup.slot.toNat).fails + 1 ∧
        (2 ≤ (u.img u.sup.slot.toNat).fails → (t.img u.sup.slot.toNat).state = .failed ∧ t.sup.fallback = true) ∧
        ((u.img u.sup.slot.toNat).fails < 2 → (t.img u.sup.slot.toNat).state = .trial))) ∧
  (u.sup.available = false → exec (.supervisorWdt dt) s = .next u.finish ∧
    (u.core = true → exec (.lockstepMismatch dt) s = .next (u.fire 67).finish))) ∧
  (∀ (s u : State) (dt : Nat), u = s.pass dt →
  (u.sup.available = false → u.sup.stopped = false → u.core = true →
    ∃ t : State, exec (.supervisorReturn dt) s = .next t.finish ∧ t.sup.available = true ∧ t.bus.remap = true ∧
      t.casc.senders = [] ∧ t.flash.epoch = u.flash.epoch + 1) ∧
  (u.sup.available = true ∨ u.sup.stopped = true ∨ u.core = false →
    exec (.supervisorReturn dt) s = .next u.finish)) ∧
  (∀ (s u : State) (dt : Nat), u = s.pass dt →
  (u.sup.available = true → u.expired u.sup.trial = true →
    ∃ t : State, exec (.trialEnd dt) s = .next t.finish ∧ t.sup.trial = none ∧
      (t.img u.sup.slot.toNat).state = (if (u.img u.sup.slot.toNat).state = .trial then .good
        else (u.img u.sup.slot.toNat).state)) ∧
  (u.sup.available = false ∨ u.expired u.sup.trial = false → exec (.trialEnd dt) s = .next u.finish)) ∧
  (∀ (s u : State) (dt : Nat) (r : Fin 16) (e : Entry) (es : List Entry), u = s.pass dt → (u.ring r.val).entries = e :: es →
  e.state = .waitSup → e.done = none → u.expired (u.ring r.val).supWait = true →
  exec (.supervisorWaitExpiry dt r) s =
    .next (((u.holdAudit { cmdAudit r.val e 4 with result := 4#8 }).finishCmd r.val e.idx 4 false).finish)) ∧
  (∀ (s u : State) (dt : Nat) (r : Fin 16), u = s.pass dt →
  (∀ e es, (u.ring r.val).entries = e :: es →
    e.state ≠ .waitSup ∨ e.done.isSome = true ∨ u.expired (u.ring r.val).supWait = false) →
  exec (.supervisorWaitExpiry dt r) s = .next u.finish) ∧
  (∀ (s u : State) (dt : Nat), u = s.pass dt →
  (u.sup.available = true → exec (.watchdogHalfTime dt) s = .next (u.irqPulse 88).finish) ∧
  (u.sup.available = false → exec (.watchdogHalfTime dt) s = .next u.finish))

/-- Firings, the ends of conditions, the ERR_N pulse, and FAULT_INJECT. With the module up, a pulse source whose
condition is detected fires with its DETAIL; a level source becomes active, fires where it was not, and fires
nothing where it is active for the same unit. Where the operand of CLOCK_FAULT says that the TCXO itself has stopped
(log entry 7), the raw counter steps by 31,250 and the time unit is in FREE, unless SRC is 11b. SOFT_TEST,
CASC_STACK without a stack, the five sources whose condition is part of this state (log entry 5), and any source of
a module that is not up answer without a firing. The end of a level source's condition makes it inactive and fires
nothing (LINK: the link is in L0 again). The ERR_N pulse ends as its mode says: ERR_N is then held in modes 01b and
11b, and in mode 10b without RELEASE. A FAULT_INJECT ready at the head of its ring fires its source marked INJECTED,
holds a level source active for its DURATION with one firing if it was not active, or ends the hold, then completes
with status 00h and TAKEN, once its reactions are made; where no such command stands there, nothing happens. A held
injection ends after its time. (R334, R335, R336, R340, R343, R380) -/
def Obligations.FaultFiringsAndInjection : Prop :=
  ((∀ (s u : State) (dt : Nat) (n : Fin 96) (d : BitVec 16) (x : Bool), u = s.pass dt →
    (u.core = true → n.val ≠ 94 → ownCondition n.val = false → isLevelSource n.val = false →
      exec (.faultFire dt n d x) s = .next (u.fire n.val d.toNat).finish) ∧
    (u.core = true → ownCondition n.val = false → isLevelSource n.val = true → (n.val = 95 → u.casc.role = .stack) →
      (n.val = 88 → x = false) → ∃ t : State, exec (.faultFire dt n d x) s = .next t.finish ∧ (t.fsrc n.val).active = true ∧
        (u.activeSrc n.val = false → t.flt.fireQ.map (fun q => (q.src, q.injected)) =
          u.flt.fireQ.map (fun q => (q.src, q.injected)) ++ [(n.val, false)]) ∧
        ((u.fsrc n.val).active = true →
          ((unitOf n.val d.toNat).index.isNone ∨ (u.fsrc n.val).conds.any (·.2 = (unitOf n.val d.toNat).index) = true) →
          n.val ≠ 95 → t.flt.fireQ = u.flt.fireQ)) ∧
    (u.core = true → n.val = 88 → x = true → ∃ t : State, exec (.faultFire dt n d x) s = .next t.finish ∧
      (t.fsrc 88).active = true ∧ t.time.xoStopped = true ∧ t.clockStep = 31250 ∧
      (u.src = 3 → t.time.state = u.time.state) ∧ (u.src ≠ 3 → t.time.state = .free ∧ t.time.accepted = false)) ∧
    (u.core = false ∨ n.val = 94 ∨ ownCondition n.val = true ∨ (n.val = 95 ∧ u.casc.role ≠ .stack) →
      exec (.faultFire dt n d x) s = .next u.finish)) ∧
  (∀ (s u : State) (dt : Nat) (n : Fin 96), u = s.pass dt →
    (isLevelSource n.val = true → ownCondition n.val = false →
      ∃ t : State, exec (.levelSourceEnd dt n) s = .next t.finish ∧ (t.fsrc n.val).active = false ∧
        t.flt.fireQ = u.flt.fireQ ∧ (n.val = 79 → t.pwr.linkL0 = true) ∧ (n.val ≠ 79 → t.pwr = u.pwr)) ∧
    (isLevelSource n.val = false ∨ ownCondition n.val = true → exec (.levelSourceEnd dt n) s = .next u.finish)) ∧
  (∀ (s u : State) (dt : Nat), u = s.pass dt →
    (u.expired u.flt.pulseEnd = true →
      ∃ t : State, exec (.errNPulseEnd dt) s = .next t.finish ∧ t.flt.pulseEnd = none ∧ t.flt.fireQ = u.flt.fireQ ∧
        t.flt.errHeld = (u.errMode = 1 || (u.errMode = 2 && !u.flt.relWritten))) ∧
    (u.expired u.flt.pulseEnd = false → exec (.errNPulseEnd dt) s = .next u.finish))) ∧
  ((∀ (s : State) (r : Fin 16) (e : Entry), s.readyHead r.val 0x5F = some e →
    (byteAt e.bytes 25 = 0 → exec (.faultInject r) s = .next ((State.drainFires 8
      ((s.begin_ r.val e.idx).injectOnce (byteAt e.bytes 24) (lef e.bytes 26 2))).finishCmd r.val e.idx 0 true).finish) ∧
    (byteAt e.bytes 25 = 1 → exec (.faultInjectHold r) s = .next ((State.drainFires 8
      ((s.begin_ r.val e.idx).injectHold (byteAt e.bytes 24) (lef e.bytes 26 2) (s.now + usC (lef e.bytes 28 4)))).finishCmd
        r.val e.idx 0 true).finish) ∧
    (byteAt e.bytes 25 = 2 → exec (.faultInjectEnd r) s = .next ((State.drainFires 8
      ((s.begin_ r.val e.idx).injectEnd (byteAt e.bytes 24))).finishCmd r.val e.idx 0 true).finish)) ∧
  (∀ (s : State) (r : Fin 16),
    (∀ e, s.readyHead r.val 0x5F = some e → byteAt e.bytes 25 ≠ 0) → exec (.faultInject r) s = .next s.finish) ∧
  (∀ (s : State) (r : Fin 16),
    (∀ e, s.readyHead r.val 0x5F = some e → byteAt e.bytes 25 ≠ 1) → exec (.faultInjectHold r) s = .next s.finish) ∧
  (∀ (s : State) (r : Fin 16),
    (∀ e, s.readyHead r.val 0x5F = some e → byteAt e.bytes 25 ≠ 2) → exec (.faultInjectEnd r) s = .next s.finish) ∧
  (∀ (s : State) (n d : Nat), (s.injectOnce n d).flt.fireQ = s.flt.fireQ ++ [{ src := n, detail := d, injected := true }]) ∧
  (∀ (s : State) (n d u : Nat), ((s.injectHold n d u).fsrc n).forced = true ∧
    ((s.injectHold n d u).fsrc n).forcedEnd = some u ∧ ((s.injectEnd n).fsrc n).forced = false ∧
    (s.injectHold n d u).flt.fireQ =
      s.flt.fireQ ++ (if s.activeSrc n then [] else [{ src := n, detail := d, injected := true }])) ∧
  (∀ (s u : State) (dt : Nat) (n : Fin 96), u = s.pass dt →
    (u.expired (u.fsrc n.val).forcedEnd = true → exec (.injectionExpiry dt n) s = .next (u.injectEnd n.val).finish) ∧
    (u.expired (u.fsrc n.val).forcedEnd = false → exec (.injectionExpiry dt n) s = .next u.finish)))

/-- Writes of the fault collector's registers. With the host up: 1s written to FLT_STICKY clear, but for bits set in
the same cycle (a park or isolation that began in it likewise stays); FLT_SEV takes the value under a grant, and
without one stays and counts a denied write. A write of FLT_CTRL keeps FORCE; with RELEASE, in mode 10b, it releases
a held ERR_N, and a pulse in force remembers it; with ALL_CLR it is refused with RELEASE_REF while a source at
severity 4 is active, and otherwise ends PARK_ALL and the park of every chamber but one held by its own source. A
write of FLT_PARK or FLT_ISOL releases each unit named whose condition has ended, refuses the others with
RELEASE_REF, and leaves units not named. FLT_SEL takes COUNT, DETAIL, INJECTED, ACTIVE, severity and time of its
source, and zeros above 95. With the host down each of them changes nothing. (R7, R327, R334, R340, R341, R342) -/
def Obligations.FaultRegisterWrites : Prop :=
  (∀ s : State, s.hostUp = false → ∀ c : Instr,
    ((∃ k m, c = .stickyClear k m) ∨ (∃ k v, c = .severityWrite k v) ∨
      ∃ v, c ∈ [Instr.errForce v, .errRelease v, .allClr v, .parkRelease v, .isolationRelease v, .fltSel v]) →
    exec c s = .next s.finish) ∧
  ∀ s : State, s.hostUp = true →
    (∀ (k : Fin 3) (m : Word), exec (.stickyClear k m) s = .next (State.finish { s with
      flt := { s.flt with sticky := s.flt.sticky &&&
        ~~~(BitVec.ofNat 96 ((m &&& ~~~(s.marked (Reg.fltSticky.addr k.val))).toNat * 2 ^ (32 * k.val))) } })) ∧
    (∀ (k : Fin 12) (v : Word),
      (s.grantOk = true → ∃ t : State, exec (.severityWrite k v) s = .next t.finish ∧ t.rg .fltSev k.val = v) ∧
      (s.grantOk = false → ∃ t : State, exec (.severityWrite k v) s = .next t.finish ∧
        t.rg .fltSev k.val = s.rg .fltSev k.val ∧ t.sec.denied = s.sec.denied + 1 ∧ bit (t.rg .secGrantStatus) 28 = true)) ∧
    (∀ (v : Word) (c : Instr), c ∈ [Instr.errForce v, .errRelease v, .allClr v] →
      (∃ t : State, exec c s = .next t.finish ∧ bit (t.rg .fltCtrl) 30 = bit v 30) ∧
      (bit v 31 = false → bit v 29 = false → exec c s = .next (s.putReg .fltCtrl 0 0 v).finish) ∧
      (bit v 31 = true → bit v 29 = false →
        (s.flt.pulseEnd.isSome = true → exec c s =
          .next (State.finish { s.putReg .fltCtrl 0 0 v with flt := { s.flt with relWritten := true } })) ∧
        (s.flt.pulseEnd = none → s.errMode = 2 → exec c s =
          .next (State.finish { s.putReg .fltCtrl 0 0 v with flt := { s.flt with errHeld := false } })) ∧
        (s.flt.pulseEnd = none → s.errMode ≠ 2 → exec c s = .next (s.putReg .fltCtrl 0 0 v).finish)) ∧
      (bit v 29 = true → (∃ n < 96, s.activeSrc n = true ∧ s.severity n = 4) →
        ∃ t : State, exec c s = .next t.finish ∧ t.flt.parkedAll = s.flt.parkedAll ∧ t.flt.park = s.flt.park ∧
          bit (t.rg .fltStatus) 28 = true) ∧
      (bit v 29 = true → (∀ n < 96, s.activeSrc n = true → s.severity n ≠ 4) →
        ∃ t : State, exec c s = .next t.finish ∧ t.flt.parkedAll = (s.flt.parkedAll && s.newParkAll) ∧
          (∀ h < 32, t.parked h = (s.parked h && (s.newPark h || s.chamberHeld h))) ∧
          ((∃ h < 32, s.parked h = true ∧ s.newPark h = false ∧ s.chamberHeld h = true) → bit (t.rg .fltStatus) 28 = true))) ∧
    (∀ m : Word, ∃ t : State, exec (.parkRelease m) s = .next t.finish ∧ t.flt.parkedAll = s.flt.parkedAll ∧
      (∀ h < 32, t.parked h = (s.parked h && !(bit m h && !s.newPark h && !s.flt.parkedAll && !s.chamberHeld h))) ∧
      ((∃ h < 32, bit m h = true ∧ s.parked h = true ∧ s.newPark h = false ∧ (s.flt.parkedAll = true ∨ s.chamberHeld h = true)) →
        bit (t.rg .fltStatus) 28 = true)) ∧
    (∀ m : Word, ∃ t : State, exec (.isolationRelease m) s = .next t.finish ∧ t.flt.park = s.flt.park ∧
      (∀ l < 8, t.isolated l = (s.isolated l && !(bit m l && !s.newIsol l && !s.flt.parkedAll && !s.activeSrc (32 + l)))) ∧
      ((∃ l < 8, bit m l = true ∧ s.isolated l = true ∧ s.newIsol l = false ∧ (s.flt.parkedAll = true ∨ s.activeSrc (32 + l) = true)) →
        bit (t.rg .fltStatus) 28 = true)) ∧
    (∀ v : Word, ∃ t : State, exec (.fltSel v) s = .next t.finish ∧ t.rf .fltSel 0 6 0 = fld v 6 0 ∧
      (fld v 6 0 < 96 → t.flt.timeSnap = (s.fsrc (fld v 6 0)).time ∧
        (t.flt.infoSnap >>> 32).toNat = (s.fsrc (fld v 6 0)).count % 2 ^ 32 ∧
        fld (t.flt.infoSnap.setWidth 32) 31 16 = (s.fsrc (fld v 6 0)).detail.toNat ∧
        bit (t.flt.infoSnap.setWidth 32) 15 = (s.fsrc (fld v 6 0)).injected ∧
        bit (t.flt.infoSnap.setWidth 32) 14 = s.activeSrc (fld v 6 0) ∧
        fld (t.flt.infoSnap.setWidth 32) 13 11 = s.severity (fld v 6 0)) ∧
      (96 ≤ fld v 6 0 → t.flt.timeSnap = 0#64 ∧ t.flt.infoSnap = 0#64))

/-- Register grants, their ends, and the denied-writes entry. A write of SEC_GRANT_CTRL with REQUEST, by either row,
the host up: while the supervisor is unavailable or runs the recovery loader LAST_STATUS is 04h and the attempt is
held for the log; otherwise the attempt is recorded under the next SEQ. A block whose key is held with a valid tag
over the identity and the value written, and whose counter is above LAST, of an installer key, or a maker key with
TEST_EN, gives a grant of its role for DURATION seconds (0 as 1) with LAST_STATUS 00h and its counter as LAST; where
the entry cannot be written LAST_STATUS is 50h, a wrong key, role byte, zero byte or tag gives 05h, an old counter
06h, an operator key or a maker key without TEST_EN 07h, and the grant in force stays (REVOKE in the same write has
ended it). REVOKE without REQUEST, and the end of the duration, end it. Denied writes are recorded with their count
at most once per 100 ms. SEC_KEY_SEL selects; eight refusals raise AUTH_BURST. With the host down the writes do
nothing. That the recovery loader answers 04h is log entry 25. (R321, R325, R326, R327, R328, R332, R335, R429) -/
def Obligations.GrantsAndSelectors : Prop :=
  (∀ (s u : State) (c : Instr) (dt : Nat) (v : Word) (ok : Bool),
    (c = .secGrantRequest dt v ok ∧ u = s.pass dt) ∨ (c = .revoke v ∧ u = s ∧ ok = true) →
    (u.hostUp = false → exec c s = .next u.finish) ∧
    (u.hostUp = true → bit v 31 = false → bit v 30 = false → exec c s = .next (u.putReg .secGrantCtrl 0 0 v).finish) ∧
    (u.hostUp = true → bit v 31 = false → bit v 30 = true →
      exec c s = .next ((u.putReg .secGrantCtrl 0 0 v).onSec fun x => { x with grant := none }).finish) ∧
    (u.hostUp = true → bit v 31 = true → (u.sup.available = false ∨ u.sup.recovery = true) →
      ∃ t : State, exec c s = .next t.finish ∧ t.sec.lastStatus = 4#8 ∧
        t.sec.grant = (if bit v 30 then none else u.sec.grant) ∧ t.sec.auditSeq = u.sec.auditSeq ∧
        t.sec.held.length + t.sec.heldMissed = u.sec.held.length + u.sec.heldMissed + 1) ∧
    (u.hostUp = true → bit v 31 = true → u.sup.available = true → u.sup.recovery = false →
      (let w := u.putReg .secGrantCtrl 0 0 v
       let b := w.grantBlock
       let k := byteAt b 1
       let valid := fun r : Role => (u.key k).held = true ∧ byteAt b 0 = r.code ∧ allZero b 2 6 = true ∧
         allZero b 48 16 = true ∧
         (b.drop 16).take 32 = hmac (u.key k).material (b.take 16 ++ (u.ident ++ leBytes 4 v.toNat))
       let refused := fun st : Byte => ∃ t : State, exec c s = .next t.finish ∧ t.sec.lastStatus = st ∧
         t.sec.grant = (if bit v 30 then none else u.sec.grant) ∧ t.sec.auditSeq = u.sec.auditSeq + 1 ∧
         t.sec.lastKeyId = BitVec.ofNat 8 k
       (∀ r, keyRole k = some r → valid r → (u.key k).last.toNat < lef b 8 8 → r ≠ .operator →
          (r = .maker → u.pwr.testEn = true) →
          (ok = true → ∃ t : State, exec c s = .next t.finish ∧ t.sec.lastStatus = 0#8 ∧
            t.sec.auditSeq = u.sec.auditSeq + 1 ∧ (t.key k).last = BitVec.ofNat 64 (lef b 8 8) ∧
            t.sec.grant = some { role := r, keyId := k, ends := u.now + secC (max (fld (w.rg .secGrantCtrl) 7 0) 1),
                                 audit := u.sec.auditSeq }) ∧
          (ok = false → refused 0x50#8)) ∧
       ((∀ r, keyRole k = some r → ¬ valid r) → refused 5#8) ∧
       (∀ r, keyRole k = some r → valid r → lef b 8 8 ≤ (u.key k).last.toNat → refused 6#8) ∧
       (∀ r, keyRole k = some r → valid r → (u.key k).last.toNat < lef b 8 8 →
          (r = .operator ∨ (r = .maker ∧ u.pwr.testEn = false)) → refused 7#8)))) ∧
  (∀ (s u : State) (dt : Nat), u = s.pass dt →
    (∀ g : Grant, u.sec.grant = some g →
      (g.ends ≤ u.now → exec (.grantExpiry dt) s = .next (u.onSec fun c => { c with grant := none }).finish) ∧
      (u.now < g.ends → exec (.grantExpiry dt) s = .next u.finish)) ∧
    (u.sec.grant = none → exec (.grantExpiry dt) s = .next u.finish) ∧
    (0 < u.sec.denied → (u.sec.deniedAt = none ∨ u.expired u.sec.deniedAt = true) →
      ∃ t : State, exec (.deniedWriteAudit dt) s = .next t.finish ∧ t.sec.denied = 0 ∧
        t.sec.deniedAt = some (u.now + msC 100) ∧
        (u.sup.available = true → t.sec.auditSeq = u.sec.auditSeq + 1 ∧
          (t.audit u.sec.auditSeq).old = w32 u.sec.denied ∧ (t.audit u.sec.auditSeq).kind = 4#8) ∧
        (u.sup.available = false → t.sec.auditSeq = u.sec.auditSeq ∧
          t.sec.held.length + t.sec.heldMissed = u.sec.held.length + u.sec.heldMissed + 1)) ∧
    (u.sec.denied = 0 ∨ (u.sec.deniedAt.isSome = true ∧ u.expired u.sec.deniedAt = false) →
      exec (.deniedWriteAudit dt) s = .next u.finish) ∧
    (u.sec.refusals.length = 8 → exec (.authBurst dt) s =
      .next ((u.onSec fun c => { c with refusals := [] }).fire 92 u.sec.lastKeyId.toNat).finish) ∧
    (u.sec.refusals.length ≠ 8 → exec (.authBurst dt) s = .next u.finish)) ∧
  (∀ (s : State) (v : Word),
    (s.hostUp = true → exec (.secKeySel v) s = .next (s.putReg .secKeySel 0 0 v).finish) ∧
    (s.hostUp = false → exec (.secKeySel v) s = .next s.finish))

/-- The commands that the supervisor carries out, and the end of their flash operations. Ready at the head of its
ring, with the supervisor available: AUDIT_READ returns the valid entries from FIRST in order, at most MAX, and the
oldest SEQ held; KEY_SET whose key check value fits begins its flash operation and otherwise completes with 05h,
KEY_CLEAR begins it unless its key is the last installer key (07h); CFG_STORE begins it with a snapshot; IMAGE write
of an image that checks, into a slot that does not run, erases the slot and begins it, and otherwise completes with
51h; IMAGE activate of a VALID or GOOD slot whose revision fits SYS_PROFILE_REQ gives it an ACT_SEQ one above the
other slot's and restarts the supervisor, and otherwise completes with 51h; IMAGE query returns the slot's status.
Not ready, or without the supervisor, nothing happens. A flash operation's end takes the oldest job of its kind:
done, the store is the snapshot with GENERATION one higher and the keys kept, the slot holds the image, the key is
set or cleared (a maker key with TEST_EN only); failed, the store, slot and key stay and FLASH_ERROR fires. The end
of an audit entry's write pulses interrupt source 85 and, failed, leaves no valid entry with LAST as before it; that
of a wear summary outside stabling leaves the summary in its slot or FLASH_ERROR fires. Without a job, or the
supervisor, nothing happens. (R27, R287, R294, R321, R322, R323, R329, R333, R335, R400, R401, R402) -/
def Obligations.SupervisorCommands : Prop :=
  (∀ (s : State) (r : Fin 16) (e : Entry), s.sup.available = true →
    (s.readyHead r.val 0x51 = some e →
      exec (.auditRead r) s =
        (let out := (s.auditHeld.filter fun q => lef e.bytes 24 4 ≤ q.seq).take (lef e.bytes 28 2)
         .next (s.finishCmd r.val e.idx 0 true
          (leBytes 4 out.length ++ leBytes 4 ((s.auditHeld.head?.map (·.seq)).getD s.sec.auditSeq)) 0
          (some (lef e.bytes 8 8, out.flatMap AuditEntry.bytes))).finish)) ∧
    (s.readyHead r.val 0x52 = some e →
      ((rd e.payload 1).toNat = 0 →
        (keyCheckValue (s.unwrap e) = rdBytes e.payload 48 16 →
          exec (.keySet r) s = .next ((s.begin_ r.val e.idx).onFlash fun f =>
            { f with pending := f.pending ++ [(.key (byteAt e.bytes 24) (some (s.unwrap e)), r.val, e.idx)] }).finish) ∧
        (keyCheckValue (s.unwrap e) ≠ rdBytes e.payload 48 16 →
          exec (.keySet r) s = .next (s.refuseRole r.val e 5).finish)) ∧
      ((rd e.payload 1).toNat = 1 →
        (s.lastInstaller (byteAt e.bytes 24) = false →
          exec (.keyClear r) s = .next ((s.begin_ r.val e.idx).onFlash fun f =>
            { f with pending := f.pending ++ [(.key (byteAt e.bytes 24) none, r.val, e.idx)] }).finish) ∧
        (s.lastInstaller (byteAt e.bytes 24) = true →
          exec (.keyClear r) s = .next (s.refuseRole r.val e 7).finish))) ∧
    (s.readyHead r.val 0x50 = some e →
      exec (.cfgStore r) s = .next ((s.begin_ r.val e.idx).onFlash fun f =>
        { f with pending := f.pending ++ [(.store s.storeImage, r.val, e.idx)] }).finish) ∧
    (s.readyHead r.val 0x53 = some e →
      (let k := byteAt e.bytes 25 % 2
       (byteAt e.bytes 24 = 0 →
          (s.runsSlot k = true ∨ imageOk e.payload (lef e.bytes 4 4) = false →
            exec (.imageWrite r) s = .next (s.finishCmd r.val e.idx 0x51 false).finish) ∧
          (s.runsSlot k = false → imageOk e.payload (lef e.bytes 4 4) = true →
            ∃ t : State, exec (.imageWrite r) s = .next t.finish ∧ t.img k = {} ∧
              t.flash.pending = s.flash.pending ++ [(.image k (imageSlot e.payload), r.val, e.idx)])) ∧
       (byteAt e.bytes 24 = 1 →
          ((s.img k).state = .valid ∨ (s.img k).state = .good →
            (s.rf .sysProfileReq 0 15 0 = 0 ∨ (s.imageRev k).toNat = s.rf .sysProfileReq 0 15 0) →
            ∃ t : State, exec (.imageActivate r) s = .next t.finish ∧ (t.img k).actSeq = (s.img (1 - k)).actSeq + 1 ∧
              (t.img k).state = (if (s.img k).state = .valid then .trial else .good) ∧
              t.sup.available = false ∧ t.sup.activating = true ∧ t.bus.remap = false) ∧
          (((s.img k).state ≠ .valid ∧ (s.img k).state ≠ .good) ∨
              (s.rf .sysProfileReq 0 15 0 ≠ 0 ∧ (s.imageRev k).toNat ≠ s.rf .sysProfileReq 0 15 0) →
            exec (.imageActivate r) s = .next (s.finishCmd r.val e.idx 0x51 false).finish)) ∧
       (byteAt e.bytes 24 = 2 →
          exec (.imageQuery r) s = .next (s.finishCmd r.val e.idx 0 true [] 0
            (some (lef e.bytes 8 8, s.slotStatus k))).finish)))) ∧
  (∀ (s : State) (r : Fin 16) (c : Instr) (op : Nat),
    (c, op) ∈ [(Instr.auditRead r, 0x51), (.keySet r, 0x52), (.keyClear r, 0x52), (.cfgStore r, 0x50), (.imageWrite r, 0x53),
      (.imageActivate r, 0x53), (.imageQuery r, 0x53)] →
    s.sup.available = false ∨ s.readyHead r.val op = none → exec c s = .next s.finish) ∧
  (∀ (s u : State) (dt : Nat) (op : FlashOp) (j : FlashJob) (r i : Nat), u = s.pass dt →
    op = .cfgStore ∨ op = .imageWrite ∨ op = .keySet → u.flash.pending.find? (fun p => p.1.isOp op) = some (j, r, i) →
    u.sup.available = true →
    (∃ t : State, exec (.flashOperationDone dt op true) s = .next t.finish ∧
      t.flash.pending = u.flash.pending.erase (j, r, i) ∧
      (∀ c, j = .store c → t.flash.store.gen = u.flash.store.gen + 1 ∧ t.flash.store.regs = c.regs ∧
        t.flash.store.laneCfg = c.laneCfg ∧ t.flash.store.profiles = c.profiles ∧ t.flash.store.indices = c.indices ∧
        t.flash.store.failed = c.failed ∧ t.flash.store.contexts = c.contexts ∧ t.flash.store.keys = u.flash.store.keys) ∧
      (∀ k g, j = .image k g → t.img k = g) ∧
      (∀ id m, j = .key id m → (16 ≤ id ∨ u.pwr.testEn = true) →
        (t.key id).held = m.isSome ∧ (t.key id).material = m.getD []) ∧
      (∀ id m, j = .key id m → id < 16 → u.pwr.testEn = false →
        (t.key id).held = (u.key id).held ∧ (t.key id).material = (u.key id).material)) ∧
    (∃ t : State, exec (.flashOperationDone dt op false) s = .next t.finish ∧
      t.flash.pending = u.flash.pending.erase (j, r, i) ∧ t.flash.store = u.flash.store ∧ t.flash.slots = u.flash.slots ∧
      (∀ id, (t.key id).held = (u.key id).held ∧ (t.key id).material = (u.key id).material) ∧ ∃ q ∈ t.flt.fireQ, q.src = 69)) ∧
  (∀ (s u : State) (dt : Nat), u = s.pass dt →
    exec (.flashOperationDone dt .auditEntry true) s =
      .next (if u.core && u.sec.auditSeq ≠ 0 then u.irqPulse 85 else u).finish ∧
    (∀ q : Nat, u.sec.auditSeq = q + 1 → (u.audit q).stored = true → (∀ g, u.sec.grant = some g → g.audit ≠ q) →
      (∀ r < 16, ∀ e es, (u.ring r).entries = e :: es → e.audit ≠ some q) →
      ∃ t : State, exec (.flashOperationDone dt .auditEntry false) s = .next t.finish ∧ (t.audit q).stored = false ∧
        t.flash.lasts = u.flash.lastsOld ∧ ∃ x ∈ t.flt.fireQ, x.src = 69)) ∧
  (∀ (s u : State) (dt : Nat) (ok : Bool), u = s.pass dt → u.pwr.phase ≠ .stabling →
    (∀ c, u.fab.sumDue = some c → u.sup.available = true →
      ∃ t : State, exec (.flashOperationDone dt .wearSummary ok) s = .next t.finish ∧ t.fab.sumDue = none ∧
        t.fab.sumSeq = u.fab.sumSeq + 1 ∧
        (ok = true → tget (fun _ => {}) t.fab.summaries (u.fab.sumSeq % 256) = u.summary c) ∧
        (ok = false → ∃ x ∈ t.flt.fireQ, x.src = 69)) ∧
    (u.fab.sumDue = none ∨ u.sup.available = false →
      exec (.flashOperationDone dt .wearSummary ok) s = .next u.finish)) ∧
  (∀ (s u : State) (dt : Nat) (op : FlashOp) (ok : Bool), u = s.pass dt → op = .cfgStore ∨ op = .imageWrite ∨ op = .keySet →
    u.flash.pending.find? (fun p => p.1.isOp op) = none ∨ u.sup.available = false →
    exec (.flashOperationDone dt op ok) s = .next u.finish)

/-- The reads that change state, and only what they change. With the host up, a read of 08020h latches the raw
counter and the network time of its cycle; a read of the low word of an 8-byte register latches the high word, which
the read of the high word then returns; a misaligned read returns 0 and leaves BAD_ALIGN and OFFSET. Each sends its
data and leaves every other part of the module unchanged. With the host down they do nothing. (R7, R168, R427, R428,
R429) -/
def Obligations.HostReadsChangeNothingElse : Prop :=
  (∀ (s u : State) (dt : Nat), u = s.pass dt →
    (u.hostUp = true → exec (.timeSnap dt) s = .next (State.finish { u with
      time := { u.time with snapRaw := u.time.raw, snapNt := u.nt }, out := u.out ++ [.readData 0x8020 u.time.raw] })) ∧
    (u.hostUp = false → exec (.timeSnap dt) s = .next u.finish)) ∧
  (∀ (s : State) (o : Nat), s.hostUp = true →
    exec (.lowWordRead o) s = .next (State.finish { s.latchRead o with
      out := s.out ++ [.readData o (BitVec.ofNat 64 ((s.latchRead o).readHost o).toNat)] }) ∧
    (∀ (r : Reg) (i : Nat), lowOf8 o = some (r, i) → o ≠ 0x8020 →
      s.latchRead o = { s with latch := keptSet s.latch o (s.readWord r i 1) } ∧
      (s.latchRead o).readHost (o + 4) = s.readWord r i 1) ∧
    (s.latchRead 0x8020).time = { s.time with snapRaw := s.time.raw, snapNt := s.nt } ∧
    (o ≠ 0x8020 → lowOf8 o = none → s.latchRead o = s)) ∧
  (∀ (s : State) (o n : Nat), s.hostUp = true →
    (badRead o n = true →
      ∃ t : State, exec (.badAlignRead o n) s = .next t.finish ∧ t = { s with regs := t.regs, marks := t.marks, out := t.out } ∧
        t.out = s.out ++ [.readData o 0#64] ∧ bit (t.rg .sysHostAcc) 30 = true ∧
        bit (t.rg .sysHostAcc) 31 = bit (s.rg .sysHostAcc) 31 ∧ fld (t.rg .sysHostAcc) 19 0 = o ∧
        ∀ off, off ≠ Reg.sysHostAcc.addr 0 → tget (fun _ => 0#32) t.regs off = tget (fun _ => 0#32) s.regs off) ∧
    (badRead o n = false → exec (.badAlignRead o n) s = .next s.finish)) ∧
  (∀ (s : State) (o n : Nat), s.hostUp = false →
    exec (.lowWordRead o) s = .next s.finish ∧ exec (.badAlignRead o n) s = .next s.finish)

/-- A register write takes effect by its access codes. With the host up, an aligned 32-bit write of a plain
unprotected register makes its RW bits the value's, clears the W1C bits written 1 but for those set in the same
cycle, and leaves its other bits and every other register; so does a write of a protected register under a grant,
for its RW bits. A write of a read-only register or of an offset with no register changes nothing; a write of fewer
than 4 bytes sets BAD_SIZE, and a misaligned or crossing one BAD_ALIGN, with the offset in SYS_HOST_ACC; a write of
BAR2 offsets 400000h and up changes nothing, and with the host down no write does. (R6, R7, R8, R327, R353, R425,
R426, R427) -/
def Obligations.RegisterWrites : Prop :=
  (∀ (s : State) (o n : Nat) (v : Dword), s.hostUp = false → exec (.registerWrite o n v) s = .next s.finish) ∧
  (∀ (s : State) (r : Reg) (i w : Nat) (v : Word),
    (∀ j < 32, bit ((s.putReg r i w v).rg r i w) j =
      if bit (r.rwMask w) j then bit v j
      else bit (s.rg r i w) j && !(bit v j && bit (r.w1cMask w) j && !bit (s.marked (r.addr i + 4 * w)) j)) ∧
    (s.putReg r i w v = { s with regs := (s.putReg r i w v).regs }) ∧
    ∀ off, off ≠ r.addr i + 4 * w → tget (fun _ => 0#32) (s.putReg r i w v).regs off = tget (fun _ => 0#32) s.regs off) ∧
  ∀ s : State, s.hostUp = true →
    (∀ p ∈ [(Reg.fabFailStatus, 1), (.fabCellSel, 1), (.loopEvt, 32), (.fabPeriodStatus, 1), (.loopOdetStatus, 32),
        (.fabDriftStatus, 1), (.loopTrcLevel, 32), (.loopTrcStatus, 32), (.loopTrcSel, 128), (.timeStatus, 1), (.schedStatus, 1),
        (.eptStatus, 8), (.eptWheelStatus, 1), (.ringStatus, 160), (.ringEvtRoute, 4), (.cascRoleStatus, 1),
        (.secGrantStatus, 1), (.secKeySel, 1), (.fltStatus, 1), (.sysBusmxStatus, 1), (.pwrStatus, 1), (.sysResetCause, 1),
        (.sysHostAcc, 1), (.sysScratch, 4), (.tstStStatus, 1)],
      ∀ i < p.2, ∀ v : Dword, exec (.registerWrite (p.1.addr i) 4 v) s = .next (s.putReg p.1 i 0 (loW v)).finish) ∧
    (∀ w < 16, ∀ v : Dword, exec (.registerWrite (0x2000 + 4 * w) 4 v) s = .next (s.putReg .secGrantBlock 0 w (loW v)).finish) ∧
    (s.grantOk = true →
      ∀ p ∈ [(Reg.fabStitchCfg, 1), (.fabWearCfg, 1), (.fabPeriodCfg, 1), (.loopOdetCfg, 32), (.fabDriftCfg, 1),
        (.timeJumpTh, 1), (.timeServo, 1), (.timeAsym, 8), (.timePpsIn, 1), (.schedCfg, 1), (.secOprMap, 32), (.secOprCfg, 1),
        (.fltSev, 12), (.fltErrCfg, 1), (.pwrStableCfg, 1), (.sysProfileReq, 1)],
      ∀ i < p.2, ∀ v : Dword, ∃ t : State, exec (.registerWrite (p.1.addr i) 4 v) s = .next t.finish ∧
        (∀ j < 32, bit (p.1.rwMask 0) j = true → bit (t.rg p.1 i) j = bit (loW v) j) ∧
        t.time = s.time ∧ t.fab = s.fab ∧ t.loop = s.loop ∧ t.sched = s.sched ∧ t.ept = s.ept ∧ t.rings = s.rings) ∧
    (∀ p ∈ [(Reg.fabFail, 16), (.fabMapStatus, 1), (.fabChStatus, 32), (.fabSpoolStatus, 1), (.loopLstat, 32), (.loopLpos, 32),
        (.loopLsp, 32), (.loopLtgt, 32), (.loopLtrim, 32), (.loopLdrv, 32), (.loopLprof, 32), (.timeInc, 1),
        (.timeDomOffset, 2), (.schedBankStatus, 4), (.schedRowcnt, 1), (.eptStrCnt, 14), (.ringIdx, 160), (.ringErr, 160),
        (.ringLost, 160), (.ringErrSum, 5), (.cascTrainStatus, 1), (.cascConsistId, 1), (.cascBiarnCnt, 6),
        (.cascStackStatus, 1), (.secKeyPresent, 2), (.secAuditSeq, 1), (.fltActive, 3), (.sysBusmxDeft, 1), (.pwrMon, 1),
        (.pwrStableTime, 1), (.sysProfile, 1), (.sysId, 1), (.sysOrder, 1), (.sysBuild, 1), (.sysMfg, 1), (.sysFwVer, 1),
        (.sysRomVer, 1), (.sysStrap, 1), (.sysPins, 1), (.sysCap, 1), (.tstStErr, 8), (.tstStPwr, 8)],
      ∀ i < p.2, ∀ v : Dword, exec (.registerWrite (p.1.addr i) 4 v) s = .next s.finish) ∧
    (∀ (o : Nat) (v : Dword), o < 0x100000 → o % 4 = 0 → regAt o = none → (o < 0x4000 ∨ 0x6400 ≤ o) →
      exec (.registerWrite o 4 v) s = .next s.finish) ∧
    (∀ (o n : Nat) (v : Dword), o < 0x100000 → n < 4 → exec (.registerWrite o n v) s = .next (s.hostAcc 31 o).finish) ∧
    (∀ (o n : Nat) (v : Dword), o < 0x100000 → 4 ≤ n → ¬ (n = 4 ∧ o % 4 = 0) → ¬ (n = 8 ∧ o % 8 = 0) →
      exec (.registerWrite o n v) s = .next (s.hostAcc 30 o).finish) ∧
    (∀ (o b : Nat), b = 30 ∨ b = 31 → bit ((s.hostAcc b o).rg .sysHostAcc) b = true ∧
      fld ((s.hostAcc b o).rg .sysHostAcc) 19 0 = o % 2 ^ 20) ∧
    (∀ (o n : Nat) (v : Dword), 0x500000 ≤ o → exec (.registerWrite o n v) s = .next s.finish)

/-- Without a grant a protected register keeps its value. With the host up and no grant in force, a write of any
value to a fault severity, SYS_CTRL, SYS_CHRST, SYS_LANERST, the fabric, wear, flowstone, shaper, time and PPS
configuration, the lane configuration, and the other registers of the installer store sets WR_DENIED, counts the
denied write, and changes nothing else but the mark of that bit and interrupt source 87. A write of
LOOP_CHnn_PROFILE_IDX sets IDX_ERR as well. (R7, R129, R327, R366, R407) -/
def Obligations.DeniedWritesChangeNothing : Prop :=
  ∀ s : State, s.hostUp = true → s.grantOk = false →
    (∀ (v : Word) (k : Fin 12) (n : Fin 32) (l q : Fin 8) (i : Fin 2) (d : Dword) (c : Instr),
      (c ∈ ([.severityWrite k v, .modrst v, .laneReset v, .chamberReset v, .driftLimWrite v, .timeCtrlWrite v,
          .timeDomCfgWrite i v, .fabChCtrlWrite n v, .fabPolCfgWrite v, .wearSummaryNow v, .flowstoneClear n v,
          .eptShapeWrite l q d] : List Instr) ∨
        (∃ p ∈ [(Reg.fabStitchCfg, 1), (.fabChCtrl, 32), (.fabWearCfg, 1), (.fabPeriodCfg, 1), (.fabDriftCfg, 1), (.fabPolCfg, 1),
            (.fabWearSumCfg, 1), (.loopFlowCfg, 32), (.loopOdetCfg, 32), (.timeCtrl, 1), (.timeJumpTh, 1), (.timeDrift, 1),
            (.timeServo, 1), (.timeDomCfg, 2), (.timeAsym, 8), (.timePpsCfg, 1), (.timePpsIn, 1), (.schedCfg, 1), (.eptCfg, 8),
            (.eptPreempt, 8), (.secOprMap, 32), (.secOprCfg, 1), (.fltSev, 12), (.fltErrCfg, 1), (.pwrStableCfg, 1),
            (.sysProfileReq, 1), (.sysCfgGen, 1), (.sysCtrl, 1), (.sysChrst, 1), (.sysLanerst, 1)],
          ∃ j < p.2, c = .registerWrite (p.1.addr j) 4 d)) →
      ∃ t : State, exec c s = .next t.finish ∧
        t = { s with regs := (s.setBit .secGrantStatus 0 28).regs, marks := t.marks, irq := t.irq,
                     sec := { s.sec with denied := s.sec.denied + 1 } }) ∧
    (∀ (n : Fin 32) (v : Word), ∃ t : State, exec (.loopProfileIdx n v) s = .next t.finish ∧
      t = { s with regs := t.regs, marks := t.marks, irq := t.irq, sec := { s.sec with denied := s.sec.denied + 1 } } ∧
      bit (t.rg .secGrantStatus) 28 = true ∧ bit (t.rg .loopEvt n.val) 0 = true)

/-- Host writes in BAR2 and to the halves of 8-byte registers. A host write in BAR2 changes no byte outside its
range; in a slot bound to a context with SLOT_DIR 1 it changes nothing; in a slot bound to none every byte is taken;
in a transmit slot bytes 8 to 19 are not taken. A 32-bit write of the low word of a writable 8-byte register is held
and changes no register; the write of the high word then takes effect with it in one cycle; an aligned 64-bit write
takes effect at once. RING_r_BASE takes both words while its ring is disabled, and otherwise keeps them and sets
CFG_IGN; TIME_TOD_NEXT takes its seconds with the cycle of the write. A doorbell acts on its low word alone. (R179,
R244, R255, R426, R428) -/
def Obligations.WidthsOfHostWrites : Prop :=
  (∀ (s : State) (x : Nat) (bs : List Byte),
    (∀ y, (y < x ∨ x + bs.length ≤ y) → rd (s.writeBar2 x bs).sram y = rd s.sram y) ∧
    (x + bs.length ≤ 0x400000 → x / 0x800 = (x + bs.length - 1) / 0x800 → s.slotBound (x / 0x800) true = true →
      s.writeBar2 x bs = s) ∧
    (∀ b, x < 0x400000 → s.slotBound (x / 0x800) true = false → s.slotBound (x / 0x800) false = false →
      s.hostUp = true → exec (.registerWrite (0x100000 + x) 1 (b.setWidth 64)) s =
        .next (State.finish { s with sram := wr s.sram x b })) ∧
    (∀ b, x < 0x400000 → s.slotBound (x / 0x800) false = true → 8 ≤ x % 0x800 → x % 0x800 < 20 → s.hostUp = true →
      exec (.registerWrite (0x100000 + x) 1 b) s = .next s.finish)) ∧
  (∀ (s : State), s.hostUp = true →
    (∀ p ∈ [(Reg.eptMac, 8), (.eptShape, 64), (.ringBase, 160), (.fabHistBase, 1), (.timeTodNext, 1)],
      ∀ i < p.2, ∀ lo hi v : Dword,
        (∃ t : State, exec (.registerWrite (p.1.addr i) 4 lo) s = .next t.finish ∧ t = { s with lowHeld := t.lowHeld } ∧
          t.writeBar0 2 (p.1.addr i + 4) (loW hi) =
            State.writeWide { t with lowHeld := keptDrop t.lowHeld (p.1.addr i) } p.1 i (joinW (loW lo) (loW hi))) ∧
        exec (.registerWrite (p.1.addr i) 8 v) s =
          .next (State.writeWide { s with lowHeld := keptDrop s.lowHeld (p.1.addr i) } p.1 i v).finish) ∧
    (∀ (r : Fin 160) (v : Dword),
      ((s.ring r.val).state = .disabled →
        (s.writeWide .ringBase r.val v).rg .ringBase r.val 0 = s.written .ringBase r.val 0 (loW v) ∧
        (s.writeWide .ringBase r.val v).rg .ringBase r.val 1 = s.written .ringBase r.val 1 (hiW v)) ∧
      ((s.ring r.val).state ≠ .disabled → s.writeWide .ringBase r.val v = s.setBit .ringStatus r.val 26)) ∧
    (∀ v : Dword, ∃ t : State, exec (.registerWrite 0x8068 8 v) s = .next t.finish ∧
      t.time.todNext = some (v.toNat % 2 ^ 48, s.time.raw.toNat)) ∧
    (∀ (r : Fin 144) (v : Dword), exec (.registerWrite (0x80000 + 8 * r.val) 4 v) s = exec (.doorbell r (loW v)) s) ∧
    (∀ (r : Fin 16) (v : Dword), exec (.registerWrite (0x80480 + 8 * r.val) 4 v) s = exec (.eventDoorbell r (loW v)) s))

/-- The lane self-test and the test modes. A write of TST_ST_CTRL, by either row, with the host up: on a test that
runs STOP ends it with DONE and ABORTED and anything else is ignored; with none running START with equal lanes
named, under a grant, with no map in force and no bank running, starts the test of its PAIRS for its SECONDS (0 as
1), a refused START leaves REFUSED and WHY, and a write without START keeps its fields. The end of its time ends the
test with DONE. TST_MODE and TST_ADC_RAW take a write only under a maker grant with TEST_EN active, else WR_DENIED
is set. TEST_EN going active or inactive in the start sequence or while running makes source 93 active or ends it,
and inactive clears both registers and ends a maker grant and every held injection; in other phases it is not read.
With the host down the writes do nothing. (R328, R343, R415, R436, R437, R438) -/
def Obligations.TestBlockCommands : Prop :=
  (∀ (s : State) (v : Word), ∀ c ∈ [Instr.selfTestStart v, .selfTestStop v],
    (s.hostUp = false → exec c s = .next s.finish) ∧
    (s.hostUp = true → s.tst.busy = true →
      (bit v 30 = true → ∃ t : State, exec c s = .next t.finish ∧ t.tst.busy = false ∧ t.tst.ends = none ∧
        bit (t.rg .tstStStatus) 29 = true ∧ bit (t.rg .tstStStatus) 30 = true) ∧
      (bit v 30 = false → exec c s = .next s.finish)) ∧
    (s.hostUp = true → s.tst.busy = false →
      (bit v 31 = true → s.testRefusal (fld v 3 0) = 0 → ∃ t : State, exec c s = .next t.finish ∧ t.tst.busy = true ∧
        t.tst.pairs.toNat = fld v 3 0 ∧ t.tst.ends = some (s.now + secC (max (fld v 11 4) 1)) ∧ t.tst.err = []) ∧
      (bit v 31 = true → s.testRefusal (fld v 3 0) ≠ 0 → exec c s = .next
        ((s.onTst fun t => { t with why := BitVec.ofNat 4 (s.testRefusal (fld v 3 0)) }).setBit .tstStStatus 0 28).finish) ∧
      (bit v 31 = false → exec c s = .next (s.putReg .tstStCtrl 0 0 v).finish))) ∧
  (∀ (s : State) (p : Nat),
    (s.grantOk = false → s.testRefusal p = 1) ∧
    (s.grantOk = true → (s.fab.inForce.isSome = true ∨ s.sched.run.isSome = true) → s.testRefusal p = 2) ∧
    (s.grantOk = true → s.fab.inForce = none → s.sched.run = none →
      (p = 0 → s.testRefusal p = 3) ∧
      (p ≠ 0 → (∃ k < 4, p.testBit k = true ∧
          ((s.lane (2 * k)).rate ≠ (s.lane (2 * k + 1)).rate ∨ (s.lane (2 * k)).fec ≠ (s.lane (2 * k + 1)).fec)) →
        s.testRefusal p = 4) ∧
      (p ≠ 0 → (∀ k < 4, p.testBit k = true →
          (s.lane (2 * k)).rate = (s.lane (2 * k + 1)).rate ∧ (s.lane (2 * k)).fec = (s.lane (2 * k + 1)).fec) →
        s.testRefusal p = 0))) ∧
  (∀ (s u : State) (dt : Nat), u = s.pass dt →
    (u.tst.busy = true → u.expired u.tst.ends = true →
      ∃ t : State, exec (.selfTestEnd dt) s = .next t.finish ∧ t.tst.busy = false ∧ bit (t.rg .tstStStatus) 30 = true ∧
        bit (t.rg .tstStStatus) 29 = bit (u.rg .tstStStatus) 29) ∧
    (u.tst.busy = false ∨ u.expired u.tst.ends = false → exec (.selfTestEnd dt) s = .next u.finish)) ∧
  (∀ (s : State) (a : Bool) (v : Word),
    (s.hostUp = true → s.makerOk = true →
      ∃ t : State, exec (.tstModeWrite a v) s = .next t.finish ∧
        t.regs = (s.putReg (if a then .tstAdcRaw else .tstMode) 0 0 v).regs ∧ t.tst.busy = s.tst.busy) ∧
    (s.hostUp = true → s.makerOk = false → exec (.tstModeWrite a v) s = .next (s.setBit .secGrantStatus 0 28).finish) ∧
    (s.hostUp = false → exec (.tstModeWrite a v) s = .next s.finish)) ∧
  (∀ s : State,
    (s.readsTestEn = true →
      (∃ t : State, exec .testEnActive s = .next t.finish ∧ t.pwr.testEn = true ∧ (t.fsrc 93).active = true) ∧
      (∃ t : State, exec .testEnInactive s = .next t.finish ∧ t.pwr.testEn = false ∧ t.rg .tstMode = 0#32 ∧
        t.rg .tstAdcRaw = 0#32 ∧ (∀ g, t.sec.grant = some g → g.role ≠ .maker) ∧ (t.fsrc 93).active = false ∧
        ∀ n, (t.fsrc n).forced = false)) ∧
    (s.readsTestEn = false → exec .testEnActive s = .next s.finish ∧ exec .testEnInactive s = .next s.finish))

/-- Arming, stopping and triggering a DMA channel. What masters have put to the matrix by then is outstanding (log
entry 64). A write of DMA_CHnn_CTRL, by either row, of a master that may write the block (any but the host with the
module up; the host up under a maker grant with TEST_EN active): on an idle channel START without ABORT arms it with
its COUNT where its registers pass every check, and a failed check leaves CODE refused with its WHY; without START
the fields are kept; on a busy channel ABORT stops it with COUNT the bytes not yet written, and anything else sets
WR_IGN alone. Another host write sets HOST_WR_IGN, and other writes do nothing. A request line takes its level; a
completion pulse triggers the busy channels whose TRIG names it, is kept by the idle ones, and reaches no other;
other trigger codes do nothing. (R356, R357, R358, R365, R372) -/
def Obligations.DmaChannels : Prop :=
  (∀ (s u : State) (b : BusAccess) (n : Fin 16) (v : Word), u = s.meet b → ∀ i ∈ [Instr.dmaStart b n v, .dmaAbort b n v],
    ((b.by_.val ≠ 2 ∧ u.core = true) ∨ (b.by_.val = 2 ∧ u.hostUp = true ∧ u.makerOk = true) →
      (u.dmac n.val).busy = false →
        (let c : DmaCh := { u.dmac n.val with ctrl := v &&& ctrlMask }
         (bit v 31 = true → bit v 30 = false → ∃ t : State, exec i s = .next t.finish ∧
            (c.whyNot n.val = 0 → (t.dmac n.val).busy = true ∧ (t.dmac n.val).left = c.count ∧
              (t.dmac n.val).curSrc = c.src.toNat ∧ (t.dmac n.val).curDst = c.dst.toNat ∧ (t.dmac n.val).code = .none) ∧
            (c.whyNot n.val ≠ 0 → (t.dmac n.val).busy = false ∧ (t.dmac n.val).code = .refused ∧
              (t.dmac n.val).why = BitVec.ofNat 4 (c.whyNot n.val)) ∧
            ∀ m, m ≠ n.val → t.dmac m = u.dmac m) ∧
         (bit v 31 = false ∨ bit v 30 = true → exec i s = .next (u.modDma n.val fun _ => c).finish))) ∧
    ((b.by_.val ≠ 2 ∧ u.core = true) ∨ (b.by_.val = 2 ∧ u.hostUp = true ∧ u.makerOk = true) →
      (u.dmac n.val).busy = true →
        (bit v 30 = true → ∃ t : State, exec i s = .next t.finish ∧ (t.dmac n.val).busy = false ∧
          (t.dmac n.val).code = .aborted ∧ (t.dmac n.val).count = (u.dmac n.val).left ∧
          ∀ m, m ≠ n.val → t.dmac m = u.dmac m) ∧
        (bit v 30 = false → exec i s = .next (u.setBit .dmaStatus n.val 24).finish)) ∧
    (b.by_.val = 2 → u.hostUp = true → u.makerOk = false → exec i s = .next (u.setBit .sysBusmxStatus 0 31).finish) ∧
    ((b.by_.val = 2 ∧ u.hostUp = false) ∨ (b.by_.val ≠ 2 ∧ u.core = false) → exec i s = .next u.finish)) ∧
  (∀ (s : State) (t : BitVec 6) (on : Bool),
    (s.core = true → 1 ≤ t.toNat → t.toNat ≤ 5 →
      ∃ u : State, exec (.dmaTrigger t on) s = .next u.finish ∧ u = { s with dma := { s.dma with lines := u.dma.lines } } ∧
        ∀ k < 6, u.dma.lines.getLsbD k = if k = t.toNat then on else s.dma.lines.getLsbD k) ∧
    (s.core = true → 16 ≤ t.toNat → t.toNat ≤ 31 → on = true →
      ∃ u : State, exec (.dmaTrigger t on) s = .next u.finish ∧ u = { s with dma := { s.dma with chans := u.dma.chans } } ∧
        ∀ n < 16, u.dmac n =
          if (s.dmac n).trig ≠ t.toNat then s.dmac n
          else if (s.dmac n).busy then { s.dmac n with triggered := true } else { s.dmac n with pendTrig := true }) ∧
    (s.core = false ∨ t.toNat = 0 ∨ (6 ≤ t.toNat ∧ t.toNat < 16) ∨ 32 ≤ t.toNat ∨ (16 ≤ t.toNat ∧ on = false) →
      exec (.dmaTrigger t on) s = .next s.finish))

/-- A burst moves its bytes and nothing else. With no other request and no lock at a port (so in every state so
reached, log entry 64): the channel the engine grants, moving between incrementing ranges of SRAM below 400000h,
writes the source bytes of its burst as they stood to the destination, leaves every other byte of SRAM, and counts
the bytes as written; with its last burst and no link the transfer ends with CODE done. A burst whose source no
target answers halts the channel with CODE bus error and its address. With nothing granted, and with the module
down, no byte moves. A BULK read or write of another master in one 256-byte block of SRAM is answered with the
bytes, or stores them. (R344, R346, R347, R352, R359, R360, R361, R362, R363, R364) -/
def Obligations.DmaBurstMovesItsBytes : Prop :=
  (∀ (s : State) (n : Nat), s.core = true → s.dmaGrant = some n → s.bus.waiting = [] → (∀ p, (s.port p).lock = none) →
    (s.dmac n).srcMode = 0 → (s.dmac n).dstMode = 0 → (s.dmac n).busy = true → 0 < (s.dmac n).burst.2 →
    (s.dmac n).burst.2 % 4 = 0 → (s.dmac n).burst.2 ≤ (s.dmac n).left →
    (∀ so d, (s.dmac n).nextSrc = 0x10000000 + so → (s.dmac n).nextDst = 0x10000000 + d →
      so + (s.dmac n).burst.2 ≤ 0x400000 → d + (s.dmac n).burst.2 ≤ 0x400000 →
      ∃ t : State, exec .dmaBurst s = .next t.finish ∧
        rdBytes t.sram d (s.dmac n).burst.2 = rdBytes s.sram so (s.dmac n).burst.2 ∧ s.sramKept t d (s.dmac n).burst.2 ∧
        (t.dmac n).left = (s.dmac n).left - (s.dmac n).burst.2 ∧
        ((s.dmac n).burst.2 < (s.dmac n).left → (t.dmac n).busy = true) ∧
        ((s.dmac n).burst.2 = (s.dmac n).left → bit (s.dmac n).ctrl 26 = false →
          (t.dmac n).busy = false ∧ (t.dmac n).code = .done)) ∧
    (targetOf (s.dmac n).nextSrc = .default → ∃ t : State, exec .dmaBurst s = .next t.finish ∧
      (t.dmac n).busy = false ∧ (t.dmac n).code = .busError ∧ (t.dmac n).errAddr = w32 (s.dmac n).nextSrc ∧
      t.sram = s.sram ∧ ∃ q ∈ t.flt.fireQ, q.src = 78)) ∧
  (∀ s : State, (s.core = false → exec .dmaBurst s = .next s.finish) ∧
  (s.core = true → s.dmaGrant = none → s.bus.waiting = [] →
    exec .dmaBurst s = .next (State.finish { s with bus := { s.bus with answers := [] } }))) ∧
  (∀ (s : State) (r : BusReq) (a : Nat), s.core = true → s.dmaGrant = none → s.bus.waiting = [r] →
  (∀ p, (s.port p).lock = none) → r.cls = .bulk → r.master ≠ 0 → 0 < r.len → r.len % 4 = 0 → r.addr % 256 + r.len ≤ 256 →
  r.addr = 0x10000000 + a → a + r.len ≤ 0x400000 →
  (r.write = false → ∃ t : State, exec .dmaBurst s = .next t.finish ∧ t.sram = s.sram ∧
    t.bus.answers = [{ master := r.master.val, id := r.id.val, data := rdBytes s.sram a r.len }] ∧ t.bus.waiting = []) ∧
  (r.write = true → r.data.length = r.len → ∃ t : State, exec .dmaBurst s = .next t.finish ∧
    rdBytes t.sram a r.len = r.data ∧ s.sramKept t a r.len ∧
    t.bus.answers = [{ master := r.master.val, id := r.id.val }] ∧ t.bus.waiting = []))

/-- Ports, the boot remap, a broken lock and the interrupt controller. A port grants the oldest transaction of its
master and identifier: a LOCKED access while a sequence holds it, CONTROL before BULK until 4 in a row with BULK
waiting. What masters have put to the matrix by the time of an access is outstanding, or held where it asks for the
zero window between a write of REMAP and the switch. Master 0 writes REMAP and no other master does; at the switch
what is outstanding completes first, and the window switches once no zero-window transaction is outstanding. A
sequence held for over 256 matrix cycles is ended with LOCK_BRK, and its next access is answered with an error. A
claim by master 0 takes the claimable source, another read takes none. For a master that may write the block,
completing an active source ends it and samples a level input, IRQ_SETPEND and IRQ_PEND set and clear PENDING (but
for bits set in the same cycle), and a write of IRQ_SRCnnn_CFG takes EN, SENSE and PRIO and clears PENDING likewise;
another host write sets HOST_WR_IGN. What else the module being down or no change to make leaves alone is stated
too. Round robin and the order among identifiers are log entry 64. (R7, R348, R349, R350, R355, R367, R368, R369,
R370, R372) -/
def Obligations.MatrixAndInterrupts : Prop :=
  (∀ (s : State) (p : Target) (i : Nat), s.pick p = some i →
    busReady s.bus.waiting i = true ∧
    ((s.port p).lock.isSome = true → s.reqIs (fun r => r.cls = .locked) i = true) ∧
    ((s.port p).lock = none → (∃ j ∈ s.candidates p, s.reqIs (fun r => r.cls ≠ .bulk) j = true) → (s.port p).run < 4 →
      s.reqIs (fun r => r.cls ≠ .bulk) i = true) ∧
    ((s.port p).lock = none → (∃ j ∈ s.candidates p, s.reqIs (fun r => r.cls = .bulk) j = true) → 4 ≤ (s.port p).run →
      s.reqIs (fun r => r.cls = .bulk) i = true)) ∧
  (∀ (s : State) (p : Target) (i : Nat) (r : BusReq), s.bus.waiting[i]? = some r → r.cls = .locked → r.first = false →
    s.bus.broken = true → (s.grant p i).bus.broken = false ∧
      (s.grant p i).bus.answers = s.bus.answers ++ [{ master := r.master.val, id := r.id.val, error := true }]) ∧
  (∀ (s u : State) (b : BusAccess) (v : Word), u = s.meet b →
    (∀ r ∈ b.others, s.core = true → r ∈ u.bus.waiting ∨
      (r ∈ u.bus.held ∧ s.bus.remapTo.isSome = true ∧ r.master = 0 ∧ r.addr < 0x200000)) ∧
    (s.core = false → u = s) ∧ u = { s with bus := { s.bus with waiting := u.bus.waiting, held := u.bus.held } } ∧
    (b.by_.val = 0 → s.core = true →
      exec (.remapWrite b v) s = .next (State.finish { u with bus := { u.bus with remapTo := some (bit v 0) } })) ∧
    (b.by_.val ≠ 0 ∨ s.core = false → exec (.remapWrite b v) s = .next u.finish)) ∧
  (∀ s u : State, u = State.drainBus { s with bus := { s.bus with answers := [] } } →
    (∀ b : Bool, s.bus.remapTo.isSome = true → u.bus.remapTo = some b → u.zeroBusy = false → exec .remapSwitch s =
      .next (State.drainBus { u with bus := { u.bus with
        remap := b, remapTo := none, waiting := u.bus.waiting ++ u.bus.held, held := [] } }).finish) ∧
    (s.bus.remapTo.isSome = true → u.bus.remapTo = none ∨ u.zeroBusy = true → exec .remapSwitch s = .next u.finish) ∧
    (s.bus.waiting = [] → s.drainBus = s) ∧
    (s.bus.remapTo = none → exec .remapSwitch s = .next s.finish)) ∧
  (∀ (s u : State) (dt : Nat), u = s.pass dt →
    (u.core = true → (∃ p, u.overLocked p = true) → ∃ q : State, exec (.lockBrk dt) s = .next q.drainBus.finish ∧
      bit (q.rg .sysBusmxStatus) 29 = true ∧ q.bus.broken = true ∧ q.bus.waiting = u.bus.waiting ∧
      ∀ p, (q.port p).lock = if u.overLocked p then none else (u.port p).lock) ∧
    (u.core = false ∨ (∀ p, u.overLocked p = false) → exec (.lockBrk dt) s = .next u.finish)) ∧
  (∀ (s : State) (b : Master),
    (s.core = true → (b.val = 2 → s.hostUp = true) →
      (∀ n : Nat, s.claim = some n → (s.irqs n).en = true ∧ (s.irqs n).pending = true ∧
        (b.val = 0 → exec (.irqClaim b) s = .next ((s.modIrq n fun q => { q with active := true, pending := false }).emit
          (.readData 0x4240 (BitVec.ofNat 64 (2 ^ 31 + n)))).finish) ∧
        (b.val ≠ 0 → exec (.irqClaim b) s = .next (s.emit (.readData 0x4240 (BitVec.ofNat 64 (2 ^ 31 + n)))).finish)) ∧
      (s.claim = none → exec (.irqClaim b) s = .next (s.emit (.readData 0x4240 0#64)).finish)) ∧
    (s.core = false ∨ (b.val = 2 ∧ s.hostUp = false) → exec (.irqClaim b) s = .next s.finish)) ∧
  (∀ (s : State) (b : Master) (v m : Word) (k : Fin 4) (n : Fin 128),
    ((b.val ≠ 2 ∧ s.core = true) ∨ (b.val = 2 ∧ s.hostUp = true ∧ s.makerOk = true) →
      ((s.irqs (fld v 6 0)).active = true → ∃ t : State, exec (.irqComplete b v) s = .next t.finish ∧
        (t.irqs (fld v 6 0)).active = false ∧ (t.irqs (fld v 6 0)).pending =
          (if (s.irqs (fld v 6 0)).sense = 0#2 then s.irqInput (fld v 6 0) else (s.irqs (fld v 6 0)).pending)) ∧
      ((s.irqs (fld v 6 0)).active = false → exec (.irqComplete b v) s = .next s.finish) ∧
      (∃ t : State, exec (.irqSetpend b k m) s = .next t.finish ∧
        ∀ j < 32, (t.irqs (32 * k.val + j)).pending = ((s.irqs (32 * k.val + j)).pending || bit m j)) ∧
      (∃ t : State, exec (.irqPendClear b k m) s = .next t.finish ∧
        ∀ j < 32, (t.irqs (32 * k.val + j)).pending =
          ((s.irqs (32 * k.val + j)).pending && !(bit m j && !bit (s.marked (Reg.irqPend.addr k.val)) j))) ∧
      (∃ t : State, exec (.irqSrcCfgWrite b n v) s = .next t.finish ∧ (t.irqs n.val).en = bit v 31 ∧
        (t.irqs n.val).sense.toNat = fld v 30 29 ∧ (t.irqs n.val).prio.toNat = fld v 27 24 ∧
        (t.irqs n.val).pending =
          ((s.irqs n.val).pending && bit (s.marked (Reg.irqPend.addr (n.val / 32))) (n.val % 32)))) ∧
    (∀ c ∈ [Instr.irqComplete b v, .irqSetpend b k m, .irqPendClear b k m, .irqSrcCfgWrite b n v],
      (b.val = 2 → s.hostUp = true → s.makerOk = false → exec c s = .next (s.setBit .sysBusmxStatus 0 31).finish) ∧
      ((b.val = 2 ∧ s.hostUp = false) ∨ (b.val ≠ 2 ∧ s.core = false) → exec c s = .next s.finish)))

/-- Under every cell vector the fabric is a permutation. Whatever states the 2048 cells hold, light that enters on
two different fabric inputs leaves on two different outputs, each of 0 to 255, and no two paths use the same input
of one cell; every path has 16 cells, one in each gallery. (R30, R32, R33, R34) -/
def Obligations.FabricIsAPermutation : Prop :=
  ∀ vec : Nat → Bool,
    (∀ i < 256, (tracePath vec i).2 < 256 ∧ ((tracePath vec i).1.map fun h => h.cell / 128) = List.range 16) ∧
    (∀ i < 256, ∀ j < 256, i ≠ j → (tracePath vec i).2 ≠ (tracePath vec j).2 ∧
      ∀ g ∈ (tracePath vec i).1, ∀ h ∈ (tracePath vec j).1, ¬ (g.cell = h.cell ∧ g.inp = h.inp))

/-- Cells, the address bits of the galleries, and the wiring between them. In BAR light entering a cell on input k
leaves on output k and in CROSS on output 1 - k; gallery g acts on bit g for g from 0 to 7 and 15 - g from 8 to 15;
tau b exchanges bits 0 and b of an 8-bit value, tau 0 is the identity and each is its own inverse; the address of
wire position w at gallery g is tau of w, so an address lies on cell w / 2, input w mod 2 of wire position w; what
leaves gallery g on wire position w enters gallery g + 1 on tau (beta (g + 1)) of tau (beta g) of w: light on input
k of a cell goes on from output k in BAR and 1 - k in CROSS. (R32) -/
def Obligations.WiringOfTheFabric : Prop :=
  (∀ h : Hop, (h.cross = false → h.out = h.inp) ∧ (h.cross = true → h.out = !h.inp)) ∧
  (∀ g, (g ≤ 7 → beta g = g) ∧ (8 ≤ g → g ≤ 15 → beta g = 15 - g)) ∧
  (∀ b < 8, ∀ w < 256, tau b w < 256 ∧ tau b (tau b w) = w ∧ (tau b w).testBit 0 = w.testBit b ∧
    (tau b w).testBit b = w.testBit 0 ∧ (∀ i, i ≠ 0 → i ≠ b → (tau b w).testBit i = w.testBit i) ∧ tau 0 w = w) ∧
  (∀ g < 16, ∀ w < 256, cellAt g (tau (beta g) w) = (128 * g + w / 2, decide (w % 2 = 1))) ∧
  (∀ (vec : Nat → Bool) (g c : Nat) (k : Bool), g < 15 → c < 128 →
    (let w := 2 * c + (if k then 1 else 0)
     let out := 2 * c + (if (k != vec (128 * g + c)) then 1 else 0)
     ∃ hs e, traceFrom vec 2 g (tau (beta g) w) = (⟨128 * g + c, k, vec (128 * g + c)⟩ :: hs, e) ∧
       ∃ h, hs = [h] ∧ 2 * (h.cell - 128 * (g + 1)) + (if h.inp then 1 else 0) = tau (beta (g + 1)) (tau (beta g) out) ∧
         h.cell / 128 = g + 1))

/-- MAP_LOAD in both forms. A MAP_LOAD ready at the head of its ring, its map idle and not protected, stores its
payload in the map and nothing else in SRAM; a port map that keeps R38 leaves LOADED, a complete map that passes the
checks leaves ROUTED with the host flag, and either completes with status 00h, TAKEN and the directory entry; one
that fails leaves the map EMPTY and completes with 10h; a protected map completes with 11h and its directory entry
and keeps its bytes. While a computation or a change names the map, and without such a head, nothing happens. No
other map changes. RES of a refusal (log entry 37) and the trunk ports of a stack (log entry 67) are the model's
choices. (R25, R38, R61, R62, R64, R280, R282) -/
def Obligations.MapLoading : Prop :=
  (∀ (s : State) (r : Fin 16) (e : Entry), s.readyHead r.val 0x01 = some e →
    (let m := lef e.bytes 24 2
     let p := rdBytes e.payload 0 (payloadRead e.bytes)
     (∀ (f : Nat) (c : Instr), (f = 0 ∧ c = .mapLoad r) ∨ (f = 1 ∧ c = .mapLoadComplete r) →
       (byteAt e.bytes 26 ≠ f ∨ s.mapBusy m = true → exec c s = .next s.finish) ∧
       (byteAt e.bytes 26 = f → s.mapBusy m = false → s.mapProtected m = true →
         exec c s = .next (s.finishCmd r.val e.idx 0x11 false (s.dirBytes m)).finish)) ∧
     (s.mapBusy m = false → s.mapProtected m = false → byteAt e.bytes 26 = 0 →
       ∃ (t : State) (st : Nat), exec (.mapLoad r) s = .next (t.finishCmd r.val e.idx st (st = 0) (t.dirBytes m)).finish ∧
         rdBytes t.sram (mapBase m + 256) p.length = p ∧
         s.sramKept t (mapBase m + 256) p.length ∧ (∀ n, n ≠ m → t.dir n = s.dir n) ∧
         ((s.putMap m 256 p).connsOk m = true → st = 0 ∧ (t.dir m).state = .loaded ∧ (t.dir m).host = false ∧
           (t.dir m).engine = false) ∧
         ((s.putMap m 256 p).connsOk m = false → st = 0x10 ∧ t.dir m = {})) ∧
     (s.mapBusy m = false → s.mapProtected m = false → byteAt e.bytes 26 = 1 →
       ∃ (t : State) (st : Nat), exec (.mapLoadComplete r) s = .next (t.finishCmd r.val e.idx st (st = 0) (t.dirBytes m)).finish ∧
         rdBytes t.sram (mapBase m) p.length = p ∧
         s.sramKept t (mapBase m) p.length ∧ (∀ n, n ≠ m → t.dir n = s.dir n) ∧
         ((s.putMap m 0 p).connsOk m = true → completeMapOk ((s.putMap m 0 p).mapByte m) s.fab.failed = true →
           st = 0 ∧ (t.dir m).state = .routed ∧ (t.dir m).host = true ∧ (t.dir m).failGen = s.fab.failGen) ∧
         ((s.putMap m 0 p).connsOk m = false ∨ completeMapOk ((s.putMap m 0 p).mapByte m) s.fab.failed = false →
           st = 0x10 ∧ t.dir m = {})))) ∧
  (∀ (s : State) (r : Fin 16), s.readyHead r.val 0x01 = none →
    exec (.mapLoad r) s = .next s.finish ∧ exec (.mapLoadComplete r) s = .next s.finish)

/-- MAP_ROUTE and the end of its computation. A MAP_ROUTE ready at the head of its ring completes with 12h where SRC
is EMPTY, then with 13h where its base is neither ROUTED nor STALE, then with 11h where DST is protected, and
otherwise begins a computation; while a computation or change names one of its maps, and without such a head,
nothing happens. The end of the first computation of a command: if the failed-cell list has changed it starts again;
if DST has come to be protected, DST stays and the status is 11h; otherwise DST takes the port map of SRC and is
ROUTED with the engine flag, or, where no routing was found, LOADED with 14h; the command completes with the
directory entry, the time taken and the passes. With no computation nothing happens. The directory entry in a
refusal is the model's choice (log entry 37). (R25, R51, R66, R68, R280, R282) -/
def Obligations.RoutingAMap : Prop :=
  (∀ (s : State) (r : Fin 16),
  (s.readyHead r.val 0x02 = none → exec (.mapRoute r) s = .next s.finish) ∧
  ∀ e : Entry, s.readyHead r.val 0x02 = some e →
    (let src := lef e.bytes 24 2
     let dst := lef e.bytes 26 2
     let bw := lef e.bytes 28 2
     let base := if bits bw 15 15 = 1 then none else some (bits bw 9 0)
     let busy := s.mapBusy src || s.mapBusy dst || (base.any fun b => s.mapRouting b)
     let baseBad := base.any fun b => !s.mapRouted b
     (busy = true → exec (.mapRoute r) s = .next s.finish) ∧
     (busy = false →
       ((s.dir src).state = .empty → exec (.mapRoute r) s = .next (s.finishCmd r.val e.idx 0x12 false (s.dirBytes dst)).finish) ∧
       ((s.dir src).state ≠ .empty → baseBad = true →
         exec (.mapRoute r) s = .next (s.finishCmd r.val e.idx 0x13 false (s.dirBytes dst)).finish) ∧
       ((s.dir src).state ≠ .empty → baseBad = false → s.mapProtected dst = true →
         exec (.mapRoute r) s = .next (s.finishCmd r.val e.idx 0x11 false (s.dirBytes dst)).finish) ∧
       ((s.dir src).state ≠ .empty → baseBad = false → s.mapProtected dst = false →
         exec (.mapRoute r) s = .next ((s.begin_ r.val e.idx).onFab fun f => { f with routes := f.routes ++
           [{ ring := r.val, idx := e.idx, src := src, dst := dst, base := base, since := s.now, gen := s.fab.failGen }] }).finish)))) ∧
  (∀ (s u : State) (dt : Nat), u = s.pass dt →
    (u.fab.routes = [] → exec (.routeDone dt) s = .next u.finish) ∧
    ∀ (j : RouteJob) (js : List RouteJob), u.fab.routes = j :: js → j.remote = false →
      (let found := route u.fab.failed (j.base.map fun b => u.mapVec b) (u.mapConns j.src)
       (j.gen ≠ u.fab.failGen → exec (.routeDone dt) s =
         .next (u.onFab fun f => { f with routes := { j with gen := u.fab.failGen, since := u.now } :: js }).finish) ∧
       (j.gen = u.fab.failGen → ∃ (t : State) (st : Nat), exec (.routeDone dt) s =
           .next (t.finishCmd j.ring j.idx st (st = 0)
             (t.dirBytes j.dst ++ leBytes 4 ((u.now - j.since) * 1000 / 1024) ++ [BitVec.ofNat 8 found.2])).finish ∧
         t.fab.routes = js ∧ (∀ n, n ≠ j.dst → t.dir n = u.dir n) ∧
         (u.mapProtected j.dst = true → st = 0x11 ∧ t.fab = { u.fab with routes := js } ∧ t.sram = u.sram) ∧
         (u.mapProtected j.dst = false → found.1.isSome = true →
           st = 0 ∧ rdBytes t.sram (mapBase j.dst + 256) 288 = rdBytes u.sram (mapBase j.src + 256) 288 ∧
           (t.dir j.dst).state = .routed ∧ (t.dir j.dst).engine = true ∧ u.sramKept t (mapBase j.dst) 544) ∧
         (u.mapProtected j.dst = false → found.1 = none →
           st = 0x14 ∧ rdBytes t.sram (mapBase j.dst + 256) 288 = rdBytes u.sram (mapBase j.src + 256) 288 ∧
           (t.dir j.dst).state = .loaded ∧ u.sramKept t (mapBase j.dst + 256) 288))))

/-- NOP, MAP_READ and MAP_FREE. Ready at the head of its ring, NOP completes with status 00h and TAKEN; MAP_READ of
an idle map that is not EMPTY writes its 544 bytes to PAYLOAD_ADDR and completes with its directory entry, and of an
EMPTY one completes with 12h; MAP_FREE of an idle unprotected map leaves it EMPTY and completes, and of a protected
one completes with 11h. They change no other map and no byte of SRAM, and the first two change nothing but their
completion. While a computation or a change names the map, and without such a head, nothing happens. (R25, R62,
R275, R280, R281, R282) -/
def Obligations.NopMapReadAndFree : Prop :=
  ∀ (s : State) (r : Fin 16),
    (∀ p ∈ [(Instr.nop r, 0x00), (.mapRead r, 0x05), (.mapFree r, 0x06)], s.readyHead r.val p.2 = none →
      exec p.1 s = .next s.finish) ∧
    ∀ e : Entry,
    (s.readyHead r.val 0x00 = some e →
      ∃ t : State, exec (.nop r) s = .next t.finish ∧ t = s.finishCmd r.val e.idx 0 true ∧ t.frame = s.frame) ∧
    (s.readyHead r.val 0x05 = some e →
      (let m := lef e.bytes 24 2
       (s.mapBusy m = true → exec (.mapRead r) s = .next s.finish) ∧
       (s.mapBusy m = false → (s.dir m).state = .empty → ∃ t : State, exec (.mapRead r) s = .next t.finish ∧
         t.frame = s.frame ∧ t = s.finishCmd r.val e.idx 0x12 false) ∧
       (s.mapBusy m = false → (s.dir m).state ≠ .empty → ∃ t : State, exec (.mapRead r) s = .next t.finish ∧ t.frame = s.frame ∧
         t = s.finishCmd r.val e.idx 0 true (s.dirBytes m) 0 (some (lef e.bytes 8 8, rdBytes s.sram (mapBase m) 544))))) ∧
    (s.readyHead r.val 0x06 = some e →
      (let m := lef e.bytes 24 2
       (s.mapBusy m = true → exec (.mapFree r) s = .next s.finish) ∧
       (s.mapBusy m = false → s.mapProtected m = true →
         exec (.mapFree r) s = .next (s.finishCmd r.val e.idx 0x11 false).finish) ∧
       (s.mapBusy m = false → s.mapProtected m = false →
         ∃ t : State, exec (.mapFree r) s = .next (t.finishCmd r.val e.idx 0 true).finish ∧ t.dir m = {} ∧
         (∀ n, n ≠ m → t.dir n = s.dir n) ∧ t = { s with fab := { s.fab with dirs := t.fab.dirs } })))

/-- MAP_APPLY, its preparation and MAP_CANCEL. A MAP_APPLY ready at the head of its ring, no computation naming its
map, completes with NOT_ROUTED, then PATTERN_OWNS, then TIME_RANGE, then CHAMBER_UNAVAILABLE with the chambers,
where one holds; otherwise at a time more than 250 µs ahead it waits, and nearer or at once its change is in
preparation with the gates of the lanes it affects held closed. Within 250 µs of its time a waiting one begins its
change with what was asked, or completes with NOT_ROUTED or CHAMBER_UNAVAILABLE. MAP_CANCEL ends the waiting one
that it names with CANCELLED and completes, and completes with 0Bh where none waits so. Otherwise nothing happens
but the cut of frames at gates already held closed. (R70, R73, R90, R209, R281, R283) -/
def Obligations.ApplyingAMap : Prop :=
  (∀ (s : State) (r : Fin 16),
  (s.readyHead r.val 0x03 = none → exec (.mapApply r) s = .next s.shutGates.finish) ∧
  ∀ e : Entry, s.readyHead r.val 0x03 = some e →
    (let m := lef e.bytes 24 2
     let w := s.begin_ r.val e.idx
     (s.mapRouting m = true → exec (.mapApply r) s = .next s.shutGates.finish) ∧
     (s.mapRouting m = false →
       (s.mapRouted m = false → exec (.mapApply r) s = .next (s.finishCmd r.val e.idx 0x13 false).shutGates.finish) ∧
       (s.mapRouted m = true → s.patternOwns = true →
         exec (.mapApply r) s = .next (s.finishCmd r.val e.idx 0x15 false).shutGates.finish) ∧
       (s.mapRouted m = true → s.patternOwns = false →
         ((timeArg e.bytes 32).any s.timeBad = true →
           exec (.mapApply r) s = .next (s.finishCmd r.val e.idx 0x08 false).shutGates.finish) ∧
         ((timeArg e.bytes 32).any s.timeBad = false → s.applyMask m ≠ 0 →
           exec (.mapApply r) s =
             .next (s.finishCmd r.val e.idx 0x17 false (applyRes 0 0 0 0 0 (s.applyMask m) 0)).shutGates.finish) ∧
         (∀ t, timeArg e.bytes 32 = some t → s.timeBad t = false → s.applyMask m = 0 → s.prepDue t = false →
           exec (.mapApply r) s = .next (w.onFab fun f =>
             { f with applies := f.applies ++ [{ ring := r.val, idx := e.idx, map := m, time := t }] }).shutGates.finish) ∧
         ((timeArg e.bytes 32).any s.timeBad = false → s.applyMask m = 0 →
           (∀ t, timeArg e.bytes 32 = some t → s.prepDue t = true) →
           ∃ t : State, exec (.mapApply r) s = .next t.finish ∧ t.fab.inForce = s.fab.inForce ∧
             (let c : Change := { map := m, prev := s.fab.inForce, src := .apply r.val e.idx, stale := (s.dir m).state = .stale }
              t.fab.waiting = s.fab.waiting ++
                [{ c with at_ := timeArg e.bytes 32, gatesShut := BitVec.ofNat 8 (maskOf (w.changeLanes m)) }])))))) ∧
  (∀ (s u : State) (dt : Nat) (r : Fin 16), u = s.pass dt →
    (u.fab.applies.find? (fun a => a.ring = r.val && u.prepDue a.time) = none →
      exec (.mapApplyPreparation dt r) s = .next u.shutGates.finish) ∧
    ∀ a, u.fab.applies.find? (fun a => a.ring = r.val && u.prepDue a.time) = some a →
      (let w := u.onFab fun f => { f with applies := f.applies.filter (· ≠ a) }
       (u.mapRouted a.map = false →
         exec (.mapApplyPreparation dt r) s = .next (w.finishCmd r.val a.idx 0x13 false).shutGates.finish) ∧
       (u.mapRouted a.map = true → w.applyMask a.map ≠ 0 → exec (.mapApplyPreparation dt r) s =
         .next (w.finishCmd r.val a.idx 0x17 false (applyRes 0 0 0 0 0 (w.applyMask a.map) 0)).shutGates.finish) ∧
       (u.mapRouted a.map = true → w.applyMask a.map = 0 →
         ∃ t : State, exec (.mapApplyPreparation dt r) s = .next t.finish ∧ t.fab.inForce = u.fab.inForce ∧
           t.fab.applies = u.fab.applies.filter (· ≠ a) ∧
           (let c : Change := { map := a.map, prev := u.fab.inForce, src := .apply r.val a.idx, at_ := some a.time }
            t.fab.waiting = u.fab.waiting ++ [{ c with
              stale := (u.dir a.map).state = .stale, gatesShut := BitVec.ofNat 8 (maskOf (w.changeLanes a.map)) }])))) ∧
  (∀ (s : State) (r : Fin 16),
    (s.readyHead r.val 0x04 = none → exec (.mapCancel r) s = .next s.finish) ∧
    ∀ e : Entry, s.readyHead r.val 0x04 = some e →
      (let named := s.fab.applies.find? fun a => a.ring = byteAt e.bytes 24 && a.idx = lef e.bytes 28 4 && !s.prepDue a.time
       (named = none → exec (.mapCancel r) s = .next (s.finishCmd r.val e.idx 0x0B false).finish) ∧
       (∀ a, named = some a → ∃ t : State, exec (.mapCancel r) s =
           .next ((t.finishCmd (byteAt e.bytes 24) (lef e.bytes 28 4) 0x0A false).finishCmd r.val e.idx 0 true).finish ∧
         t.fab = { s.fab with applies := s.fab.applies.filter (· ≠ a) })))

/-- FAIL_ADD, FAIL_REMOVE and a cell that is listed by the module. Ready at the head of its ring, FAIL_ADD of an
unlisted cell with room adds an installer entry, of a listed one replaces it (a factory entry keeps its source, and
the Relpety record takes the kind with TEST_EN), and of an unlisted cell to a full list completes with 18h;
FAIL_REMOVE of a listed cell closes the gap (in the record too, for a factory entry with TEST_EN) and of an unlisted
one completes with 19h. Each change of the list increments GEN; an addition makes each ROUTED map that conflicts
with the entry STALE and leaves the other ROUTED ones ROUTED under the new GEN; either completes with COUNT and GEN.
A cell with enough dropped stitches is listed by the module with the kind its drops call for, or its module entry
takes that kind, and source 50 fires; where the list is full OVERFLOW is set and source 51 fires; an entry of
another source or of the same kind stays. Without such a head or drop nothing happens. RES of a refusal (log entry
37) and an identical entry counting as a change (log entry 66) are the model's choices. (R27, R50, R52, R65, R79,
R282) -/
def Obligations.FailedCellList : Prop :=
  (∀ (s : State) (r : Fin 16),
  (s.readyHead r.val 0x07 = none → exec (.failAdd r) s = .next s.finish) ∧
  ∀ e : Entry, s.readyHead r.val 0x07 = some e →
    (let c := lef e.bytes 24 2
     let k := kindOfCode (byteAt e.bytes 26)
     let added := fun (f : FailEntry) (l : List FailEntry) => ∃ (t : State) (n : Nat), exec (.failAdd r) s =
         .next (t.finishCmd r.val e.idx 0 true
           ([BitVec.ofNat 8 t.fab.failed.length, t.fab.failGen] ++ leBytes 2 n)).finish ∧
       t.fab.failed = l ∧ t.fab.failGen = s.fab.failGen + 1 ∧ t.sram = s.sram ∧
       (f.src = .factory → s.pwr.testEn = true → t.flash.relpety.failed =
         s.flash.relpety.failed.map fun h : FailEntry => if h.cell = c then f else h) ∧
       (f.src ≠ .factory ∨ s.pwr.testEn = false → t.flash.relpety = s.flash.relpety) ∧
       ∀ m, (s.dir m).state = .routed →
         (hopsConflict [f] (s.mapHops m) = true → (t.dir m).state = .stale) ∧
         (hopsConflict [f] (s.mapHops m) = false → (t.dir m).state = .routed ∧ (t.dir m).failGen = s.fab.failGen + 1)
     (s.failed c = none → 16 ≤ s.fab.failed.length → exec (.failAdd r) s = .next (s.finishCmd r.val e.idx 0x18 false
       [BitVec.ofNat 8 s.fab.failed.length, s.fab.failGen]).finish) ∧
     (s.failed c = none → s.fab.failed.length < 16 → added { cell := c, kind := k, src := .installer }
       (s.fab.failed ++ [{ cell := c, kind := k, src := .installer }])) ∧
     (∀ f, s.failed c = some f → f.src = .factory → added { f with kind := k }
       (s.fab.failed.map fun g => if g.cell = f.cell then { f with kind := k } else g)) ∧
     (∀ f, s.failed c = some f → f.src ≠ .factory → added { cell := c, kind := k, src := .installer }
       (s.fab.failed.map fun g => if g.cell = c then { cell := c, kind := k, src := .installer } else g)))) ∧
  (∀ (s : State) (r : Fin 16),
  (s.readyHead r.val 0x08 = none → exec (.failRemove r) s = .next s.finish) ∧
  ∀ e : Entry, s.readyHead r.val 0x08 = some e →
    (let c := lef e.bytes 24 2
     (s.failed c = none → exec (.failRemove r) s = .next (s.finishCmd r.val e.idx 0x19 false
       [BitVec.ofNat 8 s.fab.failed.length, s.fab.failGen]).finish) ∧
     (∀ f, s.failed c = some f → ∃ t : State, exec (.failRemove r) s =
         .next (t.finishCmd r.val e.idx 0 true [BitVec.ofNat 8 t.fab.failed.length, t.fab.failGen]).finish ∧
       t.fab = { s.fab with failed := s.fab.failed.filter (·.cell ≠ c), failGen := s.fab.failGen + 1 } ∧ t.failed c = none ∧
       (f.src = .factory → s.pwr.testEn = true → t.flash.relpety.failed =
         s.flash.relpety.failed.filter fun h : FailEntry => decide (h.cell ≠ c)) ∧
       (f.src ≠ .factory ∨ s.pwr.testEn = false → t.flash = s.flash)))) ∧
  (∀ (s : State) (c : Fin 2048),
  ((s.cell c.val).failDue = false → exec (.cellFailed c) s = .next s.finish) ∧
  ((s.cell c.val).failDue = true →
    (let f : FailEntry := { cell := c.val, kind := dropKind (s.cell c.val).hist, src := .module }
     (s.failed c.val = none → s.fab.failed.length < 16 → ∃ t : State, exec (.cellFailed c) s = .next t.finish ∧
       t.fab.failed = s.fab.failed ++ [f] ∧ t.fab.failGen = s.fab.failGen + 1 ∧
       ∃ q ∈ t.flt.fireQ, q.src = 50 ∧ q.detail = c.val) ∧
     (∀ g, s.failed c.val = some g → g.src = .module → g.kind ≠ f.kind → ∃ t : State, exec (.cellFailed c) s = .next t.finish ∧
       t.fab.failed = (s.fab.failed.map fun g => if g.cell = c.val then f else g) ∧ t.fab.failGen = s.fab.failGen + 1 ∧
       ∃ q ∈ t.flt.fireQ, q.src = 50 ∧ q.detail = c.val) ∧
     (∀ g, s.failed c.val = some g → (g.src ≠ .module ∨ g.kind = f.kind) → exec (.cellFailed c) s =
       .next (s.modCell c.val fun x => { x with failDue := false }).finish) ∧
     (s.failed c.val = none → 16 ≤ s.fab.failed.length → ∃ t : State, exec (.cellFailed c) s = .next t.finish ∧
       t.fab.failed = s.fab.failed ∧ bit (t.rg .fabFailStatus) 5 = true ∧ ∃ q ∈ t.flt.fireQ, q.src = 51 ∧ q.detail = c.val))))

/-- BANK_LOAD and the end of its check. Ready at the head of its ring, BANK_LOAD into a RUNNING or PENDING bank
completes with 28h; into a LOADING one it waits; into any other it begins, copies its 131,072 bytes and leaves the
bank LOADING, with no other byte of SRAM, bank, map or running bank changed. When the check of such a load ends, the
bank is VALID with the drift it was checked under, or REFUSED, and the command completes with the check's status and
finding. Without such a head or a LOADING bank nothing happens. The check of a distribution set is stated with it.
(R188, R201, R202, R280, R281, R285) -/
def Obligations.LoadingABank : Prop :=
  (∀ (s : State) (r : Fin 16),
  (s.readyHead r.val 0x20 = none → exec (.bankLoad r) s = .next s.finish) ∧
  ∀ e : Entry, s.readyHead r.val 0x20 = some e →
    (let b := byteAt e.bytes 24
     ((s.bank b).state = .running ∨ (s.bank b).state = .pending →
       exec (.bankLoad r) s = .next (s.finishCmd r.val e.idx 0x28 false ({ item := 0xFF : BankVerdict }).res).finish) ∧
     ((s.bank b).state = .loading → exec (.bankLoad r) s = .next s.finish) ∧
     ((s.bank b).state = .empty ∨ (s.bank b).state = .valid ∨ (s.bank b).state = .refused →
       ∃ t : State, exec (.bankLoad r) s = .next t.finish ∧ (t.bank b).state = .loading ∧
         (t.bank b).issuer = some (r.val, e.idx) ∧ (t.bank b).remote = false ∧
         (∀ k < 131072, rd t.sram (bankBase b + k) = rd e.payload k) ∧ s.sramKept t (bankBase b) 131072 ∧
         (∀ n, n ≠ b → t.bank n = s.bank n) ∧ t.fab = s.fab ∧ t.sched.run = s.sched.run))) ∧
  (∀ (s u : State) (dt : Nat) (b : Fin 4), u = s.pass dt →
    ((u.bank b.val).state ≠ .loading → exec (.bankLoadChecked dt b) s = .next u.finish) ∧
    ((u.bank b.val).state = .loading → (u.bank b.val).remote = false →
      (let v := u.checkBank b.val
       ∃ t : State,
         (t.bank b.val).issuer = none ∧ t.sram = u.sram ∧ t.fab = u.fab ∧ (∀ n, n ≠ b.val → t.bank n = u.bank n) ∧
         (v.status = 0 → (t.bank b.val).state = .valid ∧ (t.bank b.val).checkDrift = v.drift) ∧
         (v.status ≠ 0 → (t.bank b.val).state = .refused) ∧
         (∀ r i, (u.bank b.val).issuer = some (r, i) →
           exec (.bankLoadChecked dt b) s = .next (t.finishCmd r i v.status (v.status = 0) v.res).finish) ∧
         ((u.bank b.val).issuer = none → exec (.bankLoadChecked dt b) s = .next t.finish))))

/-- PATTERN_START and the start of the bank. Ready at the head of its ring, PATTERN_START waits for a LOADING bank;
it is refused with 2Ch while a bank runs or a start waits, then with 2Eh where the bank is not VALID or the module
is in a stack (log entry 67), then with 08h where the time is out of range, then with 17h where a chamber refuses
its START_MAP. Accepted, the bank is PENDING: with START_MAP in force or none, until the first of its matrix
boundaries at or after the time; otherwise the change to START_MAP is in preparation first. At the boundary, with no
bank running, the bank runs from row 0 of that matrix, ROWCNT increments, a self-test ends, and the command
completes with the boundary. Otherwise nothing happens but the cut of frames at gates held closed. (R189, R190,
R204, R217, R277, R285, R318, R438) -/
def Obligations.StartingABank : Prop :=
  (∀ (s : State) (r : Fin 16),
  (s.readyHead r.val 0x21 = none → exec (.patternStart r) s = .next s.shutGates.finish) ∧
  ∀ e : Entry, s.readyHead r.val 0x21 = some e →
    (let b := byteAt e.bytes 24
     let time := (timeArg e.bytes 32).getD (ceilNs s.nt)
     ((s.bank b).state = .loading → exec (.patternStart r) s = .next s.shutGates.finish) ∧
     ((s.bank b).state ≠ .loading →
       (s.sched.run.isSome = true ∨ s.sched.start.isSome = true →
         exec (.patternStart r) s = .next (s.finishCmd r.val e.idx 0x2C false).shutGates.finish) ∧
       (s.sched.run = none → s.sched.start = none →
         ((s.bank b).state ≠ .valid ∨ s.casc.role = .stack →
           exec (.patternStart r) s = .next (s.finishCmd r.val e.idx 0x2E false).shutGates.finish) ∧
         ((s.bank b).state = .valid → s.casc.role ≠ .stack →
           ((timeArg e.bytes 32).any s.timeBad = true →
             exec (.patternStart r) s = .next (s.finishCmd r.val e.idx 0x08 false).shutGates.finish) ∧
           ((timeArg e.bytes 32).any s.timeBad = false → ((s.startMap b).any fun m => s.applyMask m ≠ 0) = true →
             exec (.patternStart r) s = .next (s.finishCmd r.val e.idx 0x17 false).shutGates.finish) ∧
           ((timeArg e.bytes 32).any s.timeBad = false → ((s.startMap b).any fun m => s.applyMask m ≠ 0) = false →
             ∃ t : State, exec (.patternStart r) s = .next (State.shutGates t).finish ∧ (t.bank b).state = .pending ∧
               t.fab.inForce = s.fab.inForce ∧ t.sched.run = none ∧
               t.sched.start = some { bank := b, time := time, needMap := (s.startMap b).isSome,
                                      boundary := if (s.startMap b).isSome then none
                                        else some (nextMatrix (s.bankImg b) (time * 65536)),
                                      ring := r.val, idx := e.idx } ∧
               (s.startMap b = none → t.fab = s.fab) ∧
               (∀ m, s.startMap b = some m → ∃ c : Change, t.fab.waiting = s.fab.waiting ++ [c] ∧ c.map = m ∧
                 c.src = .startMap ∧ c.stage = .prep))))))) ∧
  (∀ (s u : State) (dt : Nat), u = s.pass dt →
    (∀ (q : StartReq) (m : Nat), u.sched.start = some q → u.sched.run = none → q.boundary = some m → u.dueNt m = true →
      ∃ t : State, exec (.bankStart dt) s = .next (t.finishCmd q.ring q.idx 0 true (boundaryRes (ceilNs m))).finish ∧
        (∃ x, t.sched.run = some x ∧ x.bank = q.bank ∧ x.row = 0 ∧ x.matrix = m ∧ x.next = m + imgRow (u.bankImg q.bank)) ∧
        (t.bank q.bank).state = .running ∧ t.sched.rowCnt = u.sched.rowCnt + 1 ∧ t.sched.start = none ∧ t.tst.busy = false) ∧
    (u.sched.run.isSome = true ∨ u.sched.start = none ∨
        (∃ q, u.sched.start = some q ∧ (q.boundary = none ∨ ∃ m, q.boundary = some m ∧ u.dueNt m = false)) →
      exec (.bankStart dt) s = .next u.finish))

/-- Every matrix boundary is a whole number of matrices after PHASE. For an image with rows, the next matrix
boundary at or after a time lies less than one matrix after it and a whole number of matrices from PHASE, and it is
the first such instant; the last one at or before a time lies less than one matrix before it, a whole number of
matrices from PHASE, also where that is before time 0; the row of a time is the number of whole rows since that
boundary, below NROWS, and at a time which is a boundary both are that time and the row is 0. (R189, R190) -/
def Obligations.BoundariesOfABank : Prop :=
  ∀ (g : Img) (t : Nat), 0 < imgM g →
    t ≤ nextMatrix g t ∧ nextMatrix g t < t + imgM g ∧ nextMatrix g t % imgM g = imgPhase g * 65536 % imgM g ∧
    (∀ u, t ≤ u → u % imgM g = imgPhase g * 65536 % imgM g → nextMatrix g t ≤ u) ∧
    lastMatrix g t ≤ t ∧ (t : Int) < lastMatrix g t + imgM g ∧
    (∃ k : Int, lastMatrix g t = imgPhase g * 65536 + k * imgM g) ∧
    (placeOf g t).1 = lastMatrix g t ∧
    (placeOf g t).1 + ((placeOf g t).2 * imgRow g : Nat) ≤ t ∧
    (t : Int) < (placeOf g t).1 + (((placeOf g t).2 + 1) * imgRow g : Nat) ∧ (placeOf g t).2 < imgNrows g ∧
    (nextMatrix g t = t → lastMatrix g t = t ∧ (placeOf g t).2 = 0)

/-- PATTERN_SWAP, PATTERN_STOP and their boundaries. Ready at the head of its ring, PATTERN_SWAP waits for a LOADING
bank and completes with 2Dh with no bank running, 2Eh where its bank is not VALID, 08h where the time is out of
range, 2Fh or 30h where no common boundary or map lets it; one that passes waits with its bank PENDING and replaces
the one that waited, whose bank is VALID again. PATTERN_STOP completes with 2Dh with no bank running, and otherwise
waits for the end of the present matrix, or for the stop that waits. At its boundary, its row boundary taken, the
swapped bank runs from that matrix, row 0, the old one is VALID, and the swap completes with the boundary; at the
stopping boundary no bank runs, every queue is open, fail-quiet and hold are over, and the bank that ran is VALID.
Otherwise nothing happens. (R205, R206, R208, R216, R280, R285) -/
def Obligations.SwappingAndStopping : Prop :=
  (∀ (s : State) (r : Fin 16),
  (s.readyHead r.val 0x22 = none → exec (.patternSwap r) s = .next s.finish) ∧
  (s.readyHead r.val 0x23 = none → exec (.patternStop r) s = .next s.finish) ∧
  ∀ e : Entry,
    (s.readyHead r.val 0x22 = some e →
      (let b := byteAt e.bytes 24
       let v := s.swapCheck b (timeArg e.bytes 32)
       ((s.bank b).state = .loading → exec (.patternSwap r) s = .next s.finish) ∧
       ((s.bank b).state ≠ .loading →
         (v.1 ≠ 0 → exec (.patternSwap r) s = .next (s.finishCmd r.val e.idx v.1 false).finish) ∧
         (s.sched.run = none → v.1 = 0x2D) ∧
         (s.sched.run.isSome = true → (s.bank b).state ≠ .valid → v.1 = 0x2E) ∧
         (s.sched.run.isSome = true → (s.bank b).state = .valid → (timeArg e.bytes 32).any s.timeBad = true → v.1 = 0x08) ∧
         (v.1 = 0 → ∃ t : State, exec (.patternSwap r) s = .next t.finish ∧ (t.bank b).state = .pending ∧
           t.sched.swap = some { bank := b, boundary := v.2, issuer := some (r.val, e.idx) } ∧
           (∀ q, s.sched.swap = some q → q.bank ≠ b → (t.bank q.bank).state = .valid) ∧
           t.sched.run = s.sched.run ∧ t.fab = s.fab)))) ∧
    (s.readyHead r.val 0x23 = some e →
      (s.sched.run = none → exec (.patternStop r) s = .next (s.finishCmd r.val e.idx 0x2D false).finish) ∧
      (∀ q, s.sched.run = some q → exec (.patternStop r) s =
        .next ((s.begin_ r.val e.idx).onSched fun c => { c with
          stops := c.stops ++ [(r.val, e.idx)],
          stopAt := some (c.stopAt.getD (q.matrix + imgM (s.bankImg q.bank)).toNat) }).finish))) ∧
  (∀ (s u : State) (dt : Nat), u = s.pass dt →
    (∀ (x : Run) (q : SwapReq), u.sched.run = some x → u.sched.swap = some q →
      (u.dueNt q.boundary = true → q.boundary < x.next →
        ∃ t : State, (∀ a i, q.issuer = some (a, i) →
            exec (.bankSwap dt) s = .next (t.finishCmd a i 0 true (boundaryRes (ceilNs q.boundary))).finish) ∧
          (q.issuer = none → exec (.bankSwap dt) s = .next t.finish) ∧
          (∃ y, t.sched.run = some y ∧ y.bank = q.bank ∧ y.matrix = q.boundary ∧ y.row = 0) ∧
          (t.bank q.bank).state = .running ∧ (x.bank ≠ q.bank → (t.bank x.bank).state = .valid) ∧ t.sched.swap = none ∧
          t.sched.rowCnt = u.sched.rowCnt) ∧
      (u.dueNt q.boundary = false ∨ x.next ≤ q.boundary → exec (.bankSwap dt) s = .next u.finish)) ∧
    (u.sched.run = none ∨ u.sched.swap = none → exec (.bankSwap dt) s = .next u.finish) ∧
    (∀ (x : Run) (b : Nat), u.sched.run = some x → u.sched.stopAt = some b →
      (u.dueNt b = true → b < x.next →
        ∃ t : State, exec (.bankEnd dt) s = .next t.finish ∧ t.sched.run = none ∧ (t.bank x.bank).state = .valid ∧
          t.sched.stops = [] ∧ t.sched.stopAt = none ∧ t.sched.swap = none ∧ t.sched.hold = none ∧
          t.sched.failQuiet = false ∧ t.fab.inForce = u.fab.inForce ∧
          ∀ l < 8, (t.lane l).gates = 0xFF#8 ∧ (t.lane l).kind = .arbitrating) ∧
      (u.dueNt b = false ∨ x.next ≤ b → exec (.bankEnd dt) s = .next u.finish)) ∧
    (u.sched.run = none ∨ u.sched.stopAt = none → exec (.bankEnd dt) s = .next u.finish))

/-- Row boundaries and gate events. With a bank running, at a row boundary ROWCNT increments; the next row follows,
or row 0 of the next matrix with its change entries and gate entries from the first on, each with its boundary one
row length later; the count of rows with DRIFT 0 goes on under fail-quiet and starts again otherwise, and a re-
alignment lasts on only while its change has not ended. A due gate entry gives its lane the entry's gates and KIND,
goes on to the next entry, and changes nothing of the schedule and of other lanes. With no bank, no entry left or
nothing due, only the time passes. (R189, R190, R195, R213, R217) -/
def Obligations.RowsAndGates : Prop :=
  ∀ (s u : State) (dt : Nat), u = s.pass dt →
    (u.sched.run = none → exec (.rowBoundary dt) s = .next u.finish ∧ ∀ l : Fin 8, exec (.gateEvent dt l) s = .next u.finish) ∧
    (∀ x : Run, u.sched.run = some x →
      (u.dueNt x.next = false → exec (.rowBoundary dt) s = .next u.finish) ∧
      (u.dueNt x.next = true → ∃ t : State, exec (.rowBoundary dt) s = .next t.finish ∧ t.sched.rowCnt = u.sched.rowCnt + 1 ∧
        (∃ y, t.sched.run = some y ∧ y.bank = x.bank ∧ y.next = x.next + imgRow (u.bankImg x.bank) ∧
          (x.row + 1 < imgNrows (u.bankImg x.bank) → y.row = x.row + 1 ∧ y.matrix = x.matrix ∧ y.change = x.change) ∧
          (imgNrows (u.bankImg x.bank) ≤ x.row + 1 → y.row = 0 ∧ y.matrix = x.next ∧ y.change = 0 ∧
            ∀ l < 8, (t.lane l).gateIdx = 0)) ∧
        t.sched.fqRows = (if u.sched.failQuiet && !u.time.drift then u.sched.fqRows + 1 else 0) ∧
        t.sched.realign = (u.sched.realign && u.realigning)) ∧
      ∀ l : Fin 8,
        ((laneGates (u.bankImg x.bank) l.val)[(u.lane l.val).gateIdx]? = none → exec (.gateEvent dt l) s = .next u.finish) ∧
        ∀ e : Gate, (laneGates (u.bankImg x.bank) l.val)[(u.lane l.val).gateIdx]? = some e →
          (u.dueNt (x.timeOf (entryAt (u.bankImg x.bank) e.row e.off)) = false → exec (.gateEvent dt l) s = .next u.finish) ∧
          (u.dueNt (x.timeOf (entryAt (u.bankImg x.bank) e.row e.off)) = true →
            ∃ t : State, exec (.gateEvent dt l) s = .next t.finish ∧ (t.lane l.val).gates = BitVec.ofNat 8 e.gates ∧
              (t.lane l.val).kind = kindOf e.kind ∧ (t.lane l.val).gateIdx = (u.lane l.val).gateIdx + 1 ∧ t.sched = u.sched ∧
              ∀ k < 8, k ≠ l.val → t.lane k = u.lane k))

/-- Fail-quiet and static hold begin and end. While a bank with exclusive windows runs, DRIFT starts fail-quiet with
its sticky bit and its level source 62, and scheduled changes in preparation are given up; RELEASE_ROWS rows without
DRIFT end it. A requested hold takes effect once the matrix it was asked for has begun, replacing one in force (log
entry 65), and a coupling hold with INAUG_VALID puts the change to the inauguration map in preparation where that
map is ROUTED and not in force; a hold ends when its rule is met and the step is over. Where the last of the two
ends and the map in force is not the scheduled one, REALIGN is set and the change to the scheduled map is in
preparation; otherwise none follows. Where the condition of a command does not hold, only the time passes and frames
at gates held closed are cut. (R195, R212, R213, R214, R216) -/
def Obligations.FailQuietAndHold : Prop :=
  ∀ (s u : State) (dt : Nat), u = s.pass dt →
    ((∀ x : Run, u.sched.run = some x → u.sched.failQuiet = false → u.time.drift = true →
        hasExclusive (u.bankImg x.bank) = true →
        ∃ t : State, exec (.failQuietStart dt) s = .next t.finish ∧ t.sched.failQuiet = true ∧ t.sched.fqRows = 0 ∧
          t.sched.fqSkipped = 0 ∧ bit (t.rg .schedStatus) 24 = true ∧ t.activeSrc 62 = true ∧ t.fab.casts = [] ∧
          t.fab.armedEntry = none ∧ t.sched.run = some x ∧ t.fab.inForce = u.fab.inForce) ∧
      (u.sched.run = none ∨ u.sched.failQuiet = true ∨ u.time.drift = false ∨
          (∃ x, u.sched.run = some x ∧ hasExclusive (u.bankImg x.bank) = false) →
        exec (.failQuietStart dt) s = .next u.finish)) ∧
    ((u.sched.failQuiet = true → u.releaseRows ≤ u.sched.fqRows →
        ∃ t : State, exec (.failQuietEnd dt) s = .next (State.shutGates t).finish ∧ t.sched.failQuiet = false ∧ t.sched.fqSkipped = 0 ∧
          (t.fsrc 62).active = false ∧
          (u.realignNeed u.sched.hold.isNone = none → t.sched.realign = u.sched.realign ∧ t.fab = u.fab) ∧
          (∀ m, u.realignNeed u.sched.hold.isNone = some m → t.sched.realign = true ∧ bit (t.rg .schedStatus) 20 = true ∧
            ∃ c : Change, t.fab.waiting = u.fab.waiting ++ [c] ∧ c.map = m ∧ c.src = .realign ∧ c.stage = .prep)) ∧
      (u.sched.failQuiet = false ∨ u.sched.fqRows < u.releaseRows →
        exec (.failQuietEnd dt) s = .next u.shutGates.finish)) ∧
    ((∀ (x : Run) (w : HoldWhy), u.sched.run = some x → u.sched.holdReq = some w → u.sched.holdAt ≤ x.matrix →
        ∃ t : State, exec (.holdStart dt) s = .next (State.shutGates t).finish ∧ t.sched.holdReq = none ∧
          (∃ h : Hold, t.sched.hold = some h ∧ h.why = w ∧ h.rows = 0 ∧ h.endDue = false) ∧ t.fab.armedEntry = none ∧
          t.fab.casts = [] ∧
          (let m := fld (u.rg .schedCfg) 25 16
           (w = .coupling → bit (u.rg .schedCfg) 31 = true → u.fab.inForce ≠ some m → u.mapRouted m = true →
             ∃ c : Change, t.fab.waiting = u.fab.waiting ++ [c] ∧ c.map = m ∧ c.src = .inaug ∧ c.stage = .prep) ∧
           (w = .step ∨ bit (u.rg .schedCfg) 31 = false ∨ u.fab.inForce = some m ∨ u.mapRouted m = false →
             t.fab.waiting = u.fab.waiting))) ∧
      (u.sched.run = none ∨ u.sched.holdReq = none ∨ (∃ x, u.sched.run = some x ∧ x.matrix < u.sched.holdAt) →
        exec (.holdStart dt) s = .next u.shutGates.finish)) ∧
    ((∀ h : Hold, u.sched.hold = some h → h.endDue = true → u.holdOver = true →
        ∃ t : State, exec (.holdEnd dt) s = .next (State.shutGates t).finish ∧ t.sched.hold = none ∧
          t.sched.failQuiet = u.sched.failQuiet ∧
          (u.realignNeed (!u.sched.failQuiet) = none → t.sched.realign = u.sched.realign ∧ t.fab = u.fab) ∧
          (∀ m, u.realignNeed (!u.sched.failQuiet) = some m → t.sched.realign = true ∧ bit (t.rg .schedStatus) 20 = true ∧
            ∃ c : Change, t.fab.waiting = u.fab.waiting ++ [c] ∧ c.map = m ∧ c.src = .realign ∧ c.stage = .prep)) ∧
      (u.sched.hold = none ∨ (∃ h : Hold, u.sched.hold = some h ∧ h.endDue = false) ∨ u.holdOver = false →
        exec (.holdEnd dt) s = .next u.shutGates.finish))

/-- Cast-on, bind-off and the power policy. A cast-on order for a bound-off chamber that may be cast on and is not
in reset takes 150 µs (log entry 66), and changes nothing otherwise. The orders for the cells of the next change
entry without one are given from 200 µs before its time on, unless fail-quiet, a hold or a re-alignment runs. At the
end of cast-on the chamber is ON and takes up its cells in PARK that the map in force cares BAR; an ON chamber that
may bind off with no cell involved puts all its cells to rest and binds off in 50 µs (log entry 66); at the end it
is OFF, or casts on at once where it is needed by then and may be cast on. A write of FAB_CHnn_CTRL under a grant
takes effect, and FORCED_ON casts the chamber on where it may be. Otherwise only the time passes. (R81, R87, R88,
R89, R118, R207, R327) -/
def Obligations.ChambersCastOnAndBindOff : Prop :=
  (∀ (s : State) (h : Nat), (s.castOn h).loop = s.loop ∧ (s.castOn h).sched = s.sched ∧ (∀ k, k ≠ h → (s.castOn h).chamber k = s.chamber k) ∧
    (s.pstate h = .off → s.mayCast h = true → (s.chamber h).resetting = false →
      (s.castOn h).pstate h = .castingOn ∧ ((s.castOn h).chamber h).timer = some (s.now + usC 150)) ∧
    (s.pstate h ≠ .off ∨ s.mayCast h = false ∨ (s.chamber h).resetting = true → s.castOn h = s)) ∧
  (∀ (s u : State) (dt : Nat), u = s.pass dt →
    (u.castNext = none → exec (.castOnOrder dt) s = .next u.finish) ∧
    (∀ b k tc, u.castNext = some (b, k, tc) →
      (u.quiet = true ∨ u.dueNt (tc - 200000 * 65536) = false → exec (.castOnOrder dt) s = .next u.finish) ∧
      (u.quiet = false → u.dueNt (tc - 200000 * 65536) = true →
        exec (.castOnOrder dt) s =
          .next ((u.onFab fun f => { f with casts := f.casts ++ [(b, k, tc)] }).castFor (imgChg (u.bankImg b) k).map).finish)) ∧
    ∀ h : Fin 32,
      (u.pstate h.val = .castingOn → u.expired (u.chamber h.val).timer = true →
        ∃ t : State, exec (.castOnComplete dt h) s = .next t.finish ∧ t.pstate h.val = .on ∧ (t.chamber h.val).timer = none ∧
          (∀ k, k ≠ h.val → t.chamber k = u.chamber k) ∧ t.sched = u.sched ∧ t.fab.inForce = u.fab.inForce ∧
          ∀ m c, u.fab.inForce = some m → (c, false) ∈ u.caredCells m → chamberOf c = h.val → u.darkOnly c = false →
            (u.cell c).mode = .park → (t.cell c).mode = .holdPosition ∧ (t.cell c).pos = .bar) ∧
      (u.pstate h.val ≠ .castingOn ∨ u.expired (u.chamber h.val).timer = false →
        exec (.castOnComplete dt h) s = .next u.finish) ∧
      (u.pstate h.val = .on → u.mayBindOff h.val = true → u.involved h.val = false →
        ∃ t : State, exec (.bindOff dt h) s = .next t.finish ∧ t.pstate h.val = .bindingOff ∧
          (t.chamber h.val).timer = some (u.now + usC 50) ∧ (∀ k, k ≠ h.val → t.chamber k = u.chamber k) ∧
          ∀ c < 2048, (chamberOf c = h.val → (t.cell c).pos = .rest ∧ (t.cell c).mode = .park ∧ (t.cell c).state = false) ∧
            (chamberOf c ≠ h.val → t.cell c = u.cell c)) ∧
      (u.pstate h.val ≠ .on ∨ u.mayBindOff h.val = false ∨ u.involved h.val = true →
        exec (.bindOff dt h) s = .next u.finish) ∧
      (u.pstate h.val = .bindingOff → u.expired (u.chamber h.val).timer = true →
        ∃ t : State, exec (.bindOffComplete dt h) s = .next t.finish ∧ t.loop = u.loop ∧
          t.pstate h.val = (if u.needed h.val && u.mayCast h.val && !(u.chamber h.val).resetting then .castingOn else .off)) ∧
      (u.pstate h.val ≠ .bindingOff ∨ u.expired (u.chamber h.val).timer = false →
        exec (.bindOffComplete dt h) s = .next u.finish)) ∧
  (∀ (s : State) (h : Fin 32) (v : Word), s.hostUp = true → s.grantOk = true →
    ∃ t : State, exec (.fabChCtrlWrite h v) s = .next t.finish ∧ t.rg .fabChCtrl h.val = s.written .fabChCtrl h.val 0 v ∧
      (t.policy h.val = 2 → s.pstate h.val = .off → (s.chamber h.val).resetting = false → t.mayCast h.val = true →
        t.pstate h.val = .castingOn))

/-- The start, the guard interval and the verification of a circuit change. From 500 ns before its time the
sequencers of the next change entry are armed, and so are those of each change in preparation whose time is as near
and whose preparation is over. At its time the entry is taken, counted and passed under fail-quiet, a hold or a re-
alignment, and started otherwise, whatever command-issued change runs: its cells are those cared in its map whose
state differs. Otherwise the first command-issued change starts that may, while none runs, once every change of a
command that needs a stopped chamber has ended. At the end of the guard interval the new map is in force, unless
PARK_ALL has left none, the start of a bank that waited for it gets its boundary, and the verification runs; its end
reports the counts, and connections that failed fire source 49. Otherwise nothing starts or ends. (R70, R71, R72,
R74, R75, R80, R81, R204, R213, R281, R338) -/
def Obligations.CircuitChanges : Prop :=
  ∀ (s u : State) (dt : Nat), u = s.pass dt →
    (∃ t : State, exec (.sequencerArmed dt) s = .next t.finish ∧ t.sched = u.sched ∧ t.loop = u.loop ∧
      t.fab.change = u.fab.change ∧
      (∀ x c tc, u.dueEntry = some (x, c, tc) → u.quiet = false → u.dueNt (tc - 500 * 65536) = true →
        t.fab.armedEntry = some x.change) ∧
      (u.dueEntry = none ∨ u.quiet = true ∨ (∃ x c tc, u.dueEntry = some (x, c, tc) ∧ u.dueNt (tc - 500 * 65536) = false) →
        t.fab.armedEntry = u.fab.armedEntry) ∧
      t.fab.waiting.length = u.fab.waiting.length ∧
      ∀ (i : Nat) (ch : Change), u.fab.waiting[i]? = some ch →
        (u.changeReady ch = true → (∀ a, ch.at_ = some a → u.isDue (a - 500) = true) →
          t.fab.waiting[i]? = some { ch with stage := .armed }) ∧
        (u.changeReady ch = false ∨ (∃ a, ch.at_ = some a ∧ u.isDue (a - 500) = false) → t.fab.waiting[i]? = some ch)) ∧
    (∀ (x : Run) (c : Chg) (tc : Nat), u.dueEntry = some (x, c, tc) → u.dueNt tc = true →
      (u.quiet = true → ∃ t : State, exec (.circuitChangeStart dt) s = .next t.finish ∧ t.loop = u.loop ∧
        t.fab.change = u.fab.change ∧ t.fab.inForce = u.fab.inForce ∧ t.fab.armedEntry = none ∧
        t.sched.run = some { x with change := x.change + 1 } ∧
        (u.sched.failQuiet = true → t.sched.fqSkipped = u.sched.fqSkipped + 1) ∧
        (∀ h, u.sched.hold = some h → t.sched.hold = some { h with skipped := h.skipped + 1 })) ∧
      (u.quiet = false →
        ∃ t : State, exec (.circuitChangeStart dt) s = .next t.finish ∧ t.sched.run = some { x with change := x.change + 1 } ∧
          t.fab.inForce = u.fab.inForce ∧ t.fab.waiting = u.fab.waiting ∧ t.tst.busy = false ∧
          ∃ ch, t.fab.change = some ch ∧ ch.map = c.map ∧ ch.prev = u.fab.inForce ∧ ch.src = .scheduled x.change ∧
            ch.stage = .started ∧ ch.tc = tc ∧ ch.guard = imgGuard (u.bankImg x.bank) c ∧
            ch.cells = (u.changeSet c.map).map (·.1) ∧ ch.endRaw = u.now + nsC ch.guard)) ∧
    (u.dueEntry = none ∨ (∃ x c tc, u.dueEntry = some (x, c, tc) ∧ u.dueNt tc = false) →
      ∃ v : State, v = u.refuseStopped.setShut ∧ (∀ ch ∈ v.fab.waiting, ch.ofCommand = true → u.stoppedMask ch.map = 0) ∧
        (v.fab.change.isSome = true ∨ (∀ ch ∈ v.fab.waiting, v.commandStart ch = none) →
          exec (.circuitChangeStart dt) s = .next v.finish) ∧
        ∀ (a b : List Change) (ch : Change) (late : Bool), v.fab.change = none → v.fab.waiting = a ++ ch :: b →
          (∀ d ∈ a, v.commandStart d = none) → v.commandStart ch = some late → ch ∉ a →
          ∃ t : State, exec (.circuitChangeStart dt) s = .next t.finish ∧ t.fab.waiting = a ++ b ∧ t.fab.inForce = v.fab.inForce ∧
            ∃ d, t.fab.change = some d ∧ d.map = ch.map ∧ d.src = ch.src ∧ d.stage = .started ∧ d.late = late ∧
              d.guard = ch.guard ∧ d.cells = (v.changeSet ch.map).map (·.1) ∧ d.endRaw = v.now + nsC d.guard ∧
              (∀ m, ch.at_ = some m → late = false → d.tc = m * 65536) ∧ (ch.at_ = none ∨ late = true → d.tc = v.nt)) ∧
    (∀ ch : Change, u.fab.change = some ch → ch.stage = .started → ch.endRaw ≤ u.now →
      ∃ t : State, exec (.guardIntervalEnd dt) s = .next t.finish ∧ t.fab.change = none ∧
        t.fab.inForce = (if u.flt.parkedAll then u.fab.inForce else some ch.map) ∧
        t.fab.verify = some { ch with stage := .verifying } ∧
        ∀ q, u.sched.start = some q → ch.src = .startMap →
          t.sched.start = some { q with
            needMap := false,
            boundary := some (nextMatrix (u.bankImg q.bank) (max (q.time * 65536) (u.nt + 200000 * 65536))) }) ∧
    (u.fab.change = none ∨ (∃ ch : Change, u.fab.change = some ch ∧ (ch.stage ≠ .started ∨ u.now < ch.endRaw)) →
      exec (.guardIntervalEnd dt) s = .next u.finish) ∧
    (u.fab.verify = none → exec (.changeComplete dt) s = .next u.finish) ∧
    (∀ ch : Change, u.fab.verify = some ch →
      ∃ w : State, w = (let q := u.onFab fun q => { q with verify := none }
                        if (u.verifyCounts ch).2.2 = 0 then q else q.fire 49 (u.verifyCounts ch).2.2) ∧
        (∀ r i, ch.src = .apply r i → exec (.changeComplete dt) s =
          .next ((w.finishCmd r i (if ch.missing = 0#32 then 0 else 0x17) true
            (applyRes (ch.count ch.cells) (ch.count ch.dropped) (u.verifyCounts ch).1 (u.verifyCounts ch).2.1
              (u.verifyCounts ch).2.2 ch.missing.toNat (timeField ch.tc))
            (at_ ch.stale 1 + at_ ch.late 2)).followPolicies).finish) ∧
        ((∀ r i, ch.src ≠ .apply r i) → exec (.changeComplete dt) s =
          .next ((w.event 1 ch.src.eventSub.1 ch.map
            (leBytes 2 (ch.count ch.cells) ++ leBytes 2 (ch.count ch.dropped) ++ leBytes 2 (u.verifyCounts ch).1 ++
              leBytes 2 (u.verifyCounts ch).2.1 ++ leBytes 2 (u.verifyCounts ch).2.2 ++ leBytes 2 ch.src.eventSub.2 ++
              leBytes 4 ch.missing.toNat) (some ch.tc)).followPolicies).finish))

/-- What a stitch, a staging stitch and a revert do. A stitch puts its cell into TRAJECTORY toward the target with
its trim at 0 and its main element counted once, up to 2^48 - 1, and touches no other cell. In the staging span of
the next change, outside every guard interval, an eligible cell whose chamber has started no other such move in this
frame stitches to the state that the change asks for and is staged, with the state that it held kept; a cell whose
revert is due stitches under the same conditions on its chamber back to its held state and is marked REVERTED. Where
a condition does not hold, only the time passes. (R76, R82, R83, R85, R86, R93) -/
def Obligations.StitchesStagingAndReverts : Prop :=
  (∀ (s : State) (c : Nat) (x st : Bool),
    ((s.startStitch c x st).cell c).mode = .trajectory ∧ ((s.startStitch c x st).cell c).state = x ∧
    ((s.startStitch c x st).cell c).pos = .moving ∧ ((s.startStitch c x st).cell c).stitchRaw = s.now ∧
    ((s.startStitch c x st).cell c).o.trim = 0 ∧ ((s.startStitch c x st).cell c).m.integ = 0 ∧
    (s.startStitch c x st).drip (2 * c) = min (s.drip (2 * c) + 1) (2 ^ 48 - 1) ∧
    (∀ e, e ≠ 2 * c → (s.startStitch c x st).drip e = s.drip e) ∧
    ∀ d, d ≠ c → (s.startStitch c x st).cell d = s.cell d) ∧
  ∀ (s u : State) (dt : Nat) (c : Fin 2048), u = s.pass dt →
    (∀ m tc, u.nextChange = some (m, tc, true) → u.stageSpan tc = true → u.guardRuns = false →
      u.stageable m c.val = true → u.frameFree (chamberOf c.val) = true →
      ∃ t : State, exec (.stagingStitch dt c) s = .next t.finish ∧ (t.cell c.val).staged = true ∧
        (t.cell c.val).mode = .trajectory ∧ u.caredState m c.val = some (t.cell c.val).state ∧
        (t.cell c.val).stageMove = true ∧
        (t.cell c.val).held = (if (u.cell c.val).staged then (u.cell c.val).held else (u.cell c.val).state) ∧
        ∀ d, d ≠ c.val → t.cell d = u.cell d) ∧
    ((∀ m tc, u.nextChange = some (m, tc, true) → u.stageSpan tc = false ∨ u.guardRuns = true ∨
        u.stageable m c.val = false ∨ u.frameFree (chamberOf c.val) = false) →
      exec (.stagingStitch dt c) s = .next u.finish) ∧
    ((u.cell c.val).revertDue = true → u.pstate (chamberOf c.val) = .on → (u.cell c.val).mode ≠ .trajectory →
      u.guardRuns = false → u.frameFree (chamberOf c.val) = true →
      ∃ t : State, exec (.revert dt c) s = .next t.finish ∧ (t.cell c.val).staged = false ∧ (t.cell c.val).reverted = true ∧
        (t.cell c.val).revertDue = false ∧ (t.cell c.val).mode = .trajectory ∧ (t.cell c.val).state = (u.cell c.val).held ∧
        (t.cell c.val).stageMove = true ∧ ∀ d, d ≠ c.val → t.cell d = u.cell d) ∧
    ((u.cell c.val).revertDue = false ∨ u.pstate (chamberOf c.val) ≠ .on ∨ (u.cell c.val).mode = .trajectory ∨
        u.guardRuns = true ∨ u.frameFree (chamberOf c.val) = false →
      exec (.revert dt c) s = .next u.finish)

/-- Loss, reset and return of a chamber's engine. The loss of an engine, or SYS_CHRST under a grant for the chambers
of its mask, puts a chamber that is ON, casting on or binding off, not parked and not in reset, on analog hold for 2
ms, and leaves any other as it is. When the hold ends without resume its cells come to rest, PSTATE reads RESET and
CHAMBER_LOST fires. A reset that completes within the hold resumes the chamber ON, its cells that are not in PARK in
HOLD-POSITION with no calibration and their trim to be measured; one that completes after it leaves the chamber OFF,
or casting on where it is needed and may be cast on. Where no hold expires and no reset is under way, only the time
passes. (R87, R91, R118, R120, R397) -/
def Obligations.EngineLossAndReset : Prop :=
  (∀ (s : State) (h : Nat),
    ((s.pstate h = .on ∨ s.pstate h = .castingOn ∨ s.pstate h = .bindingOff) → s.parked h = false →
      (s.chamber h).resetting = false →
      (s.engineHold h).pstate h = .hold ∧ ((s.engineHold h).chamber h).resetting = true ∧
        ((s.engineHold h).chamber h).timer = some (s.now + msC 2)) ∧
    (s.pstate h = .off ∨ s.pstate h = .hold ∨ s.pstate h = .reset ∨ s.parked h = true ∨ (s.chamber h).resetting = true →
      s.engineHold h = s) ∧
    ∀ k, k ≠ h → (s.engineHold h).chamber k = s.chamber k) ∧
  (∀ (s : State) (m : Word), s.hostUp = true → s.grantOk = true →
    ∃ t : State, exec (.chamberReset m) s = .next t.finish ∧ ∀ h < 32,
      (m.getLsbD h = true → (s.pstate h = .on ∨ s.pstate h = .castingOn ∨ s.pstate h = .bindingOff) → s.parked h = false →
        (s.chamber h).resetting = false →
        t.pstate h = .hold ∧ (t.chamber h).resetting = true ∧ (t.chamber h).timer = some (s.now + msC 2)) ∧
      (m.getLsbD h = false ∨ s.pstate h = .off ∨ s.pstate h = .hold ∨ s.pstate h = .reset ∨ s.parked h = true ∨
        (s.chamber h).resetting = true → t.chamber h = s.chamber h)) ∧
  ∀ (s u : State) (dt : Nat) (h : Fin 32), u = s.pass dt →
    exec (.engineLoss dt h) s = .next (u.engineHold h.val).finish ∧
    (u.pstate h.val = .hold → u.expired (u.chamber h.val).timer = true →
      ∃ t : State, exec (.analogHoldExpiry dt h) s = .next t.finish ∧ t.pstate h.val = .reset ∧ (t.chamber h.val).timer = none ∧
        (∃ q ∈ t.flt.fireQ, q.src = h.val) ∧
        ∀ c < 2048, chamberOf c = h.val → (t.cell c).pos = .rest ∧ (t.cell c).mode = .park) ∧
    (u.pstate h.val ≠ .hold ∨ u.expired (u.chamber h.val).timer = false → exec (.analogHoldExpiry dt h) s = .next u.finish) ∧
    ((u.chamber h.val).resetting = false → exec (.chamberResetComplete dt h) s = .next u.finish) ∧
    ((u.chamber h.val).resetting = true →
      (u.pstate h.val = .hold → ∃ t : State, exec (.chamberResetComplete dt h) s = .next t.finish ∧ t.pstate h.val = .on ∧
        (t.chamber h.val).resetting = false ∧ (t.chamber h.val).timer = none ∧
        ∀ c < 2048, chamberOf c = h.val → (u.cell c).mode ≠ .park →
          (t.cell c).mode = .holdPosition ∧ (t.cell c).cal = none ∧ (t.cell c).o.trim = 0 ∧ (t.cell c).m.resume.isSome = true) ∧
      (u.pstate h.val = .reset → ∃ t : State, exec (.chamberResetComplete dt h) s = .next t.finish ∧
        (t.chamber h.val).resetting = false ∧ t.loop = u.loop ∧
        t.pstate h.val = (if u.needed h.val && u.mayCast h.val then .castingOn else .off)) ∧
      (u.pstate h.val ≠ .hold → u.pstate h.val ≠ .reset → ∃ t : State, exec (.chamberResetComplete dt h) s = .next t.finish ∧
        t.pstate h.val = u.pstate h.val ∧ (t.chamber h.val).resetting = false ∧ t.loop = u.loop))

/-- What a sample of the M loop does. A sample before phase 48 of its frame, of a frame already sampled, or in a
chamber that is not ON changes nothing. In a hold mode, but for a sample in the cycle in which the 8 µs of a dropped
stitch ran out, the loop goes over to a profile selected since, takes the linearised position, its set-point is the
ramp, its error is their difference and moves into the histories, its drive lies within the profile's limits, and no
other cell changes; in CAL it takes the position, the ramp and the error likewise; in PARK set-point and ramp are
the position and the correction is 0. In a stitch the samples from 400 ns on count while they lie in the settle
band; the fourth in a row ends the stitch in HOLD-POSITION, with a settled outcome and its hand-over check
outstanding where it comes in time, without an outcome where the stitch was dropped before, and not at all where it
comes too late for a stitch not yet dropped. (R77, R78, R100, R101, R102, R103, R112, R114, R118, R121, R129) -/
def Obligations.SamplesOfTheMainLoop : Prop :=
  ∀ (s u : State) (dt : Nat) (c : Fin 2048) (w : Word), u = s.pass dt →
    (u.frameDue c.val = false → exec (.mSample dt c w) s = .next u.finish) ∧
    (u.frameDue c.val = true →
      let x := u.cell c.val
      let y := sat32 (sw w + (u.calOf c.val).lin)
      let p := x.mNext.toNat
      (x.mode.holds = true → (x.timedOut = false ∨ x.wasAt ≠ some u.now) →
        ∃ t : State, exec (.mSample dt c w) s = .next t.finish ∧ (t.cell c.val).m.y = y ∧
          (t.cell c.val).midx = x.mNext ∧ (t.cell c.val).m.sp = (t.cell c.val).m.r ∧
          (t.cell c.val).m.e0 = sat32 ((t.cell c.val).m.sp - y) ∧ (t.cell c.val).m.e1 = (t.cell c.val).m.e0 ∧
          (t.cell c.val).m.e2 = x.m.e1 ∧ (t.cell c.val).m.v2 = x.m.v1 ∧
          ((u.param p 0 : Int) ≤ u.param p 1 →
            (u.param p 0 : Int) ≤ (t.cell c.val).m.dout ∧ (t.cell c.val).m.dout ≤ u.param p 1) ∧
          (x.timedOut = false → (t.cell c.val).pos = x.pos) ∧
          (t.cell c.val).mode = x.mode ∧ (t.cell c.val).m.frame = some (u.aperture c.val) ∧ t.fab = u.fab ∧
          ∀ d, d ≠ c.val → t.cell d = u.cell d) ∧
      (x.mode = .park →
        ∃ t : State, exec (.mSample dt c w) s = .next t.finish ∧ (t.cell c.val).m.y = y ∧ (t.cell c.val).m.r = y ∧
          (t.cell c.val).m.sp = y ∧ (t.cell c.val).m.corr = 0 ∧ (t.cell c.val).mode = .park ∧ t.fab = u.fab ∧
          ∀ d, d ≠ c.val → t.cell d = u.cell d) ∧
      (x.mode = .cal →
        ∃ t : State, exec (.mSample dt c w) s = .next t.finish ∧ (t.cell c.val).m.y = y ∧
          (t.cell c.val).m.sp = (t.cell c.val).m.r ∧ (t.cell c.val).m.e0 = sat32 ((t.cell c.val).m.sp - y) ∧
          (t.cell c.val).mode = .cal ∧ t.fab = u.fab ∧ ∀ d, d ≠ c.val → t.cell d = u.cell d) ∧
      (x.mode = .trajectory →
        let v := (u.modCell c.val Cell.takeM).resumeTrim c.val y
        let inBand := mag (v.mStep c.val y).e0 ≤ u.settleBand
        let a := u.aperture c.val
        (a < x.stitchRaw + nsC 400 →
          ∃ t : State, exec (.mSample dt c w) s = .next t.finish ∧ (t.cell c.val).mode = .trajectory ∧
            (t.cell c.val).m.settle = x.m.settle) ∧
        (x.stitchRaw + nsC 400 ≤ a → (¬ inBand ∨ x.m.settle < 3) →
          ∃ t : State, exec (.mSample dt c w) s = .next t.finish ∧ (t.cell c.val).mode = .trajectory ∧
            (inBand → (t.cell c.val).m.settle = x.m.settle + 1) ∧ (¬ inBand → (t.cell c.val).m.settle = 0)) ∧
        (x.stitchRaw + nsC 400 ≤ a → inBand → 3 ≤ x.m.settle →
          (x.stitching = true → a ≤ x.stitchRaw + u.settleNs * 1024 / 1000 →
            ∃ t : State, exec (.mSample dt c w) s = .next t.finish ∧ (t.cell c.val).mode = .holdPosition ∧
              (t.cell c.val).stitching = false ∧ (t.cell c.val).pos = x.posOf ∧
              (t.cell c.val).hist = addOutcome x.hist false x.state ∧ (t.cell c.val).o.check = true ∧
              (t.cell c.val).settledIn = a - x.stitchRaw) ∧
          ((x.stitching = true ∧ x.stitchRaw + u.settleNs * 1024 / 1000 < a) ∨ (x.stitching = false ∧ x.recovering = false) →
            ∃ t : State, exec (.mSample dt c w) s = .next t.finish ∧ (t.cell c.val).mode = .trajectory ∧
              (t.cell c.val).pos = x.pos ∧ (t.cell c.val).hist = x.hist) ∧
          (x.stitching = false → x.recovering = true →
            ∃ t : State, exec (.mSample dt c w) s = .next t.finish ∧ (t.cell c.val).mode = .holdPosition ∧
              (t.cell c.val).recovering = false ∧ (t.cell c.val).pos = x.posOf ∧ (t.cell c.val).hist = x.hist))))

/-- Dropped stitches and their recovery limit. In a chamber that is ON a stitch that has not settled at its deadline
is dropped: the cell is marked DROPPED and is recovering, the outcome enters its last 16, source 48 fires with the
cell, and a running change of which it is part counts it. Eight refused hand-over checks in a deferral drop it
likewise, in the place of its latest outcome, with the repeat 1,024 samples on. 8 µs after its start a dropped
stitch that has not settled is held at its hold drive in HOLD-POSITION. Otherwise, and in a chamber that is not ON,
only the time passes. (R78, R79, R91, R118, R122, R123) -/
def Obligations.DroppedStitches : Prop :=
  ∀ (s u : State) (dt : Nat) (c : Fin 2048), u = s.pass dt →
    let x := u.cell c.val
    let late := decide (x.stitchRaw + nsC u.settleNs ≤ u.now)
    let worn := x.o.defer && decide (8 ≤ x.o.deferCnt)
    (u.pstate (chamberOf c.val) = .on →
      (x.stitching = true → late = true →
        ∃ t : State, exec (.droppedStitch dt c) s = .next t.finish ∧ (t.cell c.val).stitching = false ∧
          (t.cell c.val).recovering = true ∧ (t.cell c.val).dropped = true ∧ (t.cell c.val).mode = x.mode ∧
          (t.cell c.val).hist = addOutcome x.hist true x.state ∧
          (∃ q ∈ t.flt.fireQ, q.src = 48 ∧ q.detail = c.val) ∧ (∀ d, d ≠ c.val → t.cell d = u.cell d) ∧
          ∀ ch, u.fab.change = some ch → ch.stage = .started → c.val ∈ ch.cells → x.stageMove = false →
            ∃ ch', t.fab.change = some ch' ∧ c.val ∈ ch'.dropped) ∧
      ((x.stitching && late) = false → worn = true →
        ∃ t : State, exec (.droppedStitch dt c) s = .next t.finish ∧ (t.cell c.val).dropped = true ∧
          (t.cell c.val).hist = addOutcome (x.hist.drop 1) true x.state ∧ (t.cell c.val).o.defer = false ∧
          (t.cell c.val).o.retry = some 1024 ∧ (∃ q ∈ t.flt.fireQ, q.src = 48 ∧ q.detail = c.val) ∧
          ∀ d, d ≠ c.val → t.cell d = u.cell d) ∧
      (x.recovering = true → x.mode = .trajectory → x.stitchRaw + nsC 8000 ≤ u.now →
        ∃ t : State, exec (.settleTimeout dt c) s = .next t.finish ∧ (t.cell c.val).mode = .holdPosition ∧
          (t.cell c.val).recovering = false ∧ (t.cell c.val).timedOut = true ∧ (t.cell c.val).pos = x.pos ∧
          (t.cell c.val).m.r = u.calHold c.val x.state ∧ ∀ d, d ≠ c.val → t.cell d = u.cell d)) ∧
    (u.pstate (chamberOf c.val) ≠ .on ∨ ((x.stitching && late) = false ∧ worn = false) →
      exec (.droppedStitch dt c) s = .next u.finish) ∧
    (u.pstate (chamberOf c.val) ≠ .on ∨ x.recovering = false ∨ x.mode ≠ .trajectory ∨ u.now < x.stitchRaw + nsC 8000 →
      exec (.settleTimeout dt c) s = .next u.finish)

/-- Hand-over, optical holding, loss of light, balance. In an O period not yet due or already sampled, an O sample
changes nothing. A lit cell in HOLD-POSITION whose outstanding check comes due is handed over to HOLD-OPTICAL where
it passes and deferred where it fails; where the cell is dark the check ends; a deferral ends in the dark, hands
over when a check passes, and counts one that fails. The repeat of a refused check hands over or is refused again.
In HOLD-OPTICAL an estimate keeps the trim within its range and moves it by no more than its step, and a hold sample
leaves it. LOSS_COUNT dark samples take the cell back to HOLD-POSITION with trim and balance drive as they were. On
each sixteenth O sample since hand-over the balance loop takes one step with BAL_EN and none without; 256 of them
settle it. (R105, R107, R108, R109, R111, R121, R122, R123, R124, R129) -/
def Obligations.HandOverAndOptics : Prop :=
  ∀ (s u : State) (dt : Nat) (c : Fin 2048), u = s.pass dt →
    (∀ t0 t1 : Word,
      let v := (u.readTaps c.val t0 t1).2
      let lam := (u.readTaps c.val t0 t1).1
      let x := v.cell c.val
      let settled := decide (x.stitchRaw + x.settledIn < convOf c.val u.now)
      (u.periodDue c.val = false →
        exec (.oSample dt c t0 t1) s = .next u.finish ∧ exec (.handoverRetry dt c t0 t1) s = .next u.finish) ∧
      (u.periodDue c.val = true →
        ∃ t : State, exec (.oSample dt c t0 t1) s = .next t.finish ∧ (t.cell c.val).o.tap0 = t0 ∧ (t.cell c.val).o.tap1 = t1 ∧
          (∀ d, d ≠ c.val → t.cell d = u.cell d) ∧ t.fab = u.fab ∧
          (x.mode = .holdPosition → v.mayCheck c.val = true → x.o.defer = false → x.o.check = true → settled = true →
            (v.isLit c.val = true → v.checkPasses c.val lam = true →
              (t.cell c.val).mode = .holdOptical ∧ (t.cell c.val).o.check = false ∧ (t.cell c.val).b.oCnt = 0) ∧
            (v.isLit c.val = true → v.checkPasses c.val lam = false →
              (t.cell c.val).mode = .holdPosition ∧ (t.cell c.val).o.check = false ∧ (t.cell c.val).o.defer = true ∧
              (t.cell c.val).o.refused = true) ∧
            (v.isLit c.val = false → (t.cell c.val).mode = .holdPosition ∧ (t.cell c.val).o.check = false)) ∧
          (x.mode = .holdPosition → x.o.defer = true →
            (v.isLit c.val = false → (t.cell c.val).mode = .holdPosition ∧ (t.cell c.val).o.defer = false) ∧
            (v.isLit c.val = true → v.mayCheck c.val = true → v.checkPasses c.val lam = true →
              (t.cell c.val).mode = .holdOptical ∧ (t.cell c.val).o.defer = false) ∧
            (v.isLit c.val = true → v.mayCheck c.val = true → v.checkPasses c.val lam = false →
              (t.cell c.val).mode = .holdPosition ∧ (t.cell c.val).o.deferCnt = min (x.o.deferCnt + 1) 8)) ∧
          (x.mode = .holdOptical → (t.cell c.val).mode = .holdOptical ∧ (t.cell c.val).b.oCnt = x.b.oCnt + 1 ∧
            (lam = none → (t.cell c.val).o.trim = x.o.trim) ∧
            (∀ l, lam = some l → mag (t.cell c.val).o.trim ≤ u.param x.oidx.toNat 0 ∧
              (mag x.o.trim ≤ u.param x.oidx.toNat 0 →
                mag ((t.cell c.val).o.trim - x.o.trim) ≤ u.param x.oidx.toNat 1))) ∧
          (x.mode ≠ .holdPosition → x.mode ≠ .holdOptical → t = v)) ∧
      (u.periodDue c.val = true → x.o.retry = some 1 → v.mayCheck c.val = true → v.isLit c.val = true →
        ∃ t : State, exec (.handoverRetry dt c t0 t1) s = .next t.finish ∧
          (v.checkPasses c.val lam = true → (t.cell c.val).mode = .holdOptical ∧ (t.cell c.val).o.retry = none) ∧
          (v.checkPasses c.val lam = false → (t.cell c.val).mode = x.mode ∧ (t.cell c.val).o.retry = some 1024 ∧
            (t.cell c.val).o.refused = true ∧ bit (t.rg .loopEvt (chamberOf c.val)) 1 = true)) ∧
      (u.periodDue c.val = true → x.o.retry ≠ some 1 ∨ v.mayCheck c.val = false ∨ v.isLit c.val = false →
        exec (.handoverRetry dt c t0 t1) s = .next v.finish)) ∧
    (let x := u.cell c.val
     (x.mode = .holdOptical → u.lossCount c.val ≤ x.o.dark →
        ∃ t : State, exec (.lightLoss dt c) s = .next t.finish ∧ (t.cell c.val).mode = .holdPosition ∧
          (t.cell c.val).o.trim = x.o.trim ∧ (t.cell c.val).b.bal = x.b.bal ∧ ∀ d, d ≠ c.val → t.cell d = u.cell d) ∧
     (x.mode ≠ .holdOptical ∨ x.o.dark < u.lossCount c.val → exec (.lightLoss dt c) s = .next u.finish) ∧
     (u.bDue c.val = true → ∃ t : State, exec (.bSample dt c) s = .next t.finish ∧ (t.cell c.val).bidx = x.bNext ∧
        (t.cell c.val).b.bAt = x.b.oCnt ∧ t.bDue c.val = false ∧ (∀ d, d ≠ c.val → t.cell d = u.cell d) ∧
        ((u.profByte x.bNext.toNat 1).testBit 0 = true →
          (t.cell c.val).b.sign = -x.b.sign ∧ (t.cell c.val).b.bCnt = x.b.bCnt + 1 ∧
          (t.cell c.val).b.bal = (t.cell c.val).b.bint - x.b.sign * u.param x.bNext.toNat 2) ∧
        ((u.profByte x.bNext.toNat 1).testBit 0 = false →
          (t.cell c.val).b.bal = x.b.bal ∧ (t.cell c.val).b.bCnt = x.b.bCnt)) ∧
     (u.bDue c.val = false → exec (.bSample dt c) s = .next u.finish)) ∧
    (s.balEn c.val = true → (s.cell c.val).mode = .holdOptical → 256 ≤ (s.cell c.val).b.bCnt →
      exec (.balanceSettled c) s =
        .next (s.modCell c.val fun x => { x with b := { x.b with settled := true } }).finish) ∧
    (s.balEn c.val = false ∨ (s.cell c.val).mode ≠ .holdOptical ∨ (s.cell c.val).b.bCnt < 256 →
      exec (.balanceSettled c) s = .next s.finish)

/-- Profiles, their selection, and the selections for reading. A PROFILE_WRITE, whole or of a field, whose result
fails a check completes with the verdict and changes nothing; one that passes completes at once where no word
changes, and otherwise leaves its changed words to be applied from the next frame on, one in each frame in ascending
order; once all are applied the profile is the result and every other profile is as before. PROFILE_READ writes the
profile's bytes. Under a grant LOOP_CHnn_PROFILE_IDX selects a profile of its kind, from the loop's next sample on,
for its cell or for all of its chamber, and sets IDX_ERR for any other. LOOP_CHnn_SEL has the snapshot of its cell
taken at the loop's next phase 48; FAB_CELL_SEL selects. Where no such head stands ready, and with the host down,
nothing happens. (R92, R126, R128, R129, R130, R142, R284) -/
def Obligations.ProfilesAndSelections : Prop :=
  (∀ (s : State) (r : Fin 16),
    (s.readyHead r.val 0x10 = none → exec (.profileWrite r) s = .next s.finish ∧ exec (.profileWriteField r) s = .next s.finish) ∧
    (s.readyHead r.val 0x11 = none → exec (.profileRead r) s = .next s.finish) ∧
    (∀ e, s.readyHead r.val 0x11 = some e →
      exec (.profileRead r) s = .next (s.finishCmd r.val e.idx 0 true [] 0
        (some (lef e.bytes 8 8, s.profileBytes (byteAt e.bytes 24)))).finish) ∧
    ∀ e : Entry, s.readyHead r.val 0x10 = some e →
      (byteAt e.bytes 25 ≠ 0 → exec (.profileWrite r) s = .next s.finish) ∧
      (byteAt e.bytes 25 ≠ 1 → exec (.profileWriteField r) s = .next s.finish) ∧
      ∀ (c : Instr) (b : List Byte),
        (byteAt e.bytes 25 = 0 ∧ c = .profileWrite r ∧ b = cleanProfile (rdBytes e.payload 0 64)) ∨
        (byteAt e.bytes 25 = 1 ∧ c = .profileWriteField r ∧ b = cleanProfile (putBytes (s.profileBytes (byteAt e.bytes 24))
          (byteAt e.bytes 26) ((e.bytes.drop 28).take (byteAt e.bytes 27)))) →
        (let p := byteAt e.bytes 24
         let ws := wordsDiffer (s.profileBytes p) b
         (s.profVerdict p b ≠ 0 → exec c s = .next (s.finishCmd r.val e.idx (s.profVerdict p b) false).finish) ∧
         (s.profVerdict p b = 0 → ws = [] → ∃ t : State, exec c s = .next (t.finishCmd r.val e.idx 0 true [0#8]).finish ∧
           t.loop = s.loop ∧ t.fab = s.fab) ∧
         (s.profVerdict p b = 0 → ws ≠ [] → ∃ t j, exec c s = .next (State.finish t) ∧ t.loop.profiles = s.loop.profiles ∧
           t.loop.jobs = s.loop.jobs ++ [j] ∧ j.words = ws ∧ j.prof = p ∧ j.next = (s.now / 64 + 1) * 64 ∧
           j.total = ws.length))) ∧
  (∀ (s : State) (j : ProfJob) (o : Nat) (b : List Byte) (ws : List (Nat × List Byte)), j.words = (o, b) :: ws →
    (s.now < j.next → s.profJob j = s.onLoop fun l => { l with profiles := l.profiles, jobs := l.jobs ++ [j] }) ∧
    (j.next ≤ s.now → s.now < j.next + 64 → (s.profJob j).loop.profiles = wrBytes s.loop.profiles (64 * j.prof + o) b ∧
      (ws ≠ [] → (s.profJob j).loop.jobs = s.loop.jobs ++ [{ j with words := ws, next := j.next + 64 }]))) ∧
  (∀ (m : Memory) (p n k : Nat) (b : List Byte), b.length = 64 → k + 64 * 16 ≤ n →
    let d := applyWords p n (wordsDiffer (rdBytes m (64 * p) 64) b) k m
    d.2.1 = [] ∧ rdBytes d.1 (64 * p) 64 = b ∧ ∀ q, q ≠ p → rdBytes d.1 (64 * q) 64 = rdBytes m (64 * q) 64) ∧
  (∀ (s : State) (h : Fin 32) (v : Word),
    (s.hostUp = false → exec (.loopProfileIdx h v) s = .next s.finish ∧ exec (.fabCellSel v) s = .next s.finish) ∧
    (s.hostUp = true →
      (s.grantOk = true → fld v 15 14 ≠ 0 → s.profKind (fld v 7 0) = fld v 15 14 →
        ∃ t : State, exec (.loopProfileIdx h v) s = .next t.finish ∧ ∀ d < 2048,
          (((bit v 31 = true ∧ chamberOf d = h.val) ∨ d = 64 * h.val + fld v 13 8) →
            (fld v 15 14 = 1 → t.cell d = { s.cell d with mnew := some (BitVec.ofNat 8 (fld v 7 0)) }) ∧
            (fld v 15 14 = 2 → t.cell d = { s.cell d with onew := some (BitVec.ofNat 8 (fld v 7 0)) }) ∧
            (fld v 15 14 = 3 → t.cell d = { s.cell d with bnew := some (BitVec.ofNat 8 (fld v 7 0)) })) ∧
          ((bit v 31 = false ∨ chamberOf d ≠ h.val) → d ≠ 64 * h.val + fld v 13 8 → t.cell d = s.cell d)) ∧
      (s.grantOk = true → (fld v 15 14 = 0 ∨ s.profKind (fld v 7 0) ≠ fld v 15 14) →
        exec (.loopProfileIdx h v) s = .next (s.setBit .loopEvt h.val 0).finish) ∧
      exec (.fabCellSel v) s = .next (s.putReg .fabCellSel 0 0 v).finish)) ∧
  (∀ (s u : State) (dt : Nat) (h : Fin 32) (v : Word), u = s.pass dt →
    (u.hostUp = false → exec (.loopSel dt h v) s = .next u.finish) ∧
    (u.hostUp = true → ∃ t k, exec (.loopSel dt h v) s = .next (State.finish t) ∧
      (t.chan h.val).snapDue = some (64 * h.val + fld v 5 0, k) ∧ t.loop.cells = u.loop.cells ∧
      (64 ≤ u.now → u.now ≤ k ∧ k < u.now + 64 ∧ k % 64 = (fld v 5 0 + 48) % 64))) ∧
  (∀ (s : State) (h c n : Nat), (s.chan h).snapDue = some (c, n) → n ≤ s.now →
    ((s.takeSnap h).chan h).snap = s.loopSnap c ∧ ((s.takeSnap h).chan h).snapDue = none)

/-- LOOP_SETPOINT, CAL and the drift tracker's probe. LOOP_SETPOINT and CAL with PROBE or SWEEP on a cell that is
not eligible complete with 23h; on an eligible one they put it into CAL with the mode it held kept, and no other
cell; the set-point reports a rate above RAMP_RATE as clipped, and a sweep counts twice. CAL RESET returns the
Relpety values of one cell or of all. A calibration that is over takes the cell back to the mode kept: a set-point
completes with the loop's position and rate, a probe or sweep with the stiffness within 0.75 to 1.33; one whose cell
a change needs completes with 24h instead, and before that nothing ends. The tracker probes an eligible cell where
it is enabled, its period for the cell has passed and no own probe runs in its chamber. Where no such head stands
ready nothing happens. (R115, R118, R147, R148, R149, R281, R284) -/
def Obligations.CalibrationCommands : Prop :=
  (∀ (s : State) (r : Fin 16),
    (s.readyHead r.val 0x12 = none → exec (.loopSetpoint r) s = .next s.finish) ∧
    (s.readyHead r.val 0x13 = none → ∀ c ∈ ([.calProbe r, .calSweep r, .calReset r] : List Instr), exec c s = .next s.finish) ∧
    ∀ e : Entry,
    let c := lef e.bytes 24 2
    (s.readyHead r.val 0x12 = some e →
      (s.eligible c = false → exec (.loopSetpoint r) s = .next (s.finishCmd r.val e.idx 0x23 false).finish) ∧
      (s.eligible c = true → ∃ t j, exec (.loopSetpoint r) s = .next (State.finish t) ∧ (t.cell c).mode = .cal ∧
        (t.cell c).cal = some j ∧ j.op = 2 ∧ j.back = (s.cell c).mode ∧ j.issuer = some (r.val, e.idx) ∧
        j.target = signed 32 (lef e.bytes 28 4) ∧ j.rate = lef e.bytes 32 4 ∧ j.hold = usC (lef e.bytes 36 2) ∧
        (j.clipped = true ↔ s.param (s.cell c).midx.toNat 2 < (lef e.bytes 32 4 : Int)) ∧
        ∀ d, d ≠ c → t.cell d = s.cell d)) ∧
    (s.readyHead r.val 0x13 = some e →
      (byteAt e.bytes 26 ≠ 0 → exec (.calProbe r) s = .next s.finish) ∧
      (byteAt e.bytes 26 ≠ 1 → exec (.calSweep r) s = .next s.finish) ∧
      (byteAt e.bytes 26 ≠ 2 → exec (.calReset r) s = .next s.finish) ∧
      (byteAt e.bytes 26 = 0 →
        (s.eligible c = false → exec (.calProbe r) s = .next (s.finishCmd r.val e.idx 0x23 false).finish) ∧
        (s.eligible c = true → ∃ t j, exec (.calProbe r) s = .next (State.finish t) ∧ (t.cell c).mode = .cal ∧
          (t.cell c).cal = some j ∧ j.op = 0 ∧ j.back = (s.cell c).mode ∧ j.issuer = some (r.val, e.idx) ∧
          mag (j.target - (s.cell c).m.y) = 655360 ∧ j.legs = [(s.cell c).m.y] ∧ j.hold = usC 64 ∧
          t.fab = s.fab ∧ ∀ d, d ≠ c → t.cell d = s.cell d)) ∧
      (byteAt e.bytes 26 = 1 →
        (s.eligible c = false → exec (.calSweep r) s = .next (s.finishCmd r.val e.idx 0x23 false).finish) ∧
        (s.eligible c = true → ∃ t j, exec (.calSweep r) s = .next (State.finish t) ∧ (t.cell c).mode = .cal ∧
          (t.cell c).cal = some j ∧ j.op = 1 ∧ j.back = (s.cell c).mode ∧
          j.target :: j.legs = [s.calHold c false, s.calHold c true, s.calHold c false] ∧
          t.drip (2 * c) = min (s.drip (2 * c) + 2) (2 ^ 48 - 1) ∧ (∀ x, x ≠ 2 * c → t.drip x = s.drip x) ∧
          ∀ d, d ≠ c → t.cell d = s.cell d)) ∧
      (byteAt e.bytes 26 = 2 → c ≠ 0xFFFF → ∃ t : State, exec (.calReset r) s = .next t.finish ∧ t.calOf c = {} ∧
        (∀ d, d ≠ c → t.calOf d = s.calOf d) ∧ t.loop.cells = s.loop.cells) ∧
      (byteAt e.bytes 26 = 2 → c = 0xFFFF → ∃ t : State, exec (.calReset r) s = .next t.finish ∧ t.loop.calOff = [] ∧
        t.loop.cells = s.loop.cells))) ∧
  (∀ (s u : State) (dt : Nat) (c : Fin 2048) (m : CalMeasure), u = s.pass dt →
    ((u.cell c.val).cal = none → exec (.calComplete dt c m) s = .next u.finish) ∧
    ∀ j : CalJob, (u.cell c.val).cal = some j →
      (j.over u.now = false → exec (.calComplete dt c m) s = .next u.finish) ∧
      (j.over u.now = true → u.changeNeeds c.val = true →
        exec (.calComplete dt c m) s = .next (u.leaveCal c.val 0x24 true).finish) ∧
      (j.over u.now = true → u.changeNeeds c.val = false → (u.cell c.val).mode = .cal →
        (∀ r i, j.issuer = some (r, i) → j.op = 2 → exec (.calComplete dt c m) s =
          .next ((u.exitCal c.val j.back).finishCmd r i 0 true
            (leBytes 4 (unsigned 32 (u.cell c.val).m.y) ++ leBytes 4 (unsigned 32 (u.rampRate c.val))) (at_ j.clipped 0)).finish) ∧
        (j.op < 2 → ∃ t : State, (t.cell c.val).mode = j.back ∧ (t.cell c.val).cal = none ∧
          (t.calOf c.val).stiff = min (max m.stiffness 12288) 21790 ∧ (j.op = 1 → (t.calOf c.val).lin = m.linOffset) ∧
          (∀ d, d ≠ c.val → t.cell d = u.cell d) ∧
          (∀ r i, j.issuer = some (r, i) →
            exec (.calComplete dt c m) s = .next (t.finishCmd r i 0 true (t.calRes c.val)).finish) ∧
          (j.issuer = none → exec (.calComplete dt c m) s = .next t.finish)))) ∧
  (∀ (s : State) (c : Nat) (b : Mode), b ≠ .park → ((s.exitCal c b).cell c).mode = b ∧ ((s.exitCal c b).cell c).cal = none ∧
    ((s.exitCal c b).cell c).m.rampStart = true ∧ ((s.exitCal c b).cell c).o.trim = 0) ∧
  (∀ (s u : State) (dt : Nat) (c : Fin 2048), u = s.pass dt →
    let soon := (u.cell c.val).probedAt.any fun t => decide (u.now < t + secC (10 * max (u.rf .fabDriftCfg 0 7 0) 1))
    let busy := (cellsOf (chamberOf c.val)).any fun d => (u.cell d).cal.any fun j => j.op = 0 && j.issuer.isNone
    (bit (u.rg .fabDriftCfg) 30 = true → soon = false → busy = false → u.eligible c.val = true →
      ∃ t j, exec (.driftProbe dt c) s = .next (State.finish t) ∧ (t.cell c.val).mode = .cal ∧ (t.cell c.val).cal = some j ∧
        j.op = 0 ∧ j.issuer = none ∧ j.back = (u.cell c.val).mode ∧ (t.cell c.val).probedAt = some u.now ∧
        ∀ d, d ≠ c.val → t.cell d = u.cell d) ∧
    (bit (u.rg .fabDriftCfg) 30 = false ∨ soon = true ∨ busy = true ∨ u.eligible c.val = false →
      exec (.driftProbe dt c) s = .next u.finish))

/-- The period, the flowstone tables and the oscillation detector. Every PPR-th edge of PERIOD_IN is a reference
edge and the others count; an interval as long as the last within its limits is accepted, and the third accepted of
PERIOD_IN or the eighth of the estimator locks its source. The estimator's edge is that of the crossing which its
filter's output has made, and none comes without one. A source in use alone and overdue loses its lock, with the
fade down, LOCK_LOST and source 56. The fade ends at its time and not before; a visit that ends leaves the bin in
force and starts the next. CLEAR under a grant zeros the 64 tables of its chamber and nothing else in SRAM. A
detector window with enough counts is reported once with source 54 and takes its chamber's action; with none nothing
happens. (R133, R134, R135, R136, R137, R138, R140, R141) -/
def Obligations.PeriodAndFlowstone : Prop :=
  (∀ (q : PerSrc) (now need : Nat), q.refAt = some (now - q.lastOk) → q.lastOk ≤ now → msC 5 ≤ q.lastOk → q.lastOk ≤ msC 500 →
    (q.edge now need).lastOk = q.lastOk ∧ (q.edge now need).bad = 0 ∧ (q.edge now need).run = q.run + 1 ∧
    (need ≤ q.run + 1 → (q.edge now need).locked = true) ∧
    (q.run + 1 < need → (q.edge now need).locked = q.locked)) ∧
  (∀ (s u : State) (dt : Nat), u = s.pass dt →
    let p := u.loop.period
    let ppr := max (u.rf .fabPeriodCfg 0 21 16) 1
    (u.core = false → exec (.periodIn dt) s = .next u.finish ∧ exec (.estimatorEdge dt) s = .next u.finish) ∧
    (u.core = true →
      (ppr ≤ p.pin.edges + 1 →
        ∃ t : State, exec (.periodIn dt) s = .next t.finish ∧ t.pwr = { u.pwr with periodIn := true } ∧
          t.loop.period.pin = { p.pin.edge u.now 3 with edges := 0 }) ∧
      (p.pin.edges + 1 < ppr →
        ∃ t : State, exec (.periodIn dt) s = .next t.finish ∧ t.pwr = { u.pwr with periodIn := true } ∧
          t.loop.period = { p with pin := { p.pin with edges := p.pin.edges + 1 } }) ∧
      (p.filter.crossAt = none → exec (.estimatorEdge dt) s = .next u.finish) ∧
      (∀ k, p.filter.crossAt = some k → ∃ t : State, exec (.estimatorEdge dt) s = .next t.finish ∧
        t.loop.period.filter = { p.filter with crossAt := none } ∧
        t.loop.period.est = { p.est.edge k 8 with locked := (p.est.edge k 8).locked && u.estimatorFed } ∧
        t.loop.period.pin = p.pin ∧ t.loop.cells = u.loop.cells)) ∧
    (∃ t : State, exec (.periodLockLoss dt) s = .next t.finish ∧
      t.loop.period.pin.locked = (p.pin.locked && !p.pin.overdue u.now) ∧
      t.loop.period.est.locked = (p.est.locked && !p.est.overdue u.now) ∧ t.loop.cells = u.loop.cells ∧
      (p.active = 0#2 → p.pin.overdue u.now = true → u.rf .fabPeriodCfg 0 31 30 = 0 →
        t.loop.period.active = 3#2 ∧ t.loop.period.locked = false ∧ t.loop.period.fading = true ∧
        t.loop.period.fadeUp = false ∧ t.loop.period.fadeFrom = u.now ∧ t.loop.period.period = p.period ∧
        bit (t.rg .fabPeriodStatus) 28 = true ∧ ∃ q ∈ t.flt.fireQ, q.src = 56)) ∧
    (p.fading = true → p.fadeFrom + u.fadeCycles ≤ u.now →
      ∃ t : State, exec (.fadeEnd dt) s = .next t.finish ∧
        t.loop = { u.loop with period := { p with fading := false, factor1 := p.fadeUp } }) ∧
    (p.fading = false ∨ u.now < p.fadeFrom + u.fadeCycles → exec (.fadeEnd dt) s = .next u.finish) ∧
    (p.binAt u.now = p.bin → exec (.binVisitEnd dt) s = .next u.finish) ∧
    (p.binAt u.now ≠ p.bin → ∃ t : State, exec (.binVisitEnd dt) s = .next t.finish ∧
      t.loop.period = { p with bin := p.binAt u.now } ∧
      (∀ k ∈ u.loop.cells, (t.cell k.1).m.nU = 0 ∧ (t.cell k.1).m.sumU = 0) ∧
      ((p.locked = false ∨ p.fading = true ∨ p.factor1 = false ∨ p.binAt u.now ≠ (p.bin + 1) % 256) → t.sram = u.sram))) ∧
  (∀ (s : State) (h : Fin 32) (v : Word), s.hostUp = true → s.grantOk = true →
    ∃ t : State, exec (.flowstoneClear h v) s = .next t.finish ∧ t.rg .loopFlowCfg h.val = s.written .loopFlowCfg h.val 0 v ∧
      (bit v 30 = true →
        (∀ c < 2048, chamberOf c = h.val → ∀ k < 256, t.flowBin c k = 0) ∧ s.sramKept t (flowBase (64 * h.val)) (512 * 64)) ∧
      (bit v 30 = false → t.sram = s.sram)) ∧
  (∀ (s : State) (c : Fin 2048),
    ((s.cell c.val).m.odDue = false → exec (.oscDetect c) s = .next s.finish) ∧
    ((s.cell c.val).m.odDue = true →
      let h := chamberOf c.val
      let act := s.rf .loopOdetCfg h 31 30
      let k := s.rf .loopOdetCfg h 15 8
      ∃ t : State, exec (.oscDetect c) s = .next t.finish ∧ (t.cell c.val).m.odDue = false ∧
        (t.chan h).lastCell = localOf c.val ∧ bit (t.rg .loopOdetStatus h) 31 = true ∧
        (t.chan h).odetCount = min ((s.chan h).odetCount + 1) 0xFFFF ∧
        (∃ q ∈ t.flt.fireQ, q.src = 54 ∧ q.detail = c.val) ∧ (∀ d, d ≠ c.val → t.cell d = s.cell d) ∧
        (act = 0 → (t.cell c.val).mNext = (s.cell c.val).mNext ∧ t.sram = s.sram) ∧
        (act ≠ 0 → s.profKind k = 1 → (s.cell c.val).midx.toNat ≠ k → (t.cell c.val).mNext = BitVec.ofNat 8 k) ∧
        (act ≠ 0 → (s.profKind k ≠ 1 ∨ (s.cell c.val).midx.toNat = k) →
          (t.cell c.val).mNext = (s.cell c.val).mNext ∧ bit (t.rg .loopOdetStatus h) 29 = true) ∧
        (act = 2 → (∀ j < 256, t.flowBin c.val j = 0) ∧ s.sramKept t (flowBase c.val) 512)))

/-- Polarity reversal, wear levels and rates, and summaries. At the first opportunity after its instant a due
reversal is performed on an element of a held cell in a chamber that is ON and does not switch: with EN set at the
instant its polarity flips, the balance element's with one drip count, and with EN clear it does not; before its
opportunity, dealt with, or deferred, nothing happens. A write of FAB_POL_CFG under a grant takes an interval of 10
ms to 60,000 ms from the next multiple of its own length. An unreported wear level reports with source 52 and a high
average rate once with source 53, and otherwise nothing is reported. The interval's end asks for a summary and
starts the next, NOW asks for one at once, and FAB_DRIP_SEL takes the snapshot of its element's counter. (R93, R94,
R96, R145, R150, R152, R153, R154) -/
def Obligations.PolarityAndWear : Prop :=
  (∀ (s u : State) (dt : Nat) (e : Fin 4096), u = s.pass dt →
    let c := e.val / 2
    let x := u.cell c
    let last := if e.val % 2 = 0 then x.mpolAt else x.bpolAt
    (u.reversalAt e.val = none → exec (.polarityReversal dt e) s = .next u.finish) ∧
    ∀ a : Nat, u.reversalAt e.val = some a →
      ((u.now < opportunity e.val a ∨ u.mayReverse c = false ∨ (∃ b, last = some b ∧ a ≤ b)) →
        exec (.polarityReversal dt e) s = .next u.finish) ∧
      (opportunity e.val a ≤ u.now → u.mayReverse c = true → (∀ b, last = some b → b < a) →
        let on := bit (u.rg .fabPolCfg) 31 && decide (u.loop.polOnAt ≤ a)
        ∃ t : State, exec (.polarityReversal dt e) s = .next t.finish ∧ (∀ d, d ≠ c → t.cell d = u.cell d) ∧
          (e.val % 2 = 0 → (t.cell c).mpol = (x.mpol != on) ∧ (t.cell c).mpolAt = some a ∧
            (t.cell c).bpol = x.bpol ∧ (t.cell c).bpolAt = x.bpolAt ∧ t.fab.drips = u.fab.drips ∧
            (bit (u.rg .fabDriftCfg) 31 = false ∨ x.m.stayed = false → (t.cell c).m.integ = x.m.integ ∧ t.calOf c = u.calOf c)) ∧
          (e.val % 2 = 1 → (t.cell c).bpol = (x.bpol != on) ∧ (t.cell c).bpolAt = some a ∧
            (t.cell c).mpol = x.mpol ∧ (t.cell c).mpolAt = x.mpolAt ∧
            t.drip e.val = (if on then min (u.drip e.val + 1) (2 ^ 48 - 1) else u.drip e.val)))) ∧
  (∀ (s : State) (v : Word), s.hostUp = true → s.grantOk = true → ∃ t : State, exec (.fabPolCfgWrite v) s = .next t.finish ∧
    t.rg .fabPolCfg = s.written .fabPolCfg 0 0 v ∧
    ∃ n k, t.loop.polNew = some (n, k) ∧ n = min (max (fld v 15 0) 10) 60000 ∧ s.now < k ∧ k % (n * 1024000) = 0 ∧
      k ≤ s.now + n * 1024000) ∧
  (∀ (s : State) (e : Fin 4096),
    let k := tget (fun _ => 0) s.fab.wearSeen e.val
    (k < min (wearLevelOf (s.drip e.val)) 3 →
      ∃ t : State, exec (.wearLevel e) s = .next t.finish ∧ tget (fun _ => 0) t.fab.wearSeen e.val = k + 1 ∧
        (∃ q ∈ t.flt.fireQ, q.src = 52 ∧ q.detail = e.val) ∧ t.fab.drips = s.fab.drips ∧
        ∀ d, d ≠ e.val → tget (fun _ => 0) t.fab.wearSeen d = tget (fun _ => 0) s.fab.wearSeen d) ∧
    (min (wearLevelOf (s.drip e.val)) 3 ≤ k → exec (.wearLevel e) s = .next s.finish)) ∧
  (∀ (s u : State) (dt : Nat) (e : Fin 4096), u = s.pass dt →
    let high := 86400 ≤ u.wearSecs e.val ∧ 15800 * u.wearSecs e.val < u.drip e.val
    ∃ t : State, exec (.wearRate dt e) s = .next t.finish ∧
      (high → tget (fun _ => 0) t.fab.rateSeen e.val = 1) ∧ (¬ high → tget (fun _ => 0) t.fab.rateSeen e.val = 0) ∧
      (high → tget (fun _ => 0) u.fab.rateSeen e.val = 0 → ∃ q ∈ t.flt.fireQ, q.src = 53 ∧ q.detail = e.val) ∧
      (¬ high ∨ tget (fun _ => 0) u.fab.rateSeen e.val ≠ 0 → t.flt = u.flt ∧ t.rings = u.rings)) ∧
  (∀ (s u : State) (dt : Nat), u = s.pass dt →
    (u.core = true → u.expired u.fab.sumTimer = true →
      ∃ t : State, exec (.wearSummary dt) s = .next t.finish ∧ t.fab.sumDue.isSome = true ∧
        t.fab.sumTimer = some (u.now + u.sumCycles)) ∧
    (u.core = false ∨ u.expired u.fab.sumTimer = false → exec (.wearSummary dt) s = .next u.finish)) ∧
  (∀ (s : State) (v : Word),
    (s.hostUp = false → ∀ c ∈ ([.fabPolCfgWrite v, .wearSummaryNow v, .fabDripSel v] : List Instr), exec c s = .next s.finish) ∧
    (s.hostUp = true → s.grantOk = true → ∃ t : State, exec (.wearSummaryNow v) s = .next t.finish ∧
      t.rg .fabWearSumCfg = s.written .fabWearSumCfg 0 0 v ∧
      (bit v 31 = true → t.fab.sumNow = true ∧ t.fab.sumDue.isSome = true) ∧ (bit v 31 = false → t.fab = s.fab)) ∧
    (s.hostUp = true → ∃ t : State, exec (.fabDripSel v) s = .next t.finish ∧
      t.fab = { s.fab with dripSnap := s.dripWord (fld v 11 0) } ∧ t.rg .fabDripSel = s.written .fabDripSel 0 0 v))

/-- Traces, the spool and the history store. A tick that is due in an armed trace writes its four words at WR_IDX
and nowhere else in SRAM, and one of a spooling trace a record; a tick that is not due does nothing. ARM begins a
capture with DONE clear but where it was set in this cycle, and SWTRIG triggers an armed one that has not triggered,
at the word that comes next; both may act in one write. With its POST ticks taken a capture stops with DONE and its
event, and otherwise does not. The oldest spool record goes to the history store and its offset advances by 32
within the store, while EN is set, the host's memory can be reached and no ring has work; otherwise nothing moves.
EN from 0 to 1 with a legal SIZE restarts the store, and EN stays 0 with an illegal one. (R7, R156, R157, R158,
R159, R160, R162, R163) -/
def Obligations.TracesAndTheHistoryStore : Prop :=
  (∀ (s u : State) (dt : Nat) (h : Fin 32), u = s.pass dt →
    let q := (u.chan h.val).trace
    let a := trcBase h.val + 4 * q.wrIdx
    (u.tickDue h.val = false → exec (.traceTick dt h) s = .next u.finish) ∧
    (u.tickDue h.val = true →
      ∃ t : State, exec (.traceTick dt h) s = .next t.finish ∧
        (t.chan h.val).trace.tickAt = some ((u.selector h.val 0).1, (u.cell (u.selector h.val 0).1).m.count) ∧
        t.loop.cells = u.loop.cells ∧
        (q.armed = true → q.doneDue = false → u.sramKept t a 16 ∧
          (t.chan h.val).trace.wrIdx = (q.wrIdx + 4) % 16384 ∧
          ∀ k < 4, rdBytes t.sram (a + 4 * k) 4 = leBytes 4 (u.traceWord h.val k).toNat) ∧
        (q.armed = false ∨ q.doneDue = true → t.sram = u.sram ∧ (t.chan h.val).trace.wrIdx = q.wrIdx) ∧
        (bit (u.rg .loopTrcCtrl h.val) 20 = false → t.fab = u.fab) ∧
        (bit (u.rg .loopTrcCtrl h.val) 20 = true → u.fab.spool.length < 65536 →
          ∃ r, t.fab.spool = u.fab.spool ++ [r] ∧ r.type = 1#8 ∧ r.ch = BitVec.ofNat 8 h.val ∧ r.nt = u.nt))) ∧
  (∀ (s : State) (h : Fin 32) (v : Word) (c : Instr), c = .traceArm h v ∨ c = .swtrig h v →
    (s.hostUp = false → exec c s = .next s.finish) ∧
    (s.hostUp = true → ∃ t : State, exec c s = .next t.finish ∧ t.rg .loopTrcCtrl h.val = s.written .loopTrcCtrl h.val 0 v ∧
      t.sram = s.sram ∧
      (bit v 31 = true → (t.chan h.val).trace.armed = true ∧ (t.chan h.val).trace.doneDue = false ∧
        (bit (s.marked (Reg.loopTrcStatus.addr h.val)) 29 = false → bit (t.rg .loopTrcStatus h.val) 29 = false) ∧
        (bit v 30 = false → (t.chan h.val).trace.triggered = false)) ∧
      (bit v 31 = false → t.rg .loopTrcStatus h.val = s.rg .loopTrcStatus h.val ∧
        (t.chan h.val).trace.armed = (s.chan h.val).trace.armed) ∧
      (bit v 30 = true → (bit v 31 = true ∨
          ((s.chan h.val).trace.armed = true ∧ (s.chan h.val).trace.triggered = false)) →
        (t.chan h.val).trace.triggered = true ∧ (t.chan h.val).trace.trigIdx = (s.chan h.val).trace.wrIdx) ∧
      (bit v 31 = false → bit v 30 = false → t.loop = s.loop))) ∧
  (∀ (s : State) (h : Fin 32),
    ((s.chan h.val).trace.doneDue = true →
      ∃ t : State, exec (.traceDone h) s = .next t.finish ∧ (t.chan h.val).trace.armed = false ∧
        (t.chan h.val).trace.doneDue = false ∧ bit (t.rg .loopTrcStatus h.val) 29 = true ∧ t.sram = s.sram) ∧
    ((s.chan h.val).trace.doneDue = false → exec (.traceDone h) s = .next s.finish)) ∧
  (∀ s : State,
    (∀ (q : SpoolRec) (qs : List SpoolRec), s.bmeUp = true → bit (s.rg .fabHistCtrl) 31 = true → s.ringsBusy = false →
      s.fab.spool = q :: qs →
      ∃ t : State, exec .historyCopy s = .next t.finish ∧ t.fab.histOff = (s.fab.histOff + 32) % s.histSize ∧
        t.out = s.out ++ [.hostWrite (s.rg8 .fabHistBase / s.histSize * s.histSize + s.fab.histOff) q.bytes] ∧
        (s.fab.dropsUnmarked = 0 → t.fab.spool = qs) ∧
        (0 < s.fab.dropsUnmarked → qs.length + 2 ≤ 65536 → ∃ r, t.fab.spool = qs ++ [r] ∧ r.type = 3#8)) ∧
    (s.bmeUp = false ∨ bit (s.rg .fabHistCtrl) 31 = false ∨ s.ringsBusy = true ∨ s.fab.spool = [] →
      exec .historyCopy s = .next s.finish)) ∧
  (∀ (s : State) (v : Word),
    (s.hostUp = false → exec (.fabHistCtrlWrite v) s = .next s.finish) ∧
    (s.hostUp = true →
      (12 ≤ fld v 5 0 → fld v 5 0 ≤ 42 → ∃ t : State, exec (.fabHistCtrlWrite v) s = .next t.finish ∧
        t.rg .fabHistCtrl = s.written .fabHistCtrl 0 0 v ∧
        (bit v 31 = true → bit (s.rg .fabHistCtrl) 31 = false → t.fab = { s.fab with histOff := 0, histLap := 0 }) ∧
        (bit v 31 = false ∨ bit (s.rg .fabHistCtrl) 31 = true → t.fab = s.fab)) ∧
      ((fld v 5 0 < 12 ∨ 42 < fld v 5 0) → ∃ t : State, exec (.fabHistCtrlWrite v) s = .next t.finish ∧ t.fab = s.fab ∧
        bit (t.rg .fabHistCtrl) 31 = false)))

/-- Samples of network time, link delays and the jump of time. A usable one-step Sync yields the sample of its
instance, and a two-step one waits for its Follow_Up, which yields it with both corrections where it is the next of
its sequence, comes within one Sync interval and on the same connection; one that cannot be used changes nothing,
and a sample of an instance that is not selected changes nothing else of the time unit. An accepted sample of the
source moves the integral within its span and clears REF_CNT, a refused one counts and leaves rate, integral and
STATE; none counts in FREE_RUN. At REF_CNT 8 source 61 fires once. A link delay exchange whose request left before
replaces the delay of its lane. An instance without samples in its timeout is no longer valid. Otherwise only the
time passes. (R167, R169, R172, R173, R174, R178, R182) -/
def Obligations.SamplesOfNetworkTime : Prop :=
  (∀ (s u : State) (dt : Nat) (n : Fin 2) (l : Fin 8) (m : PtpMsg), u = s.pass dt →
    let k := u.inst n.val
    let t2 := u.nt - (u.lane l.val).rxDelay
    (u.syncUsable n.val l.val = false →
      exec (.sync dt n l m) s = .next u.finish ∧ exec (.followUp dt n l m) s = .next u.finish) ∧
    (u.syncUsable n.val l.val = true →
      (m.twoStep = false → ∃ t : State, exec (.sync dt n l m) s = .next t.finish ∧ (t.inst n.val).valid = true ∧
        (t.inst n.val).sampleAt = some u.now ∧ (t.inst n.val).pending = none ∧
        (t.inst n.val).interval = syncInterval k.interval m.logInt ∧
        (t.inst n.val).theta = u.syncTheta l.val t2 m.origin m.corr ∧
        (u.src ≠ n.val → t.time = { u.time with insts := t.time.insts })) ∧
      (m.twoStep = true → ∃ t : State, exec (.sync dt n l m) s = .next t.finish ∧
        (t.inst n.val).pending = some (m.seqId, t2, m.corr, u.now) ∧ (t.inst n.val).theta = k.theta ∧
        t.time = { u.time with insts := t.time.insts }) ∧
      (k.pending = none → exec (.followUp dt n l m) s = .next u.finish) ∧
      (∀ q t1 c at1, k.pending = some (q, t1, c, at1) →
        (q ≠ m.seqId ∨ at1 + nsC k.interval < u.now ∨ at1 < (u.lane l.val).connEnd →
          exec (.followUp dt n l m) s = .next u.finish) ∧
        (q = m.seqId → u.now ≤ at1 + nsC k.interval → (u.lane l.val).connEnd ≤ at1 →
          ∃ t : State, exec (.followUp dt n l m) s = .next t.finish ∧ (t.inst n.val).pending = none ∧
            (t.inst n.val).valid = true ∧ (t.inst n.val).sampleAt = some u.now ∧
            (t.inst n.val).theta = u.syncTheta l.val t1 m.origin (c + m.corr))))) ∧
  (∀ (s : State) (x : Int),
    (s.time.state = .freeRun → s.takeSample x = s) ∧
    (s.time.state ≠ .freeRun → s.acquires = false →
      (mag x ≤ s.jumpTh * 65536 → (s.takeSample x).time.refCnt = 0 ∧ (s.takeSample x).time.accepted = true ∧
        -incSpan ≤ (s.takeSample x).time.integ ∧ (s.takeSample x).time.integ ≤ incSpan ∧
        (incNom - incSpan).toNat ≤ (s.takeSample x).time.inc ∧ (s.takeSample x).time.inc ≤ (incNom + incSpan).toNat ∧
        (s.takeSample x).nt = s.nt) ∧
      (s.jumpTh * 65536 < mag x → (s.takeSample x).time.refCnt = min (s.time.refCnt + 1) 255 ∧
        (s.takeSample x).time.integ = s.time.integ ∧ (s.takeSample x).time.inc = s.time.inc ∧
        (s.takeSample x).time.state = s.time.state ∧ bit ((s.takeSample x).rg .timeStatus) 27 = true))) ∧
  (∀ s : State, (8 ≤ s.time.refCnt → s.time.jumpFired = false →
      exec .timeJump s = .next ((s.onTime fun t => { t with jumpFired := true }).fire 61 s.time.refCnt).finish) ∧
    (s.time.refCnt < 8 ∨ s.time.jumpFired = true → exec .timeJump s = .next s.finish)) ∧
  (∀ (s u : State) (dt : Nat) (l : Fin 8) (d k : Int), u = s.pass dt →
    let done := u.ptpRx l.val && u.txRuns l.val && u.delayRuns l.val && (u.delayOf l.val).asked.any (· < u.now)
    (done = true → ∃ t : State, exec (.linkDelayExchange dt l d k) s = .next t.finish ∧
      t.delayOf l.val = { u.delayOf l.val with valid := true, mean := d, rateRatio := k, asked := none } ∧
      ∀ j, j ≠ l.val → t.delayOf j = u.delayOf j) ∧
    (done = false → exec (.linkDelayExchange dt l d k) s = .next u.finish)) ∧
  (∀ (s u : State) (dt : Nat) (n : Fin 2), u = s.pass dt →
    (∀ a : Nat, (u.inst n.val).sampleAt = some a → (u.inst n.val).valid = true → a + u.srcTimeout n.val ≤ u.now →
      ∃ t : State, exec (.instanceValidTimeout dt n) s = .next t.finish ∧ (t.inst n.val).valid = false) ∧
    ((∀ a, (u.inst n.val).sampleAt = some a → (u.inst n.val).valid = false ∨ u.now < a + u.srcTimeout n.val) →
      exec (.instanceValidTimeout dt n) s = .next u.finish))

/-- gPTP messages sent, and the writes of the time unit's settings. A lane that sends as MASTER and whose Sync
interval is over queues one Sync, unless CTRL_Q is full, and starts the next interval; an Announce is queued with
the host's contents; a lane that does not send as MASTER queues neither. Under a grant SRC written to none enters
FREE_RUN with DRIFT 0, SRC written from none enters HOLDOVER where a sample was accepted before and otherwise FREE
with DRIFT 1, and any other write of TIME_CTRL keeps the time unit as it is; a DRIFT_LIM above a bank's CHECK_DRIFT
marks that bank and no other; a TIME_DOMn_CFG value that breaks a rule only sets CFG_ERR, and a legal one is stored,
with each lane's role of before until its next Sync interval begins. (R170, R171, R175, R177, R178, R203, R222) -/
def Obligations.TimeMessagesAndSettings : Prop :=
  (∀ (s u : State) (dt : Nat) (n : Fin 2) (l : Fin 8), u = s.pass dt →
    (u.sendsAsMaster n.val l.val = false → exec (.syncTransmit dt n l) s = .next u.finish ∧
      ∀ b, exec (.announceTransmit dt n l b) s = .next u.finish) ∧
    (u.now < tget (fun _ => 0) (u.inst n.val).nextSync l.val → exec (.syncTransmit dt n l) s = .next u.finish) ∧
    (u.sendsAsMaster n.val l.val = true →
      (tget (fun _ => 0) (u.inst n.val).nextSync l.val ≤ u.now →
        ∃ t : State, exec (.syncTransmit dt n l) s = .next t.finish ∧
          tget (fun _ => 0) (t.inst n.val).nextSync l.val = u.now + u.syncCycles n.val ∧
          (u.queueFull l.val (u.ctrlQ l.val) = false →
            ∃ f, t.queue l.val (u.ctrlQ l.val) = u.queue l.val (u.ctrlQ l.val) ++ [f] ∧
              f.sync = bit (u.rg .timeDomCfg n.val) 29 ∧ f.src = (if f.sync then .own else .twoStep n.val)) ∧
          (u.queueFull l.val (u.ctrlQ l.val) = true → t.ept = u.ept)) ∧
      (∀ b, exec (.announceTransmit dt n l b) s =
        .next (u.sendOwn l.val { octets := u.ptpHead l.val ++ b, src := .own }).finish))) ∧
  (∀ (s : State) (v : Word),
    (s.hostUp = false → ∀ n : Fin 2, ∀ c ∈ ([.timeCtrlWrite v, .driftLimWrite v, .timeDomCfgWrite n v] : List Instr),
      exec c s = .next s.finish) ∧
    (s.hostUp = true → s.grantOk = true →
      (s.src ≠ 3 → fld v 1 0 = 3 → ∃ t : State, exec (.timeCtrlWrite v) s = .next t.finish ∧ t.time.state = .freeRun ∧
        t.time.drift = false ∧ t.rg .timeCtrl = s.written .timeCtrl 0 0 v) ∧
      (s.src = 3 → fld v 1 0 ≠ 3 → ∃ t : State, exec (.timeCtrlWrite v) s = .next t.finish ∧
        (s.time.accepted = true → t.time.state = .holdover) ∧
        (s.time.accepted = false → t.time.state = .free ∧ t.time.drift = true ∧ t.rg .timeCtrl = s.written .timeCtrl 0 0 v)) ∧
      ((s.src = 3 ↔ fld v 1 0 = 3) → ∃ t : State, exec (.timeCtrlWrite v) s = .next t.finish ∧ t.time = s.time ∧
        t.rg .timeCtrl = s.written .timeCtrl 0 0 v) ∧
      (∃ t : State, exec (.driftLimWrite v) s = .next t.finish ∧ t.rg .timeDrift = s.written .timeDrift 0 0 v ∧
        ∀ b < 4, t.bank b = (if (s.bank b).checkDrift < max (fld v 15 0) 32
          then { s.bank b with marginStale := true } else s.bank b)) ∧
      (∀ n : Fin 2, (s.domBad n.val v = true → exec (.timeDomCfgWrite n v) s = .next (s.setBit .timeDomCfg n.val 28).finish) ∧
        (s.domBad n.val v = false → ∃ t : State, exec (.timeDomCfgWrite n v) s = .next t.finish ∧
          t.rg .timeDomCfg n.val = s.written .timeDomCfg n.val 0 v ∧
          ∀ l < 8, (s.now < s.roleStart n.val l → t.ptpRole n.val l = s.ptpRole n.val l) ∧
            (s.roleStart n.val l ≤ s.now → t.ptpRole n.val l = fld v (2 * l + 1) (2 * l))))))

/-- Holdover and the PPS pins. With no accepted sample in the source's timeout the time unit enters HOLDOVER at the
rate of the integral alone with source 63 active; held too long it sets DRIFT. An accepted edge of PPS_IN takes the
seconds value written before its cycle, or the one after the last, and yields its sample; an edge that comes too
soon, and one with the input off, only shows at the pin. 1.5 s without an edge clear PPS_VALID. PPS_OUT rises in the
first cycle of a whole second where enabled and qualified, and falls at its width, or 10 µs before the next second
(log entry 65). Otherwise only the time passes. (R169, R170, R171, R179, R180) -/
def Obligations.HoldoverAndPps : Prop :=
  ∀ (s u : State) (dt : Nat), u = s.pass dt →
    (u.holdoverDue = true → ∃ t : State, exec (.holdover dt) s = .next t.finish ∧ t.time.state = .holdover ∧
      t.time.inc = (incNom - u.time.integ).toNat ∧ t.nt = u.nt ∧ t.time.good = 0 ∧
      (u.time.state ≠ .holdover → (t.fsrc 63).active = true)) ∧
    (u.holdoverDue = false → exec (.holdover dt) s = .next u.finish) ∧
    (u.time.state = .holdover → u.time.drift = false → u.heldTooLong = true →
      exec (.holdoverDrift dt) s = .next (u.onTime fun t => { t with drift := true, calm := 0 }).finish) ∧
    (u.time.state ≠ .holdover ∨ u.time.drift = true ∨ u.heldTooLong = false →
      exec (.holdoverDrift dt) s = .next u.finish) ∧
    (u.core = false ∨ bit (u.rg .timePpsCfg) 29 = false ∨ u.edgeIgnored = true →
      exec (.ppsIn dt) s = .next (u.onPwr fun p => { p with ppsIn := true }).finish) ∧
    (u.core = true → bit (u.rg .timePpsCfg) 29 = true → u.edgeIgnored = false →
      ∃ t : State, exec (.ppsIn dt) s = .next t.finish ∧ t.pwr.ppsIn = true ∧ t.time.ppsValid = true ∧
        t.time.ppsLast = some u.now ∧ t.time.thetaAt = some u.now ∧
        (∀ v c, u.time.todNext = some (v, c) → c < u.time.raw.toNat →
          t.time.tod = v ∧ t.time.todNext = none ∧
          t.time.theta = (u.nt : Int) - ((v * 1000000000 + u.rf .timePpsIn 0 15 0) * 65536 : Nat)) ∧
        (u.time.todNext = none → u.time.todWritten = false → u.time.ppsLast.isSome = true →
          t.time.tod = u.time.tod + 1 ∧ bit (t.rg .timePpsIn) 31 = true) ∧
        (u.src ≠ 2 → t.time.state = u.time.state ∧ t.time.inc = u.time.inc ∧ t.nt = u.nt)) ∧
    (∀ a, u.time.ppsLast = some a → u.time.ppsValid = true → a + nsC 1500000000 ≤ u.now →
      ∃ t : State, exec (.ppsInLoss dt) s = .next t.finish ∧ t.time = { u.time with ppsValid := false }) ∧
    ((∀ a, u.time.ppsLast = some a → u.time.ppsValid = false ∨ u.now < a + nsC 1500000000) →
      exec (.ppsInLoss dt) s = .next u.finish) ∧
    (u.core = true → u.secondNow = true → bit (u.rg .timePpsCfg) 31 = true →
      (bit (u.rg .timePpsCfg) 30 = false ∨ u.time.state = .locked) → exec (.ppsOut dt) s =
        .next (u.onTime fun t => { t with ppsOut := true, ppsOutEnd := some (u.now + u.ppsWidth) }).finish) ∧
    (u.core = false ∨ u.secondNow = false ∨ bit (u.rg .timePpsCfg) 31 = false ∨
        (bit (u.rg .timePpsCfg) 30 = true ∧ u.time.state ≠ .locked) → exec (.ppsOut dt) s = .next u.finish) ∧
    (u.expired u.time.ppsOutEnd = true ∨ 999990000 ≤ u.ns % 1000000000 → exec (.ppsOutPulseEnd dt) s =
      .next (u.onTime fun t => { t with ppsOut := false, ppsOutEnd := none }).finish) ∧
    (u.expired u.time.ppsOutEnd = false → u.ns % 1000000000 < 999990000 → exec (.ppsOutPulseEnd dt) s = .next u.finish)

/-- TIME_STEP and the step cycle. Ready at the head of its ring with its form, TIME_STEP waits while the supervisor
is unavailable, completes with 31h with a step already authorised, and otherwise authorises its step, by DELTA or to
source, and asks a running pattern for a static hold. In the step cycle, with the supervisor available, network time
moves by exactly the step, the raw counter and the rate do not, STEPPED is set, REF_CNT is 0 and no step is
authorised any more; until the step is ready no step executes. (R17, R166, R183, R184, R185, R187, R286) -/
def Obligations.StepsOfTime : Prop :=
  (∀ (s : State) (r : Fin 16) (c : Instr) (k : Nat), (c = .timeStep r ∧ k = 0) ∨ (c = .timeStepToSource r ∧ k = 1) →
    (s.readyHead r.val 0x30 = none → exec c s = .next s.finish) ∧
    ∀ e : Entry, s.readyHead r.val 0x30 = some e →
      (byteAt e.bytes 24 ≠ k ∨ s.sup.available = false → exec c s = .next s.finish) ∧
      (byteAt e.bytes 24 = k → s.sup.available = true →
        (s.time.step.isSome = true → exec c s = .next (s.finishCmd r.val e.idx 0x31 false).finish) ∧
        (s.time.step = none → ∃ t : State, exec c s = .next t.finish ∧ t.time.step =
            some { why := .command, delta := if k = 0 then some (signed 64 (lef e.bytes 32 8)) else none,
                   authAt := s.now, issuer := some (r.val, e.idx) } ∧
          t.nt = s.nt ∧ t.sched.run = s.sched.run ∧
          (s.sched.run = none → t.sched = s.sched) ∧
          (s.sched.run.isSome = true → t.sched.hold.isSome = true ∨ t.sched.holdReq.isSome = true)))) ∧
  (∀ (s u : State) (dt : Nat) (q : StepReq), u = s.pass dt → u.time.step = some q →
    (∀ d : Int, u.core = true → u.sup.available = true → u.stepReady = true →
      u.stepDelta q = some d → u.now < q.authAt + secC 1 →
      ∃ t : State, exec (.step dt) s = .next t.finish ∧ (t.nt : Int) = ((u.nt : Int) + d) % (ntMod : Int) ∧
        t.time.raw = u.time.raw ∧ t.time.step = none ∧ t.time.refCnt = 0 ∧ t.time.inc = u.time.inc ∧
        bit (t.rg .timeStatus) 24 = true) ∧
    (u.core = false ∨ u.sup.available = false ∨ u.stepReady = false → exec (.step dt) s = .next u.finish) ∧
    (u.core = true → u.sup.available = true → u.stepReady = true →
      (u.stepDelta q = none ∨ q.authAt + secC 1 ≤ u.now) → exec (.step dt) s = .next (u.lapseStep q).finish)) ∧
  (∀ (s u : State) (dt : Nat), u = s.pass dt → u.time.step = none → exec (.step dt) s = .next u.finish)

/-- A step lapses in two cases, and in no other. An authorised step lapses, with STEP_LAPSED set, when it has not
executed within 1 s of its authorisation, and when it is to source and no sample has arrived in the timeout before
its execution; its TIME_STEP completes with 32h. In any other state the lapse does not happen. (R186) -/
def Obligations.AStepLapses : Prop :=
  ∀ (s u : State) (dt : Nat), u = s.pass dt →
    (u.time.step = none → exec (.stepLapsed dt) s = .next u.finish) ∧
    ∀ q : StepReq, u.time.step = some q →
      let lost := q.delta = none ∧ u.sup.available = true ∧ u.stepReady = true ∧
        ∀ th a, u.srcSample = some (th, a) → a + u.srcTimeout u.src < u.now
      ((q.authAt + secC 1 ≤ u.now ∨ lost) → ∃ t : State, t.time.step = none ∧ t.time.lapsed = true ∧
        bit (t.rg .timeStatus) 23 = true ∧ t.nt = u.nt ∧
        (q.issuer = none → exec (.stepLapsed dt) s = .next t.finish) ∧
        (∀ r i, q.issuer = some (r, i) → exec (.stepLapsed dt) s = .next (t.finishCmd r i 0x32 false).finish)) ∧
      (u.now < q.authAt + secC 1 → ¬ lost → exec (.stepLapsed dt) s = .next u.finish)

/-- Which doorbell values a ring accepts. A command, transmit or receive ring that is RUNNING in doorbell mode
accepts a value other than the last one exactly if no bit above LOG_SIZE is set, it lies at most S beyond CI and not
before the last accepted value; the last value has no effect; any other value puts the ring into ERROR with DB_RANGE
and the value as its index. (R257) -/
def Obligations.DoorbellValues : Prop :=
  ∀ (s : State) (r : Fin 144) (v : Word), s.hostUp = true → (s.ring r.val).state = .running → s.ringMode r.val = 0 →
    (let p : Nat := fld v 16 0
     let n : Nat := 2 ^ s.logSize r.val
     let ok : Prop := p < 2 * n ∧ ((p : Int) - (s.ring r.val).ci) % (2 * n : Nat) ≤ n ∧
       (((s.ring r.val).pi : Int) - (s.ring r.val).ci) % (2 * n : Nat) ≤ ((p : Int) - (s.ring r.val).ci) % (2 * n : Nat)
     (p = (s.ring r.val).pi → exec (.doorbell r v) s = .next s.finish) ∧
     (p ≠ (s.ring r.val).pi → ok →
       exec (.doorbell r v) s = .next (s.modRing r.val fun g => { g with pi := p }).finish) ∧
     (p ≠ (s.ring r.val).pi → ¬ ok → ∃ t : State, exec (.doorbell r v) s = .next t.finish ∧ (t.ring r.val).state = .error ∧
       (t.ring r.val).errCode = 3#4 ∧ (t.ring r.val).errIdx = p ∧ (t.ring r.val).pi = (s.ring r.val).pi))

/-- Start, reset and the doorbells that are ignored or of event rings. START of a DISABLED ring with a legal
configuration makes it RUNNING with its indices at 0 and ERR clear, and with an illegal one only sets CFG_REF; it
has no effect in any other state. RESET makes a RUNNING or ERROR ring RESETTING and has no effect otherwise; an
entry of it that has not begun is completed and taken from it with nothing done of it, and an event ring's held
events count as lost. When every entry has completed the ring is DISABLED with its indices 0, and not before. A
doorbell of a ring that is not RUNNING or polls sets DB_IGN; an accepted value moves the host index of an event
ring, its last value has no effect, and any other is an error with DB_RANGE and the value. With the host down none
of these registers changes anything. (R254, R255, R259, R266, R268, R270) -/
def Obligations.RingControl : Prop :=
  (∀ (s : State) (r : Fin 160),
    (s.hostUp = false → exec (.ringStart r) s = .next s.finish ∧ exec (.ringReset r) s = .next s.finish) ∧
    (s.hostUp = true →
      ((s.ring r.val).state ≠ .disabled → exec (.ringStart r) s = .next s.finish) ∧
      ((s.ring r.val).state = .disabled → s.startOk r.val = false →
        exec (.ringStart r) s = .next (s.setBit .ringStatus r.val 27).finish) ∧
      ((s.ring r.val).state = .disabled → s.startOk r.val = true → ∃ t : State, exec (.ringStart r) s = .next t.finish ∧
        (t.ring r.val).state = .running ∧ (t.ring r.val).fi = 0 ∧ (t.ring r.val).ci = 0 ∧ (t.ring r.val).pi = 0 ∧
        (t.ring r.val).errCode = 0#4 ∧ (t.ring r.val).entries = [] ∧ ∀ k, k ≠ r.val → t.ring k = s.ring k) ∧
      ((s.ring r.val).state = .disabled ∨ (s.ring r.val).state = .resetting → exec (.ringReset r) s = .next s.finish) ∧
      ((s.ring r.val).state = .running ∨ (s.ring r.val).state = .error →
        (isEvent r.val = true → ∃ t : State, exec (.ringReset r) s = .next t.finish ∧
          (t.ring r.val).state = .resetting ∧ (t.ring r.val).held = [] ∧
          (t.ring r.val).lost = min ((s.ring r.val).lost + (s.ring r.val).held.length) 0xFFFFFFFF ∧
          ∀ k, k ≠ r.val → t.ring k = s.ring k) ∧
        (∀ e : Entry, isEvent r.val = false → s.bmeUp = true →
          (s.ringMode r.val ≠ 0 ∨ s.ringSub r.val (s.ring r.val).pi (s.ring r.val).fi = 0) →
          (s.ring r.val).entries = [e] → e.done = none → e.state = .ready ∨ e.state = .fetched →
          ∃ t : State, exec (.ringReset r) s = .next t.finish ∧ (t.ring r.val).state = .resetting ∧
            (t.ring r.val).entries = [] ∧ t.fab = s.fab ∧ t.sched = s.sched ∧ t.sram = s.sram ∧ t.ept = s.ept)))) ∧
  (∀ (s : State) (r : Fin 160),
    ((s.ring r.val).state = .resetting → (s.ring r.val).entries = [] →
      ∃ t : State, exec (.ringResetComplete r) s = .next t.finish ∧ (t.ring r.val).state = .disabled ∧ (t.ring r.val).fi = 0 ∧
        (t.ring r.val).ci = 0 ∧ (t.ring r.val).pi = 0 ∧ (t.ring r.val).errCode = (s.ring r.val).errCode ∧
        ∀ k, k ≠ r.val → t.ring k = s.ring k) ∧
    ((s.ring r.val).state ≠ .resetting ∨ (s.ring r.val).entries ≠ [] →
      exec (.ringResetComplete r) s = .next s.finish)) ∧
  (∀ (s : State) (r : Fin 144) (v : Word),
    (s.hostUp = false → exec (.doorbell r v) s = .next s.finish) ∧
    (s.hostUp = true → (s.ring r.val).state ≠ .running ∨ s.ringMode r.val ≠ 0 →
      exec (.doorbell r v) s = .next (s.setBit .ringStatus r.val 25).finish)) ∧
  (∀ (s : State) (r : Fin 16) (v : Word),
    let k := 144 + r.val
    let g := s.ring k
    let h := fld v 16 0
    let ok := h < s.ring2S k ∧ s.ringSub k g.ci h ≤ s.ringS k ∧ s.ringSub k h g.fi ≤ s.ringSub k g.ci g.fi
    (s.hostUp = false → exec (.eventDoorbell r v) s = .next s.finish) ∧
    (s.hostUp = true →
      (g.state ≠ .running → exec (.eventDoorbell r v) s = .next (s.setBit .ringStatus k 25).finish) ∧
      (g.state = .running → h = g.fi → exec (.eventDoorbell r v) s = .next s.finish) ∧
      (g.state = .running → h ≠ g.fi → ¬ ok → ∃ t : State, exec (.eventDoorbell r v) s = .next t.finish ∧
        (t.ring k).state = .error ∧ (t.ring k).errCode = 3#4 ∧ (t.ring k).errIdx = h ∧ (t.ring k).fi = g.fi) ∧
      (g.state = .running → h ≠ g.fi → ok →
        ∃ t : State, exec (.eventDoorbell r v) s = .next t.finish ∧ (t.ring k).fi = h ∧
          (g.held = [] → g.drops = 0 → (t.ring k).ci = g.ci))))

/-- Polling, fetching, completing and the interrupt holdoff. At the poll timer's expiry a control word of the right
phase makes the ring due and is kept, any other restarts the timer, and a failed read is an error. The arbiter's
next ring takes its entry: one that is well formed and read whole is kept with FI advanced, a command that is not
role-sensitive being ready; a malformed one, one of the wrong phase in doorbell mode, one whose data is not read,
and a failed read of the entry put the ring into ERROR with their codes at its index, and a wrong phase in poll mode
only restarts the timer; another ring takes nothing. The completion of a lone command writes its body and then its
control word, and takes the entry off the ring. At the end of a holdoff interval one message signals what was
completed in it, once the module may write host memory. Otherwise only the time passes. (R251, R253, R256, R258,
R260, R261, R263, R268, R269, R272, R273) -/
def Obligations.FetchingAndCompleting : Prop :=
  (∀ (s u : State) (dt : Nat) (r : Fin 144) (k : Option Word), u = s.pass dt →
    let g := u.ring r.val
    let due := u.bmeUp = true ∧ g.state = .running ∧ u.ringMode r.val = 1 ∧ u.expired g.pollAt = true
    (¬ due → exec (.pollTimer dt r k) s = .next u.finish) ∧
    (due → k = none → ∃ t : State, exec (.pollTimer dt r k) s = .next t.finish ∧ (t.ring r.val).state = .error ∧
      (t.ring r.val).errCode = 5#4 ∧ (t.ring r.val).errIdx = g.fi) ∧
    (∀ w : Word, due → k = some w →
      (fld w 31 31 = u.phaseOf r.val g.fi → exec (.pollTimer dt r k) s =
        .next (u.modRing r.val fun g => { g with pollAt := none, pollDue := true, pollCw := some w }).finish) ∧
      (fld w 31 31 ≠ u.phaseOf r.val g.fi → exec (.pollTimer dt r k) s =
        .next (u.modRing r.val fun g => { g with pollAt := some (u.now + u.pollInt r.val) }).finish))) ∧
  (∀ (s p u : State) (dt : Nat) (r : Fin 144) (d : FetchRead) (b0 b : List Byte) (ok : Bool),
    p = s.pass dt → u = p.newRound →
    let i := (u.ring r.val).fi
    (p.bmeUp = false → ∀ l, exec (.entryFetch dt r l ok) s = .next p.finish) ∧
    (p.bmeUp = true → (p.ring r.val).state ≠ .resetting →
      (u.nextRing ≠ some r.val → ∀ l, exec (.entryFetch dt r l ok) s = .next u.finish) ∧
      (u.nextRing = some r.val → u.hasWork r.val = true → (u.ring r.val).credit ≠ 0 → 1 ≤ u.rf .ringCfg r.val 6 0 →
        (u.ring r.val).entries = [] →
        (d.entry = none → 0 < u.ringSub r.val (u.ring r.val).pi i ∨ u.ringMode r.val ≠ 0 →
          ∃ t : State, exec (.entryFetch dt r [d] ok) s = .next t.finish ∧ (t.ring r.val).state = .error ∧
            (t.ring r.val).errCode = 5#4 ∧ (t.ring r.val).errIdx = i ∧ (t.ring r.val).entries = []) ∧
        (d.entry = some b0 → b = entryBytes r.val (u.ring r.val).pollCw b0 →
          (bits (lef b 0 4) 31 31 ≠ u.phaseOf r.val i →
            (u.ringMode r.val = 1 → ∃ t : State, exec (.entryFetch dt r [d] ok) s = .next t.finish ∧
              (t.ring r.val).state = .running ∧ (t.ring r.val).fi = i ∧
              (t.ring r.val).pollAt = some (u.now + u.pollInt r.val)) ∧
            (u.ringMode r.val ≠ 1 → ∃ t : State, exec (.entryFetch dt r [d] ok) s = .next t.finish ∧
              (t.ring r.val).state = .error ∧ (t.ring r.val).errCode = 2#4 ∧ (t.ring r.val).errIdx = i)) ∧
          (bits (lef b 0 4) 31 31 = u.phaseOf r.val i → entryOk r.val b = false →
            ∃ t : State, exec (.entryFetch dt r [d] ok) s = .next t.finish ∧
              (t.ring r.val).state = .error ∧ (t.ring r.val).errCode = 1#4 ∧ (t.ring r.val).errIdx = i) ∧
          (bits (lef b 0 4) 31 31 = u.phaseOf r.val i → entryOk r.val b = true → dataRead r.val b d = false →
            ∃ t : State, exec (.entryFetch dt r [d] ok) s = .next t.finish ∧
              (t.ring r.val).state = .error ∧ (t.ring r.val).errCode = 4#4 ∧ (t.ring r.val).errIdx = i) ∧
          (bits (lef b 0 4) 31 31 = u.phaseOf r.val i → entryOk r.val b = true → dataRead r.val b d = true →
            (isCommand r.val = true → roleSensitive (byteAt b 0) = false) →
            ∃ t e, exec (.entryFetch dt r [d] ok) s = .next (State.finish t) ∧ (t.ring r.val).entries = [e] ∧
              e.idx = i ∧ e.bytes = b ∧ e.state = .ready ∧ e.done = none ∧ (t.ring r.val).state = .running ∧
              (t.ring r.val).fi = (i + 1) % u.ring2S r.val ∧ (t.ring r.val).credit = (u.ring r.val).credit - 1))))) ∧
  (∀ (s : State) (r : Fin 16) (e : Entry) (st : Nat) (tk : Bool) (res : List Byte), s.bmeUp = true →
    (s.ring r.val).state = .running → (s.ring r.val).entries = [e] → e.done = none → st < 256 →
    (∃ l, (s.finishCmd r.val e.idx st tk res).out = s.out ++ [.hostWrite (s.entryAddr r.val e.idx + 4) (cmdBody e.bytes res),
      .hostWrite (s.entryAddr r.val e.idx) (leBytes 4 (bits (lef e.bytes 0 4) 31 31 * 0xC0000000 + at_ tk 28 + st * 256 +
        bits (lef e.bytes 0 4) 7 0))] ++ l ∧ l.length ≤ 1) ∧
    ((s.finishCmd r.val e.idx st tk res).ring r.val).entries = [] ∧
    ((s.finishCmd r.val e.idx st tk res).ring r.val).ci = (e.idx + 1) % s.ring2S r.val) ∧
  (∀ (s u : State) (dt : Nat) (r : Fin 160), u = s.pass dt →
    (u.expired (u.ring r.val).holdoff = false → exec (.holdoffExpiry dt r) s = .next u.finish) ∧
    (u.expired (u.ring r.val).holdoff = true →
      ((u.ring r.val).msgDue = false ∨ u.bmeUp = false → exec (.holdoffExpiry dt r) s =
        .next (u.modRing r.val fun g => { g with holdoff := none, msgDue := g.msgDue }).finish) ∧
      ((u.ring r.val).msgDue = true → u.bmeUp = true → bit (u.rg .ringCfg r.val) 24 = true →
        (tget msixDefault u.msixTab (4 * u.rf .ringCfg r.val 23 18 + 3)).getLsbD 0 = false →
        ∃ t : State, exec (.holdoffExpiry dt r) s = .next t.finish ∧ t.out = u.out ++ [.msix (u.rf .ringCfg r.val 23 18)] ∧
          (t.ring r.val).msgDue = false)))

/-- Frames sent and frames received. The next transmit entry of a ring enters its lane's queue, or is taken by its
stream, unless it waits for room; one that is too long, or whose lane or stream does not send, is refused without a
frame. A free lane starts the head frame of its highest queue that may start with its stamp and the row count, or
resumes its remainder; a frame in progress is cut for an express frame in an ARBITRATING window or since its queue
closed. A frame whose octets have gone is counted and leaves. A head frame that has waited longer than one matrix
and one row is discarded. A frame received without error is counted, and goes to its stream or to the default ring's
posted entry, or is dropped there; one that is too long, in error or not addressed to the lane is counted as such,
and none is received with the receiver off. Otherwise only the time passes. (R176, R217, R221, R222, R224, R226,
R227, R228, R234, R248, R265, R289) -/
def Obligations.FramesSentAndReceived : Prop :=
  (∀ (s u : State) (dt : Nat) (k : Fin 64), u = s.pass dt →
    let r := 16 + k.val
    (((u.ring r).state ≠ .running ∧ (u.ring r).state ≠ .error) ∨
        (∀ e ∈ (u.ring r).entries, e.state = .ready → e.done.isSome = true) →
      exec (.transmitEntry dt k) s = .next u.finish) ∧
    ∀ e : Entry, ((u.ring r).state = .running ∨ (u.ring r).state = .error) → (u.ring r).entries = [e] → e.state = .ready →
      e.done = none →
      (u.txBlocked e.bytes = true → exec (.transmitEntry dt k) s = .next u.finish) ∧
      (u.txBlocked e.bytes = false →
        (txStream e.bytes = false →
          (u.txEn (txLane e.bytes) = true → txLen e.bytes + 4 ≤ u.maxLen (txLane e.bytes) →
            ∃ t f, exec (.transmitEntry dt k) s = .next (State.finish t) ∧
              t.queue (txLane e.bytes) (txQueue e.bytes) = u.queue (txLane e.bytes) (txQueue e.bytes) ++ [f] ∧
              f.octets = rdBytes e.payload 0 (txLen e.bytes) ∧ f.src = .entry r e.idx ∧
              (t.ring r).entries = [{ e with state := .begun, copies := 1 }]) ∧
          (u.txEn (txLane e.bytes) = false ∨ u.maxLen (txLane e.bytes) < txLen e.bytes + 4 →
            ∃ t : State, exec (.transmitEntry dt k) s = .next t.finish ∧ t.ept = u.ept ∧
              (u.bmeUp = true → (t.ring r).entries = []))) ∧
        (txStream e.bytes = true →
          let x := txCtx e.bytes
          let c := u.ctx x
          ((ctxValid c && ctxTx c) = false ∨ ctxSlotTx c = true →
            ∃ t : State, exec (.transmitEntry dt k) s = .next t.finish ∧ t.ept = u.ept ∧
              (u.bmeUp = true → (t.ring r).entries = [])) ∧
          ((ctxValid c && ctxTx c) = true → ctxSlotTx c = false → ctxSeqGen c = true →
            (∀ l ∈ (u.lanesFor c).1, txLen e.bytes + 10 ≤ u.maxLen l) →
            ∃ t : State, exec (.transmitEntry dt k) s = .next t.finish ∧
              (t.stream x).gen = (u.stream x).gen + 1 ∧
              (ctxPaceEn c = true → (t.stream x).paced.length = (u.stream x).paced.length + 1 ∧ t.ept.lanes = u.ept.lanes) ∧
              (∀ l, ctxPaceEn c = false → u.lanesFor c = ([l], []) → ∃ f, f.seq = some (u.stream x).gen ∧
                f.octets = insertTag (rdBytes e.payload 0 (txLen e.bytes)) (u.stream x).gen ∧
                t.queue l (ctxQueue c) = u.queue l (ctxQueue c) ++ [f]))))) ∧
  (∀ (s u : State) (dt : Nat) (l : Fin 8), u = s.pass dt →
    let n := u.lane l.val
    (u.txRuns l.val = false → exec (.frameStart dt l) s = .next u.finish) ∧
    (u.txRuns l.val = true →
      (∀ x, n.cur = some x →
        let express := u.laneKind l.val = .arbitrating ∧
          ∃ q ∈ queuesDown, u.preemptable l.val q = false ∧ u.canStart l.val q = true
        (u.preemptable l.val x.queue = true → (u.gateOpen l.val x.queue = false ∨ express) →
          exec (.frameStart dt l) s = .next (u.cut l.val).finish) ∧
        (u.preemptable l.val x.queue = false ∨ (u.gateOpen l.val x.queue = true ∧ ¬ express) →
          exec (.frameStart dt l) s = .next u.finish)) ∧
      (n.cur = none → u.now < n.busyTill → exec (.frameStart dt l) s = .next u.finish) ∧
      (n.cur = none → (∀ q ∈ queuesDown, u.canStart l.val q = false) → exec (.frameStart dt l) s = .next u.finish) ∧
      (∀ q, n.cur = none → n.busyTill ≤ u.now → queuesDown.find? (fun p => u.canStart l.val p) = some q →
        (∀ y, n.rest.find? (·.1 = q) = some (q, y) →
          ∃ t : State, exec (.frameStart dt l) s = .next t.finish ∧ (t.lane l.val).cur = some { y with since := u.now } ∧
            t.queue l.val q = u.queue l.val q ∧
            tget (fun _ => 0) (t.lane l.val).cnt 11 = (tget (fun _ => 0) n.cnt 11 + 1) % 2 ^ 64) ∧
        (∀ f fs, n.rest.find? (·.1 = q) = none → u.queue l.val q = f :: fs →
          ∃ t x, exec (.frameStart dt l) s = .next (State.finish t) ∧ (t.lane l.val).cur = some x ∧ x.queue = q ∧
            x.stamp = u.nt + n.sfdDelay + n.txDelay ∧ x.row = u.sched.rowCnt ∧ x.frame.octets = f.stamped x.stamp ∧
            x.frame.src = f.src ∧ (t.queue l.val q).length = fs.length)))) ∧
  (∀ (s u : State) (dt : Nat) (l : Fin 8), u = s.pass dt →
    let n := u.lane l.val
    (n.cur = none → exec (.frameSent dt l) s = .next u.finish) ∧
    ∀ x : TxNow, n.cur = some x →
      (u.now < x.since + n.octCycles (8 + x.frame.len - x.sent) → exec (.frameSent dt l) s = .next u.finish) ∧
      (x.since + n.octCycles (8 + x.frame.len - x.sent) ≤ u.now →
        ∃ t m, exec (.frameSent dt l) s = .next (State.finish t) ∧ (t.lane l.val).cur = none ∧
          (t.lane l.val).busyTill = u.now ∧ t.out = u.out ++ [.frame l.val x.frame.octets x.stamp] ++ m ∧
          tget (fun _ => 0) (t.lane l.val).cnt 0 = (tget (fun _ => 0) n.cnt 0 + 1) % 2 ^ 64 ∧
          tget (fun _ => 0) (t.lane l.val).cnt 1 = (tget (fun _ => 0) n.cnt 1 + x.frame.len) % 2 ^ 64)) ∧
  (∀ (s u : State) (dt : Nat) (l q : Fin 8), u = s.pass dt →
    (∀ f fs a, u.queue l.val q.val = f :: fs → f.headAt = some a → u.pastMatrix (u.now - a) = true →
      exec (.txNofit dt l q) s = .next ((u.popQueue l.val q.val).dropCopy f l.val 9 0x40).finish) ∧
    ((∀ f fs a, u.queue l.val q.val = f :: fs → f.headAt = some a → u.pastMatrix (u.now - a) = false) →
      exec (.txNofit dt l q) s = .next u.finish)) ∧
  (∀ (s u : State) (dt : Nat) (l : Fin 8) (fr : RxFrame), u = s.pass dt →
    let f := fr.octets
    let on := u.lanePowered l.val && u.rxEn l.val && !u.laneTesting l.val && !u.laneResetting l.val
    let n := u.lane l.val
    let up := fun (t : State) (k : Nat) => tget (fun _ => 0) (t.lane l.val).cnt k = (tget (fun _ => 0) n.cnt k + 1) % 2 ^ 64
    (on = false → exec (.frameReceive dt l fr) s = .next u.finish) ∧
    (on = true → fr.err ≠ .none →
      (n.connBusy = true → exec (.frameReceive dt l fr) s = .next (u.laneCnt l.val 6 1).finish) ∧
      (n.connBusy = false → n.connEnd = 0 →
        (n.blockLock = false → exec (.frameReceive dt l fr) s = .next u.finish) ∧
        (n.blockLock = true → exec (.frameReceive dt l fr) s = .next (u.laneCnt l.val
          (if fr.err = .assembly then 12 else if fr.err = .smd then 13 else 4) 1).finish))) ∧
    (on = true → fr.err = .none → n.blockLock = false → exec (.frameReceive dt l fr) s = .next u.finish) ∧
    (on = true → fr.err = .none → n.blockLock = true →
      (u.maxLen l.val < f.length + 4 → exec (.frameReceive dt l fr) s = .next (u.laneCnt l.val 5 1).finish) ∧
      (f.length + 4 ≤ u.maxLen l.val → bef f 0 6 ≠ u.rg8 .eptMac l.val → byteAt f 0 % 2 = 0 →
        bit (u.rg .eptCfg l.val) 24 = false → exec (.frameReceive dt l fr) s = .next (u.laneCnt l.val 7 1).finish) ∧
      (f.length + 4 ≤ u.maxLen l.val →
        (bef f 0 6 = u.rg8 .eptMac l.val ∨ byteAt f 0 % 2 = 1 ∨ bit (u.rg .eptCfg l.val) 24 = true) →
        bef f (afterTags f) 2 ≠ 0x88F7 → isBiarn f = false →
        (∀ x, u.matchCtx l.val f = some x → ctxRcvy (u.ctx x) = false →
          ∃ t : State, exec (.frameReceive dt l fr) s = .next t.finish ∧ up t 2 ∧
            tget (fun _ => 0) (t.stream x).cnt 2 = min (tget (fun _ => 0) (u.stream x).cnt 2 + 1) 0xFFFFFFFF) ∧
        (u.matchCtx l.val f = none →
          let r := 80 + u.rf .eptCfg l.val 20 15
          ((u.ring r).entries = [] ∨ u.bmeUp = false → ∃ t : State, exec (.frameReceive dt l fr) s = .next t.finish ∧
            up t 2 ∧ up t 8 ∧ t.out = u.out) ∧
          (∀ e, (u.ring r).entries = [e] → e.done = none → u.bmeUp = true → (u.ring r).state = .running →
            ∃ t m, exec (.frameReceive dt l fr) s = .next (State.finish t) ∧ (t.ring r).entries = [] ∧ up t 2 ∧
              (f.length ≤ lef e.bytes 4 4 → t.out = u.out ++ [.hostWrite (lef e.bytes 8 8) f] ++ m)))))) 

/-- Lock, link, verify, shapers, lane reset and lane settings. A change of block lock starts the 1 ms of LINK_UP, or
ends it where lock returns, and is marked in a self-test; without a powered, enabled receiver, or in a lane reset,
nothing changes. At the end of that time LINK_UP rises or falls with LINK_CHG, and a fall is counted and, outside a
change, fires the lane's source. A verify response ends the procedure well; each verifyTime without one counts a
try, and the third ends it failed. A refill adds RATE for each 1,024 cycles since the last one up to BURST. A write
of EPT_Ln_SHAPEq under a grant keeps the level. SYS_LANERST under a grant resets each named lane that sends nothing,
lets a sending one finish first, and leaves the others as they are. LANE_CONFIG is refused while a bank runs, and
otherwise sets RATE, FEC and PREEMPT_EN, with loss of lock and of the link delay where RATE or FEC changes and a new
verify where PREEMPT_EN changes. EPT_STR_SEL takes the counters of its context. Otherwise only the time passes. (R6,
R174, R219, R220, R229, R230, R231, R248, R249, R335, R398, R407) -/
def Obligations.LinksShapersAndLaneSettings : Prop :=
  (∀ (s u : State) (dt : Nat) (l : Fin 8) (a b : Bool), u = s.pass dt →
    ((u.lanePowered l.val = false ∨ u.rxEn l.val = false ∨ u.laneResetting l.val = true) →
      exec (.blockLockChange dt l a b) s = .next u.finish) ∧
    (u.lanePowered l.val = true → u.rxEn l.val = true → u.laneResetting l.val = false →
      ∃ t : State, exec (.blockLockChange dt l a b) s = .next t.finish ∧ (t.lane l.val).blockLock = a ∧
        (t.lane l.val).fecLock = b ∧ (t.lane l.val).linkUp = (u.lane l.val).linkUp ∧
        (t.lane l.val).lockTimer = (if (u.lane l.val).blockLock = a then (u.lane l.val).lockTimer
          else if a = (u.lane l.val).linkUp then none else some (u.now + msC 1)) ∧
        t.tst.lockLost = (if a = false ∧ u.inSelfTest l.val = true then u.tst.lockLost ||| BitVec.ofNat 8 (2 ^ l.val)
          else u.tst.lockLost))) ∧
  (∀ (s u : State) (dt : Nat) (l : Fin 8), u = s.pass dt →
    let x := u.lane l.val
    ((u.expired x.lockTimer && x.blockLock && !x.linkUp) = true →
      ∃ t : State, exec (.linkUp dt l) s = .next t.finish ∧ (t.lane l.val).linkUp = true ∧
        (t.lane l.val).lockTimer = none ∧ bit (t.rg .eptStatus l.val) 28 = true) ∧
    ((u.expired x.lockTimer && x.blockLock && !x.linkUp) = false → exec (.linkUp dt l) s = .next u.finish) ∧
    ((u.expired x.lockTimer && !x.blockLock && x.linkUp) = true →
      ∃ t : State, exec (.linkDown dt l) s = .next t.finish ∧ (t.lane l.val).linkUp = false ∧
        (t.lane l.val).lockTimer = none ∧ bit (t.rg .eptStatus l.val) 28 = true ∧
        tget (fun _ => 0) (t.lane l.val).cnt 15 = (tget (fun _ => 0) x.cnt 15 + 1) % 2 ^ 64 ∧
        (x.connBusy = false → ∃ q ∈ t.flt.fireQ, q.src = 40 + l.val ∧ q.owner = some l.val)) ∧
    ((u.expired x.lockTimer && !x.blockLock && x.linkUp) = false → exec (.linkDown dt l) s = .next u.finish)) ∧
  (∀ (s u : State) (dt : Nat) (l : Fin 8) (b : Bool), u = s.pass dt →
    let x := u.lane l.val
    (x.verify ≠ 1#2 → exec (.preemptVerify dt l b) s = .next u.finish) ∧
    (x.verify = 1#2 → b = false → u.expired x.verifyTimer = false → exec (.preemptVerify dt l b) s = .next u.finish) ∧
    (x.verify = 1#2 → b = true → ∃ t : State, exec (.preemptVerify dt l b) s = .next t.finish ∧
      (t.lane l.val).verify = 2#2 ∧ (t.lane l.val).verifyTimer = none) ∧
    (x.verify = 1#2 → b = false → u.expired x.verifyTimer = true →
      (2 ≤ x.verifyTries → ∃ t : State, exec (.preemptVerify dt l b) s = .next t.finish ∧
        (t.lane l.val).verify = 3#2 ∧ (t.lane l.val).verifyTimer = none) ∧
      (x.verifyTries < 2 → ∃ t : State, exec (.preemptVerify dt l b) s = .next t.finish ∧
        (t.lane l.val).verify = 1#2 ∧ (t.lane l.val).verifyTries = x.verifyTries + 1 ∧
        (t.lane l.val).verifyTimer = some (u.now + msC (u.verifyMs l.val))))) ∧
  (∀ (s u : State) (dt : Nat) (l q : Fin 8), u = s.pass dt →
    let v := u.shaper l.val q.val
    let n := u.now / 1024 - v.last / 1024
    (u.core = false ∨ n = 0 → exec (.shaperRefill dt l q) s = .next u.finish) ∧
    (u.core = true → 0 < n →
      ∃ t : State, exec (.shaperRefill dt l q) s = .next t.finish ∧ (t.shaper l.val q.val).last = u.now ∧
        (t.shaper l.val q.val).en = bit (u.rg .eptShape (8 * l.val + q.val) 1) 31 ∧
        (t.shaper l.val q.val).level = min (v.level + n * fld (u.rg .eptShape (8 * l.val + q.val) 1) 19 0)
          (burstOf (u.rg .eptShape (8 * l.val + q.val)).toNat * 256) ∧
        ∀ p : Fin 8, p ≠ q → t.shaper l.val p.val = u.shaper l.val p.val)) ∧
  (∀ (s : State) (l q : Fin 8) (v : Dword), s.hostUp = true → s.grantOk = true →
    ∃ t : State, exec (.eptShapeWrite l q v) s = .next t.finish ∧ t.ept = s.ept ∧
      t.rg .eptShape (8 * l.val + q.val) 0 = s.written .eptShape (8 * l.val + q.val) 0 (loW v) ∧
      t.rg .eptShape (8 * l.val + q.val) 1 = s.written .eptShape (8 * l.val + q.val) 1 (hiW v)) ∧
  (∀ (s : State) (m : Word), s.hostUp = true → s.grantOk = true →
    ∃ t : State, exec (.laneReset m) s = .next t.finish ∧ ∀ l : Fin 8,
      (m.getLsbD l.val = false ∨ s.laneResetting l.val = true → t.lane l.val = s.lane l.val) ∧
      (m.getLsbD l.val = true → s.laneResetting l.val = false → (s.lane l.val).cur.isSome = true →
        t.lane l.val = { s.lane l.val with resetWait := true }) ∧
      (m.getLsbD l.val = true → s.laneResetting l.val = false → (s.lane l.val).cur = none →
        (t.lane l.val).blockLock = false ∧ (t.lane l.val).fecLock = false ∧ (t.lane l.val).resetWait = false ∧
        (t.lane l.val).resetTill = some (s.now + msC 2) ∧ (t.delayOf l.val).valid = false ∧
        (t.lane l.val).verify = (if (s.lane l.val).preempt && bit (s.rg .eptPreempt l.val) 31 && (s.lane l.val).linkUp
          then 1#2 else 0#2) ∧ (t.lane l.val).queues = (s.lane l.val).queues)) ∧
  (∀ (s : State) (r : Fin 16), s.readyHead r.val 0x40 = none → exec (.laneConfig r) s = .next s.finish) ∧
  (∀ (s : State) (r : Fin 16) (e : Entry), s.readyHead r.val 0x40 = some e →
    let l := byteAt e.bytes 24
    let rate := BitVec.ofNat 2 (bits (byteAt e.bytes 25) 1 0)
    let fec := (byteAt e.bytes 25).testBit 2
    let pre := (byteAt e.bytes 25).testBit 3
    (s.sched.run.isSome = true → exec (.laneConfig r) s = .next (s.finishCmd r.val e.idx 0x2C false).finish) ∧
    (s.sched.run = none →
      ∃ t : State, exec (.laneConfig r) s = .next (t.finishCmd r.val e.idx 0 true).finish ∧
        (t.lane l).rate = rate ∧ (t.lane l).fec = fec ∧ (t.lane l).preempt = pre ∧
        ((s.lane l).rate ≠ rate ∨ (s.lane l).fec ≠ fec →
          (t.lane l).blockLock = false ∧ (t.lane l).fecLock = false ∧ (t.delayOf l).valid = false) ∧
        ((s.lane l).rate = rate → (s.lane l).fec = fec →
          (t.lane l).blockLock = (s.lane l).blockLock ∧ (t.lane l).fecLock = (s.lane l).fecLock ∧ t.delayOf l = s.delayOf l) ∧
        (t.lane l).verify = (if (s.lane l).preempt = pre then (s.lane l).verify
          else if pre && bit (s.rg .eptPreempt l) 31 && (s.lane l).linkUp then 1#2 else 0#2) ∧
        ∀ k, k ≠ l → t.lane k = s.lane k)) ∧
  (∀ (s : State) (v : Word), s.hostUp = true → ∃ t : State, exec (.eptStrSel v) s = .next t.finish ∧
    t.rg .eptStrSel = s.written .eptStrSel 0 0 v ∧ tget (fun _ => 0) t.ept.strSnap 1 = (s.stream (fld v 11 0)).gen.toNat ∧
    ∀ k, k ≠ 1 → tget (fun _ => 0) t.ept.strSnap k = tget (fun _ => 0) (s.stream (fld v 11 0)).cnt k)

/-- The calendar wheel, streams and slots. A release of a paced stream or of a transmit slot handles that context's
first due event, after the due events before it; CALENDAR_SLOT handles the due events of the earliest slot. Where
one event waits and is due, it leaves the wheel and is handled, or with eight already handled in its slot goes to
the next slot with CARRY. To handle it releases the stream's first paced frame, if the queues have room, and asks
for the release of the next, else again 16 ns later; or the slot of the context while a bank runs. A release of a
slot takes a fresh copy with AGE 0, else ages the good copy; a torn slot with no good copy is counted twice and
sends nothing; ROWCNT is written. Overflow events within reach move into the wheel and no event is lost. Policing
adds one credit up to its burst, and a silent recovery is reset. STREAM_WRITE is refused with its verdict or
replaces the 64 configuration bytes of its context alone, and resets generator, recovery and credits when the stream
changes (that its credits are kept otherwise follows R234; log entry 30); STREAM_READ returns the 64 bytes and 192
more, free values (log entry 3). Otherwise only the time passes. (R181, R221, R232, R234, R236, R240, R242, R243,
R244, R245, R249, R281) -/
def Obligations.WheelStreamsAndSlots : Prop :=
  (∀ (s u : State) (dt : Nat) (x : Fin 4096), u = s.pass dt →
    let due := u.ept.wheel.find? fun e => e.ctx = x.val && u.slotDue e
    (due = none → exec (.pacedRelease dt x) s = .next u.finish ∧ exec (.slotRelease dt x) s = .next u.finish) ∧
    ((u.stream x.val).paced = [] → exec (.pacedRelease dt x) s = .next u.finish) ∧
    (ctxSlotTx (u.ctx x.val) = false → exec (.slotRelease dt x) s = .next u.finish) ∧
    ∀ e, due = some e →
      let t := u.serveWhile u.ept.wheel.length fun v => v.slot * 4096 + v.ctx ≤ e.slot * 4096 + e.ctx
      ((u.stream x.val).paced ≠ [] → exec (.pacedRelease dt x) s = .next t.finish) ∧
      (ctxSlotTx (u.ctx x.val) = true → exec (.slotRelease dt x) s = .next t.finish)) ∧
  (∀ (s u : State) (dt : Nat), u = s.pass dt →
    (u.ept.wheel.find? u.slotDue = none → exec (.calendarSlot dt) s = .next u.finish) ∧
    (∀ e, u.ept.wheel.find? u.slotDue = some e →
      exec (.calendarSlot dt) s = .next (u.serveWhile u.ept.wheel.length fun v => v.slot = e.slot).finish) ∧
    ∀ e, u.ept.wheel = [e] → u.slotDue e = true →
      let used := if u.ept.slotAt = e.slot then u.ept.slotUsed else 0
      (used < 8 → exec (.calendarSlot dt) s = .next ((u.onEpt fun p =>
        { p with wheel := [], slotAt := e.slot, slotUsed := used + 1 }).handleEvent e).finish) ∧
      (8 ≤ used → exec (.calendarSlot dt) s = .next ((u.onEpt fun p =>
        { p with wheel := [{ e with slot := e.slot + 1 }] }).setBit .eptWheelStatus 0 31).finish)) ∧
  (∀ (s : State) (e : WheelEvent),
    (∀ h f rest, (s.stream e.ctx).paced = (h, f) :: rest →
      let c := s.ctx e.ctx
      let full := (s.lanesFor c).1.any fun l => s.queueFull l (ctxQueue c)
      (full = true → s.handleEvent e = s.addEvent (e.time + 16) e.ctx) ∧
      (full = false → ((s.handleEvent e).stream e.ctx).paced = rest ∧
        ((s.handleEvent e).stream e.ctx).lastRelease = some e.time)) ∧
    ((s.stream e.ctx).paced = [] → ctxSlotTx (s.ctx e.ctx) = true → s.sched.run.isSome = true →
      s.handleEvent e = s.releaseSlot e.ctx) ∧
    ((s.stream e.ctx).paced = [] → (ctxSlotTx (s.ctx e.ctx) = false ∨ s.sched.run = none) → s.handleEvent e = s)) ∧
  (∀ (s : State) (x : Nat),
    let c := s.ctx x
    let n := ctxSlot c
    let q := s.stream x
    let len := s.slotLE n 4 2
    let torn := s.slotLE n 0 4 % 2 = 1 ∨ len < 60 ∨ 1984 < len ∨
      ∃ l ∈ (s.lanesFor c).1, s.maxLen l < len + 4 + (if ctxSeqGen c then 6 else 0)
    let fresh := ¬ torn ∧ (q.goodCopy = none ∨ s.slotLE n 0 4 ≠ q.goodSeq.toNat)
    let t := s.releaseSlot x
    t.slotLE n 8 4 = s.sched.rowCnt.toNat ∧
    (fresh → (t.stream x).goodCopy = some (rdBytes s.sram (slotBase n + 64) len) ∧ (t.stream x).age = 0) ∧
    (∀ d, ¬ fresh → q.goodCopy = some d → (t.stream x).goodCopy = some d ∧ (t.stream x).age = min (q.age + 1) 255) ∧
    (torn → q.goodCopy = none → t.ept.lanes = s.ept.lanes ∧
      tget (fun _ => 0) (t.stream x).cnt 12 = min (tget (fun _ => 0) q.cnt 12 + 1) 0xFFFFFFFF ∧
      tget (fun _ => 0) (t.stream x).cnt 13 = min (tget (fun _ => 0) q.cnt 13 + 1) 0xFFFFFFFF)) ∧
  (∀ (s u : State) (dt : Nat), u = s.pass dt →
    (u.slotNo / 4096 = u.ept.movedAt / 4096 → exec (.overflowMove dt) s = .next u.finish) ∧
    (u.slotNo / 4096 ≠ u.ept.movedAt / 4096 →
      ∃ t : State, exec (.overflowMove dt) s = .next t.finish ∧ t.ept.movedAt = u.slotNo ∧
        (∀ e, e ∈ t.ept.wheel ↔ e ∈ u.ept.wheel ∨ (e ∈ u.ept.ovfl ∧ e.slot ≤ u.slotNo + 16383)) ∧
        ∀ e, e ∈ t.ept.ovfl ↔ e ∈ u.ept.ovfl ∧ u.slotNo + 16383 < e.slot)) ∧
  (∀ (s u : State) (dt : Nat) (x : Fin 4096), u = s.pass dt →
    let c := u.ctx x.val
    let q := u.stream x.val
    ((ctxValid c = false ∨ ctxPolEn c = false ∨ q.creditAt = none) → exec (.policeCredit dt x) s = .next u.finish) ∧
    (∀ a, q.creditAt = some a → u.now * 1000 < a → exec (.policeCredit dt x) s = .next u.finish) ∧
    (∀ a, ctxValid c = true → ctxPolEn c = true → q.creditAt = some a → a ≤ u.now * 1000 →
      ∃ t : State, exec (.policeCredit dt x) s = .next t.finish ∧
        (t.stream x.val).credits = min (q.credits + 1) (ctxPolBurst c) ∧
        (t.stream x.val).creditAt = some (a + polGap c) ∧ ∀ y, y ≠ x.val → t.stream y = u.stream y)) ∧
  (∀ (s u : State) (dt : Nat) (x : Fin 4096), u = s.pass dt →
    let q := u.stream x.val
    let go := ctxValid (u.ctx x.val) && ctxRcvy (u.ctx x.val) && u.expired q.rcvyTimer
    (go = false → exec (.recoveryReset dt x) s = .next u.finish) ∧
    (go = true → ∃ t : State, exec (.recoveryReset dt x) s = .next t.finish ∧ (t.stream x.val).recov = {} ∧
      (t.stream x.val).rcvyTimer = none ∧
      tget (fun _ => 0) (t.stream x.val).cnt 8 = min (tget (fun _ => 0) q.cnt 8 + 1) 0xFFFFFFFF ∧
      ∀ y, y ≠ x.val → t.stream y = u.stream y)) ∧
  (∀ (s : State) (r : Fin 16), s.readyHead r.val 0x41 = none → exec (.streamWrite r) s = .next s.finish) ∧
  (∀ (s : State) (r : Fin 16) (e : Entry), s.readyHead r.val 0x41 = some e →
    let x := lef e.bytes 24 2
    let o := s.ctx x
    let c := rdBytes e.payload 0 64
    let new := byteAt o 1 % 16 ≠ byteAt c 1 % 16 ∨ (o.drop 5).take 9 ≠ (c.drop 5).take 9 ∨ byteAt o 4 ≠ byteAt c 4 ∨
      byteAt o 3 ≠ byteAt c 3
    (s.ctxStatus x c ≠ 0 → exec (.streamWrite r) s = .next (s.finishCmd r.val e.idx (s.ctxStatus x c) false).finish) ∧
    (s.ctxStatus x c = 0 →
      ∃ t : State, exec (.streamWrite r) s = .next (t.finishCmd r.val e.idx 0 true).finish ∧
        t.ctx x = c ∧ s.sramKept t (ctxBase x) 64 ∧ t.ept.lanes = s.ept.lanes ∧
        (t.stream x).cnt = (s.stream x).cnt ∧ (t.stream x).paced = (s.stream x).paced ∧
        (new → (t.stream x).gen = 0#16 ∧ (t.stream x).recov = {} ∧ (t.stream x).credits = ctxPolBurst c) ∧
        (¬ new → (t.stream x).gen = (s.stream x).gen ∧ (t.stream x).recov = (s.stream x).recov ∧
          (t.stream x).credits = min (s.stream x).credits (ctxPolBurst c)))) ∧
  (∀ (s : State) (r : Fin 16), s.readyHead r.val 0x42 = none → exec (.streamRead r) s = .next s.finish) ∧
  (∀ (s : State) (r : Fin 16) (e : Entry), s.readyHead r.val 0x42 = some e →
    ∃ d : List Byte, d.length = 256 ∧ d.take 64 = s.ctx (lef e.bytes 24 2) ∧ exec (.streamRead r) s =
      .next (State.finishCmd { s with free := s.free + 192 } r.val e.idx 0 true [] 0 (some (lef e.bytes 8 8, d))).finish)

/-- The record of a consist, received frames, heartbeats and the members of a train. CONSIST_CFG takes its record;
with ENABLE clear the role is DISABLED and coupling ends; with ENABLE set a module not strapped as manager, or
demoted, is a worker, and another claims unless it is deputy or claims already; STACK stays. Of each type, a frame
that is no Biarn frame of that type, or comes while the module takes no part, does nothing, and one that fails a
check is only counted, and noted where it is a refusal. A worker that hears its manager knows it and takes its
train; a manager that hears a member counts it, and one that hears another manager of its consist sets CONFLICT and
becomes a demoted worker if its key is worse. A heartbeat interval sends one frame. A member silent for 3 x HB_MS
leaves, and RELEASE no longer waits for it; a worker that hears no manager so long sets MGR_LOST; a deputy that
hears no train manager promotes itself and keeps the consists it has heard; a train manager drops a silent consist.
16 refusals within a second fire source 91. Otherwise only the time passes. (R296, R297, R298, R300, R304, R305,
R306, R312, R314, R315, R316, R335) -/
def Obligations.MembersAndManagers : Prop :=
  (∀ (s : State) (r : Fin 16), (s.readyHead r.val 0x54 = none ∨ s.sup.available = false) →
    exec (.consistConfigure r) s = .next s.finish) ∧
  (∀ (s : State) (r : Fin 16) (e : Entry), s.readyHead r.val 0x54 = some e → s.sup.available = true →
    let mgr := s.pwr.straps.mgr && !s.casc.demoted
    ((rd e.payload 0).toNat ≠ 0 → exec (.consistConfigure r) s = .next s.finish) ∧
    ((rd e.payload 0).toNat = 0 → ∃ t : State,
      exec (.consistConfigure r) s = .next (t.finishCmd r.val e.idx 0 true).finish ∧
      (∀ k < 512, rd t.casc.record k = rd e.payload k) ∧
      ((rd e.payload 1).toNat ≠ 1 → t.casc.role = (if s.casc.role = .stack then .stack else .disabled) ∧
        t.casc.enabled = false ∧ t.casc.coupling = false ∧ t.sched.couplingHeld = false) ∧
      ((rd e.payload 1).toNat = 1 → t.casc.enabled = true ∧
        (s.casc.role = .stack → t.casc.role = .stack) ∧
        (s.casc.role ≠ .stack → t.casc.hbAt = some (s.now + t.hbCycles) ∧
          (mgr = false → t.casc.role = .worker ∧ t.casc.priority = 0#8) ∧
          (mgr = true → t.casc.priority = rd e.payload 2 ∧
            (s.casc.role = .deputy ∨ s.casc.role = .claiming → t.casc.role = s.casc.role) ∧
            (s.casc.role ≠ .deputy → s.casc.role ≠ .claiming → t.casc.role = .claiming ∧ t.casc.claimAt = some s.now ∧
              t.casc.claimRounds = 1)))))) ∧
  (∀ (s u : State) (dt : Nat) (l : Fin 8) (f : BiarnFrame), u = s.pass dt →
    let h := biarnHdr f.octets
    ∀ p ∈ [(Instr.heartbeat dt l f, 1), (.claim dt l f, 2), (.couple dt l f, 3), (.ready dt l f, 4), (.release dt l f, 5),
        (.distData dt l f, 6), (.distResult dt l f, 7), (.swap dt l f, 8), (.swapResult dt l f, 9)],
      (u.biarnUp = false ∨ isBiarn f.octets = false ∨ h.type ≠ p.2 → exec p.1 s = .next u.finish) ∧
      (u.biarnUp = true → isBiarn f.octets = true → h.type = p.2 →
        (∀ k, u.biarnFail f h = some (k, none) → exec p.1 s = .next (u.casCount k).finish) ∧
        (∀ k c, u.biarnFail f h = some (k, some c) → exec p.1 s = .next ((u.casCount k).noteBiarn c).finish))) ∧
  (∀ (s u : State) (dt : Nat) (l : Fin 8) (f : BiarnFrame), u = s.pass dt →
    let h := biarnHdr f.octets
    u.biarnUp = true → isBiarn f.octets = true → h.type = 1 → u.biarnFail f h = none → h.consist = u.consistId →
    (u.casc.role = .worker → h.manages = true → ∃ t : State, exec (.heartbeat dt l f) s = .next t.finish ∧
      t.casc.mgrHeard = some u.now ∧ t.casc.mgrLost = false ∧ t.casc.role = .worker ∧
      (18 ≤ h.payload.length → t.casc.inaugCnt = BitVec.ofNat 16 (bef h.payload 8 2) ∧
        t.casc.tmId = BitVec.ofNat 64 (bef h.payload 10 8)) ∧
      tget (fun _ => 0) t.casc.cnt 0 = min (tget (fun _ => 0) u.casc.cnt 0 + 1) 0xFFFFFFFF ∧
      (t.senderOf h.sender).map (·.counter.toNat) = some h.counter) ∧
    (u.casc.role ≠ .worker → h.manages = true → ∃ t : State, exec (.heartbeat dt l f) s = .next t.finish ∧
      bit (t.rg .cascRoleStatus) 26 = true ∧
      (betterKey (h.priority, h.sender) u.ownKey = true → t.casc.role = .worker ∧ t.casc.demoted = true ∧
        t.casc.priority = 0#8) ∧
      (betterKey (h.priority, h.sender) u.ownKey = false → t.casc.role = u.casc.role)) ∧
    (∀ k, u.casc.role ≠ .worker → h.manages = false → u.memberSlot h.sender = some k →
      ∃ t : State, exec (.heartbeat dt l f) s = .next t.finish ∧ tget (fun _ => 0) t.casc.members k = u.now + 1)) ∧
  (∀ (s u : State) (dt : Nat), u = s.pass dt →
    ((u.biarnUp && u.expired u.casc.hbAt) = false → exec (.heartbeatInterval dt) s = .next u.finish) ∧
    ((u.biarnUp && u.expired u.casc.hbAt) = true → ∃ t : State, exec (.heartbeatInterval dt) s = .next t.finish ∧
      t.casc.hbAt = some (u.now + u.hbCycles) ∧ t.casc.txCount = u.casc.txCount + 1)) ∧
  (∀ (s u : State) (dt : Nat) (k : Fin 32), u = s.pass dt →
    let m := tget (fun _ => 0) u.casc.members k.val
    let gone := u.biarnUp && u.casc.role.manages && m ≠ 0 && m - 1 + u.hbLost ≤ u.now
    (gone = false → exec (.memberLost dt k) s = .next u.finish) ∧
    (gone = true → ∃ t : State, exec (.memberLost dt k) s = .next t.finish ∧ tget (fun _ => 0) t.casc.members k.val = 0 ∧
      (u.casc.coupling = true → u.casc.role = .deputy →
        (∀ j, (j = u.slotNum ∨ (j ≠ k.val ∧ j ∈ u.casc.members.map (·.1))) → j ∈ u.casc.readySlots) →
        t.casc.coupling = false ∧ t.sched.couplingHeld = false))) ∧
  (∀ (s u : State) (dt : Nat), u = s.pass dt →
    (u.biarnUp = false ∨ u.casc.role ≠ .worker ∨ u.casc.mgrLost = true ∨ u.casc.mgrHeard = none →
      exec (.mgrLost dt) s = .next u.finish) ∧
    (∀ a, u.casc.mgrHeard = some a → u.now < a + u.hbLost → exec (.mgrLost dt) s = .next u.finish) ∧
    (∀ a, u.biarnUp = true → u.casc.role = .worker → u.casc.mgrLost = false → u.casc.mgrHeard = some a →
      a + u.hbLost ≤ u.now → ∃ t : State, exec (.mgrLost dt) s = .next t.finish ∧
        t.casc = { u.casc with mgrLost := true })) ∧
  (∀ (s u : State) (dt : Nat), u = s.pass dt →
    (u.biarnUp = false ∨ u.casc.role ≠ .deputy ∨ u.now < u.casc.tmHeard + u.hbLost →
      exec (.promotion dt) s = .next u.finish) ∧
    (u.biarnUp = true → u.casc.role = .deputy → u.casc.tmHeard + u.hbLost ≤ u.now →
      ∃ t : State, exec (.promotion dt) s = .next t.finish ∧ t.casc.role = .trainMgr ∧
        t.casc.inaugCnt = u.casc.inaugCnt + 1 ∧ t.casc.tmId = BitVec.ofNat 64 u.unitId ∧
        t.casc.train = u.casc.train.filter fun c => c.id.toNat = u.consistId || u.now < c.heardAt + u.hbLost)) ∧
  (∀ (s u : State) (dt : Nat) (id : Word), u = s.pass dt →
    let left := u.biarnUp && u.casc.role = .trainMgr && id.toNat ≠ u.consistId &&
      (u.casc.train.any fun c => c.id = id && c.heardAt + u.hbLost ≤ u.now)
    (left = false → exec (.consistLeft dt id) s = .next u.finish) ∧
    (left = true → ∃ t : State, exec (.consistLeft dt id) s = .next t.finish ∧
      t.casc.train = u.casc.train.filter (·.id ≠ id) ∧ t.casc.inaugCnt = u.casc.inaugCnt + 1)) ∧
  (∀ (s u : State) (dt : Nat), u = s.pass dt →
    ((u.casc.refusals.length ≠ 16 ∨ ∃ q ∈ u.casc.refusals, q.1 + secC 1 ≤ u.now) →
      exec (.biarnRefused dt) s = .next u.finish) ∧
    ∀ p ps, u.casc.refusals = p :: ps → ps.length = 15 → (∀ q ∈ p :: ps, u.now < q.1 + secC 1) →
      exec (.biarnRefused dt) s = .next ((u.onCasc fun c => { c with refusals := [] }).fire 91 p.2).finish)

/-- The election of the train manager and the coupling sequence. A train manager that accepts a CLAIM, or a train
manager's HEARTBEAT, from a manager outside its train enters CLAIMING; a manager that claims considers such a frame
within 6 ms, and one that would make more than four consists sets TRAIN_FULL and is left out. Claims are repeated at
2 ms and 4 ms. At 6 ms the module is train manager with one above the highest count where no better key was heard,
else deputy of the better, and couples. A deputy adopts another train manager whose HEARTBEAT lists its consist.
COUPLE from its manager starts a worker's sequence, unless its manager is lost. STEP_REF refused samples authorise a
coupling step under a coupling hold; the coupling limit reports and ends the sequence and its hold, as RELEASE does;
a deputy releases once every member it counts is ready. Otherwise only the time passes. (R184, R299, R305, R310,
R311, R312, R313, R314, R317) -/
def Obligations.ElectionAndCoupling : Prop :=
  (∀ (s u : State) (dt : Nat) (l : Fin 8) (f : BiarnFrame), u = s.pass dt →
    let h := biarnHdr f.octets
    let got := fun k => u.biarnUp = true ∧ isBiarn f.octets = true ∧ h.type = k ∧ u.biarnFail f h = none
    let mine := h.consist = u.consistId
    let listed := u.casc.train.any fun c => c.mgr.toNat = h.sender
    let late := match u.casc.claimAt with
      | some a => a + msC 6 ≤ u.now
      | none => True
    let full := 4 < h.nconsist + u.casc.train.length
    let key := (BitVec.ofNat 8 h.priority, BitVec.ofNat 64 h.sender)
    (∀ c ∈ [(2, Instr.claim dt l f), (1, .heartbeat dt l f)], got c.1 → ¬ mine → (c.1 = 1 → h.role = 3) →
      (u.casc.role = .trainMgr → listed = false → ∃ t : State, exec c.2 s = .next t.finish ∧ t.casc.role = .claiming ∧
        t.casc.claimAt = some u.now ∧ t.casc.claimRounds = 1 ∧ t.casc.wasTm = true ∧
        (full → bit (t.rg .cascRoleStatus) 25 = true ∧ t.casc.bestKey = none) ∧
        (¬ full → t.casc.bestKey = some key)) ∧
      (u.casc.role = .claiming → ∃ t : State, exec c.2 s = .next t.finish ∧ t.casc.role = .claiming ∧
        t.casc.claimAt = u.casc.claimAt ∧
        ((listed = true ∨ late ∨ full) → t.casc.bestKey = u.casc.bestKey ∧ t.casc.bestCnt = u.casc.bestCnt) ∧
        (listed = false → ¬ late → full → bit (t.rg .cascRoleStatus) 25 = true) ∧
        (listed = false → ¬ late → ¬ full →
          (u.casc.bestKey = none → t.casc.bestKey = some key) ∧
          (∀ b, u.casc.bestKey = some b → t.casc.bestKey =
            some (if betterKey (h.priority, h.sender) (b.1.toNat, b.2.toNat) then key else b))))) ∧
    (got 1 → ¬ mine → h.role = 3 → u.casc.role = .deputy →
      let list := parseTrain u.now 4 (h.payload.drop 18)
      ∃ t : State, exec (.heartbeat dt l f) s = .next t.finish ∧ t.casc.role = .deputy ∧
        (u.casc.tmId.toNat = h.sender → t.casc.tmId = u.casc.tmId ∧ t.casc.tmHeard = u.now ∧
          t.casc.inaugCnt = BitVec.ofNat 16 (bef h.payload 8 2)) ∧
        (u.casc.tmId.toNat ≠ h.sender → (list.any fun c => c.id.toNat = u.consistId) = true →
          t.casc.tmId = BitVec.ofNat 64 h.sender ∧ t.casc.tmHeard = u.now ∧ t.casc.coupling = true) ∧
        (u.casc.tmId.toNat ≠ h.sender → (list.any fun c => c.id.toNat = u.consistId) = false →
          t.casc.tmId = u.casc.tmId ∧ t.casc.coupling = u.casc.coupling)) ∧
    (got 3 → ∃ t : State, exec (.couple dt l f) s = .next t.finish ∧
      (u.casc.role = .worker → u.casc.mgrLost = false → mine → h.manages = true → t.casc.coupling = true ∧
        t.casc.outcome = none ∧ t.casc.coupleEnd = some (u.now + msC (100 * u.recByte 11)) ∧
        t.casc.tmId = BitVec.ofNat 64 (bef h.payload 0 8) ∧ t.casc.inaugCnt = BitVec.ofNat 16 (bef h.payload 8 2) ∧
        t.time.refSince = 0) ∧
      ((u.casc.role ≠ .worker ∨ u.casc.mgrLost = true ∨ ¬ mine ∨ h.manages = false) →
        t.casc.coupling = u.casc.coupling ∧ t.casc.tmId = u.casc.tmId)) ∧
    (got 4 → ∃ t : State, exec (.ready dt l f) s = .next t.finish ∧
      (u.casc.role.manages = false ∨ ¬ mine → t.casc.readySlots = u.casc.readySlots ∧
        t.casc.coupling = u.casc.coupling) ∧
      (u.casc.role.manages = true → mine → t.casc.readySlots = u.casc.readySlots ++ [h.slot] ∧
        let all := u.casc.role = .deputy ∧ ∀ k ∈ u.countedSlots, k ∈ u.casc.readySlots ++ [h.slot]
        (u.casc.coupling = true → all → t.casc.coupling = false ∧ t.sched.couplingHeld = false) ∧
        (u.casc.coupling = false ∨ ¬ all → t.casc.coupling = u.casc.coupling))) ∧
    (got 5 → ∃ t : State, exec (.release dt l f) s = .next t.finish ∧
      (u.casc.role = .worker → u.casc.mgrLost = false → mine → h.manages = true →
        t.casc.coupling = false ∧ t.sched.couplingHeld = false) ∧
      ((u.casc.role ≠ .worker ∨ u.casc.mgrLost = true ∨ ¬ mine ∨ h.manages = false) →
        t.casc.coupling = u.casc.coupling ∧ t.sched = u.sched))) ∧
  (∀ (s u : State) (dt : Nat), u = s.pass dt →
    (u.biarnUp = false ∨ u.casc.role ≠ .claiming ∨ u.casc.claimAt = none →
      exec (.claimRound dt) s = .next u.finish ∧ exec (.claimEnd dt) s = .next u.finish) ∧
    ∀ a, u.casc.claimAt = some a →
      (3 ≤ u.casc.claimRounds ∨ u.now < a + msC (2 * u.casc.claimRounds) → exec (.claimRound dt) s = .next u.finish) ∧
      (u.now < a + msC 6 → exec (.claimEnd dt) s = .next u.finish) ∧
      (u.biarnUp = true → u.casc.role = .claiming →
        (u.casc.claimRounds < 3 → a + msC (2 * u.casc.claimRounds) ≤ u.now →
          ∃ t : State, exec (.claimRound dt) s = .next t.finish ∧ t.casc.claimRounds = u.casc.claimRounds + 1 ∧
            t.casc.txCount = u.casc.txCount + 1) ∧
        (a + msC 6 ≤ u.now →
          let lost := u.casc.bestKey.filter fun b => betterKey (b.1.toNat, b.2.toNat) u.ownKey
          (lost = none → ∃ t : State, exec (.claimEnd dt) s = .next t.finish ∧ t.casc.role = .trainMgr ∧
            t.casc.inaugCnt = u.casc.bestCnt + 1 ∧ t.casc.tmId = BitVec.ofNat 64 u.unitId ∧
            t.casc.train = mergeTrain u.casc.train u.casc.heardList) ∧
          (∀ b, lost = some b → ∃ t : State, exec (.claimEnd dt) s = .next t.finish ∧ t.casc.role = .deputy ∧
            t.casc.inaugCnt = u.casc.bestCnt ∧ t.casc.tmId = b.2 ∧ t.casc.coupling = true ∧
            t.casc.coupleEnd = some (u.now + msC (100 * u.recByte 11)))))) ∧
  (∀ (s u : State) (dt : Nat), u = s.pass dt →
    let go := u.biarnUp && u.casc.coupling && u.casc.outcome.isNone && u.time.step.isNone && !u.time.stepped &&
      !u.time.relocked && u.recByte 10 ≤ u.time.refSince
    (go = false → exec (.couplingStep dt) s = .next u.finish) ∧
    (go = true → ∃ t : State, exec (.couplingStep dt) s = .next t.finish ∧ t.sched.couplingHeld = true ∧
      t.casc.stepAuth = true ∧ t.time.refSince = 0 ∧
      t.time.step = some { why := .coupling, delta := none, authAt := u.now })) ∧
  (∀ (s u : State) (dt : Nat), u = s.pass dt →
    let ended := u.biarnUp && u.casc.coupling && u.expired u.casc.coupleEnd
    (ended = false → exec (.couplingLimit dt) s = .next u.finish) ∧
    (ended = true → ∃ t : State, exec (.couplingLimit dt) s = .next t.finish ∧ t.casc.coupling = false ∧
      t.sched.couplingHeld = false ∧
      t.casc.outcome = (if u.casc.outcome = none then some (if u.time.lapsed then 2#8 else 3#8) else u.casc.outcome)))

/-- Distribution of schedules and ordered swaps. Only an enabled manager may distribute or order a swap. DISTRIBUTE
opens a job for each other slot named, and a set for its own slot is applied, or waits while one is applied (that,
and that a set arriving meanwhile is answered with chunk 0 missing, are the model's choices, log entry 67). Chunks
for the module's slot are stored; the last one, or 50 ms without one, asks for the first missing chunk, and after
four asks without progress the set is dropped. A complete set is applied map by map, loading and routing each, then
the bank image is loaded; a busy map or bank is waited for and the first refusal ends it. A route computation that
an older failed-cell list serves starts again. A result ends the manager's job for its slot; a resend is answered
three times without progress. A swap less than 20 ms ahead, or too far, completes with 08h; one that passes the
checks waits in the manager and in each member, and a deputy forwards one for the whole train. While the manager is
lost its orders do nothing. (R205, R206, R297, R299, R300, R301, R305, R307, R308, R309, R317, R329) -/
def Obligations.DistributionAndSwaps : Prop :=
  (∀ (s : State) (r : Fin 16),
    ((∀ e, s.readyHead r.val 0x54 = some e → s.sup.available = true → (rd e.payload 0).toNat ≠ 1) →
      exec (.consistDistribute r) s = .next s.finish) ∧
    ((∀ e, s.readyHead r.val 0x54 = some e → s.sup.available = true → (rd e.payload 0).toNat ≠ 2) →
      exec (.consistSwap r) s = .next s.finish)) ∧
  (∀ (s : State) (r : Fin 16) (e : Entry), s.readyHead r.val 0x54 = some e → s.sup.available = true →
    let p := rdBytes e.payload 0 32
    let bank := byteAt p 8
    let set := rdBytes e.payload 512 (lef p 24 4)
    let slots := maskList (lef p 4 4) 32
    let tm := lef p 16 8
    ((rd e.payload 0).toNat = 1 → s.mayOrder = false →
      exec (.consistDistribute r) s = .next (s.refuseRole r.val e 7).finish) ∧
    ((rd e.payload 0).toNat = 1 → s.mayOrder = true → ∃ t : State,
      ((s.slotNum ∉ slots ∨ s.casc.distApply = true) → exec (.consistDistribute r) s = .next t.finish) ∧
      (s.slotNum ∈ slots → s.casc.distApply = false → exec (.consistDistribute r) s = .next t.distNext.finish ∧
        t.casc.distApply = true ∧ t.casc.distLocal = true ∧ t.casc.distIn = wrBytes [] 0 set ∧ t.casc.distBank = bank ∧
        t.casc.distStep = 0) ∧
      (s.slotNum ∈ slots → s.casc.distApply = true → ∃ j ∈ t.casc.distOut, j.slot = s.slotNum ∧ j.bank = bank ∧ j.set = set) ∧
      ∀ k ∈ slots, k ≠ s.slotNum → ∃ j ∈ t.casc.distOut, j.slot = k ∧ j.bank = bank ∧ j.set = set ∧ j.resends = 0) ∧
    ((rd e.payload 0).toNat = 2 → s.mayOrder = false → exec (.consistSwap r) s = .next (s.refuseRole r.val e 7).finish) ∧
    ((rd e.payload 0).toNat = 2 → s.mayOrder = true →
      ((tm < s.ns + 20000000 ∨ tm = 2 ^ 64 - 1 ∨ s.ns + 2 ^ 39 < tm) →
        exec (.consistSwap r) s = .next (s.finishCmd r.val e.idx 8 false).finish) ∧
      (tm ≠ 2 ^ 64 - 1 → s.ns + 20000000 ≤ tm → tm ≤ s.ns + 2 ^ 39 →
        ∃ t : State, exec (.consistSwap r) s = .next t.finish ∧
          (∀ b, s.swapCheck bank (some tm) = (0, b) →
            t.sched.swap = some { bank := bank, boundary := b, issuer := none }) ∧
          ((s.swapCheck bank (some tm)).1 ≠ 0 → t.sched = s.sched)))) ∧
  (∀ (s u : State) (dt : Nat) (l : Fin 8) (f : BiarnFrame), u = s.pass dt →
    let h := biarnHdr f.octets
    let got := fun k => u.biarnUp = true ∧ isBiarn f.octets = true ∧ h.type = k ∧ u.biarnFail f h = none
    let mine := h.consist = u.consistId
    let n := bef h.payload 2 2
    let last := bef h.payload 4 2
    let bank := byteAt h.payload 1
    let data := h.payload.drop 8
    let same := u.casc.distAt.isSome ∧ u.casc.distBank = bank ∧ u.casc.distLast = last ∧ ¬ (n = 0 ∧ 0 ∈ u.casc.distGot)
    let had := fun k => same ∧ k ∈ u.casc.distGot
    (got 6 → (¬ mine ∨ h.manages = false ∨ u.casc.mgrLost = true ∨ byteAt h.payload 0 ≠ u.slotNum) →
      ∃ t : State, exec (.distData dt l f) s = .next t.finish ∧ t.casc.distIn = u.casc.distIn ∧
        t.casc.distGot = u.casc.distGot ∧ t.casc.txCount = u.casc.txCount) ∧
    (got 6 → mine → h.manages = true → u.casc.mgrLost = false → byteAt h.payload 0 = u.slotNum →
      (u.casc.distApply = true → ∃ t : State, exec (.distData dt l f) s = .next t.finish ∧
        t.casc.distIn = u.casc.distIn ∧ t.casc.distApply = true ∧
        t.casc.txCount = u.casc.txCount + (if n = last then 1 else 0)) ∧
      (u.casc.distApply = false → n ≠ last → ∃ t : State, exec (.distData dt l f) s = .next t.finish ∧
        n ∈ t.casc.distGot ∧ (∀ k, k ≠ n → (k ∈ t.casc.distGot ↔ had k)) ∧
        t.casc.distAt = some (u.now + msC 50) ∧ t.casc.distBank = bank ∧ t.casc.distLast = last ∧
        rdBytes t.casc.distIn (chunkSize * n) data.length = data ∧ t.casc.txCount = u.casc.txCount) ∧
      (u.casc.distApply = false → n = last → (∀ k < last, had k) →
        ∃ t : State, exec (.distData dt l f) s = .next t.distStart.finish ∧ t.casc.distBank = bank ∧
          rdBytes t.casc.distIn (chunkSize * n) data.length = data) ∧
      (u.casc.distApply = false → n = last → (∃ k < last, ¬ had k) →
        (¬ had n → ∃ t : State, exec (.distData dt l f) s = .next t.finish ∧ t.casc.distAsked = 1 ∧
          n ∈ t.casc.distGot ∧ t.casc.distAt = some (u.now + msC 50) ∧ t.casc.txCount = u.casc.txCount + 1) ∧
        (had n → u.casc.distAsked < 4 → ∃ t : State, exec (.distData dt l f) s = .next t.finish ∧
          t.casc.distAsked = u.casc.distAsked + 1 ∧ t.casc.txCount = u.casc.txCount + 1) ∧
        (had n → 4 ≤ u.casc.distAsked → ∃ t : State, exec (.distData dt l f) s = .next t.finish ∧
          t.casc.distAt = none ∧ t.casc.distGot = [] ∧ t.casc.distIn = []))) ∧
    (got 7 → ∃ t : State, exec (.distResult dt l f) s = .next t.finish ∧
      ((u.casc.role.manages = false ∨ ¬ mine ∨ u.casc.distOut.find? (·.slot = h.slot) = none) →
        t.casc.distOut = u.casc.distOut) ∧
      (∀ j, u.casc.role.manages = true → mine → u.casc.distOut.find? (·.slot = h.slot) = some j →
        let rest := u.casc.distOut.filter (·.slot ≠ h.slot)
        let m := bef h.payload 4 2
        let j := if j.missing < m then { j with missing := m, resends := 0 } else j
        (byteAt h.payload 0 = 0 ∨ 3 ≤ j.resends → t.casc.distOut = rest) ∧
        (byteAt h.payload 0 ≠ 0 → j.resends < 3 → t.casc.distOut = rest ++ [{ j with resends := j.resends + 1 }]))) ∧
    (got 8 →
      let tm := bef h.payload 8 8
      let q := u.swapCheck bank (if tm = 2 ^ 64 - 1 then none else some tm)
      let own := mine ∧ h.manages = true
      let relay := byteAt h.payload 0 = 1 ∧ u.casc.role = .deputy ∧ h.sender = u.casc.tmId.toNat
      ∃ t : State, exec (.swap dt l f) s = .next t.finish ∧
        ((own ∧ u.casc.mgrLost = false) ∨ (¬ own ∧ relay) →
          (q.1 = 0 → t.sched.swap = some { bank := bank, boundary := q.2, issuer := none }) ∧
          (q.1 ≠ 0 → t.sched = u.sched) ∧
          t.casc.txCount = u.casc.txCount + (if own then 1 else 2)) ∧
        ((own ∧ u.casc.mgrLost = true) ∨ (¬ own ∧ ¬ relay) → t.sched = u.sched ∧ t.casc.txCount = u.casc.txCount)) ∧
    (got 9 → ∃ t : State, exec (.swapResult dt l f) s = .next t.finish ∧ t.sched = u.sched ∧
      tget (fun _ => 0) t.casc.cnt 0 = min (tget (fun _ => 0) u.casc.cnt 0 + 1) 0xFFFFFFFF ∧ t.casc.role = u.casc.role)) ∧
  (∀ (s u : State) (dt : Nat), u = s.pass dt →
    (u.casc.distApply = true → exec (.distResendTimeout dt) s = .next u.distNext.finish) ∧
    (u.casc.distApply = false → (u.biarnUp && u.expired u.casc.distAt) = false →
      exec (.distResendTimeout dt) s = .next u.finish) ∧
    (u.casc.distApply = false → (u.biarnUp && u.expired u.casc.distAt) = true →
      (u.casc.distAsked < 4 → ∃ t : State, exec (.distResendTimeout dt) s = .next t.finish ∧
        t.casc.distAsked = u.casc.distAsked + 1 ∧ t.casc.distAt = some (u.now + msC 50) ∧
        t.casc.txCount = u.casc.txCount + 1) ∧
      (4 ≤ u.casc.distAsked → ∃ t : State, exec (.distResendTimeout dt) s = .next t.finish ∧ t.casc.distGot = [] ∧
        t.casc.distAt = none ∧ t.casc.distIn = [] ∧ t.casc.txCount = u.casc.txCount))) ∧
  (∀ s : State,
    let next := s.casc.distOut.find? (·.slot = s.slotNum)
    let ended := fun (t : State) =>
      (next = none → t.casc.distApply = false ∧ t.casc.distIn = [] ∧ t.casc.distStep = 0) ∧
      (∀ j, next = some j → t.casc.distApply = true ∧ t.casc.distIn = wrBytes [] 0 j.set ∧ t.casc.distBank = j.bank ∧
        t.casc.distStep = 0)
    let busy := s.fab.routes.any (·.remote) || [0, 1, 2, 3].any fun b => (s.bank b).remote && (s.bank b).state = .loading
    let set := s.casc.distIn
    let b := s.casc.distBank
    let t := s.distNext
    ((s.casc.distApply = false ∨ busy = true) → t = s) ∧
    (s.casc.distApply = true → busy = false → s.distMaps ≤ s.casc.distStep →
      ((s.bank b).state = .loading → t = s) ∧
      ((s.bank b).state = .running ∨ (s.bank b).state = .pending → ended t ∧ t.sram = s.sram ∧ t.sched = s.sched) ∧
      ((s.bank b).state ≠ .loading → (s.bank b).state ≠ .running → (s.bank b).state ≠ .pending →
        (t.bank b).state = .loading ∧ (t.bank b).remote = true ∧ t.casc.distApply = true ∧
        s.sramKept t (bankBase b) 131072 ∧
        ∀ k < 131072, rd t.sram (bankBase b + k) = rd set (64 + 296 * s.distMaps + k))) ∧
    (s.casc.distApply = true → busy = false → s.casc.distStep < s.distMaps →
      let o := 64 + 296 * s.casc.distStep
      let m := leNat (rdBytes set o 2)
      let bw := leNat (rdBytes set (o + 2) 2)
      let base := if bits bw 15 15 = 1 then none else some (bits bw 9 0)
      let bad := 1024 ≤ m ∨ bits bw 14 10 ≠ 0
      let wait := s.mapBusy m = true ∨ ∃ k, base = some k ∧ s.mapRouting k = true
      let loaded := s.putMap m 256 (rdBytes set (o + 8) 288)
      (bad → ended t ∧ t.sram = s.sram ∧ t.fab = s.fab) ∧
      (¬ bad → wait → t = s) ∧
      (¬ bad → ¬ wait → s.mapProtected m = true → ended t ∧ t.sram = s.sram ∧ t.fab = s.fab) ∧
      (¬ bad → ¬ wait → s.mapProtected m = false → t.sram = loaded.sram ∧
        (loaded.connsOk m = false → ended t ∧ t.dir m = {} ∧ t.fab.routes = s.fab.routes) ∧
        (loaded.connsOk m = true →
          ((∃ k, base = some k ∧ (k = m ∨ s.mapRouted k = false)) → ended t ∧ t.fab.routes = s.fab.routes) ∧
          ((∀ k, base = some k → k ≠ m ∧ s.mapRouted k = true) → t.casc.distApply = true ∧ ∃ j,
            t.fab.routes = s.fab.routes ++ [j] ∧ j.src = m ∧ j.dst = m ∧ j.base = base ∧ j.remote = true ∧
            j.gen = s.fab.failGen))))) ∧
  (∀ (s u : State) (dt : Nat), u = s.pass dt →
    let next := u.casc.distOut.find? (·.slot = u.slotNum)
    let ended := fun (t : State) =>
      (next = none → t.casc.distApply = false ∧ t.casc.distIn = [] ∧ t.casc.distStep = 0) ∧
      (∀ j, next = some j → t.casc.distApply = true ∧ t.casc.distIn = wrBytes [] 0 j.set ∧ t.casc.distBank = j.bank ∧
        t.casc.distStep = 0)
    (∀ (j : RouteJob) (js : List RouteJob), u.fab.routes = j :: js → j.gen ≠ u.fab.failGen →
      exec (.routeDone dt) s = .next (u.onFab fun x =>
        { x with routes := { j with gen := u.fab.failGen, since := u.now } :: js }).finish) ∧
    (∀ (j : RouteJob) (js : List RouteJob), u.fab.routes = j :: js → j.remote = true → j.gen = u.fab.failGen →
      let v := (u.onFab fun x => { x with routes := js }).commitRoute j
      (u.casc.distApply = false → ∃ t : State, exec (.routeDone dt) s = .next t.finish ∧ t.casc = u.casc ∧
        t.fab.routes = js) ∧
      (u.casc.distApply = true → v.1 ≠ 0 → ∃ t : State, exec (.routeDone dt) s = .next t.finish ∧ ended t ∧
        t.fab.routes = js) ∧
      (u.casc.distApply = true → v.1 = 0 → ∃ t : State, exec (.routeDone dt) s = .next t.distNext.finish ∧
        t.casc = { u.casc with distStep := u.casc.distStep + 1 } ∧ t.fab = v.2.2.fab)) ∧
    (∀ b : Fin 4, (u.bank b.val).state = .loading → (u.bank b.val).remote = true →
      ∃ t : State, exec (.bankLoadChecked dt b) s = .next t.finish ∧
        (t.bank b.val).state = (if (u.checkBank b.val).status = 0 then .valid else .refused) ∧
        (u.casc.distApply = false → t.casc = u.casc) ∧ (u.casc.distApply = true → ended t)))
end

