-- ==== Sys2Proof/Laws/State.lean ====
section
/-! SUPPORT. One lemma per field per update of the state: a field that an update does not name is unchanged. -/

namespace Sys2Proof.Machine

/-! `onPwr` -/
@[simp] theorem State.onPwr_pending (s : State) (f : Pwr → Pwr) : (s.onPwr f).pending = s.pending := rfl
@[simp] theorem State.onPwr_regs (s : State) (f : Pwr → Pwr) : (s.onPwr f).regs = s.regs := rfl
@[simp] theorem State.onPwr_marks (s : State) (f : Pwr → Pwr) : (s.onPwr f).marks = s.marks := rfl
@[simp] theorem State.onPwr_latch (s : State) (f : Pwr → Pwr) : (s.onPwr f).latch = s.latch := rfl
@[simp] theorem State.onPwr_lowHeld (s : State) (f : Pwr → Pwr) : (s.onPwr f).lowHeld = s.lowHeld := rfl
@[simp] theorem State.onPwr_sram (s : State) (f : Pwr → Pwr) : (s.onPwr f).sram = s.sram := rfl
@[simp] theorem State.onPwr_openRam (s : State) (f : Pwr → Pwr) : (s.onPwr f).openRam = s.openRam := rfl
@[simp] theorem State.onPwr_pwr (s : State) (f : Pwr → Pwr) : (s.onPwr f).pwr = f s.pwr := rfl
@[simp] theorem State.onPwr_sup (s : State) (f : Pwr → Pwr) : (s.onPwr f).sup = s.sup := rfl
@[simp] theorem State.onPwr_sec (s : State) (f : Pwr → Pwr) : (s.onPwr f).sec = s.sec := rfl
@[simp] theorem State.onPwr_flt (s : State) (f : Pwr → Pwr) : (s.onPwr f).flt = s.flt := rfl
@[simp] theorem State.onPwr_irq (s : State) (f : Pwr → Pwr) : (s.onPwr f).irq = s.irq := rfl
@[simp] theorem State.onPwr_bus (s : State) (f : Pwr → Pwr) : (s.onPwr f).bus = s.bus := rfl
@[simp] theorem State.onPwr_dma (s : State) (f : Pwr → Pwr) : (s.onPwr f).dma = s.dma := rfl
@[simp] theorem State.onPwr_time (s : State) (f : Pwr → Pwr) : (s.onPwr f).time = s.time := rfl
@[simp] theorem State.onPwr_sched (s : State) (f : Pwr → Pwr) : (s.onPwr f).sched = s.sched := rfl
@[simp] theorem State.onPwr_fab (s : State) (f : Pwr → Pwr) : (s.onPwr f).fab = s.fab := rfl
@[simp] theorem State.onPwr_loop (s : State) (f : Pwr → Pwr) : (s.onPwr f).loop = s.loop := rfl
@[simp] theorem State.onPwr_ept (s : State) (f : Pwr → Pwr) : (s.onPwr f).ept = s.ept := rfl
@[simp] theorem State.onPwr_rings (s : State) (f : Pwr → Pwr) : (s.onPwr f).rings = s.rings := rfl
@[simp] theorem State.onPwr_arbPos (s : State) (f : Pwr → Pwr) : (s.onPwr f).arbPos = s.arbPos := rfl
@[simp] theorem State.onPwr_accepts (s : State) (f : Pwr → Pwr) : (s.onPwr f).accepts = s.accepts := rfl
@[simp] theorem State.onPwr_msixTab (s : State) (f : Pwr → Pwr) : (s.onPwr f).msixTab = s.msixTab := rfl
@[simp] theorem State.onPwr_msixPba (s : State) (f : Pwr → Pwr) : (s.onPwr f).msixPba = s.msixPba := rfl
@[simp] theorem State.onPwr_casc (s : State) (f : Pwr → Pwr) : (s.onPwr f).casc = s.casc := rfl
@[simp] theorem State.onPwr_tst (s : State) (f : Pwr → Pwr) : (s.onPwr f).tst = s.tst := rfl
@[simp] theorem State.onPwr_tap (s : State) (f : Pwr → Pwr) : (s.onPwr f).tap = s.tap := rfl
@[simp] theorem State.onPwr_flash (s : State) (f : Pwr → Pwr) : (s.onPwr f).flash = s.flash := rfl
@[simp] theorem State.onPwr_out (s : State) (f : Pwr → Pwr) : (s.onPwr f).out = s.out := rfl
@[simp] theorem State.onPwr_free (s : State) (f : Pwr → Pwr) : (s.onPwr f).free = s.free := rfl

/-! `onSup` -/
@[simp] theorem State.onSup_pending (s : State) (f : Sup → Sup) : (s.onSup f).pending = s.pending := rfl
@[simp] theorem State.onSup_regs (s : State) (f : Sup → Sup) : (s.onSup f).regs = s.regs := rfl
@[simp] theorem State.onSup_marks (s : State) (f : Sup → Sup) : (s.onSup f).marks = s.marks := rfl
@[simp] theorem State.onSup_latch (s : State) (f : Sup → Sup) : (s.onSup f).latch = s.latch := rfl
@[simp] theorem State.onSup_lowHeld (s : State) (f : Sup → Sup) : (s.onSup f).lowHeld = s.lowHeld := rfl
@[simp] theorem State.onSup_sram (s : State) (f : Sup → Sup) : (s.onSup f).sram = s.sram := rfl
@[simp] theorem State.onSup_openRam (s : State) (f : Sup → Sup) : (s.onSup f).openRam = s.openRam := rfl
@[simp] theorem State.onSup_pwr (s : State) (f : Sup → Sup) : (s.onSup f).pwr = s.pwr := rfl
@[simp] theorem State.onSup_sup (s : State) (f : Sup → Sup) : (s.onSup f).sup = f s.sup := rfl
@[simp] theorem State.onSup_sec (s : State) (f : Sup → Sup) : (s.onSup f).sec = s.sec := rfl
@[simp] theorem State.onSup_flt (s : State) (f : Sup → Sup) : (s.onSup f).flt = s.flt := rfl
@[simp] theorem State.onSup_irq (s : State) (f : Sup → Sup) : (s.onSup f).irq = s.irq := rfl
@[simp] theorem State.onSup_bus (s : State) (f : Sup → Sup) : (s.onSup f).bus = s.bus := rfl
@[simp] theorem State.onSup_dma (s : State) (f : Sup → Sup) : (s.onSup f).dma = s.dma := rfl
@[simp] theorem State.onSup_time (s : State) (f : Sup → Sup) : (s.onSup f).time = s.time := rfl
@[simp] theorem State.onSup_sched (s : State) (f : Sup → Sup) : (s.onSup f).sched = s.sched := rfl
@[simp] theorem State.onSup_fab (s : State) (f : Sup → Sup) : (s.onSup f).fab = s.fab := rfl
@[simp] theorem State.onSup_loop (s : State) (f : Sup → Sup) : (s.onSup f).loop = s.loop := rfl
@[simp] theorem State.onSup_ept (s : State) (f : Sup → Sup) : (s.onSup f).ept = s.ept := rfl
@[simp] theorem State.onSup_rings (s : State) (f : Sup → Sup) : (s.onSup f).rings = s.rings := rfl
@[simp] theorem State.onSup_arbPos (s : State) (f : Sup → Sup) : (s.onSup f).arbPos = s.arbPos := rfl
@[simp] theorem State.onSup_accepts (s : State) (f : Sup → Sup) : (s.onSup f).accepts = s.accepts := rfl
@[simp] theorem State.onSup_msixTab (s : State) (f : Sup → Sup) : (s.onSup f).msixTab = s.msixTab := rfl
@[simp] theorem State.onSup_msixPba (s : State) (f : Sup → Sup) : (s.onSup f).msixPba = s.msixPba := rfl
@[simp] theorem State.onSup_casc (s : State) (f : Sup → Sup) : (s.onSup f).casc = s.casc := rfl
@[simp] theorem State.onSup_tst (s : State) (f : Sup → Sup) : (s.onSup f).tst = s.tst := rfl
@[simp] theorem State.onSup_tap (s : State) (f : Sup → Sup) : (s.onSup f).tap = s.tap := rfl
@[simp] theorem State.onSup_flash (s : State) (f : Sup → Sup) : (s.onSup f).flash = s.flash := rfl
@[simp] theorem State.onSup_out (s : State) (f : Sup → Sup) : (s.onSup f).out = s.out := rfl
@[simp] theorem State.onSup_free (s : State) (f : Sup → Sup) : (s.onSup f).free = s.free := rfl

/-! `onSec` -/
@[simp] theorem State.onSec_pending (s : State) (f : Sec → Sec) : (s.onSec f).pending = s.pending := rfl
@[simp] theorem State.onSec_regs (s : State) (f : Sec → Sec) : (s.onSec f).regs = s.regs := rfl
@[simp] theorem State.onSec_marks (s : State) (f : Sec → Sec) : (s.onSec f).marks = s.marks := rfl
@[simp] theorem State.onSec_latch (s : State) (f : Sec → Sec) : (s.onSec f).latch = s.latch := rfl
@[simp] theorem State.onSec_lowHeld (s : State) (f : Sec → Sec) : (s.onSec f).lowHeld = s.lowHeld := rfl
@[simp] theorem State.onSec_sram (s : State) (f : Sec → Sec) : (s.onSec f).sram = s.sram := rfl
@[simp] theorem State.onSec_openRam (s : State) (f : Sec → Sec) : (s.onSec f).openRam = s.openRam := rfl
@[simp] theorem State.onSec_pwr (s : State) (f : Sec → Sec) : (s.onSec f).pwr = s.pwr := rfl
@[simp] theorem State.onSec_sup (s : State) (f : Sec → Sec) : (s.onSec f).sup = s.sup := rfl
@[simp] theorem State.onSec_sec (s : State) (f : Sec → Sec) : (s.onSec f).sec = f s.sec := rfl
@[simp] theorem State.onSec_flt (s : State) (f : Sec → Sec) : (s.onSec f).flt = s.flt := rfl
@[simp] theorem State.onSec_irq (s : State) (f : Sec → Sec) : (s.onSec f).irq = s.irq := rfl
@[simp] theorem State.onSec_bus (s : State) (f : Sec → Sec) : (s.onSec f).bus = s.bus := rfl
@[simp] theorem State.onSec_dma (s : State) (f : Sec → Sec) : (s.onSec f).dma = s.dma := rfl
@[simp] theorem State.onSec_time (s : State) (f : Sec → Sec) : (s.onSec f).time = s.time := rfl
@[simp] theorem State.onSec_sched (s : State) (f : Sec → Sec) : (s.onSec f).sched = s.sched := rfl
@[simp] theorem State.onSec_fab (s : State) (f : Sec → Sec) : (s.onSec f).fab = s.fab := rfl
@[simp] theorem State.onSec_loop (s : State) (f : Sec → Sec) : (s.onSec f).loop = s.loop := rfl
@[simp] theorem State.onSec_ept (s : State) (f : Sec → Sec) : (s.onSec f).ept = s.ept := rfl
@[simp] theorem State.onSec_rings (s : State) (f : Sec → Sec) : (s.onSec f).rings = s.rings := rfl
@[simp] theorem State.onSec_arbPos (s : State) (f : Sec → Sec) : (s.onSec f).arbPos = s.arbPos := rfl
@[simp] theorem State.onSec_accepts (s : State) (f : Sec → Sec) : (s.onSec f).accepts = s.accepts := rfl
@[simp] theorem State.onSec_msixTab (s : State) (f : Sec → Sec) : (s.onSec f).msixTab = s.msixTab := rfl
@[simp] theorem State.onSec_msixPba (s : State) (f : Sec → Sec) : (s.onSec f).msixPba = s.msixPba := rfl
@[simp] theorem State.onSec_casc (s : State) (f : Sec → Sec) : (s.onSec f).casc = s.casc := rfl
@[simp] theorem State.onSec_tst (s : State) (f : Sec → Sec) : (s.onSec f).tst = s.tst := rfl
@[simp] theorem State.onSec_tap (s : State) (f : Sec → Sec) : (s.onSec f).tap = s.tap := rfl
@[simp] theorem State.onSec_flash (s : State) (f : Sec → Sec) : (s.onSec f).flash = s.flash := rfl
@[simp] theorem State.onSec_out (s : State) (f : Sec → Sec) : (s.onSec f).out = s.out := rfl
@[simp] theorem State.onSec_free (s : State) (f : Sec → Sec) : (s.onSec f).free = s.free := rfl

/-! `onFlt` -/
@[simp] theorem State.onFlt_pending (s : State) (f : Flt → Flt) : (s.onFlt f).pending = s.pending := rfl
@[simp] theorem State.onFlt_regs (s : State) (f : Flt → Flt) : (s.onFlt f).regs = s.regs := rfl
@[simp] theorem State.onFlt_marks (s : State) (f : Flt → Flt) : (s.onFlt f).marks = s.marks := rfl
@[simp] theorem State.onFlt_latch (s : State) (f : Flt → Flt) : (s.onFlt f).latch = s.latch := rfl
@[simp] theorem State.onFlt_lowHeld (s : State) (f : Flt → Flt) : (s.onFlt f).lowHeld = s.lowHeld := rfl
@[simp] theorem State.onFlt_sram (s : State) (f : Flt → Flt) : (s.onFlt f).sram = s.sram := rfl
@[simp] theorem State.onFlt_openRam (s : State) (f : Flt → Flt) : (s.onFlt f).openRam = s.openRam := rfl
@[simp] theorem State.onFlt_pwr (s : State) (f : Flt → Flt) : (s.onFlt f).pwr = s.pwr := rfl
@[simp] theorem State.onFlt_sup (s : State) (f : Flt → Flt) : (s.onFlt f).sup = s.sup := rfl
@[simp] theorem State.onFlt_sec (s : State) (f : Flt → Flt) : (s.onFlt f).sec = s.sec := rfl
@[simp] theorem State.onFlt_flt (s : State) (f : Flt → Flt) : (s.onFlt f).flt = f s.flt := rfl
@[simp] theorem State.onFlt_irq (s : State) (f : Flt → Flt) : (s.onFlt f).irq = s.irq := rfl
@[simp] theorem State.onFlt_bus (s : State) (f : Flt → Flt) : (s.onFlt f).bus = s.bus := rfl
@[simp] theorem State.onFlt_dma (s : State) (f : Flt → Flt) : (s.onFlt f).dma = s.dma := rfl
@[simp] theorem State.onFlt_time (s : State) (f : Flt → Flt) : (s.onFlt f).time = s.time := rfl
@[simp] theorem State.onFlt_sched (s : State) (f : Flt → Flt) : (s.onFlt f).sched = s.sched := rfl
@[simp] theorem State.onFlt_fab (s : State) (f : Flt → Flt) : (s.onFlt f).fab = s.fab := rfl
@[simp] theorem State.onFlt_loop (s : State) (f : Flt → Flt) : (s.onFlt f).loop = s.loop := rfl
@[simp] theorem State.onFlt_ept (s : State) (f : Flt → Flt) : (s.onFlt f).ept = s.ept := rfl
@[simp] theorem State.onFlt_rings (s : State) (f : Flt → Flt) : (s.onFlt f).rings = s.rings := rfl
@[simp] theorem State.onFlt_arbPos (s : State) (f : Flt → Flt) : (s.onFlt f).arbPos = s.arbPos := rfl
@[simp] theorem State.onFlt_accepts (s : State) (f : Flt → Flt) : (s.onFlt f).accepts = s.accepts := rfl
@[simp] theorem State.onFlt_msixTab (s : State) (f : Flt → Flt) : (s.onFlt f).msixTab = s.msixTab := rfl
@[simp] theorem State.onFlt_msixPba (s : State) (f : Flt → Flt) : (s.onFlt f).msixPba = s.msixPba := rfl
@[simp] theorem State.onFlt_casc (s : State) (f : Flt → Flt) : (s.onFlt f).casc = s.casc := rfl
@[simp] theorem State.onFlt_tst (s : State) (f : Flt → Flt) : (s.onFlt f).tst = s.tst := rfl
@[simp] theorem State.onFlt_tap (s : State) (f : Flt → Flt) : (s.onFlt f).tap = s.tap := rfl
@[simp] theorem State.onFlt_flash (s : State) (f : Flt → Flt) : (s.onFlt f).flash = s.flash := rfl
@[simp] theorem State.onFlt_out (s : State) (f : Flt → Flt) : (s.onFlt f).out = s.out := rfl
@[simp] theorem State.onFlt_free (s : State) (f : Flt → Flt) : (s.onFlt f).free = s.free := rfl

/-! `onTime` -/
@[simp] theorem State.onTime_pending (s : State) (f : TimeUnit → TimeUnit) : (s.onTime f).pending = s.pending := rfl
@[simp] theorem State.onTime_regs (s : State) (f : TimeUnit → TimeUnit) : (s.onTime f).regs = s.regs := rfl
@[simp] theorem State.onTime_marks (s : State) (f : TimeUnit → TimeUnit) : (s.onTime f).marks = s.marks := rfl
@[simp] theorem State.onTime_latch (s : State) (f : TimeUnit → TimeUnit) : (s.onTime f).latch = s.latch := rfl
@[simp] theorem State.onTime_lowHeld (s : State) (f : TimeUnit → TimeUnit) : (s.onTime f).lowHeld = s.lowHeld := rfl
@[simp] theorem State.onTime_sram (s : State) (f : TimeUnit → TimeUnit) : (s.onTime f).sram = s.sram := rfl
@[simp] theorem State.onTime_openRam (s : State) (f : TimeUnit → TimeUnit) : (s.onTime f).openRam = s.openRam := rfl
@[simp] theorem State.onTime_pwr (s : State) (f : TimeUnit → TimeUnit) : (s.onTime f).pwr = s.pwr := rfl
@[simp] theorem State.onTime_sup (s : State) (f : TimeUnit → TimeUnit) : (s.onTime f).sup = s.sup := rfl
@[simp] theorem State.onTime_sec (s : State) (f : TimeUnit → TimeUnit) : (s.onTime f).sec = s.sec := rfl
@[simp] theorem State.onTime_flt (s : State) (f : TimeUnit → TimeUnit) : (s.onTime f).flt = s.flt := rfl
@[simp] theorem State.onTime_irq (s : State) (f : TimeUnit → TimeUnit) : (s.onTime f).irq = s.irq := rfl
@[simp] theorem State.onTime_bus (s : State) (f : TimeUnit → TimeUnit) : (s.onTime f).bus = s.bus := rfl
@[simp] theorem State.onTime_dma (s : State) (f : TimeUnit → TimeUnit) : (s.onTime f).dma = s.dma := rfl
@[simp] theorem State.onTime_time (s : State) (f : TimeUnit → TimeUnit) : (s.onTime f).time = f s.time := rfl
@[simp] theorem State.onTime_sched (s : State) (f : TimeUnit → TimeUnit) : (s.onTime f).sched = s.sched := rfl
@[simp] theorem State.onTime_fab (s : State) (f : TimeUnit → TimeUnit) : (s.onTime f).fab = s.fab := rfl
@[simp] theorem State.onTime_loop (s : State) (f : TimeUnit → TimeUnit) : (s.onTime f).loop = s.loop := rfl
@[simp] theorem State.onTime_ept (s : State) (f : TimeUnit → TimeUnit) : (s.onTime f).ept = s.ept := rfl
@[simp] theorem State.onTime_rings (s : State) (f : TimeUnit → TimeUnit) : (s.onTime f).rings = s.rings := rfl
@[simp] theorem State.onTime_arbPos (s : State) (f : TimeUnit → TimeUnit) : (s.onTime f).arbPos = s.arbPos := rfl
@[simp] theorem State.onTime_accepts (s : State) (f : TimeUnit → TimeUnit) : (s.onTime f).accepts = s.accepts := rfl
@[simp] theorem State.onTime_msixTab (s : State) (f : TimeUnit → TimeUnit) : (s.onTime f).msixTab = s.msixTab := rfl
@[simp] theorem State.onTime_msixPba (s : State) (f : TimeUnit → TimeUnit) : (s.onTime f).msixPba = s.msixPba := rfl
@[simp] theorem State.onTime_casc (s : State) (f : TimeUnit → TimeUnit) : (s.onTime f).casc = s.casc := rfl
@[simp] theorem State.onTime_tst (s : State) (f : TimeUnit → TimeUnit) : (s.onTime f).tst = s.tst := rfl
@[simp] theorem State.onTime_tap (s : State) (f : TimeUnit → TimeUnit) : (s.onTime f).tap = s.tap := rfl
@[simp] theorem State.onTime_flash (s : State) (f : TimeUnit → TimeUnit) : (s.onTime f).flash = s.flash := rfl
@[simp] theorem State.onTime_out (s : State) (f : TimeUnit → TimeUnit) : (s.onTime f).out = s.out := rfl
@[simp] theorem State.onTime_free (s : State) (f : TimeUnit → TimeUnit) : (s.onTime f).free = s.free := rfl

/-! `onSched` -/
@[simp] theorem State.onSched_pending (s : State) (f : Sched → Sched) : (s.onSched f).pending = s.pending := rfl
@[simp] theorem State.onSched_regs (s : State) (f : Sched → Sched) : (s.onSched f).regs = s.regs := rfl
@[simp] theorem State.onSched_marks (s : State) (f : Sched → Sched) : (s.onSched f).marks = s.marks := rfl
@[simp] theorem State.onSched_latch (s : State) (f : Sched → Sched) : (s.onSched f).latch = s.latch := rfl
@[simp] theorem State.onSched_lowHeld (s : State) (f : Sched → Sched) : (s.onSched f).lowHeld = s.lowHeld := rfl
@[simp] theorem State.onSched_sram (s : State) (f : Sched → Sched) : (s.onSched f).sram = s.sram := rfl
@[simp] theorem State.onSched_openRam (s : State) (f : Sched → Sched) : (s.onSched f).openRam = s.openRam := rfl
@[simp] theorem State.onSched_pwr (s : State) (f : Sched → Sched) : (s.onSched f).pwr = s.pwr := rfl
@[simp] theorem State.onSched_sup (s : State) (f : Sched → Sched) : (s.onSched f).sup = s.sup := rfl
@[simp] theorem State.onSched_sec (s : State) (f : Sched → Sched) : (s.onSched f).sec = s.sec := rfl
@[simp] theorem State.onSched_flt (s : State) (f : Sched → Sched) : (s.onSched f).flt = s.flt := rfl
@[simp] theorem State.onSched_irq (s : State) (f : Sched → Sched) : (s.onSched f).irq = s.irq := rfl
@[simp] theorem State.onSched_bus (s : State) (f : Sched → Sched) : (s.onSched f).bus = s.bus := rfl
@[simp] theorem State.onSched_dma (s : State) (f : Sched → Sched) : (s.onSched f).dma = s.dma := rfl
@[simp] theorem State.onSched_time (s : State) (f : Sched → Sched) : (s.onSched f).time = s.time := rfl
@[simp] theorem State.onSched_sched (s : State) (f : Sched → Sched) : (s.onSched f).sched = f s.sched := rfl
@[simp] theorem State.onSched_fab (s : State) (f : Sched → Sched) : (s.onSched f).fab = s.fab := rfl
@[simp] theorem State.onSched_loop (s : State) (f : Sched → Sched) : (s.onSched f).loop = s.loop := rfl
@[simp] theorem State.onSched_ept (s : State) (f : Sched → Sched) : (s.onSched f).ept = s.ept := rfl
@[simp] theorem State.onSched_rings (s : State) (f : Sched → Sched) : (s.onSched f).rings = s.rings := rfl
@[simp] theorem State.onSched_arbPos (s : State) (f : Sched → Sched) : (s.onSched f).arbPos = s.arbPos := rfl
@[simp] theorem State.onSched_accepts (s : State) (f : Sched → Sched) : (s.onSched f).accepts = s.accepts := rfl
@[simp] theorem State.onSched_msixTab (s : State) (f : Sched → Sched) : (s.onSched f).msixTab = s.msixTab := rfl
@[simp] theorem State.onSched_msixPba (s : State) (f : Sched → Sched) : (s.onSched f).msixPba = s.msixPba := rfl
@[simp] theorem State.onSched_casc (s : State) (f : Sched → Sched) : (s.onSched f).casc = s.casc := rfl
@[simp] theorem State.onSched_tst (s : State) (f : Sched → Sched) : (s.onSched f).tst = s.tst := rfl
@[simp] theorem State.onSched_tap (s : State) (f : Sched → Sched) : (s.onSched f).tap = s.tap := rfl
@[simp] theorem State.onSched_flash (s : State) (f : Sched → Sched) : (s.onSched f).flash = s.flash := rfl
@[simp] theorem State.onSched_out (s : State) (f : Sched → Sched) : (s.onSched f).out = s.out := rfl
@[simp] theorem State.onSched_free (s : State) (f : Sched → Sched) : (s.onSched f).free = s.free := rfl

/-! `onFab` -/
@[simp] theorem State.onFab_pending (s : State) (f : Fabric → Fabric) : (s.onFab f).pending = s.pending := rfl
@[simp] theorem State.onFab_regs (s : State) (f : Fabric → Fabric) : (s.onFab f).regs = s.regs := rfl
@[simp] theorem State.onFab_marks (s : State) (f : Fabric → Fabric) : (s.onFab f).marks = s.marks := rfl
@[simp] theorem State.onFab_latch (s : State) (f : Fabric → Fabric) : (s.onFab f).latch = s.latch := rfl
@[simp] theorem State.onFab_lowHeld (s : State) (f : Fabric → Fabric) : (s.onFab f).lowHeld = s.lowHeld := rfl
@[simp] theorem State.onFab_sram (s : State) (f : Fabric → Fabric) : (s.onFab f).sram = s.sram := rfl
@[simp] theorem State.onFab_openRam (s : State) (f : Fabric → Fabric) : (s.onFab f).openRam = s.openRam := rfl
@[simp] theorem State.onFab_pwr (s : State) (f : Fabric → Fabric) : (s.onFab f).pwr = s.pwr := rfl
@[simp] theorem State.onFab_sup (s : State) (f : Fabric → Fabric) : (s.onFab f).sup = s.sup := rfl
@[simp] theorem State.onFab_sec (s : State) (f : Fabric → Fabric) : (s.onFab f).sec = s.sec := rfl
@[simp] theorem State.onFab_flt (s : State) (f : Fabric → Fabric) : (s.onFab f).flt = s.flt := rfl
@[simp] theorem State.onFab_irq (s : State) (f : Fabric → Fabric) : (s.onFab f).irq = s.irq := rfl
@[simp] theorem State.onFab_bus (s : State) (f : Fabric → Fabric) : (s.onFab f).bus = s.bus := rfl
@[simp] theorem State.onFab_dma (s : State) (f : Fabric → Fabric) : (s.onFab f).dma = s.dma := rfl
@[simp] theorem State.onFab_time (s : State) (f : Fabric → Fabric) : (s.onFab f).time = s.time := rfl
@[simp] theorem State.onFab_sched (s : State) (f : Fabric → Fabric) : (s.onFab f).sched = s.sched := rfl
@[simp] theorem State.onFab_fab (s : State) (f : Fabric → Fabric) : (s.onFab f).fab = f s.fab := rfl
@[simp] theorem State.onFab_loop (s : State) (f : Fabric → Fabric) : (s.onFab f).loop = s.loop := rfl
@[simp] theorem State.onFab_ept (s : State) (f : Fabric → Fabric) : (s.onFab f).ept = s.ept := rfl
@[simp] theorem State.onFab_rings (s : State) (f : Fabric → Fabric) : (s.onFab f).rings = s.rings := rfl
@[simp] theorem State.onFab_arbPos (s : State) (f : Fabric → Fabric) : (s.onFab f).arbPos = s.arbPos := rfl
@[simp] theorem State.onFab_accepts (s : State) (f : Fabric → Fabric) : (s.onFab f).accepts = s.accepts := rfl
@[simp] theorem State.onFab_msixTab (s : State) (f : Fabric → Fabric) : (s.onFab f).msixTab = s.msixTab := rfl
@[simp] theorem State.onFab_msixPba (s : State) (f : Fabric → Fabric) : (s.onFab f).msixPba = s.msixPba := rfl
@[simp] theorem State.onFab_casc (s : State) (f : Fabric → Fabric) : (s.onFab f).casc = s.casc := rfl
@[simp] theorem State.onFab_tst (s : State) (f : Fabric → Fabric) : (s.onFab f).tst = s.tst := rfl
@[simp] theorem State.onFab_tap (s : State) (f : Fabric → Fabric) : (s.onFab f).tap = s.tap := rfl
@[simp] theorem State.onFab_flash (s : State) (f : Fabric → Fabric) : (s.onFab f).flash = s.flash := rfl
@[simp] theorem State.onFab_out (s : State) (f : Fabric → Fabric) : (s.onFab f).out = s.out := rfl
@[simp] theorem State.onFab_free (s : State) (f : Fabric → Fabric) : (s.onFab f).free = s.free := rfl

/-! `onLoop` -/
@[simp] theorem State.onLoop_pending (s : State) (f : Loops → Loops) : (s.onLoop f).pending = s.pending := rfl
@[simp] theorem State.onLoop_regs (s : State) (f : Loops → Loops) : (s.onLoop f).regs = s.regs := rfl
@[simp] theorem State.onLoop_marks (s : State) (f : Loops → Loops) : (s.onLoop f).marks = s.marks := rfl
@[simp] theorem State.onLoop_latch (s : State) (f : Loops → Loops) : (s.onLoop f).latch = s.latch := rfl
@[simp] theorem State.onLoop_lowHeld (s : State) (f : Loops → Loops) : (s.onLoop f).lowHeld = s.lowHeld := rfl
@[simp] theorem State.onLoop_sram (s : State) (f : Loops → Loops) : (s.onLoop f).sram = s.sram := rfl
@[simp] theorem State.onLoop_openRam (s : State) (f : Loops → Loops) : (s.onLoop f).openRam = s.openRam := rfl
@[simp] theorem State.onLoop_pwr (s : State) (f : Loops → Loops) : (s.onLoop f).pwr = s.pwr := rfl
@[simp] theorem State.onLoop_sup (s : State) (f : Loops → Loops) : (s.onLoop f).sup = s.sup := rfl
@[simp] theorem State.onLoop_sec (s : State) (f : Loops → Loops) : (s.onLoop f).sec = s.sec := rfl
@[simp] theorem State.onLoop_flt (s : State) (f : Loops → Loops) : (s.onLoop f).flt = s.flt := rfl
@[simp] theorem State.onLoop_irq (s : State) (f : Loops → Loops) : (s.onLoop f).irq = s.irq := rfl
@[simp] theorem State.onLoop_bus (s : State) (f : Loops → Loops) : (s.onLoop f).bus = s.bus := rfl
@[simp] theorem State.onLoop_dma (s : State) (f : Loops → Loops) : (s.onLoop f).dma = s.dma := rfl
@[simp] theorem State.onLoop_time (s : State) (f : Loops → Loops) : (s.onLoop f).time = s.time := rfl
@[simp] theorem State.onLoop_sched (s : State) (f : Loops → Loops) : (s.onLoop f).sched = s.sched := rfl
@[simp] theorem State.onLoop_fab (s : State) (f : Loops → Loops) : (s.onLoop f).fab = s.fab := rfl
@[simp] theorem State.onLoop_loop (s : State) (f : Loops → Loops) : (s.onLoop f).loop = f s.loop := rfl
@[simp] theorem State.onLoop_ept (s : State) (f : Loops → Loops) : (s.onLoop f).ept = s.ept := rfl
@[simp] theorem State.onLoop_rings (s : State) (f : Loops → Loops) : (s.onLoop f).rings = s.rings := rfl
@[simp] theorem State.onLoop_arbPos (s : State) (f : Loops → Loops) : (s.onLoop f).arbPos = s.arbPos := rfl
@[simp] theorem State.onLoop_accepts (s : State) (f : Loops → Loops) : (s.onLoop f).accepts = s.accepts := rfl
@[simp] theorem State.onLoop_msixTab (s : State) (f : Loops → Loops) : (s.onLoop f).msixTab = s.msixTab := rfl
@[simp] theorem State.onLoop_msixPba (s : State) (f : Loops → Loops) : (s.onLoop f).msixPba = s.msixPba := rfl
@[simp] theorem State.onLoop_casc (s : State) (f : Loops → Loops) : (s.onLoop f).casc = s.casc := rfl
@[simp] theorem State.onLoop_tst (s : State) (f : Loops → Loops) : (s.onLoop f).tst = s.tst := rfl
@[simp] theorem State.onLoop_tap (s : State) (f : Loops → Loops) : (s.onLoop f).tap = s.tap := rfl
@[simp] theorem State.onLoop_flash (s : State) (f : Loops → Loops) : (s.onLoop f).flash = s.flash := rfl
@[simp] theorem State.onLoop_out (s : State) (f : Loops → Loops) : (s.onLoop f).out = s.out := rfl
@[simp] theorem State.onLoop_free (s : State) (f : Loops → Loops) : (s.onLoop f).free = s.free := rfl

/-! `onEpt` -/
@[simp] theorem State.onEpt_pending (s : State) (f : Endpoint → Endpoint) : (s.onEpt f).pending = s.pending := rfl
@[simp] theorem State.onEpt_regs (s : State) (f : Endpoint → Endpoint) : (s.onEpt f).regs = s.regs := rfl
@[simp] theorem State.onEpt_marks (s : State) (f : Endpoint → Endpoint) : (s.onEpt f).marks = s.marks := rfl
@[simp] theorem State.onEpt_latch (s : State) (f : Endpoint → Endpoint) : (s.onEpt f).latch = s.latch := rfl
@[simp] theorem State.onEpt_lowHeld (s : State) (f : Endpoint → Endpoint) : (s.onEpt f).lowHeld = s.lowHeld := rfl
@[simp] theorem State.onEpt_sram (s : State) (f : Endpoint → Endpoint) : (s.onEpt f).sram = s.sram := rfl
@[simp] theorem State.onEpt_openRam (s : State) (f : Endpoint → Endpoint) : (s.onEpt f).openRam = s.openRam := rfl
@[simp] theorem State.onEpt_pwr (s : State) (f : Endpoint → Endpoint) : (s.onEpt f).pwr = s.pwr := rfl
@[simp] theorem State.onEpt_sup (s : State) (f : Endpoint → Endpoint) : (s.onEpt f).sup = s.sup := rfl
@[simp] theorem State.onEpt_sec (s : State) (f : Endpoint → Endpoint) : (s.onEpt f).sec = s.sec := rfl
@[simp] theorem State.onEpt_flt (s : State) (f : Endpoint → Endpoint) : (s.onEpt f).flt = s.flt := rfl
@[simp] theorem State.onEpt_irq (s : State) (f : Endpoint → Endpoint) : (s.onEpt f).irq = s.irq := rfl
@[simp] theorem State.onEpt_bus (s : State) (f : Endpoint → Endpoint) : (s.onEpt f).bus = s.bus := rfl
@[simp] theorem State.onEpt_dma (s : State) (f : Endpoint → Endpoint) : (s.onEpt f).dma = s.dma := rfl
@[simp] theorem State.onEpt_time (s : State) (f : Endpoint → Endpoint) : (s.onEpt f).time = s.time := rfl
@[simp] theorem State.onEpt_sched (s : State) (f : Endpoint → Endpoint) : (s.onEpt f).sched = s.sched := rfl
@[simp] theorem State.onEpt_fab (s : State) (f : Endpoint → Endpoint) : (s.onEpt f).fab = s.fab := rfl
@[simp] theorem State.onEpt_loop (s : State) (f : Endpoint → Endpoint) : (s.onEpt f).loop = s.loop := rfl
@[simp] theorem State.onEpt_ept (s : State) (f : Endpoint → Endpoint) : (s.onEpt f).ept = f s.ept := rfl
@[simp] theorem State.onEpt_rings (s : State) (f : Endpoint → Endpoint) : (s.onEpt f).rings = s.rings := rfl
@[simp] theorem State.onEpt_arbPos (s : State) (f : Endpoint → Endpoint) : (s.onEpt f).arbPos = s.arbPos := rfl
@[simp] theorem State.onEpt_accepts (s : State) (f : Endpoint → Endpoint) : (s.onEpt f).accepts = s.accepts := rfl
@[simp] theorem State.onEpt_msixTab (s : State) (f : Endpoint → Endpoint) : (s.onEpt f).msixTab = s.msixTab := rfl
@[simp] theorem State.onEpt_msixPba (s : State) (f : Endpoint → Endpoint) : (s.onEpt f).msixPba = s.msixPba := rfl
@[simp] theorem State.onEpt_casc (s : State) (f : Endpoint → Endpoint) : (s.onEpt f).casc = s.casc := rfl
@[simp] theorem State.onEpt_tst (s : State) (f : Endpoint → Endpoint) : (s.onEpt f).tst = s.tst := rfl
@[simp] theorem State.onEpt_tap (s : State) (f : Endpoint → Endpoint) : (s.onEpt f).tap = s.tap := rfl
@[simp] theorem State.onEpt_flash (s : State) (f : Endpoint → Endpoint) : (s.onEpt f).flash = s.flash := rfl
@[simp] theorem State.onEpt_out (s : State) (f : Endpoint → Endpoint) : (s.onEpt f).out = s.out := rfl
@[simp] theorem State.onEpt_free (s : State) (f : Endpoint → Endpoint) : (s.onEpt f).free = s.free := rfl

/-! `onCasc` -/
@[simp] theorem State.onCasc_pending (s : State) (f : Casc → Casc) : (s.onCasc f).pending = s.pending := rfl
@[simp] theorem State.onCasc_regs (s : State) (f : Casc → Casc) : (s.onCasc f).regs = s.regs := rfl
@[simp] theorem State.onCasc_marks (s : State) (f : Casc → Casc) : (s.onCasc f).marks = s.marks := rfl
@[simp] theorem State.onCasc_latch (s : State) (f : Casc → Casc) : (s.onCasc f).latch = s.latch := rfl
@[simp] theorem State.onCasc_lowHeld (s : State) (f : Casc → Casc) : (s.onCasc f).lowHeld = s.lowHeld := rfl
@[simp] theorem State.onCasc_sram (s : State) (f : Casc → Casc) : (s.onCasc f).sram = s.sram := rfl
@[simp] theorem State.onCasc_openRam (s : State) (f : Casc → Casc) : (s.onCasc f).openRam = s.openRam := rfl
@[simp] theorem State.onCasc_pwr (s : State) (f : Casc → Casc) : (s.onCasc f).pwr = s.pwr := rfl
@[simp] theorem State.onCasc_sup (s : State) (f : Casc → Casc) : (s.onCasc f).sup = s.sup := rfl
@[simp] theorem State.onCasc_sec (s : State) (f : Casc → Casc) : (s.onCasc f).sec = s.sec := rfl
@[simp] theorem State.onCasc_flt (s : State) (f : Casc → Casc) : (s.onCasc f).flt = s.flt := rfl
@[simp] theorem State.onCasc_irq (s : State) (f : Casc → Casc) : (s.onCasc f).irq = s.irq := rfl
@[simp] theorem State.onCasc_bus (s : State) (f : Casc → Casc) : (s.onCasc f).bus = s.bus := rfl
@[simp] theorem State.onCasc_dma (s : State) (f : Casc → Casc) : (s.onCasc f).dma = s.dma := rfl
@[simp] theorem State.onCasc_time (s : State) (f : Casc → Casc) : (s.onCasc f).time = s.time := rfl
@[simp] theorem State.onCasc_sched (s : State) (f : Casc → Casc) : (s.onCasc f).sched = s.sched := rfl
@[simp] theorem State.onCasc_fab (s : State) (f : Casc → Casc) : (s.onCasc f).fab = s.fab := rfl
@[simp] theorem State.onCasc_loop (s : State) (f : Casc → Casc) : (s.onCasc f).loop = s.loop := rfl
@[simp] theorem State.onCasc_ept (s : State) (f : Casc → Casc) : (s.onCasc f).ept = s.ept := rfl
@[simp] theorem State.onCasc_rings (s : State) (f : Casc → Casc) : (s.onCasc f).rings = s.rings := rfl
@[simp] theorem State.onCasc_arbPos (s : State) (f : Casc → Casc) : (s.onCasc f).arbPos = s.arbPos := rfl
@[simp] theorem State.onCasc_accepts (s : State) (f : Casc → Casc) : (s.onCasc f).accepts = s.accepts := rfl
@[simp] theorem State.onCasc_msixTab (s : State) (f : Casc → Casc) : (s.onCasc f).msixTab = s.msixTab := rfl
@[simp] theorem State.onCasc_msixPba (s : State) (f : Casc → Casc) : (s.onCasc f).msixPba = s.msixPba := rfl
@[simp] theorem State.onCasc_casc (s : State) (f : Casc → Casc) : (s.onCasc f).casc = f s.casc := rfl
@[simp] theorem State.onCasc_tst (s : State) (f : Casc → Casc) : (s.onCasc f).tst = s.tst := rfl
@[simp] theorem State.onCasc_tap (s : State) (f : Casc → Casc) : (s.onCasc f).tap = s.tap := rfl
@[simp] theorem State.onCasc_flash (s : State) (f : Casc → Casc) : (s.onCasc f).flash = s.flash := rfl
@[simp] theorem State.onCasc_out (s : State) (f : Casc → Casc) : (s.onCasc f).out = s.out := rfl
@[simp] theorem State.onCasc_free (s : State) (f : Casc → Casc) : (s.onCasc f).free = s.free := rfl

/-! `onTst` -/
@[simp] theorem State.onTst_pending (s : State) (f : SelfTest → SelfTest) : (s.onTst f).pending = s.pending := rfl
@[simp] theorem State.onTst_regs (s : State) (f : SelfTest → SelfTest) : (s.onTst f).regs = s.regs := rfl
@[simp] theorem State.onTst_marks (s : State) (f : SelfTest → SelfTest) : (s.onTst f).marks = s.marks := rfl
@[simp] theorem State.onTst_latch (s : State) (f : SelfTest → SelfTest) : (s.onTst f).latch = s.latch := rfl
@[simp] theorem State.onTst_lowHeld (s : State) (f : SelfTest → SelfTest) : (s.onTst f).lowHeld = s.lowHeld := rfl
@[simp] theorem State.onTst_sram (s : State) (f : SelfTest → SelfTest) : (s.onTst f).sram = s.sram := rfl
@[simp] theorem State.onTst_openRam (s : State) (f : SelfTest → SelfTest) : (s.onTst f).openRam = s.openRam := rfl
@[simp] theorem State.onTst_pwr (s : State) (f : SelfTest → SelfTest) : (s.onTst f).pwr = s.pwr := rfl
@[simp] theorem State.onTst_sup (s : State) (f : SelfTest → SelfTest) : (s.onTst f).sup = s.sup := rfl
@[simp] theorem State.onTst_sec (s : State) (f : SelfTest → SelfTest) : (s.onTst f).sec = s.sec := rfl
@[simp] theorem State.onTst_flt (s : State) (f : SelfTest → SelfTest) : (s.onTst f).flt = s.flt := rfl
@[simp] theorem State.onTst_irq (s : State) (f : SelfTest → SelfTest) : (s.onTst f).irq = s.irq := rfl
@[simp] theorem State.onTst_bus (s : State) (f : SelfTest → SelfTest) : (s.onTst f).bus = s.bus := rfl
@[simp] theorem State.onTst_dma (s : State) (f : SelfTest → SelfTest) : (s.onTst f).dma = s.dma := rfl
@[simp] theorem State.onTst_time (s : State) (f : SelfTest → SelfTest) : (s.onTst f).time = s.time := rfl
@[simp] theorem State.onTst_sched (s : State) (f : SelfTest → SelfTest) : (s.onTst f).sched = s.sched := rfl
@[simp] theorem State.onTst_fab (s : State) (f : SelfTest → SelfTest) : (s.onTst f).fab = s.fab := rfl
@[simp] theorem State.onTst_loop (s : State) (f : SelfTest → SelfTest) : (s.onTst f).loop = s.loop := rfl
@[simp] theorem State.onTst_ept (s : State) (f : SelfTest → SelfTest) : (s.onTst f).ept = s.ept := rfl
@[simp] theorem State.onTst_rings (s : State) (f : SelfTest → SelfTest) : (s.onTst f).rings = s.rings := rfl
@[simp] theorem State.onTst_arbPos (s : State) (f : SelfTest → SelfTest) : (s.onTst f).arbPos = s.arbPos := rfl
@[simp] theorem State.onTst_accepts (s : State) (f : SelfTest → SelfTest) : (s.onTst f).accepts = s.accepts := rfl
@[simp] theorem State.onTst_msixTab (s : State) (f : SelfTest → SelfTest) : (s.onTst f).msixTab = s.msixTab := rfl
@[simp] theorem State.onTst_msixPba (s : State) (f : SelfTest → SelfTest) : (s.onTst f).msixPba = s.msixPba := rfl
@[simp] theorem State.onTst_casc (s : State) (f : SelfTest → SelfTest) : (s.onTst f).casc = s.casc := rfl
@[simp] theorem State.onTst_tst (s : State) (f : SelfTest → SelfTest) : (s.onTst f).tst = f s.tst := rfl
@[simp] theorem State.onTst_tap (s : State) (f : SelfTest → SelfTest) : (s.onTst f).tap = s.tap := rfl
@[simp] theorem State.onTst_flash (s : State) (f : SelfTest → SelfTest) : (s.onTst f).flash = s.flash := rfl
@[simp] theorem State.onTst_out (s : State) (f : SelfTest → SelfTest) : (s.onTst f).out = s.out := rfl
@[simp] theorem State.onTst_free (s : State) (f : SelfTest → SelfTest) : (s.onTst f).free = s.free := rfl

/-! `onTap` -/
@[simp] theorem State.onTap_pending (s : State) (f : Tap → Tap) : (s.onTap f).pending = s.pending := rfl
@[simp] theorem State.onTap_regs (s : State) (f : Tap → Tap) : (s.onTap f).regs = s.regs := rfl
@[simp] theorem State.onTap_marks (s : State) (f : Tap → Tap) : (s.onTap f).marks = s.marks := rfl
@[simp] theorem State.onTap_latch (s : State) (f : Tap → Tap) : (s.onTap f).latch = s.latch := rfl
@[simp] theorem State.onTap_lowHeld (s : State) (f : Tap → Tap) : (s.onTap f).lowHeld = s.lowHeld := rfl
@[simp] theorem State.onTap_sram (s : State) (f : Tap → Tap) : (s.onTap f).sram = s.sram := rfl
@[simp] theorem State.onTap_openRam (s : State) (f : Tap → Tap) : (s.onTap f).openRam = s.openRam := rfl
@[simp] theorem State.onTap_pwr (s : State) (f : Tap → Tap) : (s.onTap f).pwr = s.pwr := rfl
@[simp] theorem State.onTap_sup (s : State) (f : Tap → Tap) : (s.onTap f).sup = s.sup := rfl
@[simp] theorem State.onTap_sec (s : State) (f : Tap → Tap) : (s.onTap f).sec = s.sec := rfl
@[simp] theorem State.onTap_flt (s : State) (f : Tap → Tap) : (s.onTap f).flt = s.flt := rfl
@[simp] theorem State.onTap_irq (s : State) (f : Tap → Tap) : (s.onTap f).irq = s.irq := rfl
@[simp] theorem State.onTap_bus (s : State) (f : Tap → Tap) : (s.onTap f).bus = s.bus := rfl
@[simp] theorem State.onTap_dma (s : State) (f : Tap → Tap) : (s.onTap f).dma = s.dma := rfl
@[simp] theorem State.onTap_time (s : State) (f : Tap → Tap) : (s.onTap f).time = s.time := rfl
@[simp] theorem State.onTap_sched (s : State) (f : Tap → Tap) : (s.onTap f).sched = s.sched := rfl
@[simp] theorem State.onTap_fab (s : State) (f : Tap → Tap) : (s.onTap f).fab = s.fab := rfl
@[simp] theorem State.onTap_loop (s : State) (f : Tap → Tap) : (s.onTap f).loop = s.loop := rfl
@[simp] theorem State.onTap_ept (s : State) (f : Tap → Tap) : (s.onTap f).ept = s.ept := rfl
@[simp] theorem State.onTap_rings (s : State) (f : Tap → Tap) : (s.onTap f).rings = s.rings := rfl
@[simp] theorem State.onTap_arbPos (s : State) (f : Tap → Tap) : (s.onTap f).arbPos = s.arbPos := rfl
@[simp] theorem State.onTap_accepts (s : State) (f : Tap → Tap) : (s.onTap f).accepts = s.accepts := rfl
@[simp] theorem State.onTap_msixTab (s : State) (f : Tap → Tap) : (s.onTap f).msixTab = s.msixTab := rfl
@[simp] theorem State.onTap_msixPba (s : State) (f : Tap → Tap) : (s.onTap f).msixPba = s.msixPba := rfl
@[simp] theorem State.onTap_casc (s : State) (f : Tap → Tap) : (s.onTap f).casc = s.casc := rfl
@[simp] theorem State.onTap_tst (s : State) (f : Tap → Tap) : (s.onTap f).tst = s.tst := rfl
@[simp] theorem State.onTap_tap (s : State) (f : Tap → Tap) : (s.onTap f).tap = f s.tap := rfl
@[simp] theorem State.onTap_flash (s : State) (f : Tap → Tap) : (s.onTap f).flash = s.flash := rfl
@[simp] theorem State.onTap_out (s : State) (f : Tap → Tap) : (s.onTap f).out = s.out := rfl
@[simp] theorem State.onTap_free (s : State) (f : Tap → Tap) : (s.onTap f).free = s.free := rfl

/-! `onFlash` -/
@[simp] theorem State.onFlash_pending (s : State) (f : Flash → Flash) : (s.onFlash f).pending = s.pending := rfl
@[simp] theorem State.onFlash_regs (s : State) (f : Flash → Flash) : (s.onFlash f).regs = s.regs := rfl
@[simp] theorem State.onFlash_marks (s : State) (f : Flash → Flash) : (s.onFlash f).marks = s.marks := rfl
@[simp] theorem State.onFlash_latch (s : State) (f : Flash → Flash) : (s.onFlash f).latch = s.latch := rfl
@[simp] theorem State.onFlash_lowHeld (s : State) (f : Flash → Flash) : (s.onFlash f).lowHeld = s.lowHeld := rfl
@[simp] theorem State.onFlash_sram (s : State) (f : Flash → Flash) : (s.onFlash f).sram = s.sram := rfl
@[simp] theorem State.onFlash_openRam (s : State) (f : Flash → Flash) : (s.onFlash f).openRam = s.openRam := rfl
@[simp] theorem State.onFlash_pwr (s : State) (f : Flash → Flash) : (s.onFlash f).pwr = s.pwr := rfl
@[simp] theorem State.onFlash_sup (s : State) (f : Flash → Flash) : (s.onFlash f).sup = s.sup := rfl
@[simp] theorem State.onFlash_sec (s : State) (f : Flash → Flash) : (s.onFlash f).sec = s.sec := rfl
@[simp] theorem State.onFlash_flt (s : State) (f : Flash → Flash) : (s.onFlash f).flt = s.flt := rfl
@[simp] theorem State.onFlash_irq (s : State) (f : Flash → Flash) : (s.onFlash f).irq = s.irq := rfl
@[simp] theorem State.onFlash_bus (s : State) (f : Flash → Flash) : (s.onFlash f).bus = s.bus := rfl
@[simp] theorem State.onFlash_dma (s : State) (f : Flash → Flash) : (s.onFlash f).dma = s.dma := rfl
@[simp] theorem State.onFlash_time (s : State) (f : Flash → Flash) : (s.onFlash f).time = s.time := rfl
@[simp] theorem State.onFlash_sched (s : State) (f : Flash → Flash) : (s.onFlash f).sched = s.sched := rfl
@[simp] theorem State.onFlash_fab (s : State) (f : Flash → Flash) : (s.onFlash f).fab = s.fab := rfl
@[simp] theorem State.onFlash_loop (s : State) (f : Flash → Flash) : (s.onFlash f).loop = s.loop := rfl
@[simp] theorem State.onFlash_ept (s : State) (f : Flash → Flash) : (s.onFlash f).ept = s.ept := rfl
@[simp] theorem State.onFlash_rings (s : State) (f : Flash → Flash) : (s.onFlash f).rings = s.rings := rfl
@[simp] theorem State.onFlash_arbPos (s : State) (f : Flash → Flash) : (s.onFlash f).arbPos = s.arbPos := rfl
@[simp] theorem State.onFlash_accepts (s : State) (f : Flash → Flash) : (s.onFlash f).accepts = s.accepts := rfl
@[simp] theorem State.onFlash_msixTab (s : State) (f : Flash → Flash) : (s.onFlash f).msixTab = s.msixTab := rfl
@[simp] theorem State.onFlash_msixPba (s : State) (f : Flash → Flash) : (s.onFlash f).msixPba = s.msixPba := rfl
@[simp] theorem State.onFlash_casc (s : State) (f : Flash → Flash) : (s.onFlash f).casc = s.casc := rfl
@[simp] theorem State.onFlash_tst (s : State) (f : Flash → Flash) : (s.onFlash f).tst = s.tst := rfl
@[simp] theorem State.onFlash_tap (s : State) (f : Flash → Flash) : (s.onFlash f).tap = s.tap := rfl
@[simp] theorem State.onFlash_flash (s : State) (f : Flash → Flash) : (s.onFlash f).flash = f s.flash := rfl
@[simp] theorem State.onFlash_out (s : State) (f : Flash → Flash) : (s.onFlash f).out = s.out := rfl
@[simp] theorem State.onFlash_free (s : State) (f : Flash → Flash) : (s.onFlash f).free = s.free := rfl

/-! `modCell` -/
@[simp] theorem State.modCell_pending (s : State) (k : Nat) (f : Cell → Cell) : (s.modCell k f).pending = s.pending := rfl
@[simp] theorem State.modCell_regs (s : State) (k : Nat) (f : Cell → Cell) : (s.modCell k f).regs = s.regs := rfl
@[simp] theorem State.modCell_marks (s : State) (k : Nat) (f : Cell → Cell) : (s.modCell k f).marks = s.marks := rfl
@[simp] theorem State.modCell_latch (s : State) (k : Nat) (f : Cell → Cell) : (s.modCell k f).latch = s.latch := rfl
@[simp] theorem State.modCell_lowHeld (s : State) (k : Nat) (f : Cell → Cell) : (s.modCell k f).lowHeld = s.lowHeld := rfl
@[simp] theorem State.modCell_sram (s : State) (k : Nat) (f : Cell → Cell) : (s.modCell k f).sram = s.sram := rfl
@[simp] theorem State.modCell_openRam (s : State) (k : Nat) (f : Cell → Cell) : (s.modCell k f).openRam = s.openRam := rfl
@[simp] theorem State.modCell_pwr (s : State) (k : Nat) (f : Cell → Cell) : (s.modCell k f).pwr = s.pwr := rfl
@[simp] theorem State.modCell_sup (s : State) (k : Nat) (f : Cell → Cell) : (s.modCell k f).sup = s.sup := rfl
@[simp] theorem State.modCell_sec (s : State) (k : Nat) (f : Cell → Cell) : (s.modCell k f).sec = s.sec := rfl
@[simp] theorem State.modCell_flt (s : State) (k : Nat) (f : Cell → Cell) : (s.modCell k f).flt = s.flt := rfl
@[simp] theorem State.modCell_irq (s : State) (k : Nat) (f : Cell → Cell) : (s.modCell k f).irq = s.irq := rfl
@[simp] theorem State.modCell_bus (s : State) (k : Nat) (f : Cell → Cell) : (s.modCell k f).bus = s.bus := rfl
@[simp] theorem State.modCell_dma (s : State) (k : Nat) (f : Cell → Cell) : (s.modCell k f).dma = s.dma := rfl
@[simp] theorem State.modCell_time (s : State) (k : Nat) (f : Cell → Cell) : (s.modCell k f).time = s.time := rfl
@[simp] theorem State.modCell_sched (s : State) (k : Nat) (f : Cell → Cell) : (s.modCell k f).sched = s.sched := rfl
@[simp] theorem State.modCell_fab (s : State) (k : Nat) (f : Cell → Cell) : (s.modCell k f).fab = s.fab := rfl
@[simp] theorem State.modCell_ept (s : State) (k : Nat) (f : Cell → Cell) : (s.modCell k f).ept = s.ept := rfl
@[simp] theorem State.modCell_rings (s : State) (k : Nat) (f : Cell → Cell) : (s.modCell k f).rings = s.rings := rfl
@[simp] theorem State.modCell_arbPos (s : State) (k : Nat) (f : Cell → Cell) : (s.modCell k f).arbPos = s.arbPos := rfl
@[simp] theorem State.modCell_accepts (s : State) (k : Nat) (f : Cell → Cell) : (s.modCell k f).accepts = s.accepts := rfl
@[simp] theorem State.modCell_msixTab (s : State) (k : Nat) (f : Cell → Cell) : (s.modCell k f).msixTab = s.msixTab := rfl
@[simp] theorem State.modCell_msixPba (s : State) (k : Nat) (f : Cell → Cell) : (s.modCell k f).msixPba = s.msixPba := rfl
@[simp] theorem State.modCell_casc (s : State) (k : Nat) (f : Cell → Cell) : (s.modCell k f).casc = s.casc := rfl
@[simp] theorem State.modCell_tst (s : State) (k : Nat) (f : Cell → Cell) : (s.modCell k f).tst = s.tst := rfl
@[simp] theorem State.modCell_tap (s : State) (k : Nat) (f : Cell → Cell) : (s.modCell k f).tap = s.tap := rfl
@[simp] theorem State.modCell_flash (s : State) (k : Nat) (f : Cell → Cell) : (s.modCell k f).flash = s.flash := rfl
@[simp] theorem State.modCell_out (s : State) (k : Nat) (f : Cell → Cell) : (s.modCell k f).out = s.out := rfl
@[simp] theorem State.modCell_free (s : State) (k : Nat) (f : Cell → Cell) : (s.modCell k f).free = s.free := rfl

/-! `modCal` -/
@[simp] theorem State.modCal_pending (s : State) (k : Nat) (f : CalOffset → CalOffset) : (s.modCal k f).pending = s.pending := rfl
@[simp] theorem State.modCal_regs (s : State) (k : Nat) (f : CalOffset → CalOffset) : (s.modCal k f).regs = s.regs := rfl
@[simp] theorem State.modCal_marks (s : State) (k : Nat) (f : CalOffset → CalOffset) : (s.modCal k f).marks = s.marks := rfl
@[simp] theorem State.modCal_latch (s : State) (k : Nat) (f : CalOffset → CalOffset) : (s.modCal k f).latch = s.latch := rfl
@[simp] theorem State.modCal_lowHeld (s : State) (k : Nat) (f : CalOffset → CalOffset) : (s.modCal k f).lowHeld = s.lowHeld := rfl
@[simp] theorem State.modCal_sram (s : State) (k : Nat) (f : CalOffset → CalOffset) : (s.modCal k f).sram = s.sram := rfl
@[simp] theorem State.modCal_openRam (s : State) (k : Nat) (f : CalOffset → CalOffset) : (s.modCal k f).openRam = s.openRam := rfl
@[simp] theorem State.modCal_pwr (s : State) (k : Nat) (f : CalOffset → CalOffset) : (s.modCal k f).pwr = s.pwr := rfl
@[simp] theorem State.modCal_sup (s : State) (k : Nat) (f : CalOffset → CalOffset) : (s.modCal k f).sup = s.sup := rfl
@[simp] theorem State.modCal_sec (s : State) (k : Nat) (f : CalOffset → CalOffset) : (s.modCal k f).sec = s.sec := rfl
@[simp] theorem State.modCal_flt (s : State) (k : Nat) (f : CalOffset → CalOffset) : (s.modCal k f).flt = s.flt := rfl
@[simp] theorem State.modCal_irq (s : State) (k : Nat) (f : CalOffset → CalOffset) : (s.modCal k f).irq = s.irq := rfl
@[simp] theorem State.modCal_bus (s : State) (k : Nat) (f : CalOffset → CalOffset) : (s.modCal k f).bus = s.bus := rfl
@[simp] theorem State.modCal_dma (s : State) (k : Nat) (f : CalOffset → CalOffset) : (s.modCal k f).dma = s.dma := rfl
@[simp] theorem State.modCal_time (s : State) (k : Nat) (f : CalOffset → CalOffset) : (s.modCal k f).time = s.time := rfl
@[simp] theorem State.modCal_sched (s : State) (k : Nat) (f : CalOffset → CalOffset) : (s.modCal k f).sched = s.sched := rfl
@[simp] theorem State.modCal_fab (s : State) (k : Nat) (f : CalOffset → CalOffset) : (s.modCal k f).fab = s.fab := rfl
@[simp] theorem State.modCal_ept (s : State) (k : Nat) (f : CalOffset → CalOffset) : (s.modCal k f).ept = s.ept := rfl
@[simp] theorem State.modCal_rings (s : State) (k : Nat) (f : CalOffset → CalOffset) : (s.modCal k f).rings = s.rings := rfl
@[simp] theorem State.modCal_arbPos (s : State) (k : Nat) (f : CalOffset → CalOffset) : (s.modCal k f).arbPos = s.arbPos := rfl
@[simp] theorem State.modCal_accepts (s : State) (k : Nat) (f : CalOffset → CalOffset) : (s.modCal k f).accepts = s.accepts := rfl
@[simp] theorem State.modCal_msixTab (s : State) (k : Nat) (f : CalOffset → CalOffset) : (s.modCal k f).msixTab = s.msixTab := rfl
@[simp] theorem State.modCal_msixPba (s : State) (k : Nat) (f : CalOffset → CalOffset) : (s.modCal k f).msixPba = s.msixPba := rfl
@[simp] theorem State.modCal_casc (s : State) (k : Nat) (f : CalOffset → CalOffset) : (s.modCal k f).casc = s.casc := rfl
@[simp] theorem State.modCal_tst (s : State) (k : Nat) (f : CalOffset → CalOffset) : (s.modCal k f).tst = s.tst := rfl
@[simp] theorem State.modCal_tap (s : State) (k : Nat) (f : CalOffset → CalOffset) : (s.modCal k f).tap = s.tap := rfl
@[simp] theorem State.modCal_flash (s : State) (k : Nat) (f : CalOffset → CalOffset) : (s.modCal k f).flash = s.flash := rfl
@[simp] theorem State.modCal_out (s : State) (k : Nat) (f : CalOffset → CalOffset) : (s.modCal k f).out = s.out := rfl
@[simp] theorem State.modCal_free (s : State) (k : Nat) (f : CalOffset → CalOffset) : (s.modCal k f).free = s.free := rfl

/-! `modChan` -/
@[simp] theorem State.modChan_pending (s : State) (k : Nat) (f : ChLoop → ChLoop) : (s.modChan k f).pending = s.pending := rfl
@[simp] theorem State.modChan_regs (s : State) (k : Nat) (f : ChLoop → ChLoop) : (s.modChan k f).regs = s.regs := rfl
@[simp] theorem State.modChan_marks (s : State) (k : Nat) (f : ChLoop → ChLoop) : (s.modChan k f).marks = s.marks := rfl
@[simp] theorem State.modChan_latch (s : State) (k : Nat) (f : ChLoop → ChLoop) : (s.modChan k f).latch = s.latch := rfl
@[simp] theorem State.modChan_lowHeld (s : State) (k : Nat) (f : ChLoop → ChLoop) : (s.modChan k f).lowHeld = s.lowHeld := rfl
@[simp] theorem State.modChan_sram (s : State) (k : Nat) (f : ChLoop → ChLoop) : (s.modChan k f).sram = s.sram := rfl
@[simp] theorem State.modChan_openRam (s : State) (k : Nat) (f : ChLoop → ChLoop) : (s.modChan k f).openRam = s.openRam := rfl
@[simp] theorem State.modChan_pwr (s : State) (k : Nat) (f : ChLoop → ChLoop) : (s.modChan k f).pwr = s.pwr := rfl
@[simp] theorem State.modChan_sup (s : State) (k : Nat) (f : ChLoop → ChLoop) : (s.modChan k f).sup = s.sup := rfl
@[simp] theorem State.modChan_sec (s : State) (k : Nat) (f : ChLoop → ChLoop) : (s.modChan k f).sec = s.sec := rfl
@[simp] theorem State.modChan_flt (s : State) (k : Nat) (f : ChLoop → ChLoop) : (s.modChan k f).flt = s.flt := rfl
@[simp] theorem State.modChan_irq (s : State) (k : Nat) (f : ChLoop → ChLoop) : (s.modChan k f).irq = s.irq := rfl
@[simp] theorem State.modChan_bus (s : State) (k : Nat) (f : ChLoop → ChLoop) : (s.modChan k f).bus = s.bus := rfl
@[simp] theorem State.modChan_dma (s : State) (k : Nat) (f : ChLoop → ChLoop) : (s.modChan k f).dma = s.dma := rfl
@[simp] theorem State.modChan_time (s : State) (k : Nat) (f : ChLoop → ChLoop) : (s.modChan k f).time = s.time := rfl
@[simp] theorem State.modChan_sched (s : State) (k : Nat) (f : ChLoop → ChLoop) : (s.modChan k f).sched = s.sched := rfl
@[simp] theorem State.modChan_fab (s : State) (k : Nat) (f : ChLoop → ChLoop) : (s.modChan k f).fab = s.fab := rfl
@[simp] theorem State.modChan_ept (s : State) (k : Nat) (f : ChLoop → ChLoop) : (s.modChan k f).ept = s.ept := rfl
@[simp] theorem State.modChan_rings (s : State) (k : Nat) (f : ChLoop → ChLoop) : (s.modChan k f).rings = s.rings := rfl
@[simp] theorem State.modChan_arbPos (s : State) (k : Nat) (f : ChLoop → ChLoop) : (s.modChan k f).arbPos = s.arbPos := rfl
@[simp] theorem State.modChan_accepts (s : State) (k : Nat) (f : ChLoop → ChLoop) : (s.modChan k f).accepts = s.accepts := rfl
@[simp] theorem State.modChan_msixTab (s : State) (k : Nat) (f : ChLoop → ChLoop) : (s.modChan k f).msixTab = s.msixTab := rfl
@[simp] theorem State.modChan_msixPba (s : State) (k : Nat) (f : ChLoop → ChLoop) : (s.modChan k f).msixPba = s.msixPba := rfl
@[simp] theorem State.modChan_casc (s : State) (k : Nat) (f : ChLoop → ChLoop) : (s.modChan k f).casc = s.casc := rfl
@[simp] theorem State.modChan_tst (s : State) (k : Nat) (f : ChLoop → ChLoop) : (s.modChan k f).tst = s.tst := rfl
@[simp] theorem State.modChan_tap (s : State) (k : Nat) (f : ChLoop → ChLoop) : (s.modChan k f).tap = s.tap := rfl
@[simp] theorem State.modChan_flash (s : State) (k : Nat) (f : ChLoop → ChLoop) : (s.modChan k f).flash = s.flash := rfl
@[simp] theorem State.modChan_out (s : State) (k : Nat) (f : ChLoop → ChLoop) : (s.modChan k f).out = s.out := rfl
@[simp] theorem State.modChan_free (s : State) (k : Nat) (f : ChLoop → ChLoop) : (s.modChan k f).free = s.free := rfl

/-! `modChamber` -/
@[simp] theorem State.modChamber_pending (s : State) (k : Nat) (f : Chamber → Chamber) : (s.modChamber k f).pending = s.pending := rfl
@[simp] theorem State.modChamber_regs (s : State) (k : Nat) (f : Chamber → Chamber) : (s.modChamber k f).regs = s.regs := rfl
@[simp] theorem State.modChamber_marks (s : State) (k : Nat) (f : Chamber → Chamber) : (s.modChamber k f).marks = s.marks := rfl
@[simp] theorem State.modChamber_latch (s : State) (k : Nat) (f : Chamber → Chamber) : (s.modChamber k f).latch = s.latch := rfl
@[simp] theorem State.modChamber_lowHeld (s : State) (k : Nat) (f : Chamber → Chamber) : (s.modChamber k f).lowHeld = s.lowHeld := rfl
@[simp] theorem State.modChamber_sram (s : State) (k : Nat) (f : Chamber → Chamber) : (s.modChamber k f).sram = s.sram := rfl
@[simp] theorem State.modChamber_openRam (s : State) (k : Nat) (f : Chamber → Chamber) : (s.modChamber k f).openRam = s.openRam := rfl
@[simp] theorem State.modChamber_pwr (s : State) (k : Nat) (f : Chamber → Chamber) : (s.modChamber k f).pwr = s.pwr := rfl
@[simp] theorem State.modChamber_sup (s : State) (k : Nat) (f : Chamber → Chamber) : (s.modChamber k f).sup = s.sup := rfl
@[simp] theorem State.modChamber_sec (s : State) (k : Nat) (f : Chamber → Chamber) : (s.modChamber k f).sec = s.sec := rfl
@[simp] theorem State.modChamber_flt (s : State) (k : Nat) (f : Chamber → Chamber) : (s.modChamber k f).flt = s.flt := rfl
@[simp] theorem State.modChamber_irq (s : State) (k : Nat) (f : Chamber → Chamber) : (s.modChamber k f).irq = s.irq := rfl
@[simp] theorem State.modChamber_bus (s : State) (k : Nat) (f : Chamber → Chamber) : (s.modChamber k f).bus = s.bus := rfl
@[simp] theorem State.modChamber_dma (s : State) (k : Nat) (f : Chamber → Chamber) : (s.modChamber k f).dma = s.dma := rfl
@[simp] theorem State.modChamber_time (s : State) (k : Nat) (f : Chamber → Chamber) : (s.modChamber k f).time = s.time := rfl
@[simp] theorem State.modChamber_sched (s : State) (k : Nat) (f : Chamber → Chamber) : (s.modChamber k f).sched = s.sched := rfl
@[simp] theorem State.modChamber_loop (s : State) (k : Nat) (f : Chamber → Chamber) : (s.modChamber k f).loop = s.loop := rfl
@[simp] theorem State.modChamber_ept (s : State) (k : Nat) (f : Chamber → Chamber) : (s.modChamber k f).ept = s.ept := rfl
@[simp] theorem State.modChamber_rings (s : State) (k : Nat) (f : Chamber → Chamber) : (s.modChamber k f).rings = s.rings := rfl
@[simp] theorem State.modChamber_arbPos (s : State) (k : Nat) (f : Chamber → Chamber) : (s.modChamber k f).arbPos = s.arbPos := rfl
@[simp] theorem State.modChamber_accepts (s : State) (k : Nat) (f : Chamber → Chamber) : (s.modChamber k f).accepts = s.accepts := rfl
@[simp] theorem State.modChamber_msixTab (s : State) (k : Nat) (f : Chamber → Chamber) : (s.modChamber k f).msixTab = s.msixTab := rfl
@[simp] theorem State.modChamber_msixPba (s : State) (k : Nat) (f : Chamber → Chamber) : (s.modChamber k f).msixPba = s.msixPba := rfl
@[simp] theorem State.modChamber_casc (s : State) (k : Nat) (f : Chamber → Chamber) : (s.modChamber k f).casc = s.casc := rfl
@[simp] theorem State.modChamber_tst (s : State) (k : Nat) (f : Chamber → Chamber) : (s.modChamber k f).tst = s.tst := rfl
@[simp] theorem State.modChamber_tap (s : State) (k : Nat) (f : Chamber → Chamber) : (s.modChamber k f).tap = s.tap := rfl
@[simp] theorem State.modChamber_flash (s : State) (k : Nat) (f : Chamber → Chamber) : (s.modChamber k f).flash = s.flash := rfl
@[simp] theorem State.modChamber_out (s : State) (k : Nat) (f : Chamber → Chamber) : (s.modChamber k f).out = s.out := rfl
@[simp] theorem State.modChamber_free (s : State) (k : Nat) (f : Chamber → Chamber) : (s.modChamber k f).free = s.free := rfl

/-! `modDir` -/
@[simp] theorem State.modDir_pending (s : State) (k : Nat) (f : MapDir → MapDir) : (s.modDir k f).pending = s.pending := rfl
@[simp] theorem State.modDir_regs (s : State) (k : Nat) (f : MapDir → MapDir) : (s.modDir k f).regs = s.regs := rfl
@[simp] theorem State.modDir_marks (s : State) (k : Nat) (f : MapDir → MapDir) : (s.modDir k f).marks = s.marks := rfl
@[simp] theorem State.modDir_latch (s : State) (k : Nat) (f : MapDir → MapDir) : (s.modDir k f).latch = s.latch := rfl
@[simp] theorem State.modDir_lowHeld (s : State) (k : Nat) (f : MapDir → MapDir) : (s.modDir k f).lowHeld = s.lowHeld := rfl
@[simp] theorem State.modDir_sram (s : State) (k : Nat) (f : MapDir → MapDir) : (s.modDir k f).sram = s.sram := rfl
@[simp] theorem State.modDir_openRam (s : State) (k : Nat) (f : MapDir → MapDir) : (s.modDir k f).openRam = s.openRam := rfl
@[simp] theorem State.modDir_pwr (s : State) (k : Nat) (f : MapDir → MapDir) : (s.modDir k f).pwr = s.pwr := rfl
@[simp] theorem State.modDir_sup (s : State) (k : Nat) (f : MapDir → MapDir) : (s.modDir k f).sup = s.sup := rfl
@[simp] theorem State.modDir_sec (s : State) (k : Nat) (f : MapDir → MapDir) : (s.modDir k f).sec = s.sec := rfl
@[simp] theorem State.modDir_flt (s : State) (k : Nat) (f : MapDir → MapDir) : (s.modDir k f).flt = s.flt := rfl
@[simp] theorem State.modDir_irq (s : State) (k : Nat) (f : MapDir → MapDir) : (s.modDir k f).irq = s.irq := rfl
@[simp] theorem State.modDir_bus (s : State) (k : Nat) (f : MapDir → MapDir) : (s.modDir k f).bus = s.bus := rfl
@[simp] theorem State.modDir_dma (s : State) (k : Nat) (f : MapDir → MapDir) : (s.modDir k f).dma = s.dma := rfl
@[simp] theorem State.modDir_time (s : State) (k : Nat) (f : MapDir → MapDir) : (s.modDir k f).time = s.time := rfl
@[simp] theorem State.modDir_sched (s : State) (k : Nat) (f : MapDir → MapDir) : (s.modDir k f).sched = s.sched := rfl
@[simp] theorem State.modDir_loop (s : State) (k : Nat) (f : MapDir → MapDir) : (s.modDir k f).loop = s.loop := rfl
@[simp] theorem State.modDir_ept (s : State) (k : Nat) (f : MapDir → MapDir) : (s.modDir k f).ept = s.ept := rfl
@[simp] theorem State.modDir_rings (s : State) (k : Nat) (f : MapDir → MapDir) : (s.modDir k f).rings = s.rings := rfl
@[simp] theorem State.modDir_arbPos (s : State) (k : Nat) (f : MapDir → MapDir) : (s.modDir k f).arbPos = s.arbPos := rfl
@[simp] theorem State.modDir_accepts (s : State) (k : Nat) (f : MapDir → MapDir) : (s.modDir k f).accepts = s.accepts := rfl
@[simp] theorem State.modDir_msixTab (s : State) (k : Nat) (f : MapDir → MapDir) : (s.modDir k f).msixTab = s.msixTab := rfl
@[simp] theorem State.modDir_msixPba (s : State) (k : Nat) (f : MapDir → MapDir) : (s.modDir k f).msixPba = s.msixPba := rfl
@[simp] theorem State.modDir_casc (s : State) (k : Nat) (f : MapDir → MapDir) : (s.modDir k f).casc = s.casc := rfl
@[simp] theorem State.modDir_tst (s : State) (k : Nat) (f : MapDir → MapDir) : (s.modDir k f).tst = s.tst := rfl
@[simp] theorem State.modDir_tap (s : State) (k : Nat) (f : MapDir → MapDir) : (s.modDir k f).tap = s.tap := rfl
@[simp] theorem State.modDir_flash (s : State) (k : Nat) (f : MapDir → MapDir) : (s.modDir k f).flash = s.flash := rfl
@[simp] theorem State.modDir_out (s : State) (k : Nat) (f : MapDir → MapDir) : (s.modDir k f).out = s.out := rfl
@[simp] theorem State.modDir_free (s : State) (k : Nat) (f : MapDir → MapDir) : (s.modDir k f).free = s.free := rfl

/-! `modBank` -/
@[simp] theorem State.modBank_pending (s : State) (k : Nat) (f : Bank → Bank) : (s.modBank k f).pending = s.pending := rfl
@[simp] theorem State.modBank_regs (s : State) (k : Nat) (f : Bank → Bank) : (s.modBank k f).regs = s.regs := rfl
@[simp] theorem State.modBank_marks (s : State) (k : Nat) (f : Bank → Bank) : (s.modBank k f).marks = s.marks := rfl
@[simp] theorem State.modBank_latch (s : State) (k : Nat) (f : Bank → Bank) : (s.modBank k f).latch = s.latch := rfl
@[simp] theorem State.modBank_lowHeld (s : State) (k : Nat) (f : Bank → Bank) : (s.modBank k f).lowHeld = s.lowHeld := rfl
@[simp] theorem State.modBank_sram (s : State) (k : Nat) (f : Bank → Bank) : (s.modBank k f).sram = s.sram := rfl
@[simp] theorem State.modBank_openRam (s : State) (k : Nat) (f : Bank → Bank) : (s.modBank k f).openRam = s.openRam := rfl
@[simp] theorem State.modBank_pwr (s : State) (k : Nat) (f : Bank → Bank) : (s.modBank k f).pwr = s.pwr := rfl
@[simp] theorem State.modBank_sup (s : State) (k : Nat) (f : Bank → Bank) : (s.modBank k f).sup = s.sup := rfl
@[simp] theorem State.modBank_sec (s : State) (k : Nat) (f : Bank → Bank) : (s.modBank k f).sec = s.sec := rfl
@[simp] theorem State.modBank_flt (s : State) (k : Nat) (f : Bank → Bank) : (s.modBank k f).flt = s.flt := rfl
@[simp] theorem State.modBank_irq (s : State) (k : Nat) (f : Bank → Bank) : (s.modBank k f).irq = s.irq := rfl
@[simp] theorem State.modBank_bus (s : State) (k : Nat) (f : Bank → Bank) : (s.modBank k f).bus = s.bus := rfl
@[simp] theorem State.modBank_dma (s : State) (k : Nat) (f : Bank → Bank) : (s.modBank k f).dma = s.dma := rfl
@[simp] theorem State.modBank_time (s : State) (k : Nat) (f : Bank → Bank) : (s.modBank k f).time = s.time := rfl
@[simp] theorem State.modBank_fab (s : State) (k : Nat) (f : Bank → Bank) : (s.modBank k f).fab = s.fab := rfl
@[simp] theorem State.modBank_loop (s : State) (k : Nat) (f : Bank → Bank) : (s.modBank k f).loop = s.loop := rfl
@[simp] theorem State.modBank_ept (s : State) (k : Nat) (f : Bank → Bank) : (s.modBank k f).ept = s.ept := rfl
@[simp] theorem State.modBank_rings (s : State) (k : Nat) (f : Bank → Bank) : (s.modBank k f).rings = s.rings := rfl
@[simp] theorem State.modBank_arbPos (s : State) (k : Nat) (f : Bank → Bank) : (s.modBank k f).arbPos = s.arbPos := rfl
@[simp] theorem State.modBank_accepts (s : State) (k : Nat) (f : Bank → Bank) : (s.modBank k f).accepts = s.accepts := rfl
@[simp] theorem State.modBank_msixTab (s : State) (k : Nat) (f : Bank → Bank) : (s.modBank k f).msixTab = s.msixTab := rfl
@[simp] theorem State.modBank_msixPba (s : State) (k : Nat) (f : Bank → Bank) : (s.modBank k f).msixPba = s.msixPba := rfl
@[simp] theorem State.modBank_casc (s : State) (k : Nat) (f : Bank → Bank) : (s.modBank k f).casc = s.casc := rfl
@[simp] theorem State.modBank_tst (s : State) (k : Nat) (f : Bank → Bank) : (s.modBank k f).tst = s.tst := rfl
@[simp] theorem State.modBank_tap (s : State) (k : Nat) (f : Bank → Bank) : (s.modBank k f).tap = s.tap := rfl
@[simp] theorem State.modBank_flash (s : State) (k : Nat) (f : Bank → Bank) : (s.modBank k f).flash = s.flash := rfl
@[simp] theorem State.modBank_out (s : State) (k : Nat) (f : Bank → Bank) : (s.modBank k f).out = s.out := rfl
@[simp] theorem State.modBank_free (s : State) (k : Nat) (f : Bank → Bank) : (s.modBank k f).free = s.free := rfl

/-! `modLane` -/
@[simp] theorem State.modLane_pending (s : State) (k : Nat) (f : Lane → Lane) : (s.modLane k f).pending = s.pending := rfl
@[simp] theorem State.modLane_regs (s : State) (k : Nat) (f : Lane → Lane) : (s.modLane k f).regs = s.regs := rfl
@[simp] theorem State.modLane_marks (s : State) (k : Nat) (f : Lane → Lane) : (s.modLane k f).marks = s.marks := rfl
@[simp] theorem State.modLane_latch (s : State) (k : Nat) (f : Lane → Lane) : (s.modLane k f).latch = s.latch := rfl
@[simp] theorem State.modLane_lowHeld (s : State) (k : Nat) (f : Lane → Lane) : (s.modLane k f).lowHeld = s.lowHeld := rfl
@[simp] theorem State.modLane_sram (s : State) (k : Nat) (f : Lane → Lane) : (s.modLane k f).sram = s.sram := rfl
@[simp] theorem State.modLane_openRam (s : State) (k : Nat) (f : Lane → Lane) : (s.modLane k f).openRam = s.openRam := rfl
@[simp] theorem State.modLane_pwr (s : State) (k : Nat) (f : Lane → Lane) : (s.modLane k f).pwr = s.pwr := rfl
@[simp] theorem State.modLane_sup (s : State) (k : Nat) (f : Lane → Lane) : (s.modLane k f).sup = s.sup := rfl
@[simp] theorem State.modLane_sec (s : State) (k : Nat) (f : Lane → Lane) : (s.modLane k f).sec = s.sec := rfl
@[simp] theorem State.modLane_flt (s : State) (k : Nat) (f : Lane → Lane) : (s.modLane k f).flt = s.flt := rfl
@[simp] theorem State.modLane_irq (s : State) (k : Nat) (f : Lane → Lane) : (s.modLane k f).irq = s.irq := rfl
@[simp] theorem State.modLane_bus (s : State) (k : Nat) (f : Lane → Lane) : (s.modLane k f).bus = s.bus := rfl
@[simp] theorem State.modLane_dma (s : State) (k : Nat) (f : Lane → Lane) : (s.modLane k f).dma = s.dma := rfl
@[simp] theorem State.modLane_time (s : State) (k : Nat) (f : Lane → Lane) : (s.modLane k f).time = s.time := rfl
@[simp] theorem State.modLane_sched (s : State) (k : Nat) (f : Lane → Lane) : (s.modLane k f).sched = s.sched := rfl
@[simp] theorem State.modLane_fab (s : State) (k : Nat) (f : Lane → Lane) : (s.modLane k f).fab = s.fab := rfl
@[simp] theorem State.modLane_loop (s : State) (k : Nat) (f : Lane → Lane) : (s.modLane k f).loop = s.loop := rfl
@[simp] theorem State.modLane_rings (s : State) (k : Nat) (f : Lane → Lane) : (s.modLane k f).rings = s.rings := rfl
@[simp] theorem State.modLane_arbPos (s : State) (k : Nat) (f : Lane → Lane) : (s.modLane k f).arbPos = s.arbPos := rfl
@[simp] theorem State.modLane_accepts (s : State) (k : Nat) (f : Lane → Lane) : (s.modLane k f).accepts = s.accepts := rfl
@[simp] theorem State.modLane_msixTab (s : State) (k : Nat) (f : Lane → Lane) : (s.modLane k f).msixTab = s.msixTab := rfl
@[simp] theorem State.modLane_msixPba (s : State) (k : Nat) (f : Lane → Lane) : (s.modLane k f).msixPba = s.msixPba := rfl
@[simp] theorem State.modLane_casc (s : State) (k : Nat) (f : Lane → Lane) : (s.modLane k f).casc = s.casc := rfl
@[simp] theorem State.modLane_tst (s : State) (k : Nat) (f : Lane → Lane) : (s.modLane k f).tst = s.tst := rfl
@[simp] theorem State.modLane_tap (s : State) (k : Nat) (f : Lane → Lane) : (s.modLane k f).tap = s.tap := rfl
@[simp] theorem State.modLane_flash (s : State) (k : Nat) (f : Lane → Lane) : (s.modLane k f).flash = s.flash := rfl
@[simp] theorem State.modLane_out (s : State) (k : Nat) (f : Lane → Lane) : (s.modLane k f).out = s.out := rfl
@[simp] theorem State.modLane_free (s : State) (k : Nat) (f : Lane → Lane) : (s.modLane k f).free = s.free := rfl

/-! `modStream` -/
@[simp] theorem State.modStream_pending (s : State) (k : Nat) (f : Stream → Stream) : (s.modStream k f).pending = s.pending := rfl
@[simp] theorem State.modStream_regs (s : State) (k : Nat) (f : Stream → Stream) : (s.modStream k f).regs = s.regs := rfl
@[simp] theorem State.modStream_marks (s : State) (k : Nat) (f : Stream → Stream) : (s.modStream k f).marks = s.marks := rfl
@[simp] theorem State.modStream_latch (s : State) (k : Nat) (f : Stream → Stream) : (s.modStream k f).latch = s.latch := rfl
@[simp] theorem State.modStream_lowHeld (s : State) (k : Nat) (f : Stream → Stream) : (s.modStream k f).lowHeld = s.lowHeld := rfl
@[simp] theorem State.modStream_sram (s : State) (k : Nat) (f : Stream → Stream) : (s.modStream k f).sram = s.sram := rfl
@[simp] theorem State.modStream_openRam (s : State) (k : Nat) (f : Stream → Stream) : (s.modStream k f).openRam = s.openRam := rfl
@[simp] theorem State.modStream_pwr (s : State) (k : Nat) (f : Stream → Stream) : (s.modStream k f).pwr = s.pwr := rfl
@[simp] theorem State.modStream_sup (s : State) (k : Nat) (f : Stream → Stream) : (s.modStream k f).sup = s.sup := rfl
@[simp] theorem State.modStream_sec (s : State) (k : Nat) (f : Stream → Stream) : (s.modStream k f).sec = s.sec := rfl
@[simp] theorem State.modStream_flt (s : State) (k : Nat) (f : Stream → Stream) : (s.modStream k f).flt = s.flt := rfl
@[simp] theorem State.modStream_irq (s : State) (k : Nat) (f : Stream → Stream) : (s.modStream k f).irq = s.irq := rfl
@[simp] theorem State.modStream_bus (s : State) (k : Nat) (f : Stream → Stream) : (s.modStream k f).bus = s.bus := rfl
@[simp] theorem State.modStream_dma (s : State) (k : Nat) (f : Stream → Stream) : (s.modStream k f).dma = s.dma := rfl
@[simp] theorem State.modStream_time (s : State) (k : Nat) (f : Stream → Stream) : (s.modStream k f).time = s.time := rfl
@[simp] theorem State.modStream_sched (s : State) (k : Nat) (f : Stream → Stream) : (s.modStream k f).sched = s.sched := rfl
@[simp] theorem State.modStream_fab (s : State) (k : Nat) (f : Stream → Stream) : (s.modStream k f).fab = s.fab := rfl
@[simp] theorem State.modStream_loop (s : State) (k : Nat) (f : Stream → Stream) : (s.modStream k f).loop = s.loop := rfl
@[simp] theorem State.modStream_rings (s : State) (k : Nat) (f : Stream → Stream) : (s.modStream k f).rings = s.rings := rfl
@[simp] theorem State.modStream_arbPos (s : State) (k : Nat) (f : Stream → Stream) : (s.modStream k f).arbPos = s.arbPos := rfl
@[simp] theorem State.modStream_accepts (s : State) (k : Nat) (f : Stream → Stream) : (s.modStream k f).accepts = s.accepts := rfl
@[simp] theorem State.modStream_msixTab (s : State) (k : Nat) (f : Stream → Stream) : (s.modStream k f).msixTab = s.msixTab := rfl
@[simp] theorem State.modStream_msixPba (s : State) (k : Nat) (f : Stream → Stream) : (s.modStream k f).msixPba = s.msixPba := rfl
@[simp] theorem State.modStream_casc (s : State) (k : Nat) (f : Stream → Stream) : (s.modStream k f).casc = s.casc := rfl
@[simp] theorem State.modStream_tst (s : State) (k : Nat) (f : Stream → Stream) : (s.modStream k f).tst = s.tst := rfl
@[simp] theorem State.modStream_tap (s : State) (k : Nat) (f : Stream → Stream) : (s.modStream k f).tap = s.tap := rfl
@[simp] theorem State.modStream_flash (s : State) (k : Nat) (f : Stream → Stream) : (s.modStream k f).flash = s.flash := rfl
@[simp] theorem State.modStream_out (s : State) (k : Nat) (f : Stream → Stream) : (s.modStream k f).out = s.out := rfl
@[simp] theorem State.modStream_free (s : State) (k : Nat) (f : Stream → Stream) : (s.modStream k f).free = s.free := rfl

/-! `modRing` -/
@[simp] theorem State.modRing_pending (s : State) (k : Nat) (f : Ring → Ring) : (s.modRing k f).pending = s.pending := rfl
@[simp] theorem State.modRing_regs (s : State) (k : Nat) (f : Ring → Ring) : (s.modRing k f).regs = s.regs := rfl
@[simp] theorem State.modRing_marks (s : State) (k : Nat) (f : Ring → Ring) : (s.modRing k f).marks = s.marks := rfl
@[simp] theorem State.modRing_latch (s : State) (k : Nat) (f : Ring → Ring) : (s.modRing k f).latch = s.latch := rfl
@[simp] theorem State.modRing_lowHeld (s : State) (k : Nat) (f : Ring → Ring) : (s.modRing k f).lowHeld = s.lowHeld := rfl
@[simp] theorem State.modRing_sram (s : State) (k : Nat) (f : Ring → Ring) : (s.modRing k f).sram = s.sram := rfl
@[simp] theorem State.modRing_openRam (s : State) (k : Nat) (f : Ring → Ring) : (s.modRing k f).openRam = s.openRam := rfl
@[simp] theorem State.modRing_pwr (s : State) (k : Nat) (f : Ring → Ring) : (s.modRing k f).pwr = s.pwr := rfl
@[simp] theorem State.modRing_sup (s : State) (k : Nat) (f : Ring → Ring) : (s.modRing k f).sup = s.sup := rfl
@[simp] theorem State.modRing_sec (s : State) (k : Nat) (f : Ring → Ring) : (s.modRing k f).sec = s.sec := rfl
@[simp] theorem State.modRing_flt (s : State) (k : Nat) (f : Ring → Ring) : (s.modRing k f).flt = s.flt := rfl
@[simp] theorem State.modRing_irq (s : State) (k : Nat) (f : Ring → Ring) : (s.modRing k f).irq = s.irq := rfl
@[simp] theorem State.modRing_bus (s : State) (k : Nat) (f : Ring → Ring) : (s.modRing k f).bus = s.bus := rfl
@[simp] theorem State.modRing_dma (s : State) (k : Nat) (f : Ring → Ring) : (s.modRing k f).dma = s.dma := rfl
@[simp] theorem State.modRing_time (s : State) (k : Nat) (f : Ring → Ring) : (s.modRing k f).time = s.time := rfl
@[simp] theorem State.modRing_sched (s : State) (k : Nat) (f : Ring → Ring) : (s.modRing k f).sched = s.sched := rfl
@[simp] theorem State.modRing_fab (s : State) (k : Nat) (f : Ring → Ring) : (s.modRing k f).fab = s.fab := rfl
@[simp] theorem State.modRing_loop (s : State) (k : Nat) (f : Ring → Ring) : (s.modRing k f).loop = s.loop := rfl
@[simp] theorem State.modRing_ept (s : State) (k : Nat) (f : Ring → Ring) : (s.modRing k f).ept = s.ept := rfl
@[simp] theorem State.modRing_arbPos (s : State) (k : Nat) (f : Ring → Ring) : (s.modRing k f).arbPos = s.arbPos := rfl
@[simp] theorem State.modRing_accepts (s : State) (k : Nat) (f : Ring → Ring) : (s.modRing k f).accepts = s.accepts := rfl
@[simp] theorem State.modRing_msixTab (s : State) (k : Nat) (f : Ring → Ring) : (s.modRing k f).msixTab = s.msixTab := rfl
@[simp] theorem State.modRing_msixPba (s : State) (k : Nat) (f : Ring → Ring) : (s.modRing k f).msixPba = s.msixPba := rfl
@[simp] theorem State.modRing_casc (s : State) (k : Nat) (f : Ring → Ring) : (s.modRing k f).casc = s.casc := rfl
@[simp] theorem State.modRing_tst (s : State) (k : Nat) (f : Ring → Ring) : (s.modRing k f).tst = s.tst := rfl
@[simp] theorem State.modRing_tap (s : State) (k : Nat) (f : Ring → Ring) : (s.modRing k f).tap = s.tap := rfl
@[simp] theorem State.modRing_flash (s : State) (k : Nat) (f : Ring → Ring) : (s.modRing k f).flash = s.flash := rfl
@[simp] theorem State.modRing_out (s : State) (k : Nat) (f : Ring → Ring) : (s.modRing k f).out = s.out := rfl
@[simp] theorem State.modRing_free (s : State) (k : Nat) (f : Ring → Ring) : (s.modRing k f).free = s.free := rfl

/-! `modFsrc` -/
@[simp] theorem State.modFsrc_pending (s : State) (k : Nat) (f : FltSrc → FltSrc) : (s.modFsrc k f).pending = s.pending := rfl
@[simp] theorem State.modFsrc_regs (s : State) (k : Nat) (f : FltSrc → FltSrc) : (s.modFsrc k f).regs = s.regs := rfl
@[simp] theorem State.modFsrc_marks (s : State) (k : Nat) (f : FltSrc → FltSrc) : (s.modFsrc k f).marks = s.marks := rfl
@[simp] theorem State.modFsrc_latch (s : State) (k : Nat) (f : FltSrc → FltSrc) : (s.modFsrc k f).latch = s.latch := rfl
@[simp] theorem State.modFsrc_lowHeld (s : State) (k : Nat) (f : FltSrc → FltSrc) : (s.modFsrc k f).lowHeld = s.lowHeld := rfl
@[simp] theorem State.modFsrc_sram (s : State) (k : Nat) (f : FltSrc → FltSrc) : (s.modFsrc k f).sram = s.sram := rfl
@[simp] theorem State.modFsrc_openRam (s : State) (k : Nat) (f : FltSrc → FltSrc) : (s.modFsrc k f).openRam = s.openRam := rfl
@[simp] theorem State.modFsrc_pwr (s : State) (k : Nat) (f : FltSrc → FltSrc) : (s.modFsrc k f).pwr = s.pwr := rfl
@[simp] theorem State.modFsrc_sup (s : State) (k : Nat) (f : FltSrc → FltSrc) : (s.modFsrc k f).sup = s.sup := rfl
@[simp] theorem State.modFsrc_sec (s : State) (k : Nat) (f : FltSrc → FltSrc) : (s.modFsrc k f).sec = s.sec := rfl
@[simp] theorem State.modFsrc_irq (s : State) (k : Nat) (f : FltSrc → FltSrc) : (s.modFsrc k f).irq = s.irq := rfl
@[simp] theorem State.modFsrc_bus (s : State) (k : Nat) (f : FltSrc → FltSrc) : (s.modFsrc k f).bus = s.bus := rfl
@[simp] theorem State.modFsrc_dma (s : State) (k : Nat) (f : FltSrc → FltSrc) : (s.modFsrc k f).dma = s.dma := rfl
@[simp] theorem State.modFsrc_time (s : State) (k : Nat) (f : FltSrc → FltSrc) : (s.modFsrc k f).time = s.time := rfl
@[simp] theorem State.modFsrc_sched (s : State) (k : Nat) (f : FltSrc → FltSrc) : (s.modFsrc k f).sched = s.sched := rfl
@[simp] theorem State.modFsrc_fab (s : State) (k : Nat) (f : FltSrc → FltSrc) : (s.modFsrc k f).fab = s.fab := rfl
@[simp] theorem State.modFsrc_loop (s : State) (k : Nat) (f : FltSrc → FltSrc) : (s.modFsrc k f).loop = s.loop := rfl
@[simp] theorem State.modFsrc_ept (s : State) (k : Nat) (f : FltSrc → FltSrc) : (s.modFsrc k f).ept = s.ept := rfl
@[simp] theorem State.modFsrc_rings (s : State) (k : Nat) (f : FltSrc → FltSrc) : (s.modFsrc k f).rings = s.rings := rfl
@[simp] theorem State.modFsrc_arbPos (s : State) (k : Nat) (f : FltSrc → FltSrc) : (s.modFsrc k f).arbPos = s.arbPos := rfl
@[simp] theorem State.modFsrc_accepts (s : State) (k : Nat) (f : FltSrc → FltSrc) : (s.modFsrc k f).accepts = s.accepts := rfl
@[simp] theorem State.modFsrc_msixTab (s : State) (k : Nat) (f : FltSrc → FltSrc) : (s.modFsrc k f).msixTab = s.msixTab := rfl
@[simp] theorem State.modFsrc_msixPba (s : State) (k : Nat) (f : FltSrc → FltSrc) : (s.modFsrc k f).msixPba = s.msixPba := rfl
@[simp] theorem State.modFsrc_casc (s : State) (k : Nat) (f : FltSrc → FltSrc) : (s.modFsrc k f).casc = s.casc := rfl
@[simp] theorem State.modFsrc_tst (s : State) (k : Nat) (f : FltSrc → FltSrc) : (s.modFsrc k f).tst = s.tst := rfl
@[simp] theorem State.modFsrc_tap (s : State) (k : Nat) (f : FltSrc → FltSrc) : (s.modFsrc k f).tap = s.tap := rfl
@[simp] theorem State.modFsrc_flash (s : State) (k : Nat) (f : FltSrc → FltSrc) : (s.modFsrc k f).flash = s.flash := rfl
@[simp] theorem State.modFsrc_out (s : State) (k : Nat) (f : FltSrc → FltSrc) : (s.modFsrc k f).out = s.out := rfl
@[simp] theorem State.modFsrc_free (s : State) (k : Nat) (f : FltSrc → FltSrc) : (s.modFsrc k f).free = s.free := rfl

/-! `modDma` -/
@[simp] theorem State.modDma_pending (s : State) (k : Nat) (f : DmaCh → DmaCh) : (s.modDma k f).pending = s.pending := rfl
@[simp] theorem State.modDma_regs (s : State) (k : Nat) (f : DmaCh → DmaCh) : (s.modDma k f).regs = s.regs := rfl
@[simp] theorem State.modDma_marks (s : State) (k : Nat) (f : DmaCh → DmaCh) : (s.modDma k f).marks = s.marks := rfl
@[simp] theorem State.modDma_latch (s : State) (k : Nat) (f : DmaCh → DmaCh) : (s.modDma k f).latch = s.latch := rfl
@[simp] theorem State.modDma_lowHeld (s : State) (k : Nat) (f : DmaCh → DmaCh) : (s.modDma k f).lowHeld = s.lowHeld := rfl
@[simp] theorem State.modDma_sram (s : State) (k : Nat) (f : DmaCh → DmaCh) : (s.modDma k f).sram = s.sram := rfl
@[simp] theorem State.modDma_openRam (s : State) (k : Nat) (f : DmaCh → DmaCh) : (s.modDma k f).openRam = s.openRam := rfl
@[simp] theorem State.modDma_pwr (s : State) (k : Nat) (f : DmaCh → DmaCh) : (s.modDma k f).pwr = s.pwr := rfl
@[simp] theorem State.modDma_sup (s : State) (k : Nat) (f : DmaCh → DmaCh) : (s.modDma k f).sup = s.sup := rfl
@[simp] theorem State.modDma_sec (s : State) (k : Nat) (f : DmaCh → DmaCh) : (s.modDma k f).sec = s.sec := rfl
@[simp] theorem State.modDma_flt (s : State) (k : Nat) (f : DmaCh → DmaCh) : (s.modDma k f).flt = s.flt := rfl
@[simp] theorem State.modDma_irq (s : State) (k : Nat) (f : DmaCh → DmaCh) : (s.modDma k f).irq = s.irq := rfl
@[simp] theorem State.modDma_bus (s : State) (k : Nat) (f : DmaCh → DmaCh) : (s.modDma k f).bus = s.bus := rfl
@[simp] theorem State.modDma_time (s : State) (k : Nat) (f : DmaCh → DmaCh) : (s.modDma k f).time = s.time := rfl
@[simp] theorem State.modDma_sched (s : State) (k : Nat) (f : DmaCh → DmaCh) : (s.modDma k f).sched = s.sched := rfl
@[simp] theorem State.modDma_fab (s : State) (k : Nat) (f : DmaCh → DmaCh) : (s.modDma k f).fab = s.fab := rfl
@[simp] theorem State.modDma_loop (s : State) (k : Nat) (f : DmaCh → DmaCh) : (s.modDma k f).loop = s.loop := rfl
@[simp] theorem State.modDma_ept (s : State) (k : Nat) (f : DmaCh → DmaCh) : (s.modDma k f).ept = s.ept := rfl
@[simp] theorem State.modDma_rings (s : State) (k : Nat) (f : DmaCh → DmaCh) : (s.modDma k f).rings = s.rings := rfl
@[simp] theorem State.modDma_arbPos (s : State) (k : Nat) (f : DmaCh → DmaCh) : (s.modDma k f).arbPos = s.arbPos := rfl
@[simp] theorem State.modDma_accepts (s : State) (k : Nat) (f : DmaCh → DmaCh) : (s.modDma k f).accepts = s.accepts := rfl
@[simp] theorem State.modDma_msixTab (s : State) (k : Nat) (f : DmaCh → DmaCh) : (s.modDma k f).msixTab = s.msixTab := rfl
@[simp] theorem State.modDma_msixPba (s : State) (k : Nat) (f : DmaCh → DmaCh) : (s.modDma k f).msixPba = s.msixPba := rfl
@[simp] theorem State.modDma_casc (s : State) (k : Nat) (f : DmaCh → DmaCh) : (s.modDma k f).casc = s.casc := rfl
@[simp] theorem State.modDma_tst (s : State) (k : Nat) (f : DmaCh → DmaCh) : (s.modDma k f).tst = s.tst := rfl
@[simp] theorem State.modDma_tap (s : State) (k : Nat) (f : DmaCh → DmaCh) : (s.modDma k f).tap = s.tap := rfl
@[simp] theorem State.modDma_flash (s : State) (k : Nat) (f : DmaCh → DmaCh) : (s.modDma k f).flash = s.flash := rfl
@[simp] theorem State.modDma_out (s : State) (k : Nat) (f : DmaCh → DmaCh) : (s.modDma k f).out = s.out := rfl
@[simp] theorem State.modDma_free (s : State) (k : Nat) (f : DmaCh → DmaCh) : (s.modDma k f).free = s.free := rfl

/-! `modKey` -/
@[simp] theorem State.modKey_pending (s : State) (k : Nat) (f : Key → Key) : (s.modKey k f).pending = s.pending := rfl
@[simp] theorem State.modKey_regs (s : State) (k : Nat) (f : Key → Key) : (s.modKey k f).regs = s.regs := rfl
@[simp] theorem State.modKey_marks (s : State) (k : Nat) (f : Key → Key) : (s.modKey k f).marks = s.marks := rfl
@[simp] theorem State.modKey_latch (s : State) (k : Nat) (f : Key → Key) : (s.modKey k f).latch = s.latch := rfl
@[simp] theorem State.modKey_lowHeld (s : State) (k : Nat) (f : Key → Key) : (s.modKey k f).lowHeld = s.lowHeld := rfl
@[simp] theorem State.modKey_sram (s : State) (k : Nat) (f : Key → Key) : (s.modKey k f).sram = s.sram := rfl
@[simp] theorem State.modKey_openRam (s : State) (k : Nat) (f : Key → Key) : (s.modKey k f).openRam = s.openRam := rfl
@[simp] theorem State.modKey_pwr (s : State) (k : Nat) (f : Key → Key) : (s.modKey k f).pwr = s.pwr := rfl
@[simp] theorem State.modKey_sup (s : State) (k : Nat) (f : Key → Key) : (s.modKey k f).sup = s.sup := rfl
@[simp] theorem State.modKey_flt (s : State) (k : Nat) (f : Key → Key) : (s.modKey k f).flt = s.flt := rfl
@[simp] theorem State.modKey_irq (s : State) (k : Nat) (f : Key → Key) : (s.modKey k f).irq = s.irq := rfl
@[simp] theorem State.modKey_bus (s : State) (k : Nat) (f : Key → Key) : (s.modKey k f).bus = s.bus := rfl
@[simp] theorem State.modKey_dma (s : State) (k : Nat) (f : Key → Key) : (s.modKey k f).dma = s.dma := rfl
@[simp] theorem State.modKey_time (s : State) (k : Nat) (f : Key → Key) : (s.modKey k f).time = s.time := rfl
@[simp] theorem State.modKey_sched (s : State) (k : Nat) (f : Key → Key) : (s.modKey k f).sched = s.sched := rfl
@[simp] theorem State.modKey_fab (s : State) (k : Nat) (f : Key → Key) : (s.modKey k f).fab = s.fab := rfl
@[simp] theorem State.modKey_loop (s : State) (k : Nat) (f : Key → Key) : (s.modKey k f).loop = s.loop := rfl
@[simp] theorem State.modKey_ept (s : State) (k : Nat) (f : Key → Key) : (s.modKey k f).ept = s.ept := rfl
@[simp] theorem State.modKey_rings (s : State) (k : Nat) (f : Key → Key) : (s.modKey k f).rings = s.rings := rfl
@[simp] theorem State.modKey_arbPos (s : State) (k : Nat) (f : Key → Key) : (s.modKey k f).arbPos = s.arbPos := rfl
@[simp] theorem State.modKey_accepts (s : State) (k : Nat) (f : Key → Key) : (s.modKey k f).accepts = s.accepts := rfl
@[simp] theorem State.modKey_msixTab (s : State) (k : Nat) (f : Key → Key) : (s.modKey k f).msixTab = s.msixTab := rfl
@[simp] theorem State.modKey_msixPba (s : State) (k : Nat) (f : Key → Key) : (s.modKey k f).msixPba = s.msixPba := rfl
@[simp] theorem State.modKey_casc (s : State) (k : Nat) (f : Key → Key) : (s.modKey k f).casc = s.casc := rfl
@[simp] theorem State.modKey_tst (s : State) (k : Nat) (f : Key → Key) : (s.modKey k f).tst = s.tst := rfl
@[simp] theorem State.modKey_tap (s : State) (k : Nat) (f : Key → Key) : (s.modKey k f).tap = s.tap := rfl
@[simp] theorem State.modKey_flash (s : State) (k : Nat) (f : Key → Key) : (s.modKey k f).flash = s.flash := rfl
@[simp] theorem State.modKey_out (s : State) (k : Nat) (f : Key → Key) : (s.modKey k f).out = s.out := rfl
@[simp] theorem State.modKey_free (s : State) (k : Nat) (f : Key → Key) : (s.modKey k f).free = s.free := rfl

/-! `modImg` -/
@[simp] theorem State.modImg_pending (s : State) (k : Nat) (f : ImgSlot → ImgSlot) : (s.modImg k f).pending = s.pending := rfl
@[simp] theorem State.modImg_regs (s : State) (k : Nat) (f : ImgSlot → ImgSlot) : (s.modImg k f).regs = s.regs := rfl
@[simp] theorem State.modImg_marks (s : State) (k : Nat) (f : ImgSlot → ImgSlot) : (s.modImg k f).marks = s.marks := rfl
@[simp] theorem State.modImg_latch (s : State) (k : Nat) (f : ImgSlot → ImgSlot) : (s.modImg k f).latch = s.latch := rfl
@[simp] theorem State.modImg_lowHeld (s : State) (k : Nat) (f : ImgSlot → ImgSlot) : (s.modImg k f).lowHeld = s.lowHeld := rfl
@[simp] theorem State.modImg_sram (s : State) (k : Nat) (f : ImgSlot → ImgSlot) : (s.modImg k f).sram = s.sram := rfl
@[simp] theorem State.modImg_openRam (s : State) (k : Nat) (f : ImgSlot → ImgSlot) : (s.modImg k f).openRam = s.openRam := rfl
@[simp] theorem State.modImg_pwr (s : State) (k : Nat) (f : ImgSlot → ImgSlot) : (s.modImg k f).pwr = s.pwr := rfl
@[simp] theorem State.modImg_sup (s : State) (k : Nat) (f : ImgSlot → ImgSlot) : (s.modImg k f).sup = s.sup := rfl
@[simp] theorem State.modImg_sec (s : State) (k : Nat) (f : ImgSlot → ImgSlot) : (s.modImg k f).sec = s.sec := rfl
@[simp] theorem State.modImg_flt (s : State) (k : Nat) (f : ImgSlot → ImgSlot) : (s.modImg k f).flt = s.flt := rfl
@[simp] theorem State.modImg_irq (s : State) (k : Nat) (f : ImgSlot → ImgSlot) : (s.modImg k f).irq = s.irq := rfl
@[simp] theorem State.modImg_bus (s : State) (k : Nat) (f : ImgSlot → ImgSlot) : (s.modImg k f).bus = s.bus := rfl
@[simp] theorem State.modImg_dma (s : State) (k : Nat) (f : ImgSlot → ImgSlot) : (s.modImg k f).dma = s.dma := rfl
@[simp] theorem State.modImg_time (s : State) (k : Nat) (f : ImgSlot → ImgSlot) : (s.modImg k f).time = s.time := rfl
@[simp] theorem State.modImg_sched (s : State) (k : Nat) (f : ImgSlot → ImgSlot) : (s.modImg k f).sched = s.sched := rfl
@[simp] theorem State.modImg_fab (s : State) (k : Nat) (f : ImgSlot → ImgSlot) : (s.modImg k f).fab = s.fab := rfl
@[simp] theorem State.modImg_loop (s : State) (k : Nat) (f : ImgSlot → ImgSlot) : (s.modImg k f).loop = s.loop := rfl
@[simp] theorem State.modImg_ept (s : State) (k : Nat) (f : ImgSlot → ImgSlot) : (s.modImg k f).ept = s.ept := rfl
@[simp] theorem State.modImg_rings (s : State) (k : Nat) (f : ImgSlot → ImgSlot) : (s.modImg k f).rings = s.rings := rfl
@[simp] theorem State.modImg_arbPos (s : State) (k : Nat) (f : ImgSlot → ImgSlot) : (s.modImg k f).arbPos = s.arbPos := rfl
@[simp] theorem State.modImg_accepts (s : State) (k : Nat) (f : ImgSlot → ImgSlot) : (s.modImg k f).accepts = s.accepts := rfl
@[simp] theorem State.modImg_msixTab (s : State) (k : Nat) (f : ImgSlot → ImgSlot) : (s.modImg k f).msixTab = s.msixTab := rfl
@[simp] theorem State.modImg_msixPba (s : State) (k : Nat) (f : ImgSlot → ImgSlot) : (s.modImg k f).msixPba = s.msixPba := rfl
@[simp] theorem State.modImg_casc (s : State) (k : Nat) (f : ImgSlot → ImgSlot) : (s.modImg k f).casc = s.casc := rfl
@[simp] theorem State.modImg_tst (s : State) (k : Nat) (f : ImgSlot → ImgSlot) : (s.modImg k f).tst = s.tst := rfl
@[simp] theorem State.modImg_tap (s : State) (k : Nat) (f : ImgSlot → ImgSlot) : (s.modImg k f).tap = s.tap := rfl
@[simp] theorem State.modImg_out (s : State) (k : Nat) (f : ImgSlot → ImgSlot) : (s.modImg k f).out = s.out := rfl
@[simp] theorem State.modImg_free (s : State) (k : Nat) (f : ImgSlot → ImgSlot) : (s.modImg k f).free = s.free := rfl

/-! `modInst` -/
@[simp] theorem State.modInst_pending (s : State) (k : Nat) (f : PtpInst → PtpInst) : (s.modInst k f).pending = s.pending := rfl
@[simp] theorem State.modInst_regs (s : State) (k : Nat) (f : PtpInst → PtpInst) : (s.modInst k f).regs = s.regs := rfl
@[simp] theorem State.modInst_marks (s : State) (k : Nat) (f : PtpInst → PtpInst) : (s.modInst k f).marks = s.marks := rfl
@[simp] theorem State.modInst_latch (s : State) (k : Nat) (f : PtpInst → PtpInst) : (s.modInst k f).latch = s.latch := rfl
@[simp] theorem State.modInst_lowHeld (s : State) (k : Nat) (f : PtpInst → PtpInst) : (s.modInst k f).lowHeld = s.lowHeld := rfl
@[simp] theorem State.modInst_sram (s : State) (k : Nat) (f : PtpInst → PtpInst) : (s.modInst k f).sram = s.sram := rfl
@[simp] theorem State.modInst_openRam (s : State) (k : Nat) (f : PtpInst → PtpInst) : (s.modInst k f).openRam = s.openRam := rfl
@[simp] theorem State.modInst_pwr (s : State) (k : Nat) (f : PtpInst → PtpInst) : (s.modInst k f).pwr = s.pwr := rfl
@[simp] theorem State.modInst_sup (s : State) (k : Nat) (f : PtpInst → PtpInst) : (s.modInst k f).sup = s.sup := rfl
@[simp] theorem State.modInst_sec (s : State) (k : Nat) (f : PtpInst → PtpInst) : (s.modInst k f).sec = s.sec := rfl
@[simp] theorem State.modInst_flt (s : State) (k : Nat) (f : PtpInst → PtpInst) : (s.modInst k f).flt = s.flt := rfl
@[simp] theorem State.modInst_irq (s : State) (k : Nat) (f : PtpInst → PtpInst) : (s.modInst k f).irq = s.irq := rfl
@[simp] theorem State.modInst_bus (s : State) (k : Nat) (f : PtpInst → PtpInst) : (s.modInst k f).bus = s.bus := rfl
@[simp] theorem State.modInst_dma (s : State) (k : Nat) (f : PtpInst → PtpInst) : (s.modInst k f).dma = s.dma := rfl
@[simp] theorem State.modInst_sched (s : State) (k : Nat) (f : PtpInst → PtpInst) : (s.modInst k f).sched = s.sched := rfl
@[simp] theorem State.modInst_fab (s : State) (k : Nat) (f : PtpInst → PtpInst) : (s.modInst k f).fab = s.fab := rfl
@[simp] theorem State.modInst_loop (s : State) (k : Nat) (f : PtpInst → PtpInst) : (s.modInst k f).loop = s.loop := rfl
@[simp] theorem State.modInst_ept (s : State) (k : Nat) (f : PtpInst → PtpInst) : (s.modInst k f).ept = s.ept := rfl
@[simp] theorem State.modInst_rings (s : State) (k : Nat) (f : PtpInst → PtpInst) : (s.modInst k f).rings = s.rings := rfl
@[simp] theorem State.modInst_arbPos (s : State) (k : Nat) (f : PtpInst → PtpInst) : (s.modInst k f).arbPos = s.arbPos := rfl
@[simp] theorem State.modInst_accepts (s : State) (k : Nat) (f : PtpInst → PtpInst) : (s.modInst k f).accepts = s.accepts := rfl
@[simp] theorem State.modInst_msixTab (s : State) (k : Nat) (f : PtpInst → PtpInst) : (s.modInst k f).msixTab = s.msixTab := rfl
@[simp] theorem State.modInst_msixPba (s : State) (k : Nat) (f : PtpInst → PtpInst) : (s.modInst k f).msixPba = s.msixPba := rfl
@[simp] theorem State.modInst_casc (s : State) (k : Nat) (f : PtpInst → PtpInst) : (s.modInst k f).casc = s.casc := rfl
@[simp] theorem State.modInst_tst (s : State) (k : Nat) (f : PtpInst → PtpInst) : (s.modInst k f).tst = s.tst := rfl
@[simp] theorem State.modInst_tap (s : State) (k : Nat) (f : PtpInst → PtpInst) : (s.modInst k f).tap = s.tap := rfl
@[simp] theorem State.modInst_flash (s : State) (k : Nat) (f : PtpInst → PtpInst) : (s.modInst k f).flash = s.flash := rfl
@[simp] theorem State.modInst_out (s : State) (k : Nat) (f : PtpInst → PtpInst) : (s.modInst k f).out = s.out := rfl
@[simp] theorem State.modInst_free (s : State) (k : Nat) (f : PtpInst → PtpInst) : (s.modInst k f).free = s.free := rfl

/-! `modDelay` -/
@[simp] theorem State.modDelay_pending (s : State) (k : Nat) (f : LinkDelay → LinkDelay) : (s.modDelay k f).pending = s.pending := rfl
@[simp] theorem State.modDelay_regs (s : State) (k : Nat) (f : LinkDelay → LinkDelay) : (s.modDelay k f).regs = s.regs := rfl
@[simp] theorem State.modDelay_marks (s : State) (k : Nat) (f : LinkDelay → LinkDelay) : (s.modDelay k f).marks = s.marks := rfl
@[simp] theorem State.modDelay_latch (s : State) (k : Nat) (f : LinkDelay → LinkDelay) : (s.modDelay k f).latch = s.latch := rfl
@[simp] theorem State.modDelay_lowHeld (s : State) (k : Nat) (f : LinkDelay → LinkDelay) : (s.modDelay k f).lowHeld = s.lowHeld := rfl
@[simp] theorem State.modDelay_sram (s : State) (k : Nat) (f : LinkDelay → LinkDelay) : (s.modDelay k f).sram = s.sram := rfl
@[simp] theorem State.modDelay_openRam (s : State) (k : Nat) (f : LinkDelay → LinkDelay) : (s.modDelay k f).openRam = s.openRam := rfl
@[simp] theorem State.modDelay_pwr (s : State) (k : Nat) (f : LinkDelay → LinkDelay) : (s.modDelay k f).pwr = s.pwr := rfl
@[simp] theorem State.modDelay_sup (s : State) (k : Nat) (f : LinkDelay → LinkDelay) : (s.modDelay k f).sup = s.sup := rfl
@[simp] theorem State.modDelay_sec (s : State) (k : Nat) (f : LinkDelay → LinkDelay) : (s.modDelay k f).sec = s.sec := rfl
@[simp] theorem State.modDelay_flt (s : State) (k : Nat) (f : LinkDelay → LinkDelay) : (s.modDelay k f).flt = s.flt := rfl
@[simp] theorem State.modDelay_irq (s : State) (k : Nat) (f : LinkDelay → LinkDelay) : (s.modDelay k f).irq = s.irq := rfl
@[simp] theorem State.modDelay_bus (s : State) (k : Nat) (f : LinkDelay → LinkDelay) : (s.modDelay k f).bus = s.bus := rfl
@[simp] theorem State.modDelay_dma (s : State) (k : Nat) (f : LinkDelay → LinkDelay) : (s.modDelay k f).dma = s.dma := rfl
@[simp] theorem State.modDelay_sched (s : State) (k : Nat) (f : LinkDelay → LinkDelay) : (s.modDelay k f).sched = s.sched := rfl
@[simp] theorem State.modDelay_fab (s : State) (k : Nat) (f : LinkDelay → LinkDelay) : (s.modDelay k f).fab = s.fab := rfl
@[simp] theorem State.modDelay_loop (s : State) (k : Nat) (f : LinkDelay → LinkDelay) : (s.modDelay k f).loop = s.loop := rfl
@[simp] theorem State.modDelay_ept (s : State) (k : Nat) (f : LinkDelay → LinkDelay) : (s.modDelay k f).ept = s.ept := rfl
@[simp] theorem State.modDelay_rings (s : State) (k : Nat) (f : LinkDelay → LinkDelay) : (s.modDelay k f).rings = s.rings := rfl
@[simp] theorem State.modDelay_arbPos (s : State) (k : Nat) (f : LinkDelay → LinkDelay) : (s.modDelay k f).arbPos = s.arbPos := rfl
@[simp] theorem State.modDelay_accepts (s : State) (k : Nat) (f : LinkDelay → LinkDelay) : (s.modDelay k f).accepts = s.accepts := rfl
@[simp] theorem State.modDelay_msixTab (s : State) (k : Nat) (f : LinkDelay → LinkDelay) : (s.modDelay k f).msixTab = s.msixTab := rfl
@[simp] theorem State.modDelay_msixPba (s : State) (k : Nat) (f : LinkDelay → LinkDelay) : (s.modDelay k f).msixPba = s.msixPba := rfl
@[simp] theorem State.modDelay_casc (s : State) (k : Nat) (f : LinkDelay → LinkDelay) : (s.modDelay k f).casc = s.casc := rfl
@[simp] theorem State.modDelay_tst (s : State) (k : Nat) (f : LinkDelay → LinkDelay) : (s.modDelay k f).tst = s.tst := rfl
@[simp] theorem State.modDelay_tap (s : State) (k : Nat) (f : LinkDelay → LinkDelay) : (s.modDelay k f).tap = s.tap := rfl
@[simp] theorem State.modDelay_flash (s : State) (k : Nat) (f : LinkDelay → LinkDelay) : (s.modDelay k f).flash = s.flash := rfl
@[simp] theorem State.modDelay_out (s : State) (k : Nat) (f : LinkDelay → LinkDelay) : (s.modDelay k f).out = s.out := rfl
@[simp] theorem State.modDelay_free (s : State) (k : Nat) (f : LinkDelay → LinkDelay) : (s.modDelay k f).free = s.free := rfl

/-! `modIrq` -/
@[simp] theorem State.modIrq_pending (s : State) (k : Nat) (f : IrqSrc → IrqSrc) : (s.modIrq k f).pending = s.pending := rfl
@[simp] theorem State.modIrq_regs (s : State) (k : Nat) (f : IrqSrc → IrqSrc) : (s.modIrq k f).regs = s.regs := rfl
@[simp] theorem State.modIrq_marks (s : State) (k : Nat) (f : IrqSrc → IrqSrc) : (s.modIrq k f).marks = s.marks := rfl
@[simp] theorem State.modIrq_latch (s : State) (k : Nat) (f : IrqSrc → IrqSrc) : (s.modIrq k f).latch = s.latch := rfl
@[simp] theorem State.modIrq_lowHeld (s : State) (k : Nat) (f : IrqSrc → IrqSrc) : (s.modIrq k f).lowHeld = s.lowHeld := rfl
@[simp] theorem State.modIrq_sram (s : State) (k : Nat) (f : IrqSrc → IrqSrc) : (s.modIrq k f).sram = s.sram := rfl
@[simp] theorem State.modIrq_openRam (s : State) (k : Nat) (f : IrqSrc → IrqSrc) : (s.modIrq k f).openRam = s.openRam := rfl
@[simp] theorem State.modIrq_pwr (s : State) (k : Nat) (f : IrqSrc → IrqSrc) : (s.modIrq k f).pwr = s.pwr := rfl
@[simp] theorem State.modIrq_sup (s : State) (k : Nat) (f : IrqSrc → IrqSrc) : (s.modIrq k f).sup = s.sup := rfl
@[simp] theorem State.modIrq_sec (s : State) (k : Nat) (f : IrqSrc → IrqSrc) : (s.modIrq k f).sec = s.sec := rfl
@[simp] theorem State.modIrq_flt (s : State) (k : Nat) (f : IrqSrc → IrqSrc) : (s.modIrq k f).flt = s.flt := rfl
@[simp] theorem State.modIrq_bus (s : State) (k : Nat) (f : IrqSrc → IrqSrc) : (s.modIrq k f).bus = s.bus := rfl
@[simp] theorem State.modIrq_dma (s : State) (k : Nat) (f : IrqSrc → IrqSrc) : (s.modIrq k f).dma = s.dma := rfl
@[simp] theorem State.modIrq_time (s : State) (k : Nat) (f : IrqSrc → IrqSrc) : (s.modIrq k f).time = s.time := rfl
@[simp] theorem State.modIrq_sched (s : State) (k : Nat) (f : IrqSrc → IrqSrc) : (s.modIrq k f).sched = s.sched := rfl
@[simp] theorem State.modIrq_fab (s : State) (k : Nat) (f : IrqSrc → IrqSrc) : (s.modIrq k f).fab = s.fab := rfl
@[simp] theorem State.modIrq_loop (s : State) (k : Nat) (f : IrqSrc → IrqSrc) : (s.modIrq k f).loop = s.loop := rfl
@[simp] theorem State.modIrq_ept (s : State) (k : Nat) (f : IrqSrc → IrqSrc) : (s.modIrq k f).ept = s.ept := rfl
@[simp] theorem State.modIrq_rings (s : State) (k : Nat) (f : IrqSrc → IrqSrc) : (s.modIrq k f).rings = s.rings := rfl
@[simp] theorem State.modIrq_arbPos (s : State) (k : Nat) (f : IrqSrc → IrqSrc) : (s.modIrq k f).arbPos = s.arbPos := rfl
@[simp] theorem State.modIrq_accepts (s : State) (k : Nat) (f : IrqSrc → IrqSrc) : (s.modIrq k f).accepts = s.accepts := rfl
@[simp] theorem State.modIrq_msixTab (s : State) (k : Nat) (f : IrqSrc → IrqSrc) : (s.modIrq k f).msixTab = s.msixTab := rfl
@[simp] theorem State.modIrq_msixPba (s : State) (k : Nat) (f : IrqSrc → IrqSrc) : (s.modIrq k f).msixPba = s.msixPba := rfl
@[simp] theorem State.modIrq_casc (s : State) (k : Nat) (f : IrqSrc → IrqSrc) : (s.modIrq k f).casc = s.casc := rfl
@[simp] theorem State.modIrq_tst (s : State) (k : Nat) (f : IrqSrc → IrqSrc) : (s.modIrq k f).tst = s.tst := rfl
@[simp] theorem State.modIrq_tap (s : State) (k : Nat) (f : IrqSrc → IrqSrc) : (s.modIrq k f).tap = s.tap := rfl
@[simp] theorem State.modIrq_flash (s : State) (k : Nat) (f : IrqSrc → IrqSrc) : (s.modIrq k f).flash = s.flash := rfl
@[simp] theorem State.modIrq_out (s : State) (k : Nat) (f : IrqSrc → IrqSrc) : (s.modIrq k f).out = s.out := rfl
@[simp] theorem State.modIrq_free (s : State) (k : Nat) (f : IrqSrc → IrqSrc) : (s.modIrq k f).free = s.free := rfl

/-! `setRg` -/
@[simp] theorem State.setRg_pending (s : State) (r : Reg) (i w : Nat) (v : Word) : (s.setRg r i w v).pending = s.pending := rfl
@[simp] theorem State.setRg_marks (s : State) (r : Reg) (i w : Nat) (v : Word) : (s.setRg r i w v).marks = s.marks := rfl
@[simp] theorem State.setRg_latch (s : State) (r : Reg) (i w : Nat) (v : Word) : (s.setRg r i w v).latch = s.latch := rfl
@[simp] theorem State.setRg_lowHeld (s : State) (r : Reg) (i w : Nat) (v : Word) : (s.setRg r i w v).lowHeld = s.lowHeld := rfl
@[simp] theorem State.setRg_sram (s : State) (r : Reg) (i w : Nat) (v : Word) : (s.setRg r i w v).sram = s.sram := rfl
@[simp] theorem State.setRg_openRam (s : State) (r : Reg) (i w : Nat) (v : Word) : (s.setRg r i w v).openRam = s.openRam := rfl
@[simp] theorem State.setRg_pwr (s : State) (r : Reg) (i w : Nat) (v : Word) : (s.setRg r i w v).pwr = s.pwr := rfl
@[simp] theorem State.setRg_sup (s : State) (r : Reg) (i w : Nat) (v : Word) : (s.setRg r i w v).sup = s.sup := rfl
@[simp] theorem State.setRg_sec (s : State) (r : Reg) (i w : Nat) (v : Word) : (s.setRg r i w v).sec = s.sec := rfl
@[simp] theorem State.setRg_flt (s : State) (r : Reg) (i w : Nat) (v : Word) : (s.setRg r i w v).flt = s.flt := rfl
@[simp] theorem State.setRg_irq (s : State) (r : Reg) (i w : Nat) (v : Word) : (s.setRg r i w v).irq = s.irq := rfl
@[simp] theorem State.setRg_bus (s : State) (r : Reg) (i w : Nat) (v : Word) : (s.setRg r i w v).bus = s.bus := rfl
@[simp] theorem State.setRg_dma (s : State) (r : Reg) (i w : Nat) (v : Word) : (s.setRg r i w v).dma = s.dma := rfl
@[simp] theorem State.setRg_time (s : State) (r : Reg) (i w : Nat) (v : Word) : (s.setRg r i w v).time = s.time := rfl
@[simp] theorem State.setRg_sched (s : State) (r : Reg) (i w : Nat) (v : Word) : (s.setRg r i w v).sched = s.sched := rfl
@[simp] theorem State.setRg_fab (s : State) (r : Reg) (i w : Nat) (v : Word) : (s.setRg r i w v).fab = s.fab := rfl
@[simp] theorem State.setRg_loop (s : State) (r : Reg) (i w : Nat) (v : Word) : (s.setRg r i w v).loop = s.loop := rfl
@[simp] theorem State.setRg_ept (s : State) (r : Reg) (i w : Nat) (v : Word) : (s.setRg r i w v).ept = s.ept := rfl
@[simp] theorem State.setRg_rings (s : State) (r : Reg) (i w : Nat) (v : Word) : (s.setRg r i w v).rings = s.rings := rfl
@[simp] theorem State.setRg_arbPos (s : State) (r : Reg) (i w : Nat) (v : Word) : (s.setRg r i w v).arbPos = s.arbPos := rfl
@[simp] theorem State.setRg_accepts (s : State) (r : Reg) (i w : Nat) (v : Word) : (s.setRg r i w v).accepts = s.accepts := rfl
@[simp] theorem State.setRg_msixTab (s : State) (r : Reg) (i w : Nat) (v : Word) : (s.setRg r i w v).msixTab = s.msixTab := rfl
@[simp] theorem State.setRg_msixPba (s : State) (r : Reg) (i w : Nat) (v : Word) : (s.setRg r i w v).msixPba = s.msixPba := rfl
@[simp] theorem State.setRg_casc (s : State) (r : Reg) (i w : Nat) (v : Word) : (s.setRg r i w v).casc = s.casc := rfl
@[simp] theorem State.setRg_tst (s : State) (r : Reg) (i w : Nat) (v : Word) : (s.setRg r i w v).tst = s.tst := rfl
@[simp] theorem State.setRg_tap (s : State) (r : Reg) (i w : Nat) (v : Word) : (s.setRg r i w v).tap = s.tap := rfl
@[simp] theorem State.setRg_flash (s : State) (r : Reg) (i w : Nat) (v : Word) : (s.setRg r i w v).flash = s.flash := rfl
@[simp] theorem State.setRg_out (s : State) (r : Reg) (i w : Nat) (v : Word) : (s.setRg r i w v).out = s.out := rfl
@[simp] theorem State.setRg_free (s : State) (r : Reg) (i w : Nat) (v : Word) : (s.setRg r i w v).free = s.free := rfl

/-! `putReg` -/
@[simp] theorem State.putReg_pending (s : State) (r : Reg) (i w : Nat) (v : Word) : (s.putReg r i w v).pending = s.pending := rfl
@[simp] theorem State.putReg_marks (s : State) (r : Reg) (i w : Nat) (v : Word) : (s.putReg r i w v).marks = s.marks := rfl
@[simp] theorem State.putReg_latch (s : State) (r : Reg) (i w : Nat) (v : Word) : (s.putReg r i w v).latch = s.latch := rfl
@[simp] theorem State.putReg_lowHeld (s : State) (r : Reg) (i w : Nat) (v : Word) : (s.putReg r i w v).lowHeld = s.lowHeld := rfl
@[simp] theorem State.putReg_sram (s : State) (r : Reg) (i w : Nat) (v : Word) : (s.putReg r i w v).sram = s.sram := rfl
@[simp] theorem State.putReg_openRam (s : State) (r : Reg) (i w : Nat) (v : Word) : (s.putReg r i w v).openRam = s.openRam := rfl
@[simp] theorem State.putReg_pwr (s : State) (r : Reg) (i w : Nat) (v : Word) : (s.putReg r i w v).pwr = s.pwr := rfl
@[simp] theorem State.putReg_sup (s : State) (r : Reg) (i w : Nat) (v : Word) : (s.putReg r i w v).sup = s.sup := rfl
@[simp] theorem State.putReg_sec (s : State) (r : Reg) (i w : Nat) (v : Word) : (s.putReg r i w v).sec = s.sec := rfl
@[simp] theorem State.putReg_flt (s : State) (r : Reg) (i w : Nat) (v : Word) : (s.putReg r i w v).flt = s.flt := rfl
@[simp] theorem State.putReg_irq (s : State) (r : Reg) (i w : Nat) (v : Word) : (s.putReg r i w v).irq = s.irq := rfl
@[simp] theorem State.putReg_bus (s : State) (r : Reg) (i w : Nat) (v : Word) : (s.putReg r i w v).bus = s.bus := rfl
@[simp] theorem State.putReg_dma (s : State) (r : Reg) (i w : Nat) (v : Word) : (s.putReg r i w v).dma = s.dma := rfl
@[simp] theorem State.putReg_time (s : State) (r : Reg) (i w : Nat) (v : Word) : (s.putReg r i w v).time = s.time := rfl
@[simp] theorem State.putReg_sched (s : State) (r : Reg) (i w : Nat) (v : Word) : (s.putReg r i w v).sched = s.sched := rfl
@[simp] theorem State.putReg_fab (s : State) (r : Reg) (i w : Nat) (v : Word) : (s.putReg r i w v).fab = s.fab := rfl
@[simp] theorem State.putReg_loop (s : State) (r : Reg) (i w : Nat) (v : Word) : (s.putReg r i w v).loop = s.loop := rfl
@[simp] theorem State.putReg_ept (s : State) (r : Reg) (i w : Nat) (v : Word) : (s.putReg r i w v).ept = s.ept := rfl
@[simp] theorem State.putReg_rings (s : State) (r : Reg) (i w : Nat) (v : Word) : (s.putReg r i w v).rings = s.rings := rfl
@[simp] theorem State.putReg_arbPos (s : State) (r : Reg) (i w : Nat) (v : Word) : (s.putReg r i w v).arbPos = s.arbPos := rfl
@[simp] theorem State.putReg_accepts (s : State) (r : Reg) (i w : Nat) (v : Word) : (s.putReg r i w v).accepts = s.accepts := rfl
@[simp] theorem State.putReg_msixTab (s : State) (r : Reg) (i w : Nat) (v : Word) : (s.putReg r i w v).msixTab = s.msixTab := rfl
@[simp] theorem State.putReg_msixPba (s : State) (r : Reg) (i w : Nat) (v : Word) : (s.putReg r i w v).msixPba = s.msixPba := rfl
@[simp] theorem State.putReg_casc (s : State) (r : Reg) (i w : Nat) (v : Word) : (s.putReg r i w v).casc = s.casc := rfl
@[simp] theorem State.putReg_tst (s : State) (r : Reg) (i w : Nat) (v : Word) : (s.putReg r i w v).tst = s.tst := rfl
@[simp] theorem State.putReg_tap (s : State) (r : Reg) (i w : Nat) (v : Word) : (s.putReg r i w v).tap = s.tap := rfl
@[simp] theorem State.putReg_flash (s : State) (r : Reg) (i w : Nat) (v : Word) : (s.putReg r i w v).flash = s.flash := rfl
@[simp] theorem State.putReg_out (s : State) (r : Reg) (i w : Nat) (v : Word) : (s.putReg r i w v).out = s.out := rfl
@[simp] theorem State.putReg_free (s : State) (r : Reg) (i w : Nat) (v : Word) : (s.putReg r i w v).free = s.free := rfl

/-! `emit` -/
@[simp] theorem State.emit_pending (s : State) (o : Output) : (s.emit o).pending = s.pending := rfl
@[simp] theorem State.emit_regs (s : State) (o : Output) : (s.emit o).regs = s.regs := rfl
@[simp] theorem State.emit_marks (s : State) (o : Output) : (s.emit o).marks = s.marks := rfl
@[simp] theorem State.emit_latch (s : State) (o : Output) : (s.emit o).latch = s.latch := rfl
@[simp] theorem State.emit_lowHeld (s : State) (o : Output) : (s.emit o).lowHeld = s.lowHeld := rfl
@[simp] theorem State.emit_sram (s : State) (o : Output) : (s.emit o).sram = s.sram := rfl
@[simp] theorem State.emit_openRam (s : State) (o : Output) : (s.emit o).openRam = s.openRam := rfl
@[simp] theorem State.emit_pwr (s : State) (o : Output) : (s.emit o).pwr = s.pwr := rfl
@[simp] theorem State.emit_sup (s : State) (o : Output) : (s.emit o).sup = s.sup := rfl
@[simp] theorem State.emit_sec (s : State) (o : Output) : (s.emit o).sec = s.sec := rfl
@[simp] theorem State.emit_flt (s : State) (o : Output) : (s.emit o).flt = s.flt := rfl
@[simp] theorem State.emit_irq (s : State) (o : Output) : (s.emit o).irq = s.irq := rfl
@[simp] theorem State.emit_bus (s : State) (o : Output) : (s.emit o).bus = s.bus := rfl
@[simp] theorem State.emit_dma (s : State) (o : Output) : (s.emit o).dma = s.dma := rfl
@[simp] theorem State.emit_time (s : State) (o : Output) : (s.emit o).time = s.time := rfl
@[simp] theorem State.emit_sched (s : State) (o : Output) : (s.emit o).sched = s.sched := rfl
@[simp] theorem State.emit_fab (s : State) (o : Output) : (s.emit o).fab = s.fab := rfl
@[simp] theorem State.emit_loop (s : State) (o : Output) : (s.emit o).loop = s.loop := rfl
@[simp] theorem State.emit_ept (s : State) (o : Output) : (s.emit o).ept = s.ept := rfl
@[simp] theorem State.emit_rings (s : State) (o : Output) : (s.emit o).rings = s.rings := rfl
@[simp] theorem State.emit_arbPos (s : State) (o : Output) : (s.emit o).arbPos = s.arbPos := rfl
@[simp] theorem State.emit_accepts (s : State) (o : Output) : (s.emit o).accepts = s.accepts := rfl
@[simp] theorem State.emit_msixTab (s : State) (o : Output) : (s.emit o).msixTab = s.msixTab := rfl
@[simp] theorem State.emit_msixPba (s : State) (o : Output) : (s.emit o).msixPba = s.msixPba := rfl
@[simp] theorem State.emit_casc (s : State) (o : Output) : (s.emit o).casc = s.casc := rfl
@[simp] theorem State.emit_tst (s : State) (o : Output) : (s.emit o).tst = s.tst := rfl
@[simp] theorem State.emit_tap (s : State) (o : Output) : (s.emit o).tap = s.tap := rfl
@[simp] theorem State.emit_flash (s : State) (o : Output) : (s.emit o).flash = s.flash := rfl
@[simp] theorem State.emit_out (s : State) (o : Output) : (s.emit o).out = s.out ++ [o] := rfl
@[simp] theorem State.emit_free (s : State) (o : Output) : (s.emit o).free = s.free := rfl

/-! `tick` -/
@[simp] theorem State.tick_pending (s : State) : (s.tick).pending = s.pending := rfl
@[simp] theorem State.tick_regs (s : State) : (s.tick).regs = s.regs := rfl
@[simp] theorem State.tick_marks (s : State) : (s.tick).marks = s.marks := rfl
@[simp] theorem State.tick_latch (s : State) : (s.tick).latch = s.latch := rfl
@[simp] theorem State.tick_lowHeld (s : State) : (s.tick).lowHeld = s.lowHeld := rfl
@[simp] theorem State.tick_sram (s : State) : (s.tick).sram = s.sram := rfl
@[simp] theorem State.tick_openRam (s : State) : (s.tick).openRam = s.openRam := rfl
@[simp] theorem State.tick_pwr (s : State) : (s.tick).pwr = s.pwr := rfl
@[simp] theorem State.tick_sup (s : State) : (s.tick).sup = s.sup := rfl
@[simp] theorem State.tick_sec (s : State) : (s.tick).sec = s.sec := rfl
@[simp] theorem State.tick_flt (s : State) : (s.tick).flt = s.flt := rfl
@[simp] theorem State.tick_irq (s : State) : (s.tick).irq = s.irq := rfl
@[simp] theorem State.tick_bus (s : State) : (s.tick).bus = s.bus := rfl
@[simp] theorem State.tick_dma (s : State) : (s.tick).dma = s.dma := rfl
@[simp] theorem State.tick_time (s : State) : (s.tick).time = s.time := rfl
@[simp] theorem State.tick_sched (s : State) : (s.tick).sched = s.sched := rfl
@[simp] theorem State.tick_fab (s : State) : (s.tick).fab = s.fab := rfl
@[simp] theorem State.tick_loop (s : State) : (s.tick).loop = s.loop := rfl
@[simp] theorem State.tick_ept (s : State) : (s.tick).ept = s.ept := rfl
@[simp] theorem State.tick_rings (s : State) : (s.tick).rings = s.rings := rfl
@[simp] theorem State.tick_arbPos (s : State) : (s.tick).arbPos = s.arbPos := rfl
@[simp] theorem State.tick_accepts (s : State) : (s.tick).accepts = s.accepts := rfl
@[simp] theorem State.tick_msixTab (s : State) : (s.tick).msixTab = s.msixTab := rfl
@[simp] theorem State.tick_msixPba (s : State) : (s.tick).msixPba = s.msixPba := rfl
@[simp] theorem State.tick_casc (s : State) : (s.tick).casc = s.casc := rfl
@[simp] theorem State.tick_tst (s : State) : (s.tick).tst = s.tst := rfl
@[simp] theorem State.tick_tap (s : State) : (s.tick).tap = s.tap := rfl
@[simp] theorem State.tick_flash (s : State) : (s.tick).flash = s.flash := rfl
@[simp] theorem State.tick_out (s : State) : (s.tick).out = s.out := rfl
@[simp] theorem State.tick_free (s : State) : (s.tick).free = s.free + 1 := rfl

/-! `fire` -/
@[simp] theorem State.fire_pending (s : State) (n d : Nat) (o : Option Nat) : (s.fire n d o).pending = s.pending := rfl
@[simp] theorem State.fire_regs (s : State) (n d : Nat) (o : Option Nat) : (s.fire n d o).regs = s.regs := rfl
@[simp] theorem State.fire_marks (s : State) (n d : Nat) (o : Option Nat) : (s.fire n d o).marks = s.marks := rfl
@[simp] theorem State.fire_latch (s : State) (n d : Nat) (o : Option Nat) : (s.fire n d o).latch = s.latch := rfl
@[simp] theorem State.fire_lowHeld (s : State) (n d : Nat) (o : Option Nat) : (s.fire n d o).lowHeld = s.lowHeld := rfl
@[simp] theorem State.fire_sram (s : State) (n d : Nat) (o : Option Nat) : (s.fire n d o).sram = s.sram := rfl
@[simp] theorem State.fire_openRam (s : State) (n d : Nat) (o : Option Nat) : (s.fire n d o).openRam = s.openRam := rfl
@[simp] theorem State.fire_pwr (s : State) (n d : Nat) (o : Option Nat) : (s.fire n d o).pwr = s.pwr := rfl
@[simp] theorem State.fire_sup (s : State) (n d : Nat) (o : Option Nat) : (s.fire n d o).sup = s.sup := rfl
@[simp] theorem State.fire_sec (s : State) (n d : Nat) (o : Option Nat) : (s.fire n d o).sec = s.sec := rfl
@[simp] theorem State.fire_irq (s : State) (n d : Nat) (o : Option Nat) : (s.fire n d o).irq = s.irq := rfl
@[simp] theorem State.fire_bus (s : State) (n d : Nat) (o : Option Nat) : (s.fire n d o).bus = s.bus := rfl
@[simp] theorem State.fire_dma (s : State) (n d : Nat) (o : Option Nat) : (s.fire n d o).dma = s.dma := rfl
@[simp] theorem State.fire_time (s : State) (n d : Nat) (o : Option Nat) : (s.fire n d o).time = s.time := rfl
@[simp] theorem State.fire_sched (s : State) (n d : Nat) (o : Option Nat) : (s.fire n d o).sched = s.sched := rfl
@[simp] theorem State.fire_fab (s : State) (n d : Nat) (o : Option Nat) : (s.fire n d o).fab = s.fab := rfl
@[simp] theorem State.fire_loop (s : State) (n d : Nat) (o : Option Nat) : (s.fire n d o).loop = s.loop := rfl
@[simp] theorem State.fire_ept (s : State) (n d : Nat) (o : Option Nat) : (s.fire n d o).ept = s.ept := rfl
@[simp] theorem State.fire_rings (s : State) (n d : Nat) (o : Option Nat) : (s.fire n d o).rings = s.rings := rfl
@[simp] theorem State.fire_arbPos (s : State) (n d : Nat) (o : Option Nat) : (s.fire n d o).arbPos = s.arbPos := rfl
@[simp] theorem State.fire_accepts (s : State) (n d : Nat) (o : Option Nat) : (s.fire n d o).accepts = s.accepts := rfl
@[simp] theorem State.fire_msixTab (s : State) (n d : Nat) (o : Option Nat) : (s.fire n d o).msixTab = s.msixTab := rfl
@[simp] theorem State.fire_msixPba (s : State) (n d : Nat) (o : Option Nat) : (s.fire n d o).msixPba = s.msixPba := rfl
@[simp] theorem State.fire_casc (s : State) (n d : Nat) (o : Option Nat) : (s.fire n d o).casc = s.casc := rfl
@[simp] theorem State.fire_tst (s : State) (n d : Nat) (o : Option Nat) : (s.fire n d o).tst = s.tst := rfl
@[simp] theorem State.fire_tap (s : State) (n d : Nat) (o : Option Nat) : (s.fire n d o).tap = s.tap := rfl
@[simp] theorem State.fire_flash (s : State) (n d : Nat) (o : Option Nat) : (s.fire n d o).flash = s.flash := rfl
@[simp] theorem State.fire_out (s : State) (n d : Nat) (o : Option Nat) : (s.fire n d o).out = s.out := rfl
@[simp] theorem State.fire_free (s : State) (n d : Nat) (o : Option Nat) : (s.fire n d o).free = s.free := rfl

/-! `withPending` -/
@[simp] theorem State.withPending_pending (s : State) (q : List Instr) : (s.withPending q).pending = q := rfl
@[simp] theorem State.withPending_regs (s : State) (q : List Instr) : (s.withPending q).regs = s.regs := rfl
@[simp] theorem State.withPending_marks (s : State) (q : List Instr) : (s.withPending q).marks = s.marks := rfl
@[simp] theorem State.withPending_latch (s : State) (q : List Instr) : (s.withPending q).latch = s.latch := rfl
@[simp] theorem State.withPending_lowHeld (s : State) (q : List Instr) : (s.withPending q).lowHeld = s.lowHeld := rfl
@[simp] theorem State.withPending_sram (s : State) (q : List Instr) : (s.withPending q).sram = s.sram := rfl
@[simp] theorem State.withPending_openRam (s : State) (q : List Instr) : (s.withPending q).openRam = s.openRam := rfl
@[simp] theorem State.withPending_pwr (s : State) (q : List Instr) : (s.withPending q).pwr = s.pwr := rfl
@[simp] theorem State.withPending_sup (s : State) (q : List Instr) : (s.withPending q).sup = s.sup := rfl
@[simp] theorem State.withPending_sec (s : State) (q : List Instr) : (s.withPending q).sec = s.sec := rfl
@[simp] theorem State.withPending_flt (s : State) (q : List Instr) : (s.withPending q).flt = s.flt := rfl
@[simp] theorem State.withPending_irq (s : State) (q : List Instr) : (s.withPending q).irq = s.irq := rfl
@[simp] theorem State.withPending_bus (s : State) (q : List Instr) : (s.withPending q).bus = s.bus := rfl
@[simp] theorem State.withPending_dma (s : State) (q : List Instr) : (s.withPending q).dma = s.dma := rfl
@[simp] theorem State.withPending_time (s : State) (q : List Instr) : (s.withPending q).time = s.time := rfl
@[simp] theorem State.withPending_sched (s : State) (q : List Instr) : (s.withPending q).sched = s.sched := rfl
@[simp] theorem State.withPending_fab (s : State) (q : List Instr) : (s.withPending q).fab = s.fab := rfl
@[simp] theorem State.withPending_loop (s : State) (q : List Instr) : (s.withPending q).loop = s.loop := rfl
@[simp] theorem State.withPending_ept (s : State) (q : List Instr) : (s.withPending q).ept = s.ept := rfl
@[simp] theorem State.withPending_rings (s : State) (q : List Instr) : (s.withPending q).rings = s.rings := rfl
@[simp] theorem State.withPending_arbPos (s : State) (q : List Instr) : (s.withPending q).arbPos = s.arbPos := rfl
@[simp] theorem State.withPending_accepts (s : State) (q : List Instr) : (s.withPending q).accepts = s.accepts := rfl
@[simp] theorem State.withPending_msixTab (s : State) (q : List Instr) : (s.withPending q).msixTab = s.msixTab := rfl
@[simp] theorem State.withPending_msixPba (s : State) (q : List Instr) : (s.withPending q).msixPba = s.msixPba := rfl
@[simp] theorem State.withPending_casc (s : State) (q : List Instr) : (s.withPending q).casc = s.casc := rfl
@[simp] theorem State.withPending_tst (s : State) (q : List Instr) : (s.withPending q).tst = s.tst := rfl
@[simp] theorem State.withPending_tap (s : State) (q : List Instr) : (s.withPending q).tap = s.tap := rfl
@[simp] theorem State.withPending_flash (s : State) (q : List Instr) : (s.withPending q).flash = s.flash := rfl
@[simp] theorem State.withPending_out (s : State) (q : List Instr) : (s.withPending q).out = s.out := rfl
@[simp] theorem State.withPending_free (s : State) (q : List Instr) : (s.withPending q).free = s.free := rfl

/-! `errPulse` -/
@[simp] theorem State.errPulse_pending (s : State) : (s.errPulse).pending = s.pending := rfl
@[simp] theorem State.errPulse_regs (s : State) : (s.errPulse).regs = s.regs := rfl
@[simp] theorem State.errPulse_marks (s : State) : (s.errPulse).marks = s.marks := rfl
@[simp] theorem State.errPulse_latch (s : State) : (s.errPulse).latch = s.latch := rfl
@[simp] theorem State.errPulse_lowHeld (s : State) : (s.errPulse).lowHeld = s.lowHeld := rfl
@[simp] theorem State.errPulse_sram (s : State) : (s.errPulse).sram = s.sram := rfl
@[simp] theorem State.errPulse_openRam (s : State) : (s.errPulse).openRam = s.openRam := rfl
@[simp] theorem State.errPulse_pwr (s : State) : (s.errPulse).pwr = s.pwr := rfl
@[simp] theorem State.errPulse_sup (s : State) : (s.errPulse).sup = s.sup := rfl
@[simp] theorem State.errPulse_sec (s : State) : (s.errPulse).sec = s.sec := rfl
@[simp] theorem State.errPulse_irq (s : State) : (s.errPulse).irq = s.irq := rfl
@[simp] theorem State.errPulse_bus (s : State) : (s.errPulse).bus = s.bus := rfl
@[simp] theorem State.errPulse_dma (s : State) : (s.errPulse).dma = s.dma := rfl
@[simp] theorem State.errPulse_time (s : State) : (s.errPulse).time = s.time := rfl
@[simp] theorem State.errPulse_sched (s : State) : (s.errPulse).sched = s.sched := rfl
@[simp] theorem State.errPulse_fab (s : State) : (s.errPulse).fab = s.fab := rfl
@[simp] theorem State.errPulse_loop (s : State) : (s.errPulse).loop = s.loop := rfl
@[simp] theorem State.errPulse_ept (s : State) : (s.errPulse).ept = s.ept := rfl
@[simp] theorem State.errPulse_rings (s : State) : (s.errPulse).rings = s.rings := rfl
@[simp] theorem State.errPulse_arbPos (s : State) : (s.errPulse).arbPos = s.arbPos := rfl
@[simp] theorem State.errPulse_accepts (s : State) : (s.errPulse).accepts = s.accepts := rfl
@[simp] theorem State.errPulse_msixTab (s : State) : (s.errPulse).msixTab = s.msixTab := rfl
@[simp] theorem State.errPulse_msixPba (s : State) : (s.errPulse).msixPba = s.msixPba := rfl
@[simp] theorem State.errPulse_casc (s : State) : (s.errPulse).casc = s.casc := rfl
@[simp] theorem State.errPulse_tst (s : State) : (s.errPulse).tst = s.tst := rfl
@[simp] theorem State.errPulse_tap (s : State) : (s.errPulse).tap = s.tap := rfl
@[simp] theorem State.errPulse_flash (s : State) : (s.errPulse).flash = s.flash := rfl
@[simp] theorem State.errPulse_out (s : State) : (s.errPulse).out = s.out := rfl
@[simp] theorem State.errPulse_free (s : State) : (s.errPulse).free = s.free := rfl

/-! `latchTime` -/
@[simp] theorem State.latchTime_pending (s : State) : (s.latchTime).pending = s.pending := rfl
@[simp] theorem State.latchTime_regs (s : State) : (s.latchTime).regs = s.regs := rfl
@[simp] theorem State.latchTime_marks (s : State) : (s.latchTime).marks = s.marks := rfl
@[simp] theorem State.latchTime_latch (s : State) : (s.latchTime).latch = s.latch := rfl
@[simp] theorem State.latchTime_lowHeld (s : State) : (s.latchTime).lowHeld = s.lowHeld := rfl
@[simp] theorem State.latchTime_sram (s : State) : (s.latchTime).sram = s.sram := rfl
@[simp] theorem State.latchTime_openRam (s : State) : (s.latchTime).openRam = s.openRam := rfl
@[simp] theorem State.latchTime_pwr (s : State) : (s.latchTime).pwr = s.pwr := rfl
@[simp] theorem State.latchTime_sup (s : State) : (s.latchTime).sup = s.sup := rfl
@[simp] theorem State.latchTime_sec (s : State) : (s.latchTime).sec = s.sec := rfl
@[simp] theorem State.latchTime_flt (s : State) : (s.latchTime).flt = s.flt := rfl
@[simp] theorem State.latchTime_irq (s : State) : (s.latchTime).irq = s.irq := rfl
@[simp] theorem State.latchTime_bus (s : State) : (s.latchTime).bus = s.bus := rfl
@[simp] theorem State.latchTime_dma (s : State) : (s.latchTime).dma = s.dma := rfl
@[simp] theorem State.latchTime_sched (s : State) : (s.latchTime).sched = s.sched := rfl
@[simp] theorem State.latchTime_fab (s : State) : (s.latchTime).fab = s.fab := rfl
@[simp] theorem State.latchTime_loop (s : State) : (s.latchTime).loop = s.loop := rfl
@[simp] theorem State.latchTime_ept (s : State) : (s.latchTime).ept = s.ept := rfl
@[simp] theorem State.latchTime_rings (s : State) : (s.latchTime).rings = s.rings := rfl
@[simp] theorem State.latchTime_arbPos (s : State) : (s.latchTime).arbPos = s.arbPos := rfl
@[simp] theorem State.latchTime_accepts (s : State) : (s.latchTime).accepts = s.accepts := rfl
@[simp] theorem State.latchTime_msixTab (s : State) : (s.latchTime).msixTab = s.msixTab := rfl
@[simp] theorem State.latchTime_msixPba (s : State) : (s.latchTime).msixPba = s.msixPba := rfl
@[simp] theorem State.latchTime_casc (s : State) : (s.latchTime).casc = s.casc := rfl
@[simp] theorem State.latchTime_tst (s : State) : (s.latchTime).tst = s.tst := rfl
@[simp] theorem State.latchTime_tap (s : State) : (s.latchTime).tap = s.tap := rfl
@[simp] theorem State.latchTime_flash (s : State) : (s.latchTime).flash = s.flash := rfl
@[simp] theorem State.latchTime_out (s : State) : (s.latchTime).out = s.out := rfl
@[simp] theorem State.latchTime_free (s : State) : (s.latchTime).free = s.free := rfl

/-! `mark` -/
@[simp] theorem State.mark_pending (s : State) (a : Nat) (m : Word) : (s.mark a m).pending = s.pending := by
  unfold State.mark; split <;> rfl
@[simp] theorem State.mark_regs (s : State) (a : Nat) (m : Word) : (s.mark a m).regs = s.regs := by
  unfold State.mark; split <;> rfl
@[simp] theorem State.mark_latch (s : State) (a : Nat) (m : Word) : (s.mark a m).latch = s.latch := by
  unfold State.mark; split <;> rfl
@[simp] theorem State.mark_lowHeld (s : State) (a : Nat) (m : Word) : (s.mark a m).lowHeld = s.lowHeld := by
  unfold State.mark; split <;> rfl
@[simp] theorem State.mark_sram (s : State) (a : Nat) (m : Word) : (s.mark a m).sram = s.sram := by
  unfold State.mark; split <;> rfl
@[simp] theorem State.mark_openRam (s : State) (a : Nat) (m : Word) : (s.mark a m).openRam = s.openRam := by
  unfold State.mark; split <;> rfl
@[simp] theorem State.mark_pwr (s : State) (a : Nat) (m : Word) : (s.mark a m).pwr = s.pwr := by
  unfold State.mark; split <;> rfl
@[simp] theorem State.mark_sup (s : State) (a : Nat) (m : Word) : (s.mark a m).sup = s.sup := by
  unfold State.mark; split <;> rfl
@[simp] theorem State.mark_sec (s : State) (a : Nat) (m : Word) : (s.mark a m).sec = s.sec := by
  unfold State.mark; split <;> rfl
@[simp] theorem State.mark_flt (s : State) (a : Nat) (m : Word) : (s.mark a m).flt = s.flt := by
  unfold State.mark; split <;> rfl
@[simp] theorem State.mark_irq (s : State) (a : Nat) (m : Word) : (s.mark a m).irq = s.irq := by
  unfold State.mark; split <;> rfl
@[simp] theorem State.mark_bus (s : State) (a : Nat) (m : Word) : (s.mark a m).bus = s.bus := by
  unfold State.mark; split <;> rfl
@[simp] theorem State.mark_dma (s : State) (a : Nat) (m : Word) : (s.mark a m).dma = s.dma := by
  unfold State.mark; split <;> rfl
@[simp] theorem State.mark_time (s : State) (a : Nat) (m : Word) : (s.mark a m).time = s.time := by
  unfold State.mark; split <;> rfl
@[simp] theorem State.mark_sched (s : State) (a : Nat) (m : Word) : (s.mark a m).sched = s.sched := by
  unfold State.mark; split <;> rfl
@[simp] theorem State.mark_fab (s : State) (a : Nat) (m : Word) : (s.mark a m).fab = s.fab := by
  unfold State.mark; split <;> rfl
@[simp] theorem State.mark_loop (s : State) (a : Nat) (m : Word) : (s.mark a m).loop = s.loop := by
  unfold State.mark; split <;> rfl
@[simp] theorem State.mark_ept (s : State) (a : Nat) (m : Word) : (s.mark a m).ept = s.ept := by
  unfold State.mark; split <;> rfl
@[simp] theorem State.mark_rings (s : State) (a : Nat) (m : Word) : (s.mark a m).rings = s.rings := by
  unfold State.mark; split <;> rfl
@[simp] theorem State.mark_arbPos (s : State) (a : Nat) (m : Word) : (s.mark a m).arbPos = s.arbPos := by
  unfold State.mark; split <;> rfl
@[simp] theorem State.mark_accepts (s : State) (a : Nat) (m : Word) : (s.mark a m).accepts = s.accepts := by
  unfold State.mark; split <;> rfl
@[simp] theorem State.mark_msixTab (s : State) (a : Nat) (m : Word) : (s.mark a m).msixTab = s.msixTab := by
  unfold State.mark; split <;> rfl
@[simp] theorem State.mark_msixPba (s : State) (a : Nat) (m : Word) : (s.mark a m).msixPba = s.msixPba := by
  unfold State.mark; split <;> rfl
@[simp] theorem State.mark_casc (s : State) (a : Nat) (m : Word) : (s.mark a m).casc = s.casc := by
  unfold State.mark; split <;> rfl
@[simp] theorem State.mark_tst (s : State) (a : Nat) (m : Word) : (s.mark a m).tst = s.tst := by
  unfold State.mark; split <;> rfl
@[simp] theorem State.mark_tap (s : State) (a : Nat) (m : Word) : (s.mark a m).tap = s.tap := by
  unfold State.mark; split <;> rfl
@[simp] theorem State.mark_flash (s : State) (a : Nat) (m : Word) : (s.mark a m).flash = s.flash := by
  unfold State.mark; split <;> rfl
@[simp] theorem State.mark_out (s : State) (a : Nat) (m : Word) : (s.mark a m).out = s.out := by
  unfold State.mark; split <;> rfl
@[simp] theorem State.mark_free (s : State) (a : Nat) (m : Word) : (s.mark a m).free = s.free := by
  unfold State.mark; split <;> rfl

/-! `setBit` -/
@[simp] theorem State.setBit_pending (s : State) (r : Reg) (i b : Nat) : (s.setBit r i b).pending = s.pending := by
  simp [State.setBit]
@[simp] theorem State.setBit_latch (s : State) (r : Reg) (i b : Nat) : (s.setBit r i b).latch = s.latch := by
  simp [State.setBit]
@[simp] theorem State.setBit_lowHeld (s : State) (r : Reg) (i b : Nat) : (s.setBit r i b).lowHeld = s.lowHeld := by
  simp [State.setBit]
@[simp] theorem State.setBit_sram (s : State) (r : Reg) (i b : Nat) : (s.setBit r i b).sram = s.sram := by
  simp [State.setBit]
@[simp] theorem State.setBit_openRam (s : State) (r : Reg) (i b : Nat) : (s.setBit r i b).openRam = s.openRam := by
  simp [State.setBit]
@[simp] theorem State.setBit_pwr (s : State) (r : Reg) (i b : Nat) : (s.setBit r i b).pwr = s.pwr := by
  simp [State.setBit]
@[simp] theorem State.setBit_sup (s : State) (r : Reg) (i b : Nat) : (s.setBit r i b).sup = s.sup := by
  simp [State.setBit]
@[simp] theorem State.setBit_sec (s : State) (r : Reg) (i b : Nat) : (s.setBit r i b).sec = s.sec := by
  simp [State.setBit]
@[simp] theorem State.setBit_flt (s : State) (r : Reg) (i b : Nat) : (s.setBit r i b).flt = s.flt := by
  simp [State.setBit]
@[simp] theorem State.setBit_irq (s : State) (r : Reg) (i b : Nat) : (s.setBit r i b).irq = s.irq := by
  simp [State.setBit]
@[simp] theorem State.setBit_bus (s : State) (r : Reg) (i b : Nat) : (s.setBit r i b).bus = s.bus := by
  simp [State.setBit]
@[simp] theorem State.setBit_dma (s : State) (r : Reg) (i b : Nat) : (s.setBit r i b).dma = s.dma := by
  simp [State.setBit]
@[simp] theorem State.setBit_time (s : State) (r : Reg) (i b : Nat) : (s.setBit r i b).time = s.time := by
  simp [State.setBit]
@[simp] theorem State.setBit_sched (s : State) (r : Reg) (i b : Nat) : (s.setBit r i b).sched = s.sched := by
  simp [State.setBit]
@[simp] theorem State.setBit_fab (s : State) (r : Reg) (i b : Nat) : (s.setBit r i b).fab = s.fab := by
  simp [State.setBit]
@[simp] theorem State.setBit_loop (s : State) (r : Reg) (i b : Nat) : (s.setBit r i b).loop = s.loop := by
  simp [State.setBit]
@[simp] theorem State.setBit_ept (s : State) (r : Reg) (i b : Nat) : (s.setBit r i b).ept = s.ept := by
  simp [State.setBit]
@[simp] theorem State.setBit_rings (s : State) (r : Reg) (i b : Nat) : (s.setBit r i b).rings = s.rings := by
  simp [State.setBit]
@[simp] theorem State.setBit_arbPos (s : State) (r : Reg) (i b : Nat) : (s.setBit r i b).arbPos = s.arbPos := by
  simp [State.setBit]
@[simp] theorem State.setBit_accepts (s : State) (r : Reg) (i b : Nat) : (s.setBit r i b).accepts = s.accepts := by
  simp [State.setBit]
@[simp] theorem State.setBit_msixTab (s : State) (r : Reg) (i b : Nat) : (s.setBit r i b).msixTab = s.msixTab := by
  simp [State.setBit]
@[simp] theorem State.setBit_msixPba (s : State) (r : Reg) (i b : Nat) : (s.setBit r i b).msixPba = s.msixPba := by
  simp [State.setBit]
@[simp] theorem State.setBit_casc (s : State) (r : Reg) (i b : Nat) : (s.setBit r i b).casc = s.casc := by
  simp [State.setBit]
@[simp] theorem State.setBit_tst (s : State) (r : Reg) (i b : Nat) : (s.setBit r i b).tst = s.tst := by
  simp [State.setBit]
@[simp] theorem State.setBit_tap (s : State) (r : Reg) (i b : Nat) : (s.setBit r i b).tap = s.tap := by
  simp [State.setBit]
@[simp] theorem State.setBit_flash (s : State) (r : Reg) (i b : Nat) : (s.setBit r i b).flash = s.flash := by
  simp [State.setBit]
@[simp] theorem State.setBit_out (s : State) (r : Reg) (i b : Nat) : (s.setBit r i b).out = s.out := by
  simp [State.setBit]
@[simp] theorem State.setBit_free (s : State) (r : Reg) (i b : Nat) : (s.setBit r i b).free = s.free := by
  simp [State.setBit]

/-! `irqPulse` -/
@[simp] theorem State.irqPulse_pending (s : State) (n : Nat) : (s.irqPulse n).pending = s.pending := by
  unfold State.irqPulse; split <;> simp
@[simp] theorem State.irqPulse_regs (s : State) (n : Nat) : (s.irqPulse n).regs = s.regs := by
  unfold State.irqPulse; split <;> simp
@[simp] theorem State.irqPulse_latch (s : State) (n : Nat) : (s.irqPulse n).latch = s.latch := by
  unfold State.irqPulse; split <;> simp
@[simp] theorem State.irqPulse_lowHeld (s : State) (n : Nat) : (s.irqPulse n).lowHeld = s.lowHeld := by
  unfold State.irqPulse; split <;> simp
@[simp] theorem State.irqPulse_sram (s : State) (n : Nat) : (s.irqPulse n).sram = s.sram := by
  unfold State.irqPulse; split <;> simp
@[simp] theorem State.irqPulse_openRam (s : State) (n : Nat) : (s.irqPulse n).openRam = s.openRam := by
  unfold State.irqPulse; split <;> simp
@[simp] theorem State.irqPulse_pwr (s : State) (n : Nat) : (s.irqPulse n).pwr = s.pwr := by
  unfold State.irqPulse; split <;> simp
@[simp] theorem State.irqPulse_sup (s : State) (n : Nat) : (s.irqPulse n).sup = s.sup := by
  unfold State.irqPulse; split <;> simp
@[simp] theorem State.irqPulse_sec (s : State) (n : Nat) : (s.irqPulse n).sec = s.sec := by
  unfold State.irqPulse; split <;> simp
@[simp] theorem State.irqPulse_flt (s : State) (n : Nat) : (s.irqPulse n).flt = s.flt := by
  unfold State.irqPulse; split <;> simp
@[simp] theorem State.irqPulse_bus (s : State) (n : Nat) : (s.irqPulse n).bus = s.bus := by
  unfold State.irqPulse; split <;> simp
@[simp] theorem State.irqPulse_dma (s : State) (n : Nat) : (s.irqPulse n).dma = s.dma := by
  unfold State.irqPulse; split <;> simp
@[simp] theorem State.irqPulse_time (s : State) (n : Nat) : (s.irqPulse n).time = s.time := by
  unfold State.irqPulse; split <;> simp
@[simp] theorem State.irqPulse_sched (s : State) (n : Nat) : (s.irqPulse n).sched = s.sched := by
  unfold State.irqPulse; split <;> simp
@[simp] theorem State.irqPulse_fab (s : State) (n : Nat) : (s.irqPulse n).fab = s.fab := by
  unfold State.irqPulse; split <;> simp
@[simp] theorem State.irqPulse_loop (s : State) (n : Nat) : (s.irqPulse n).loop = s.loop := by
  unfold State.irqPulse; split <;> simp
@[simp] theorem State.irqPulse_ept (s : State) (n : Nat) : (s.irqPulse n).ept = s.ept := by
  unfold State.irqPulse; split <;> simp
@[simp] theorem State.irqPulse_rings (s : State) (n : Nat) : (s.irqPulse n).rings = s.rings := by
  unfold State.irqPulse; split <;> simp
@[simp] theorem State.irqPulse_arbPos (s : State) (n : Nat) : (s.irqPulse n).arbPos = s.arbPos := by
  unfold State.irqPulse; split <;> simp
@[simp] theorem State.irqPulse_accepts (s : State) (n : Nat) : (s.irqPulse n).accepts = s.accepts := by
  unfold State.irqPulse; split <;> simp
@[simp] theorem State.irqPulse_msixTab (s : State) (n : Nat) : (s.irqPulse n).msixTab = s.msixTab := by
  unfold State.irqPulse; split <;> simp
@[simp] theorem State.irqPulse_msixPba (s : State) (n : Nat) : (s.irqPulse n).msixPba = s.msixPba := by
  unfold State.irqPulse; split <;> simp
@[simp] theorem State.irqPulse_casc (s : State) (n : Nat) : (s.irqPulse n).casc = s.casc := by
  unfold State.irqPulse; split <;> simp
@[simp] theorem State.irqPulse_tst (s : State) (n : Nat) : (s.irqPulse n).tst = s.tst := by
  unfold State.irqPulse; split <;> simp
@[simp] theorem State.irqPulse_tap (s : State) (n : Nat) : (s.irqPulse n).tap = s.tap := by
  unfold State.irqPulse; split <;> simp
@[simp] theorem State.irqPulse_flash (s : State) (n : Nat) : (s.irqPulse n).flash = s.flash := by
  unfold State.irqPulse; split <;> simp
@[simp] theorem State.irqPulse_out (s : State) (n : Nat) : (s.irqPulse n).out = s.out := by
  unfold State.irqPulse; split <;> simp
@[simp] theorem State.irqPulse_free (s : State) (n : Nat) : (s.irqPulse n).free = s.free := by
  unfold State.irqPulse; split <;> simp

/-! `isolateLane` -/
@[simp] theorem State.isolateLane_pending (s : State) (l : Nat) : (s.isolateLane l).pending = s.pending := by
  simp [State.isolateLane]
@[simp] theorem State.isolateLane_regs (s : State) (l : Nat) : (s.isolateLane l).regs = s.regs := by
  simp [State.isolateLane]
@[simp] theorem State.isolateLane_latch (s : State) (l : Nat) : (s.isolateLane l).latch = s.latch := by
  simp [State.isolateLane]
@[simp] theorem State.isolateLane_lowHeld (s : State) (l : Nat) : (s.isolateLane l).lowHeld = s.lowHeld := by
  simp [State.isolateLane]
@[simp] theorem State.isolateLane_sram (s : State) (l : Nat) : (s.isolateLane l).sram = s.sram := by
  simp [State.isolateLane]
@[simp] theorem State.isolateLane_openRam (s : State) (l : Nat) : (s.isolateLane l).openRam = s.openRam := by
  simp [State.isolateLane]
@[simp] theorem State.isolateLane_pwr (s : State) (l : Nat) : (s.isolateLane l).pwr = s.pwr := by
  simp [State.isolateLane]
@[simp] theorem State.isolateLane_sup (s : State) (l : Nat) : (s.isolateLane l).sup = s.sup := by
  simp [State.isolateLane]
@[simp] theorem State.isolateLane_sec (s : State) (l : Nat) : (s.isolateLane l).sec = s.sec := by
  simp [State.isolateLane]
@[simp] theorem State.isolateLane_irq (s : State) (l : Nat) : (s.isolateLane l).irq = s.irq := by
  simp [State.isolateLane]
@[simp] theorem State.isolateLane_bus (s : State) (l : Nat) : (s.isolateLane l).bus = s.bus := by
  simp [State.isolateLane]
@[simp] theorem State.isolateLane_dma (s : State) (l : Nat) : (s.isolateLane l).dma = s.dma := by
  simp [State.isolateLane]
@[simp] theorem State.isolateLane_time (s : State) (l : Nat) : (s.isolateLane l).time = s.time := by
  simp [State.isolateLane]
@[simp] theorem State.isolateLane_sched (s : State) (l : Nat) : (s.isolateLane l).sched = s.sched := by
  simp [State.isolateLane]
@[simp] theorem State.isolateLane_fab (s : State) (l : Nat) : (s.isolateLane l).fab = s.fab := by
  simp [State.isolateLane]
@[simp] theorem State.isolateLane_loop (s : State) (l : Nat) : (s.isolateLane l).loop = s.loop := by
  simp [State.isolateLane]
@[simp] theorem State.isolateLane_ept (s : State) (l : Nat) : (s.isolateLane l).ept = s.ept := by
  simp [State.isolateLane]
@[simp] theorem State.isolateLane_rings (s : State) (l : Nat) : (s.isolateLane l).rings = s.rings := by
  simp [State.isolateLane]
@[simp] theorem State.isolateLane_arbPos (s : State) (l : Nat) : (s.isolateLane l).arbPos = s.arbPos := by
  simp [State.isolateLane]
@[simp] theorem State.isolateLane_accepts (s : State) (l : Nat) : (s.isolateLane l).accepts = s.accepts := by
  simp [State.isolateLane]
@[simp] theorem State.isolateLane_msixTab (s : State) (l : Nat) : (s.isolateLane l).msixTab = s.msixTab := by
  simp [State.isolateLane]
@[simp] theorem State.isolateLane_msixPba (s : State) (l : Nat) : (s.isolateLane l).msixPba = s.msixPba := by
  simp [State.isolateLane]
@[simp] theorem State.isolateLane_casc (s : State) (l : Nat) : (s.isolateLane l).casc = s.casc := by
  simp [State.isolateLane]
@[simp] theorem State.isolateLane_tst (s : State) (l : Nat) : (s.isolateLane l).tst = s.tst := by
  simp [State.isolateLane]
@[simp] theorem State.isolateLane_tap (s : State) (l : Nat) : (s.isolateLane l).tap = s.tap := by
  simp [State.isolateLane]
@[simp] theorem State.isolateLane_flash (s : State) (l : Nat) : (s.isolateLane l).flash = s.flash := by
  simp [State.isolateLane]
@[simp] theorem State.isolateLane_out (s : State) (l : Nat) : (s.isolateLane l).out = s.out := by
  simp [State.isolateLane]
@[simp] theorem State.isolateLane_free (s : State) (l : Nat) : (s.isolateLane l).free = s.free := by
  simp [State.isolateLane]

/-! `setParkBit` -/
@[simp] theorem State.setParkBit_pending (s : State) (h : Nat) : (s.setParkBit h).pending = s.pending := by
  simp [State.setParkBit]
@[simp] theorem State.setParkBit_regs (s : State) (h : Nat) : (s.setParkBit h).regs = s.regs := by
  simp [State.setParkBit]
@[simp] theorem State.setParkBit_latch (s : State) (h : Nat) : (s.setParkBit h).latch = s.latch := by
  simp [State.setParkBit]
@[simp] theorem State.setParkBit_lowHeld (s : State) (h : Nat) : (s.setParkBit h).lowHeld = s.lowHeld := by
  simp [State.setParkBit]
@[simp] theorem State.setParkBit_sram (s : State) (h : Nat) : (s.setParkBit h).sram = s.sram := by
  simp [State.setParkBit]
@[simp] theorem State.setParkBit_openRam (s : State) (h : Nat) : (s.setParkBit h).openRam = s.openRam := by
  simp [State.setParkBit]
@[simp] theorem State.setParkBit_pwr (s : State) (h : Nat) : (s.setParkBit h).pwr = s.pwr := by
  simp [State.setParkBit]
@[simp] theorem State.setParkBit_sup (s : State) (h : Nat) : (s.setParkBit h).sup = s.sup := by
  simp [State.setParkBit]
@[simp] theorem State.setParkBit_sec (s : State) (h : Nat) : (s.setParkBit h).sec = s.sec := by
  simp [State.setParkBit]
@[simp] theorem State.setParkBit_irq (s : State) (h : Nat) : (s.setParkBit h).irq = s.irq := by
  simp [State.setParkBit]
@[simp] theorem State.setParkBit_bus (s : State) (h : Nat) : (s.setParkBit h).bus = s.bus := by
  simp [State.setParkBit]
@[simp] theorem State.setParkBit_dma (s : State) (h : Nat) : (s.setParkBit h).dma = s.dma := by
  simp [State.setParkBit]
@[simp] theorem State.setParkBit_time (s : State) (h : Nat) : (s.setParkBit h).time = s.time := by
  simp [State.setParkBit]
@[simp] theorem State.setParkBit_sched (s : State) (h : Nat) : (s.setParkBit h).sched = s.sched := by
  simp [State.setParkBit]
@[simp] theorem State.setParkBit_fab (s : State) (h : Nat) : (s.setParkBit h).fab = s.fab := by
  simp [State.setParkBit]
@[simp] theorem State.setParkBit_loop (s : State) (h : Nat) : (s.setParkBit h).loop = s.loop := by
  simp [State.setParkBit]
@[simp] theorem State.setParkBit_ept (s : State) (h : Nat) : (s.setParkBit h).ept = s.ept := by
  simp [State.setParkBit]
@[simp] theorem State.setParkBit_rings (s : State) (h : Nat) : (s.setParkBit h).rings = s.rings := by
  simp [State.setParkBit]
@[simp] theorem State.setParkBit_arbPos (s : State) (h : Nat) : (s.setParkBit h).arbPos = s.arbPos := by
  simp [State.setParkBit]
@[simp] theorem State.setParkBit_accepts (s : State) (h : Nat) : (s.setParkBit h).accepts = s.accepts := by
  simp [State.setParkBit]
@[simp] theorem State.setParkBit_msixTab (s : State) (h : Nat) : (s.setParkBit h).msixTab = s.msixTab := by
  simp [State.setParkBit]
@[simp] theorem State.setParkBit_msixPba (s : State) (h : Nat) : (s.setParkBit h).msixPba = s.msixPba := by
  simp [State.setParkBit]
@[simp] theorem State.setParkBit_casc (s : State) (h : Nat) : (s.setParkBit h).casc = s.casc := by
  simp [State.setParkBit]
@[simp] theorem State.setParkBit_tst (s : State) (h : Nat) : (s.setParkBit h).tst = s.tst := by
  simp [State.setParkBit]
@[simp] theorem State.setParkBit_tap (s : State) (h : Nat) : (s.setParkBit h).tap = s.tap := by
  simp [State.setParkBit]
@[simp] theorem State.setParkBit_flash (s : State) (h : Nat) : (s.setParkBit h).flash = s.flash := by
  simp [State.setParkBit]
@[simp] theorem State.setParkBit_out (s : State) (h : Nat) : (s.setParkBit h).out = s.out := by
  simp [State.setParkBit]
@[simp] theorem State.setParkBit_free (s : State) (h : Nat) : (s.setParkBit h).free = s.free := by
  simp [State.setParkBit]

/-! `relevel` -/
@[simp] theorem State.relevel_pending (s : State) : (s.relevel).pending = s.pending := by
  simp [State.relevel]
@[simp] theorem State.relevel_regs (s : State) : (s.relevel).regs = s.regs := by
  simp [State.relevel]
@[simp] theorem State.relevel_latch (s : State) : (s.relevel).latch = s.latch := by
  simp [State.relevel]
@[simp] theorem State.relevel_lowHeld (s : State) : (s.relevel).lowHeld = s.lowHeld := by
  simp [State.relevel]
@[simp] theorem State.relevel_sram (s : State) : (s.relevel).sram = s.sram := by
  simp [State.relevel]
@[simp] theorem State.relevel_openRam (s : State) : (s.relevel).openRam = s.openRam := by
  simp [State.relevel]
@[simp] theorem State.relevel_pwr (s : State) : (s.relevel).pwr = s.pwr := by
  simp [State.relevel]
@[simp] theorem State.relevel_sup (s : State) : (s.relevel).sup = s.sup := by
  simp [State.relevel]
@[simp] theorem State.relevel_sec (s : State) : (s.relevel).sec = s.sec := by
  simp [State.relevel]
@[simp] theorem State.relevel_irq (s : State) : (s.relevel).irq = s.irq := by
  simp [State.relevel]
@[simp] theorem State.relevel_bus (s : State) : (s.relevel).bus = s.bus := by
  simp [State.relevel]
@[simp] theorem State.relevel_dma (s : State) : (s.relevel).dma = s.dma := by
  simp [State.relevel]
@[simp] theorem State.relevel_time (s : State) : (s.relevel).time = s.time := by
  simp [State.relevel]
@[simp] theorem State.relevel_sched (s : State) : (s.relevel).sched = s.sched := by
  simp [State.relevel]
@[simp] theorem State.relevel_fab (s : State) : (s.relevel).fab = s.fab := by
  simp [State.relevel]
@[simp] theorem State.relevel_loop (s : State) : (s.relevel).loop = s.loop := by
  simp [State.relevel]
@[simp] theorem State.relevel_ept (s : State) : (s.relevel).ept = s.ept := by
  simp [State.relevel]
@[simp] theorem State.relevel_rings (s : State) : (s.relevel).rings = s.rings := by
  simp [State.relevel]
@[simp] theorem State.relevel_arbPos (s : State) : (s.relevel).arbPos = s.arbPos := by
  simp [State.relevel]
@[simp] theorem State.relevel_accepts (s : State) : (s.relevel).accepts = s.accepts := by
  simp [State.relevel]
@[simp] theorem State.relevel_msixTab (s : State) : (s.relevel).msixTab = s.msixTab := by
  simp [State.relevel]
@[simp] theorem State.relevel_msixPba (s : State) : (s.relevel).msixPba = s.msixPba := by
  simp [State.relevel]
@[simp] theorem State.relevel_casc (s : State) : (s.relevel).casc = s.casc := by
  simp [State.relevel]
@[simp] theorem State.relevel_tst (s : State) : (s.relevel).tst = s.tst := by
  simp [State.relevel]
@[simp] theorem State.relevel_tap (s : State) : (s.relevel).tap = s.tap := by
  simp [State.relevel]
@[simp] theorem State.relevel_flash (s : State) : (s.relevel).flash = s.flash := by
  simp [State.relevel]
@[simp] theorem State.relevel_out (s : State) : (s.relevel).out = s.out := by
  simp [State.relevel]
@[simp] theorem State.relevel_free (s : State) : (s.relevel).free = s.free := by
  simp [State.relevel]

/-! `onRelpety` -/
@[simp] theorem State.onRelpety_pending (s : State) (f : Relpety → Relpety) : (s.onRelpety f).pending = s.pending := by
  unfold State.onRelpety; split <;> rfl
@[simp] theorem State.onRelpety_regs (s : State) (f : Relpety → Relpety) : (s.onRelpety f).regs = s.regs := by
  unfold State.onRelpety; split <;> rfl
@[simp] theorem State.onRelpety_marks (s : State) (f : Relpety → Relpety) : (s.onRelpety f).marks = s.marks := by
  unfold State.onRelpety; split <;> rfl
@[simp] theorem State.onRelpety_latch (s : State) (f : Relpety → Relpety) : (s.onRelpety f).latch = s.latch := by
  unfold State.onRelpety; split <;> rfl
@[simp] theorem State.onRelpety_lowHeld (s : State) (f : Relpety → Relpety) : (s.onRelpety f).lowHeld = s.lowHeld := by
  unfold State.onRelpety; split <;> rfl
@[simp] theorem State.onRelpety_sram (s : State) (f : Relpety → Relpety) : (s.onRelpety f).sram = s.sram := by
  unfold State.onRelpety; split <;> rfl
@[simp] theorem State.onRelpety_openRam (s : State) (f : Relpety → Relpety) : (s.onRelpety f).openRam = s.openRam := by
  unfold State.onRelpety; split <;> rfl
@[simp] theorem State.onRelpety_pwr (s : State) (f : Relpety → Relpety) : (s.onRelpety f).pwr = s.pwr := by
  unfold State.onRelpety; split <;> rfl
@[simp] theorem State.onRelpety_sup (s : State) (f : Relpety → Relpety) : (s.onRelpety f).sup = s.sup := by
  unfold State.onRelpety; split <;> rfl
@[simp] theorem State.onRelpety_sec (s : State) (f : Relpety → Relpety) : (s.onRelpety f).sec = s.sec := by
  unfold State.onRelpety; split <;> rfl
@[simp] theorem State.onRelpety_flt (s : State) (f : Relpety → Relpety) : (s.onRelpety f).flt = s.flt := by
  unfold State.onRelpety; split <;> rfl
@[simp] theorem State.onRelpety_irq (s : State) (f : Relpety → Relpety) : (s.onRelpety f).irq = s.irq := by
  unfold State.onRelpety; split <;> rfl
@[simp] theorem State.onRelpety_bus (s : State) (f : Relpety → Relpety) : (s.onRelpety f).bus = s.bus := by
  unfold State.onRelpety; split <;> rfl
@[simp] theorem State.onRelpety_dma (s : State) (f : Relpety → Relpety) : (s.onRelpety f).dma = s.dma := by
  unfold State.onRelpety; split <;> rfl
@[simp] theorem State.onRelpety_time (s : State) (f : Relpety → Relpety) : (s.onRelpety f).time = s.time := by
  unfold State.onRelpety; split <;> rfl
@[simp] theorem State.onRelpety_sched (s : State) (f : Relpety → Relpety) : (s.onRelpety f).sched = s.sched := by
  unfold State.onRelpety; split <;> rfl
@[simp] theorem State.onRelpety_fab (s : State) (f : Relpety → Relpety) : (s.onRelpety f).fab = s.fab := by
  unfold State.onRelpety; split <;> rfl
@[simp] theorem State.onRelpety_loop (s : State) (f : Relpety → Relpety) : (s.onRelpety f).loop = s.loop := by
  unfold State.onRelpety; split <;> rfl
@[simp] theorem State.onRelpety_ept (s : State) (f : Relpety → Relpety) : (s.onRelpety f).ept = s.ept := by
  unfold State.onRelpety; split <;> rfl
@[simp] theorem State.onRelpety_rings (s : State) (f : Relpety → Relpety) : (s.onRelpety f).rings = s.rings := by
  unfold State.onRelpety; split <;> rfl
@[simp] theorem State.onRelpety_arbPos (s : State) (f : Relpety → Relpety) : (s.onRelpety f).arbPos = s.arbPos := by
  unfold State.onRelpety; split <;> rfl
@[simp] theorem State.onRelpety_accepts (s : State) (f : Relpety → Relpety) : (s.onRelpety f).accepts = s.accepts := by
  unfold State.onRelpety; split <;> rfl
@[simp] theorem State.onRelpety_msixTab (s : State) (f : Relpety → Relpety) : (s.onRelpety f).msixTab = s.msixTab := by
  unfold State.onRelpety; split <;> rfl
@[simp] theorem State.onRelpety_msixPba (s : State) (f : Relpety → Relpety) : (s.onRelpety f).msixPba = s.msixPba := by
  unfold State.onRelpety; split <;> rfl
@[simp] theorem State.onRelpety_casc (s : State) (f : Relpety → Relpety) : (s.onRelpety f).casc = s.casc := by
  unfold State.onRelpety; split <;> rfl
@[simp] theorem State.onRelpety_tst (s : State) (f : Relpety → Relpety) : (s.onRelpety f).tst = s.tst := by
  unfold State.onRelpety; split <;> rfl
@[simp] theorem State.onRelpety_tap (s : State) (f : Relpety → Relpety) : (s.onRelpety f).tap = s.tap := by
  unfold State.onRelpety; split <;> rfl
@[simp] theorem State.onRelpety_out (s : State) (f : Relpety → Relpety) : (s.onRelpety f).out = s.out := by
  unfold State.onRelpety; split <;> rfl
@[simp] theorem State.onRelpety_free (s : State) (f : Relpety → Relpety) : (s.onRelpety f).free = s.free := by
  unfold State.onRelpety; split <;> rfl

/-! `run` -/
@[simp] theorem State.run_pending (s : State) (dt : Nat) : (s.run dt).pending = s.pending := by
  unfold State.run; split <;> rfl
@[simp] theorem State.run_regs (s : State) (dt : Nat) : (s.run dt).regs = s.regs := by
  unfold State.run; split <;> rfl
@[simp] theorem State.run_marks (s : State) (dt : Nat) : (s.run dt).marks = s.marks := by
  unfold State.run; split <;> rfl
@[simp] theorem State.run_latch (s : State) (dt : Nat) : (s.run dt).latch = s.latch := by
  unfold State.run; split <;> rfl
@[simp] theorem State.run_lowHeld (s : State) (dt : Nat) : (s.run dt).lowHeld = s.lowHeld := by
  unfold State.run; split <;> rfl
@[simp] theorem State.run_sram (s : State) (dt : Nat) : (s.run dt).sram = s.sram := by
  unfold State.run; split <;> rfl
@[simp] theorem State.run_openRam (s : State) (dt : Nat) : (s.run dt).openRam = s.openRam := by
  unfold State.run; split <;> rfl
@[simp] theorem State.run_pwr (s : State) (dt : Nat) : (s.run dt).pwr = s.pwr := by
  unfold State.run; split <;> rfl
@[simp] theorem State.run_sup (s : State) (dt : Nat) : (s.run dt).sup = s.sup := by
  unfold State.run; split <;> rfl
@[simp] theorem State.run_sec (s : State) (dt : Nat) : (s.run dt).sec = s.sec := by
  unfold State.run; split <;> rfl
@[simp] theorem State.run_flt (s : State) (dt : Nat) : (s.run dt).flt = s.flt := by
  unfold State.run; split <;> rfl
@[simp] theorem State.run_irq (s : State) (dt : Nat) : (s.run dt).irq = s.irq := by
  unfold State.run; split <;> rfl
@[simp] theorem State.run_bus (s : State) (dt : Nat) : (s.run dt).bus = s.bus := by
  unfold State.run; split <;> rfl
@[simp] theorem State.run_dma (s : State) (dt : Nat) : (s.run dt).dma = s.dma := by
  unfold State.run; split <;> rfl
@[simp] theorem State.run_sched (s : State) (dt : Nat) : (s.run dt).sched = s.sched := by
  unfold State.run; split <;> rfl
@[simp] theorem State.run_fab (s : State) (dt : Nat) : (s.run dt).fab = s.fab := by
  unfold State.run; split <;> rfl
@[simp] theorem State.run_loop (s : State) (dt : Nat) : (s.run dt).loop = s.loop := by
  unfold State.run; split <;> rfl
@[simp] theorem State.run_ept (s : State) (dt : Nat) : (s.run dt).ept = s.ept := by
  unfold State.run; split <;> rfl
@[simp] theorem State.run_rings (s : State) (dt : Nat) : (s.run dt).rings = s.rings := by
  unfold State.run; split <;> rfl
@[simp] theorem State.run_arbPos (s : State) (dt : Nat) : (s.run dt).arbPos = s.arbPos := by
  unfold State.run; split <;> rfl
@[simp] theorem State.run_accepts (s : State) (dt : Nat) : (s.run dt).accepts = s.accepts := by
  unfold State.run; split <;> rfl
@[simp] theorem State.run_msixTab (s : State) (dt : Nat) : (s.run dt).msixTab = s.msixTab := by
  unfold State.run; split <;> rfl
@[simp] theorem State.run_msixPba (s : State) (dt : Nat) : (s.run dt).msixPba = s.msixPba := by
  unfold State.run; split <;> rfl
@[simp] theorem State.run_casc (s : State) (dt : Nat) : (s.run dt).casc = s.casc := by
  unfold State.run; split <;> rfl
@[simp] theorem State.run_tst (s : State) (dt : Nat) : (s.run dt).tst = s.tst := by
  unfold State.run; split <;> rfl
@[simp] theorem State.run_tap (s : State) (dt : Nat) : (s.run dt).tap = s.tap := by
  unfold State.run; split <;> rfl
@[simp] theorem State.run_flash (s : State) (dt : Nat) : (s.run dt).flash = s.flash := by
  unfold State.run; split <;> rfl
@[simp] theorem State.run_out (s : State) (dt : Nat) : (s.run dt).out = s.out := by
  unfold State.run; split <;> rfl
@[simp] theorem State.run_free (s : State) (dt : Nat) : (s.run dt).free = s.free := by
  unfold State.run; split <;> rfl

/-! `settleErr` -/
@[simp] theorem State.settleErr_pending (s : State) : (s.settleErr).pending = s.pending := by
  unfold State.settleErr; split <;> rfl
@[simp] theorem State.settleErr_regs (s : State) : (s.settleErr).regs = s.regs := by
  unfold State.settleErr; split <;> rfl
@[simp] theorem State.settleErr_marks (s : State) : (s.settleErr).marks = s.marks := by
  unfold State.settleErr; split <;> rfl
@[simp] theorem State.settleErr_latch (s : State) : (s.settleErr).latch = s.latch := by
  unfold State.settleErr; split <;> rfl
@[simp] theorem State.settleErr_lowHeld (s : State) : (s.settleErr).lowHeld = s.lowHeld := by
  unfold State.settleErr; split <;> rfl
@[simp] theorem State.settleErr_sram (s : State) : (s.settleErr).sram = s.sram := by
  unfold State.settleErr; split <;> rfl
@[simp] theorem State.settleErr_openRam (s : State) : (s.settleErr).openRam = s.openRam := by
  unfold State.settleErr; split <;> rfl
@[simp] theorem State.settleErr_pwr (s : State) : (s.settleErr).pwr = s.pwr := by
  unfold State.settleErr; split <;> rfl
@[simp] theorem State.settleErr_sup (s : State) : (s.settleErr).sup = s.sup := by
  unfold State.settleErr; split <;> rfl
@[simp] theorem State.settleErr_sec (s : State) : (s.settleErr).sec = s.sec := by
  unfold State.settleErr; split <;> rfl
@[simp] theorem State.settleErr_irq (s : State) : (s.settleErr).irq = s.irq := by
  unfold State.settleErr; split <;> rfl
@[simp] theorem State.settleErr_bus (s : State) : (s.settleErr).bus = s.bus := by
  unfold State.settleErr; split <;> rfl
@[simp] theorem State.settleErr_dma (s : State) : (s.settleErr).dma = s.dma := by
  unfold State.settleErr; split <;> rfl
@[simp] theorem State.settleErr_time (s : State) : (s.settleErr).time = s.time := by
  unfold State.settleErr; split <;> rfl
@[simp] theorem State.settleErr_sched (s : State) : (s.settleErr).sched = s.sched := by
  unfold State.settleErr; split <;> rfl
@[simp] theorem State.settleErr_fab (s : State) : (s.settleErr).fab = s.fab := by
  unfold State.settleErr; split <;> rfl
@[simp] theorem State.settleErr_loop (s : State) : (s.settleErr).loop = s.loop := by
  unfold State.settleErr; split <;> rfl
@[simp] theorem State.settleErr_ept (s : State) : (s.settleErr).ept = s.ept := by
  unfold State.settleErr; split <;> rfl
@[simp] theorem State.settleErr_rings (s : State) : (s.settleErr).rings = s.rings := by
  unfold State.settleErr; split <;> rfl
@[simp] theorem State.settleErr_arbPos (s : State) : (s.settleErr).arbPos = s.arbPos := by
  unfold State.settleErr; split <;> rfl
@[simp] theorem State.settleErr_accepts (s : State) : (s.settleErr).accepts = s.accepts := by
  unfold State.settleErr; split <;> rfl
@[simp] theorem State.settleErr_msixTab (s : State) : (s.settleErr).msixTab = s.msixTab := by
  unfold State.settleErr; split <;> rfl
@[simp] theorem State.settleErr_msixPba (s : State) : (s.settleErr).msixPba = s.msixPba := by
  unfold State.settleErr; split <;> rfl
@[simp] theorem State.settleErr_casc (s : State) : (s.settleErr).casc = s.casc := by
  unfold State.settleErr; split <;> rfl
@[simp] theorem State.settleErr_tst (s : State) : (s.settleErr).tst = s.tst := by
  unfold State.settleErr; split <;> rfl
@[simp] theorem State.settleErr_tap (s : State) : (s.settleErr).tap = s.tap := by
  unfold State.settleErr; split <;> rfl
@[simp] theorem State.settleErr_flash (s : State) : (s.settleErr).flash = s.flash := by
  unfold State.settleErr; split <;> rfl
@[simp] theorem State.settleErr_out (s : State) : (s.settleErr).out = s.out := by
  unfold State.settleErr; split <;> rfl
@[simp] theorem State.settleErr_free (s : State) : (s.settleErr).free = s.free := by
  unfold State.settleErr; split <;> rfl

end Sys2Proof.Machine
end

