-- ==== Sys2Proof/Laws/Tab.lean ====
section
/-! SUPPORT. Tables and byte memories: what a write changes, and that every operation keeps the canonical form. -/

namespace Sys2Proof.Machine

variable {α : Type} {d : Nat → α}

/-! ### Reading after writing, in every table -/

theorem tget_tdel_self (t : Tab α) (k : Nat) : tget d (tdel t k) k = d k := by
  induction t with
  | nil => rfl
  | cons p t ih =>
    unfold tdel at *
    by_cases h : p.1 = k
    · simpa [List.filter, h] using ih
    · simpa [List.filter, h, tget] using ih

theorem tget_tdel_other {j k : Nat} (t : Tab α) (h : j ≠ k) : tget d (tdel t k) j = tget d t j := by
  induction t with
  | nil => rfl
  | cons p t ih =>
    unfold tdel at *
    by_cases hp : p.1 = k
    · simp only [List.filter, hp, ne_eq, not_true_eq_false, decide_false, tget, if_neg (Ne.symm h)]; exact ih
    · simp only [List.filter, hp, ne_eq, not_false_eq_true, decide_true, tget, ih]

theorem tget_tins_self (t : Tab α) (k : Nat) (v : α) (h : ∀ p ∈ t, p.1 ≠ k) : tget d (tins t k v) k = v := by
  induction t with
  | nil => simp [tins, tget]
  | cons p t ih =>
    simp only [tins]
    split
    · simp [tget]
    · simp only [tget, if_neg (h p (by simp))]; exact ih fun q hq => h q (by simp [hq])

theorem tget_tins_other {j k : Nat} (t : Tab α) (v : α) (h : j ≠ k) : tget d (tins t k v) j = tget d t j := by
  induction t with
  | nil => simp [tins, tget, Ne.symm h]
  | cons p t ih =>
    simp only [tins]
    split
    · simp [tget, Ne.symm h]
    · simp only [tget, ih]

theorem tdel_ne (t : Tab α) (k : Nat) : ∀ p ∈ tdel t k, p.1 ≠ k := by
  intro p hp; simpa using (List.mem_filter.mp hp).2

variable [DecidableEq α]

/-- A table reads what was written. -/
@[simp] theorem tget_tset_self (e : Nat → α) (t : Tab α) (k : Nat) (v : α) (h : e k = d k) : tget d (tset e t k v) k = v := by
  unfold tset
  split
  · rename_i hv; rw [tget_tdel_self, hv, h]
  · exact tget_tins_self _ _ _ (tdel_ne t k)

/-- A write leaves every other index. -/
theorem tget_tset_other (e : Nat → α) (t : Tab α) {j k : Nat} (v : α) (h : j ≠ k) :
    tget d (tset e t k v) j = tget d t j := by
  unfold tset
  split
  · exact tget_tdel_other t h
  · rw [tget_tins_other _ _ h, tget_tdel_other t h]

/-! ### Canonical form -/

theorem twfFrom_mono {lo lo' : Nat} {t : Tab α} (h : twfFrom d lo t = true) (hl : lo' ≤ lo) : twfFrom d lo' t = true := by
  cases t with
  | nil => rfl
  | cons p t => simp only [twfFrom, Bool.and_eq_true, decide_eq_true_eq] at h ⊢; exact ⟨⟨by omega, h.1.2⟩, h.2⟩

/-- Leaving out entries keeps the canonical form. -/
theorem twfFrom_filter {lo : Nat} {t : Tab α} (p : Nat × α → Bool) (h : twfFrom d lo t = true) :
    twfFrom d lo (t.filter p) = true := by
  induction t generalizing lo with
  | nil => rfl
  | cons q t ih =>
    simp only [twfFrom, Bool.and_eq_true, decide_eq_true_eq] at h
    simp only [List.filter]
    split
    · simp only [twfFrom, Bool.and_eq_true, decide_eq_true_eq]; exact ⟨h.1, ih h.2⟩
    · exact twfFrom_mono (ih h.2) (by omega)

/-- Listing a value that is not the default keeps the canonical form. -/
theorem twfFrom_tins {lo k : Nat} {v : α} {t : Tab α} (h : twfFrom d lo t = true) (hk : lo ≤ k) (hv : v ≠ d k)
    (hn : ∀ p ∈ t, p.1 ≠ k) : twfFrom d lo (tins t k v) = true := by
  induction t generalizing lo with
  | nil => simp [tins, twfFrom, hk, hv]
  | cons p t ih =>
    simp only [twfFrom, Bool.and_eq_true, decide_eq_true_eq] at h
    have := hn p (by simp)
    simp only [tins]
    split
    · simp only [twfFrom, Bool.and_eq_true, decide_eq_true_eq]
      exact ⟨⟨hk, hv⟩, ⟨by omega, h.1.2⟩, h.2⟩
    · simp only [twfFrom, Bool.and_eq_true, decide_eq_true_eq]
      exact ⟨h.1, ih h.2 (by omega) fun q hq => hn q (by simp [hq])⟩

/-- A write keeps the canonical form. -/
theorem twfFrom_tset {lo k : Nat} {v : α} {t : Tab α} (h : twfFrom d lo t = true) (hk : lo ≤ k) :
    twfFrom d lo (tset d t k v) = true := by
  unfold tset
  split
  · exact twfFrom_filter _ h
  · exact twfFrom_tins (twfFrom_filter _ h) hk (by assumption) (tdel_ne t k)

/-- A canonical table, entry by entry. -/
theorem twfFrom_iff {lo : Nat} {t : Tab α} :
    twfFrom d lo t = true ↔ t.Pairwise (fun p q => p.1 < q.1) ∧ ∀ p ∈ t, lo ≤ p.1 ∧ p.2 ≠ d p.1 := by
  induction t generalizing lo with
  | nil => simp [twfFrom]
  | cons p t ih =>
    simp only [twfFrom, Bool.and_eq_true, decide_eq_true_eq, List.pairwise_cons, List.mem_cons, forall_eq_or_imp, ih]
    constructor
    · rintro ⟨h1, h2, h3⟩
      exact ⟨⟨fun q hq => (h3 q hq).1, h2⟩, h1, fun q hq => ⟨by have := (h3 q hq).1; omega, (h3 q hq).2⟩⟩
    · rintro ⟨⟨h1, h2⟩, h3, h4⟩
      exact ⟨h3, h2, fun q hq => ⟨h1 q hq, (h4 q hq).2⟩⟩

/-! ### Byte memories -/

theorem wr_wf {m : Memory} (a : Nat) (b : Byte) (h : Memory.wf m = true) : Memory.wf (wr m a b) = true :=
  twfFrom_tset h (Nat.zero_le a)

theorem wrBytes_wf {m : Memory} (a : Nat) (bs : List Byte) (h : Memory.wf m = true) : Memory.wf (wrBytes m a bs) = true := by
  induction bs generalizing m a with
  | nil => exact h
  | cons b bs ih => exact ih _ (wr_wf a b h)

theorem clearBytes_wf {m : Memory} (a n : Nat) (h : Memory.wf m = true) : Memory.wf (clearBytes m a n) = true :=
  twfFrom_filter _ h

theorem copyIn_wf {m src : Memory} (b a n : Nat) (hm : Memory.wf m = true) (hs : Memory.wf src = true) :
    Memory.wf (copyIn m b src a n) = true := by
  unfold Memory.wf Tab.wf at *
  rw [twfFrom_iff] at *
  unfold copyIn memDefault at *
  refine ⟨?_, ?_⟩
  · rw [List.pairwise_append, List.pairwise_append]
    refine ⟨⟨hm.1.filter _, ?_, ?_⟩, hm.1.filter _, ?_⟩
    · rw [List.pairwise_map]
      refine (hs.1.filter _).imp_of_mem ?_
      intro p q hp hq h
      simp only [List.mem_filter, Bool.and_eq_true, decide_eq_true_eq] at hp hq
      dsimp only; omega
    · intro p hp q hq
      simp only [List.mem_filter, List.mem_map, Bool.and_eq_true, decide_eq_true_eq] at hp hq
      obtain ⟨r, hr, rfl⟩ := hq
      dsimp only; omega
    · intro p hp q hq
      simp only [List.mem_append, List.mem_filter, List.mem_map, Bool.and_eq_true, decide_eq_true_eq] at hp hq
      rcases hp with hp | ⟨r, hr, rfl⟩
      · omega
      · dsimp only; omega
  · intro p hp
    simp only [List.mem_append, List.mem_filter, List.mem_map, Bool.and_eq_true] at hp
    rcases hp with (⟨h, _⟩ | ⟨r, ⟨hr, _⟩, rfl⟩) | ⟨h, _⟩
    · exact hm.2 p h
    · exact ⟨Nat.zero_le _, (hs.2 r hr).2⟩
    · exact hm.2 p h

@[simp] theorem rd_wr_self (m : Memory) (a : Nat) (b : Byte) : rd (wr m a b) a = b := tget_tset_self _ _ _ _ rfl

theorem rd_wr_other (m : Memory) {a x : Nat} (b : Byte) (hx : x ≠ a) : rd (wr m a b) x = rd m x := tget_tset_other _ _ _ hx

/-- A byte outside the range written is unchanged. -/
theorem rd_wrBytes_outside (m : Memory) {a x : Nat} {bs : List Byte} (hx : x < a ∨ a + bs.length ≤ x) :
    rd (wrBytes m a bs) x = rd m x := by
  induction bs generalizing m a with
  | nil => rfl
  | cons b bs ih =>
    simp only [List.length_cons] at hx
    rw [wrBytes, ih _ (by omega), rd_wr_other _ b (by omega)]

/-- The range written reads what was written. -/
theorem rdBytes_wrBytes (m : Memory) (a : Nat) (bs : List Byte) : rdBytes (wrBytes m a bs) a bs.length = bs := by
  induction bs generalizing m a with
  | nil => rfl
  | cons b bs ih =>
    simp only [List.length_cons, rdBytes, wrBytes, ih]
    rw [rd_wrBytes_outside _ (by omega), rd_wr_self]

end Sys2Proof.Machine
end

