-- ==== Sys2Proof/Laws/Ops.lean ====
section
/-! SUPPORT. What the shared operations can do, once for each: the operations on rings, events, messages, audit entries
and credentials leave `State.frame` alone, and `finish` after a command that fired nothing changes only the sticky bits,
ERR_N and the interrupt sources. -/

namespace Sys2Proof.Machine

theorem frame_fields {s t : State} (h : s.frame = t.frame) :
    s.pending = t.pending ∧ s.regs = t.regs ∧ s.latch = t.latch ∧ s.lowHeld = t.lowHeld ∧ s.sram = t.sram ∧
    s.openRam = t.openRam ∧ s.pwr = t.pwr ∧ s.sup = t.sup ∧ s.bus = t.bus ∧ s.dma = t.dma ∧ s.time = t.time ∧
    s.sched = t.sched ∧ s.fab = t.fab ∧ s.loop = t.loop ∧ s.ept = t.ept ∧ s.arbPos = t.arbPos ∧
    s.msixTab = t.msixTab ∧ s.casc = t.casc ∧ s.tst = t.tst ∧ s.tap = t.tap := by
  unfold State.frame at h
  simp only [State.mk.injEq] at h
  simp only [h, and_self]

@[simp] theorem frame_emit (s : State) (o : Output) : (s.emit o).frame = s.frame := rfl
@[simp] theorem frame_tick (s : State) : s.tick.frame = s.frame := rfl
@[simp] theorem frame_fire (s : State) (n d : Nat) (o : Option Nat) : (s.fire n d o).frame = s.frame := rfl
@[simp] theorem frame_mark (s : State) (a : Nat) (m : Word) : (s.mark a m).frame = s.frame := by
  unfold State.mark; split <;> rfl
@[simp] theorem frame_modIrq (s : State) (n : Nat) (f : IrqSrc → IrqSrc) : (s.modIrq n f).frame = s.frame := rfl
@[simp] theorem frame_modRing (s : State) (r : Nat) (f : Ring → Ring) : (s.modRing r f).frame = s.frame := rfl
@[simp] theorem frame_modFsrc (s : State) (n : Nat) (f : FltSrc → FltSrc) : (s.modFsrc n f).frame = s.frame := rfl
@[simp] theorem frame_modKey (s : State) (n : Nat) (f : Key → Key) : (s.modKey n f).frame = s.frame := rfl
@[simp] theorem frame_modImg (s : State) (n : Nat) (f : ImgSlot → ImgSlot) : (s.modImg n f).frame = s.frame := rfl
@[simp] theorem frame_onSec (s : State) (f : Sec → Sec) : (s.onSec f).frame = s.frame := rfl
@[simp] theorem frame_onFlt (s : State) (f : Flt → Flt) : (s.onFlt f).frame = s.frame := rfl
@[simp] theorem frame_onFlash (s : State) (f : Flash → Flash) : (s.onFlash f).frame = s.frame := rfl

@[simp] theorem frame_irqPulse (s : State) (n : Nat) : (s.irqPulse n).frame = s.frame := by
  unfold State.irqPulse; split <;> simp

@[simp] theorem frame_sendMsix (s : State) (v : Nat) : (s.sendMsix v).frame = s.frame := by
  unfold State.sendMsix; split <;> rfl

@[simp] theorem frame_ringMsg (s : State) (r : Nat) : (s.ringMsg r).frame = s.frame := by
  unfold State.ringMsg
  dsimp only
  split
  · split
    · rfl
    · split <;> simp
  · rfl

@[simp] theorem frame_writeEvent (s : State) (r : Nat) (e : EventRec) : (s.writeEvent r e).frame = s.frame := by
  simp [State.writeEvent]

@[simp] theorem frame_dropEvent (s : State) (r : Nat) (q : Bool) : (s.dropEvent r q).frame = s.frame := by
  unfold State.dropEvent; dsimp only; split <;> simp

@[simp] theorem frame_flushEvents (n : Nat) (s : State) (r : Nat) : (State.flushEvents n s r).frame = s.frame := by
  induction n generalizing s with
  | zero => rfl
  | succ n ih =>
    unfold State.flushEvents
    dsimp only
    split
    · rfl
    · split
      · rw [ih]; simp
      · split
        · rfl
        · simp

@[simp] theorem frame_event (s : State) (c b a : Nat) (d : List Byte) (t : Option Nat) (q : Bool) :
    (s.event c b a d t q).frame = s.frame := by
  unfold State.event
  dsimp only
  split
  · split
    · simp
    · split <;> simp
  · simp

@[simp] theorem frame_appendAudit (s : State) (e : AuditEntry) (ok : Bool) : (s.appendAudit e ok).frame = s.frame := by
  unfold State.appendAudit; dsimp only; split <;> rfl

@[simp] theorem frame_writeAudit (s : State) (e : AuditEntry) (ok : Bool) : (s.writeAudit e ok).frame = s.frame := by
  simp [State.writeAudit]

@[simp] theorem frame_holdAudit (s : State) (e : AuditEntry) : (s.holdAudit e).frame = s.frame := by
  unfold State.holdAudit; split <;> rfl

@[simp] theorem frame_recordOrHold (s : State) (e : AuditEntry) (ok : Bool) : (s.recordOrHold e ok).frame = s.frame := by
  unfold State.recordOrHold; split <;> simp

@[simp] theorem frame_setResult (s : State) (q : Nat) (b : Byte) : (s.setResult q b).frame = s.frame := by
  unfold State.setResult; split <;> rfl

@[simp] theorem frame_noteRefusal (s : State) (k : Nat) : (s.noteRefusal k).frame = s.frame := rfl

@[simp] theorem frame_useCounter (s : State) (k : Nat) (c : Dword) : (s.useCounter k c).frame = s.frame := by
  unfold State.useCounter; split <;> rfl

@[simp] theorem frame_credCheck (s : State) (b m : List Byte) (f : Role → Bool) : (s.credCheck b m f).2.frame = s.frame := by
  unfold State.credCheck
  dsimp only
  split
  · rfl
  · split
    · rfl
    · split
      · rfl
      · split <;> simp

@[simp] theorem frame_writeCompletion (s : State) (r : Nat) (e : Entry) (c : Completion) :
    (s.writeCompletion r e c).frame = s.frame := by
  unfold State.writeCompletion
  dsimp only
  split <;> split <;> split <;> simp

@[simp] theorem frame_modEntry (s : State) (r i : Nat) (f : Entry → Entry) : (s.modEntry r i f).frame = s.frame := rfl
@[simp] theorem frame_begin (s : State) (r i : Nat) : (s.begin_ r i).frame = s.frame := rfl

@[simp] theorem frame_acceptHead (s : State) (r i : Nat) (f : Entry → Entry) : (s.acceptHead r i f).frame = s.frame := rfl

@[simp] theorem frame_startHead (s : State) (r : Nat) (e : Entry) (ok : Bool) : (s.startHead r e ok).frame = s.frame := by
  unfold State.startHead
  dsimp only
  split
  · simp
  · split
    · simp
    · split
      · simp
      · generalize hp : (if e.auth.isEmpty = true then ((⟨5, none⟩ : Cred), s) else s.credCheck e.auth _ _) = p
        have h : p.2.frame = s.frame := by rw [← hp]; split <;> simp
        generalize (if p.1.status = 0 && !ok then 0x50 else p.1.status) = st
        split <;> simp [h]

@[simp] theorem frame_settle (n : Nat) (s : State) (r : Nat) (ok : Bool) : (State.settle n s r ok).frame = s.frame := by
  induction n generalizing s with
  | zero => rfl
  | succ n ih =>
    unfold State.settle
    split
    · rfl
    · split
      · rfl
      · split
        · rw [ih]; simp
        · split
          · rw [ih]; simp
          · rfl

@[simp] theorem frame_drain (s : State) (r : Nat) (ok : Bool) : (s.drain r ok).frame = s.frame := frame_settle _ _ _ _

@[simp] theorem frame_complete (s : State) (r i : Nat) (c : Completion) : (s.complete r i c).frame = s.frame := by
  simp [State.complete]

@[simp] theorem frame_finishCmd (s : State) (r i st : Nat) (tk : Bool) (res : List Byte) (k : Nat)
    (pre : Option (Nat × List Byte)) : (s.finishCmd r i st tk res k pre).frame = s.frame := by
  unfold State.finishCmd; split <;> simp

@[simp] theorem frame_ringError (s : State) (r c i : Nat) : (s.ringError r c i).frame = s.frame := by
  unfold State.ringError; split <;> simp

@[simp] theorem frame_setLevel (s : State) (n : Nat) (on : Bool) (d : Nat) (u : Option Nat) :
    (s.setLevel n on d u).frame = s.frame := by
  unfold State.setLevel
  dsimp only
  split
  · simp only [apply_ite State.frame, frame_fire, frame_modFsrc, ite_self]
  · rfl

/-! ### The end of every command -/

theorem mark_marks_only (s : State) (a : Nat) (w : Word) : ∃ m, s.mark a w = { s with marks := m } := by
  unfold State.mark
  split
  · exact ⟨s.marks, rfl⟩
  · exact ⟨_, rfl⟩

theorem marks_marks_only (l : List Nat) (a : Nat → Nat) (w : Nat → Word) (s : State) :
    ∃ m, l.foldl (fun s k => s.mark (a k) (w k)) s = { s with marks := m } := by
  induction l generalizing s with
  | nil => exact ⟨s.marks, rfl⟩
  | cons n l ih =>
    obtain ⟨m, hm⟩ := mark_marks_only s (a n) (w n)
    obtain ⟨m', hm'⟩ := ih (s.mark (a n) (w n))
    exact ⟨m', by rw [List.foldl_cons, hm', hm]⟩

theorem irqSample_irq_only (s : State) : ∃ q m, s.irqSample = { s with irq := q, marks := m } := by
  unfold State.irqSample
  generalize irqLevels = l
  induction l generalizing s with
  | nil => exact ⟨s.irq, s.marks, rfl⟩
  | cons n l ih =>
    obtain ⟨m, hm⟩ := mark_marks_only (s.modIrq n fun q => q.sample (s.irqInput n)) (Reg.irqPend.addr (n / 32))
      (w32 (at_ ((s.irqs n).sets (s.irqInput n)) (n % 32)))
    obtain ⟨q, m', hq⟩ := ih (s.irqTake n)
    refine ⟨q, m', ?_⟩
    rw [List.foldl_cons, hq]
    unfold State.irqTake
    dsimp only
    rw [hm]
    rfl

theorem relevel_flt_only (s : State) : ∃ m, s.relevel = { s with flt := s.relevel.flt, marks := m } := by
  unfold State.relevel
  dsimp only
  obtain ⟨m, hm⟩ := marks_marks_only [0, 1, 2] (fun k => Reg.fltSticky.addr k) (fun k => w32 (s.activeMask / 2 ^ (32 * k)))
    { s with flt.sticky := s.flt.sticky ||| BitVec.ofNat 96 s.activeMask }
  exact ⟨m, by rw [hm]⟩

theorem drainFires_fireQ (n : Nat) (s : State) : (State.drainFires n s).flt.fireQ = [] := by
  induction n generalizing s with
  | zero => rfl
  | succ n ih =>
    unfold State.drainFires
    split
    · assumption
    · exact ih _

theorem drainFires_quiet (n : Nat) (s : State) (h : s.flt.fireQ = []) : State.drainFires n s = s := by
  cases n with
  | zero => unfold State.drainFires; rw [← h]
  | succ n => unfold State.drainFires; rw [h]

/-- After a command that fired nothing, `finish` changes the fault collector, the interrupt sources and the marks alone. -/
theorem finish_quiet (s : State) (h : s.flt.fireQ = []) :
    ∃ q m, s.finish = { s with flt := s.relevel.settleErr.flt, irq := q, marks := m } := by
  unfold State.finish
  rw [drainFires_quiet _ _ h]
  obtain ⟨q, m, hq⟩ := irqSample_irq_only s.relevel.settleErr
  obtain ⟨m', hm⟩ := relevel_flt_only s
  refine ⟨q, m, ?_⟩
  rw [hq]
  generalize s.relevel = u at hm
  unfold State.settleErr
  split <;> (rw [hm])

end Sys2Proof.Machine
end

