-- ==== Sys2Proof/Laws/Frame.lean ====
section
/-! SUPPORT. What completions, events, audit entries and levels leave alone, field by field, from the frame lemmas of
Laws/Ops.lean. -/

namespace Sys2Proof.Machine

theorem foldl_keeps {α β} (g : State → β) (l : List α) (f : State → α → State) (h : ∀ s a, g (f s a) = g s)
    (s : State) :
    g (l.foldl f s) = g s := by
  induction l generalizing s with
  | nil => rfl
  | cons a l ih => rw [List.foldl_cons, ih, h]

/-- The fields outside what `State.frame` leaves out. -/
theorem of_frame {s t : State} (h : s.frame = t.frame) :
    s.regs = t.regs ∧ s.pwr = t.pwr ∧ s.sup = t.sup ∧ s.bus = t.bus ∧ s.time = t.time ∧ s.sched = t.sched ∧
    s.fab = t.fab ∧ s.loop = t.loop ∧ s.ept = t.ept ∧ s.casc = t.casc ∧ s.sram = t.sram ∧ s.latch = t.latch ∧
    s.lowHeld = t.lowHeld ∧ s.msixTab = t.msixTab ∧ s.tst = t.tst ∧ s.tap = t.tap ∧ s.dma = t.dma := by
  have := frame_fields h; simp_all
section
variable {s t : State} (h : s.frame = t.frame)
include h
theorem of_frame_regs : s.regs = t.regs := (of_frame h).1
theorem of_frame_pwr : s.pwr = t.pwr := (of_frame h).2.1
theorem of_frame_sup : s.sup = t.sup := (of_frame h).2.2.1
theorem of_frame_bus : s.bus = t.bus := (of_frame h).2.2.2.1
theorem of_frame_time : s.time = t.time := (of_frame h).2.2.2.2.1
theorem of_frame_sched : s.sched = t.sched := (of_frame h).2.2.2.2.2.1
theorem of_frame_fab : s.fab = t.fab := (of_frame h).2.2.2.2.2.2.1
theorem of_frame_loop : s.loop = t.loop := (of_frame h).2.2.2.2.2.2.2.1
theorem of_frame_ept : s.ept = t.ept := (of_frame h).2.2.2.2.2.2.2.2.1
theorem of_frame_casc : s.casc = t.casc := (of_frame h).2.2.2.2.2.2.2.2.2.1
theorem of_frame_sram : s.sram = t.sram := (of_frame h).2.2.2.2.2.2.2.2.2.2.1
theorem of_frame_rest : s.latch = t.latch ∧ s.lowHeld = t.lowHeld ∧ s.msixTab = t.msixTab ∧ s.tst = t.tst ∧
    s.tap = t.tap ∧ s.dma = t.dma :=
  (of_frame h).2.2.2.2.2.2.2.2.2.2.2
end

@[simp] theorem event_keeps_regs (s : State) (c b a : Nat) (d : List Byte) (t : Option Nat) (q : Bool) :
    (s.event c b a d t q).regs = s.regs := of_frame_regs (by simp)
@[simp] theorem event_keeps_pwr (s : State) (c b a : Nat) (d : List Byte) (t : Option Nat) (q : Bool) :
    (s.event c b a d t q).pwr = s.pwr := of_frame_pwr (by simp)
@[simp] theorem event_keeps_sup (s : State) (c b a : Nat) (d : List Byte) (t : Option Nat) (q : Bool) :
    (s.event c b a d t q).sup = s.sup := of_frame_sup (by simp)
@[simp] theorem event_keeps_bus (s : State) (c b a : Nat) (d : List Byte) (t : Option Nat) (q : Bool) :
    (s.event c b a d t q).bus = s.bus := of_frame_bus (by simp)
@[simp] theorem event_keeps_time (s : State) (c b a : Nat) (d : List Byte) (t : Option Nat) (q : Bool) :
    (s.event c b a d t q).time = s.time := of_frame_time (by simp)
@[simp] theorem event_keeps_sched (s : State) (c b a : Nat) (d : List Byte) (t : Option Nat) (q : Bool) :
    (s.event c b a d t q).sched = s.sched := of_frame_sched (by simp)
@[simp] theorem event_keeps_fab (s : State) (c b a : Nat) (d : List Byte) (t : Option Nat) (q : Bool) :
    (s.event c b a d t q).fab = s.fab := of_frame_fab (by simp)
@[simp] theorem event_keeps_loop (s : State) (c b a : Nat) (d : List Byte) (t : Option Nat) (q : Bool) :
    (s.event c b a d t q).loop = s.loop := of_frame_loop (by simp)
@[simp] theorem event_keeps_ept (s : State) (c b a : Nat) (d : List Byte) (t : Option Nat) (q : Bool) :
    (s.event c b a d t q).ept = s.ept := of_frame_ept (by simp)
@[simp] theorem event_keeps_casc (s : State) (c b a : Nat) (d : List Byte) (t : Option Nat) (q : Bool) :
    (s.event c b a d t q).casc = s.casc := of_frame_casc (by simp)
@[simp] theorem event_keeps_sram (s : State) (c b a : Nat) (d : List Byte) (t : Option Nat) (q : Bool) :
    (s.event c b a d t q).sram = s.sram := of_frame_sram (by simp)
@[simp] theorem writeAudit_keeps_regs (s : State) (e : AuditEntry) (ok : Bool) : (s.writeAudit e ok).regs = s.regs :=
  of_frame_regs (by simp)
@[simp] theorem writeAudit_keeps_pwr (s : State) (e : AuditEntry) (ok : Bool) : (s.writeAudit e ok).pwr = s.pwr :=
  of_frame_pwr (by simp)
@[simp] theorem writeAudit_keeps_sup (s : State) (e : AuditEntry) (ok : Bool) : (s.writeAudit e ok).sup = s.sup :=
  of_frame_sup (by simp)
@[simp] theorem writeAudit_keeps_bus (s : State) (e : AuditEntry) (ok : Bool) : (s.writeAudit e ok).bus = s.bus :=
  of_frame_bus (by simp)
@[simp] theorem writeAudit_keeps_time (s : State) (e : AuditEntry) (ok : Bool) : (s.writeAudit e ok).time = s.time :=
  of_frame_time (by simp)
@[simp] theorem writeAudit_keeps_sched (s : State) (e : AuditEntry) (ok : Bool) : (s.writeAudit e ok).sched = s.sched :=
  of_frame_sched (by simp)
@[simp] theorem writeAudit_keeps_fab (s : State) (e : AuditEntry) (ok : Bool) : (s.writeAudit e ok).fab = s.fab :=
  of_frame_fab (by simp)
@[simp] theorem writeAudit_keeps_loop (s : State) (e : AuditEntry) (ok : Bool) : (s.writeAudit e ok).loop = s.loop :=
  of_frame_loop (by simp)
@[simp] theorem writeAudit_keeps_ept (s : State) (e : AuditEntry) (ok : Bool) : (s.writeAudit e ok).ept = s.ept :=
  of_frame_ept (by simp)
@[simp] theorem writeAudit_keeps_casc (s : State) (e : AuditEntry) (ok : Bool) : (s.writeAudit e ok).casc = s.casc :=
  of_frame_casc (by simp)
@[simp] theorem writeAudit_keeps_sram (s : State) (e : AuditEntry) (ok : Bool) : (s.writeAudit e ok).sram = s.sram :=
  of_frame_sram (by simp)
@[simp] theorem appendAudit_keeps_regs (s : State) (e : AuditEntry) (ok : Bool) : (s.appendAudit e ok).regs = s.regs :=
  of_frame_regs (by simp)
@[simp] theorem appendAudit_keeps_pwr (s : State) (e : AuditEntry) (ok : Bool) : (s.appendAudit e ok).pwr = s.pwr :=
  of_frame_pwr (by simp)
@[simp] theorem appendAudit_keeps_sup (s : State) (e : AuditEntry) (ok : Bool) : (s.appendAudit e ok).sup = s.sup :=
  of_frame_sup (by simp)
@[simp] theorem appendAudit_keeps_bus (s : State) (e : AuditEntry) (ok : Bool) : (s.appendAudit e ok).bus = s.bus :=
  of_frame_bus (by simp)
@[simp] theorem appendAudit_keeps_time (s : State) (e : AuditEntry) (ok : Bool) : (s.appendAudit e ok).time = s.time :=
  of_frame_time (by simp)
@[simp] theorem appendAudit_keeps_sched (s : State) (e : AuditEntry) (ok : Bool) :
    (s.appendAudit e ok).sched = s.sched := of_frame_sched (by simp)
@[simp] theorem appendAudit_keeps_fab (s : State) (e : AuditEntry) (ok : Bool) : (s.appendAudit e ok).fab = s.fab :=
  of_frame_fab (by simp)
@[simp] theorem appendAudit_keeps_loop (s : State) (e : AuditEntry) (ok : Bool) : (s.appendAudit e ok).loop = s.loop :=
  of_frame_loop (by simp)
@[simp] theorem appendAudit_keeps_ept (s : State) (e : AuditEntry) (ok : Bool) : (s.appendAudit e ok).ept = s.ept :=
  of_frame_ept (by simp)
@[simp] theorem appendAudit_keeps_casc (s : State) (e : AuditEntry) (ok : Bool) : (s.appendAudit e ok).casc = s.casc :=
  of_frame_casc (by simp)
@[simp] theorem appendAudit_keeps_sram (s : State) (e : AuditEntry) (ok : Bool) : (s.appendAudit e ok).sram = s.sram :=
  of_frame_sram (by simp)
@[simp] theorem holdAudit_keeps_regs (s : State) (e : AuditEntry) : (s.holdAudit e).regs = s.regs := of_frame_regs (by simp)
@[simp] theorem holdAudit_keeps_pwr (s : State) (e : AuditEntry) : (s.holdAudit e).pwr = s.pwr := of_frame_pwr (by simp)
@[simp] theorem holdAudit_keeps_sup (s : State) (e : AuditEntry) : (s.holdAudit e).sup = s.sup := of_frame_sup (by simp)
@[simp] theorem holdAudit_keeps_bus (s : State) (e : AuditEntry) : (s.holdAudit e).bus = s.bus := of_frame_bus (by simp)
@[simp] theorem holdAudit_keeps_time (s : State) (e : AuditEntry) : (s.holdAudit e).time = s.time := of_frame_time (by simp)
@[simp] theorem holdAudit_keeps_sched (s : State) (e : AuditEntry) : (s.holdAudit e).sched = s.sched :=
  of_frame_sched (by simp)
@[simp] theorem holdAudit_keeps_fab (s : State) (e : AuditEntry) : (s.holdAudit e).fab = s.fab := of_frame_fab (by simp)
@[simp] theorem holdAudit_keeps_loop (s : State) (e : AuditEntry) : (s.holdAudit e).loop = s.loop := of_frame_loop (by simp)
@[simp] theorem holdAudit_keeps_ept (s : State) (e : AuditEntry) : (s.holdAudit e).ept = s.ept := of_frame_ept (by simp)
@[simp] theorem holdAudit_keeps_casc (s : State) (e : AuditEntry) : (s.holdAudit e).casc = s.casc := of_frame_casc (by simp)
@[simp] theorem holdAudit_keeps_sram (s : State) (e : AuditEntry) : (s.holdAudit e).sram = s.sram := of_frame_sram (by simp)
@[simp] theorem recordOrHold_keeps_regs (s : State) (e : AuditEntry) (ok : Bool) :
    (s.recordOrHold e ok).regs = s.regs := of_frame_regs (by simp)
@[simp] theorem recordOrHold_keeps_pwr (s : State) (e : AuditEntry) (ok : Bool) : (s.recordOrHold e ok).pwr = s.pwr :=
  of_frame_pwr (by simp)
@[simp] theorem recordOrHold_keeps_sup (s : State) (e : AuditEntry) (ok : Bool) : (s.recordOrHold e ok).sup = s.sup :=
  of_frame_sup (by simp)
@[simp] theorem recordOrHold_keeps_bus (s : State) (e : AuditEntry) (ok : Bool) : (s.recordOrHold e ok).bus = s.bus :=
  of_frame_bus (by simp)
@[simp] theorem recordOrHold_keeps_time (s : State) (e : AuditEntry) (ok : Bool) :
    (s.recordOrHold e ok).time = s.time := of_frame_time (by simp)
@[simp] theorem recordOrHold_keeps_sched (s : State) (e : AuditEntry) (ok : Bool) :
    (s.recordOrHold e ok).sched = s.sched := of_frame_sched (by simp)
@[simp] theorem recordOrHold_keeps_fab (s : State) (e : AuditEntry) (ok : Bool) : (s.recordOrHold e ok).fab = s.fab :=
  of_frame_fab (by simp)
@[simp] theorem recordOrHold_keeps_loop (s : State) (e : AuditEntry) (ok : Bool) :
    (s.recordOrHold e ok).loop = s.loop := of_frame_loop (by simp)
@[simp] theorem recordOrHold_keeps_ept (s : State) (e : AuditEntry) (ok : Bool) : (s.recordOrHold e ok).ept = s.ept :=
  of_frame_ept (by simp)
@[simp] theorem recordOrHold_keeps_casc (s : State) (e : AuditEntry) (ok : Bool) :
    (s.recordOrHold e ok).casc = s.casc := of_frame_casc (by simp)
@[simp] theorem recordOrHold_keeps_sram (s : State) (e : AuditEntry) (ok : Bool) :
    (s.recordOrHold e ok).sram = s.sram := of_frame_sram (by simp)
@[simp] theorem setResult_keeps_regs (s : State) (q : Nat) (b : Byte) : (s.setResult q b).regs = s.regs :=
  of_frame_regs (by simp)
@[simp] theorem setResult_keeps_pwr (s : State) (q : Nat) (b : Byte) : (s.setResult q b).pwr = s.pwr := of_frame_pwr (by simp)
@[simp] theorem setResult_keeps_sup (s : State) (q : Nat) (b : Byte) : (s.setResult q b).sup = s.sup := of_frame_sup (by simp)
@[simp] theorem setResult_keeps_bus (s : State) (q : Nat) (b : Byte) : (s.setResult q b).bus = s.bus := of_frame_bus (by simp)
@[simp] theorem setResult_keeps_time (s : State) (q : Nat) (b : Byte) : (s.setResult q b).time = s.time :=
  of_frame_time (by simp)
@[simp] theorem setResult_keeps_sched (s : State) (q : Nat) (b : Byte) : (s.setResult q b).sched = s.sched :=
  of_frame_sched (by simp)
@[simp] theorem setResult_keeps_fab (s : State) (q : Nat) (b : Byte) : (s.setResult q b).fab = s.fab := of_frame_fab (by simp)
@[simp] theorem setResult_keeps_loop (s : State) (q : Nat) (b : Byte) : (s.setResult q b).loop = s.loop :=
  of_frame_loop (by simp)
@[simp] theorem setResult_keeps_ept (s : State) (q : Nat) (b : Byte) : (s.setResult q b).ept = s.ept := of_frame_ept (by simp)
@[simp] theorem setResult_keeps_casc (s : State) (q : Nat) (b : Byte) : (s.setResult q b).casc = s.casc :=
  of_frame_casc (by simp)
@[simp] theorem setResult_keeps_sram (s : State) (q : Nat) (b : Byte) : (s.setResult q b).sram = s.sram :=
  of_frame_sram (by simp)
@[simp] theorem drain_keeps_regs (s : State) (r : Nat) (ok : Bool) : (s.drain r ok).regs = s.regs := of_frame_regs (by simp)
@[simp] theorem drain_keeps_pwr (s : State) (r : Nat) (ok : Bool) : (s.drain r ok).pwr = s.pwr := of_frame_pwr (by simp)
@[simp] theorem drain_keeps_sup (s : State) (r : Nat) (ok : Bool) : (s.drain r ok).sup = s.sup := of_frame_sup (by simp)
@[simp] theorem drain_keeps_bus (s : State) (r : Nat) (ok : Bool) : (s.drain r ok).bus = s.bus := of_frame_bus (by simp)
@[simp] theorem drain_keeps_time (s : State) (r : Nat) (ok : Bool) : (s.drain r ok).time = s.time := of_frame_time (by simp)
@[simp] theorem drain_keeps_sched (s : State) (r : Nat) (ok : Bool) : (s.drain r ok).sched = s.sched :=
  of_frame_sched (by simp)
@[simp] theorem drain_keeps_fab (s : State) (r : Nat) (ok : Bool) : (s.drain r ok).fab = s.fab := of_frame_fab (by simp)
@[simp] theorem drain_keeps_loop (s : State) (r : Nat) (ok : Bool) : (s.drain r ok).loop = s.loop := of_frame_loop (by simp)
@[simp] theorem drain_keeps_ept (s : State) (r : Nat) (ok : Bool) : (s.drain r ok).ept = s.ept := of_frame_ept (by simp)
@[simp] theorem drain_keeps_casc (s : State) (r : Nat) (ok : Bool) : (s.drain r ok).casc = s.casc := of_frame_casc (by simp)
@[simp] theorem drain_keeps_sram (s : State) (r : Nat) (ok : Bool) : (s.drain r ok).sram = s.sram := of_frame_sram (by simp)
@[simp] theorem complete_keeps_regs (s : State) (r i : Nat) (c : Completion) : (s.complete r i c).regs = s.regs :=
  of_frame_regs (by simp)
@[simp] theorem complete_keeps_pwr (s : State) (r i : Nat) (c : Completion) : (s.complete r i c).pwr = s.pwr :=
  of_frame_pwr (by simp)
@[simp] theorem complete_keeps_sup (s : State) (r i : Nat) (c : Completion) : (s.complete r i c).sup = s.sup :=
  of_frame_sup (by simp)
@[simp] theorem complete_keeps_bus (s : State) (r i : Nat) (c : Completion) : (s.complete r i c).bus = s.bus :=
  of_frame_bus (by simp)
@[simp] theorem complete_keeps_time (s : State) (r i : Nat) (c : Completion) : (s.complete r i c).time = s.time :=
  of_frame_time (by simp)
@[simp] theorem complete_keeps_sched (s : State) (r i : Nat) (c : Completion) : (s.complete r i c).sched = s.sched :=
  of_frame_sched (by simp)
@[simp] theorem complete_keeps_fab (s : State) (r i : Nat) (c : Completion) : (s.complete r i c).fab = s.fab :=
  of_frame_fab (by simp)
@[simp] theorem complete_keeps_loop (s : State) (r i : Nat) (c : Completion) : (s.complete r i c).loop = s.loop :=
  of_frame_loop (by simp)
@[simp] theorem complete_keeps_ept (s : State) (r i : Nat) (c : Completion) : (s.complete r i c).ept = s.ept :=
  of_frame_ept (by simp)
@[simp] theorem complete_keeps_casc (s : State) (r i : Nat) (c : Completion) : (s.complete r i c).casc = s.casc :=
  of_frame_casc (by simp)
@[simp] theorem complete_keeps_sram (s : State) (r i : Nat) (c : Completion) : (s.complete r i c).sram = s.sram :=
  of_frame_sram (by simp)
@[simp] theorem finishCmd_keeps_regs (s : State) (r i st : Nat) (tk : Bool) (res : List Byte) (k : Nat) (pre : Option (Nat × List Byte)) :
    (s.finishCmd r i st tk res k pre).regs = s.regs := of_frame_regs (by simp)
@[simp] theorem finishCmd_keeps_pwr (s : State) (r i st : Nat) (tk : Bool) (res : List Byte) (k : Nat) (pre : Option (Nat × List Byte)) :
    (s.finishCmd r i st tk res k pre).pwr = s.pwr := of_frame_pwr (by simp)
@[simp] theorem finishCmd_keeps_sup (s : State) (r i st : Nat) (tk : Bool) (res : List Byte) (k : Nat) (pre : Option (Nat × List Byte)) :
    (s.finishCmd r i st tk res k pre).sup = s.sup := of_frame_sup (by simp)
@[simp] theorem finishCmd_keeps_bus (s : State) (r i st : Nat) (tk : Bool) (res : List Byte) (k : Nat) (pre : Option (Nat × List Byte)) :
    (s.finishCmd r i st tk res k pre).bus = s.bus := of_frame_bus (by simp)
@[simp] theorem finishCmd_keeps_time (s : State) (r i st : Nat) (tk : Bool) (res : List Byte) (k : Nat) (pre : Option (Nat × List Byte)) :
    (s.finishCmd r i st tk res k pre).time = s.time := of_frame_time (by simp)
@[simp] theorem finishCmd_keeps_sched (s : State) (r i st : Nat) (tk : Bool) (res : List Byte) (k : Nat) (pre : Option (Nat × List Byte)) :
    (s.finishCmd r i st tk res k pre).sched = s.sched := of_frame_sched (by simp)
@[simp] theorem finishCmd_keeps_fab (s : State) (r i st : Nat) (tk : Bool) (res : List Byte) (k : Nat) (pre : Option (Nat × List Byte)) :
    (s.finishCmd r i st tk res k pre).fab = s.fab := of_frame_fab (by simp)
@[simp] theorem finishCmd_keeps_loop (s : State) (r i st : Nat) (tk : Bool) (res : List Byte) (k : Nat) (pre : Option (Nat × List Byte)) :
    (s.finishCmd r i st tk res k pre).loop = s.loop := of_frame_loop (by simp)
@[simp] theorem finishCmd_keeps_ept (s : State) (r i st : Nat) (tk : Bool) (res : List Byte) (k : Nat) (pre : Option (Nat × List Byte)) :
    (s.finishCmd r i st tk res k pre).ept = s.ept := of_frame_ept (by simp)
@[simp] theorem finishCmd_keeps_casc (s : State) (r i st : Nat) (tk : Bool) (res : List Byte) (k : Nat) (pre : Option (Nat × List Byte)) :
    (s.finishCmd r i st tk res k pre).casc = s.casc := of_frame_casc (by simp)
@[simp] theorem finishCmd_keeps_sram (s : State) (r i st : Nat) (tk : Bool) (res : List Byte) (k : Nat) (pre : Option (Nat × List Byte)) :
    (s.finishCmd r i st tk res k pre).sram = s.sram := of_frame_sram (by simp)
@[simp] theorem ringError_keeps_regs (s : State) (r c i : Nat) : (s.ringError r c i).regs = s.regs := of_frame_regs (by simp)
@[simp] theorem ringError_keeps_pwr (s : State) (r c i : Nat) : (s.ringError r c i).pwr = s.pwr := of_frame_pwr (by simp)
@[simp] theorem ringError_keeps_sup (s : State) (r c i : Nat) : (s.ringError r c i).sup = s.sup := of_frame_sup (by simp)
@[simp] theorem ringError_keeps_bus (s : State) (r c i : Nat) : (s.ringError r c i).bus = s.bus := of_frame_bus (by simp)
@[simp] theorem ringError_keeps_time (s : State) (r c i : Nat) : (s.ringError r c i).time = s.time := of_frame_time (by simp)
@[simp] theorem ringError_keeps_sched (s : State) (r c i : Nat) : (s.ringError r c i).sched = s.sched :=
  of_frame_sched (by simp)
@[simp] theorem ringError_keeps_fab (s : State) (r c i : Nat) : (s.ringError r c i).fab = s.fab := of_frame_fab (by simp)
@[simp] theorem ringError_keeps_loop (s : State) (r c i : Nat) : (s.ringError r c i).loop = s.loop := of_frame_loop (by simp)
@[simp] theorem ringError_keeps_ept (s : State) (r c i : Nat) : (s.ringError r c i).ept = s.ept := of_frame_ept (by simp)
@[simp] theorem ringError_keeps_casc (s : State) (r c i : Nat) : (s.ringError r c i).casc = s.casc := of_frame_casc (by simp)
@[simp] theorem ringError_keeps_sram (s : State) (r c i : Nat) : (s.ringError r c i).sram = s.sram := of_frame_sram (by simp)
@[simp] theorem setLevel_keeps_regs (s : State) (n : Nat) (on : Bool) (d : Nat) (u : Option Nat) :
    (s.setLevel n on d u).regs = s.regs := of_frame_regs (by simp)
@[simp] theorem setLevel_keeps_pwr (s : State) (n : Nat) (on : Bool) (d : Nat) (u : Option Nat) :
    (s.setLevel n on d u).pwr = s.pwr := of_frame_pwr (by simp)
@[simp] theorem setLevel_keeps_sup (s : State) (n : Nat) (on : Bool) (d : Nat) (u : Option Nat) :
    (s.setLevel n on d u).sup = s.sup := of_frame_sup (by simp)
@[simp] theorem setLevel_keeps_bus (s : State) (n : Nat) (on : Bool) (d : Nat) (u : Option Nat) :
    (s.setLevel n on d u).bus = s.bus := of_frame_bus (by simp)
@[simp] theorem setLevel_keeps_time (s : State) (n : Nat) (on : Bool) (d : Nat) (u : Option Nat) :
    (s.setLevel n on d u).time = s.time := of_frame_time (by simp)
@[simp] theorem setLevel_keeps_sched (s : State) (n : Nat) (on : Bool) (d : Nat) (u : Option Nat) :
    (s.setLevel n on d u).sched = s.sched := of_frame_sched (by simp)
@[simp] theorem setLevel_keeps_fab (s : State) (n : Nat) (on : Bool) (d : Nat) (u : Option Nat) :
    (s.setLevel n on d u).fab = s.fab := of_frame_fab (by simp)
@[simp] theorem setLevel_keeps_loop (s : State) (n : Nat) (on : Bool) (d : Nat) (u : Option Nat) :
    (s.setLevel n on d u).loop = s.loop := of_frame_loop (by simp)
@[simp] theorem setLevel_keeps_ept (s : State) (n : Nat) (on : Bool) (d : Nat) (u : Option Nat) :
    (s.setLevel n on d u).ept = s.ept := of_frame_ept (by simp)
@[simp] theorem setLevel_keeps_casc (s : State) (n : Nat) (on : Bool) (d : Nat) (u : Option Nat) :
    (s.setLevel n on d u).casc = s.casc := of_frame_casc (by simp)
@[simp] theorem setLevel_keeps_sram (s : State) (n : Nat) (on : Bool) (d : Nat) (u : Option Nat) :
    (s.setLevel n on d u).sram = s.sram := of_frame_sram (by simp)
@[simp] theorem ringMsg_keeps_regs (s : State) (r : Nat) : (s.ringMsg r).regs = s.regs := of_frame_regs (by simp)
@[simp] theorem ringMsg_keeps_pwr (s : State) (r : Nat) : (s.ringMsg r).pwr = s.pwr := of_frame_pwr (by simp)
@[simp] theorem ringMsg_keeps_sup (s : State) (r : Nat) : (s.ringMsg r).sup = s.sup := of_frame_sup (by simp)
@[simp] theorem ringMsg_keeps_bus (s : State) (r : Nat) : (s.ringMsg r).bus = s.bus := of_frame_bus (by simp)
@[simp] theorem ringMsg_keeps_time (s : State) (r : Nat) : (s.ringMsg r).time = s.time := of_frame_time (by simp)
@[simp] theorem ringMsg_keeps_sched (s : State) (r : Nat) : (s.ringMsg r).sched = s.sched := of_frame_sched (by simp)
@[simp] theorem ringMsg_keeps_fab (s : State) (r : Nat) : (s.ringMsg r).fab = s.fab := of_frame_fab (by simp)
@[simp] theorem ringMsg_keeps_loop (s : State) (r : Nat) : (s.ringMsg r).loop = s.loop := of_frame_loop (by simp)
@[simp] theorem ringMsg_keeps_ept (s : State) (r : Nat) : (s.ringMsg r).ept = s.ept := of_frame_ept (by simp)
@[simp] theorem ringMsg_keeps_casc (s : State) (r : Nat) : (s.ringMsg r).casc = s.casc := of_frame_casc (by simp)
@[simp] theorem ringMsg_keeps_sram (s : State) (r : Nat) : (s.ringMsg r).sram = s.sram := of_frame_sram (by simp)

end Sys2Proof.Machine
end

