-- ==== Sys2Proof/Laws/Pass.lean ====
section
/-! SUPPORT. What the passing of time by itself leaves alone (R15, R164): `still_pass` and `core_pass` say it once, and
the lemmas after them read one field each. -/

namespace Sys2Proof.Machine

/-- The state without what the clock alone changes besides the raw counter. -/
def State.still (s : State) : State := { s.frame with loop := {}, ept := {}, time := {} }

theorem still_of_frame {s t : State} (h : s.frame = t.frame) : s.still = t.still := by
  unfold State.still; rw [h]

@[simp] theorem still_onLoop (s : State) (f) : (s.onLoop f).still = s.still := rfl
@[simp] theorem still_modChan (s : State) (k f) : (s.modChan k f).still = s.still := rfl
@[simp] theorem still_takeSnap (s : State) (h : Nat) : (s.takeSnap h).still = s.still := by
  unfold State.takeSnap; split
  · split <;> rfl
  · rfl

theorem still_foldl {α} (l : List α) (f : State → α → State) (h : ∀ s a, (f s a).still = s.still) (s : State) :
    (l.foldl f s).still = s.still := by
  induction l generalizing s with
  | nil => rfl
  | cons a l ih => rw [List.foldl_cons, ih, h]

@[simp] theorem still_lateSnaps (s : State) : s.lateSnaps.still = s.still := by
  unfold State.lateSnaps
  apply still_foldl
  intro s a; split <;> simp

@[simp] theorem still_onRelpety (s : State) (f) : (s.onRelpety f).still = s.still := by
  unfold State.onRelpety; split <;> rfl

@[simp] theorem still_profJob (s : State) (j) : (s.profJob j).still = s.still := by
  unfold State.profJob
  dsimp only
  split
  · rw [still_of_frame (frame_finishCmd ..)]; split <;> simp
  · simp

@[simp] theorem still_profJobs (s : State) : s.profJobs.still = s.still := by
  unfold State.profJobs
  rw [still_foldl _ _ (fun s a => still_profJob s a)]; simp

@[simp] theorem still_setQueue (s : State) (l q fs) : (s.setQueue l q fs).still = s.still := rfl
@[simp] theorem still_putFrame (s : State) (l q f) : (s.putFrame l q f).still = s.still := rfl
@[simp] theorem still_sendOwn (s : State) (l f) : (s.sendOwn l f).still = s.still := by
  unfold State.sendOwn; split <;> simp
@[simp] theorem still_modDelay (s : State) (l f) : (s.modDelay l f).still = s.still := rfl
@[simp] theorem still_askDelay (s : State) (l) : (s.askDelay l).still = s.still := by
  unfold State.askDelay; split <;> simp

@[simp] theorem still_askDelays (s : State) : s.askDelays.still = s.still := by
  unfold State.askDelays; exact still_foldl _ _ still_askDelay s

@[simp] theorem still_elapse (s : State) : s.elapse.still = s.still := by simp [State.elapse]
@[simp] theorem still_run (s : State) (dt) : (s.run dt).still = s.still := by unfold State.run; split <;> rfl
@[simp] theorem still_pass (s : State) (dt) : (s.pass dt).still = s.still := by simp [State.pass]

theorem still_fields {s t : State} (h : s.still = t.still) :
    s.pending = t.pending ∧ s.regs = t.regs ∧ s.latch = t.latch ∧ s.lowHeld = t.lowHeld ∧ s.sram = t.sram ∧
    s.openRam = t.openRam ∧ s.pwr = t.pwr ∧ s.sup = t.sup ∧ s.bus = t.bus ∧ s.dma = t.dma ∧
    s.sched = t.sched ∧ s.fab = t.fab ∧ s.arbPos = t.arbPos ∧
    s.msixTab = t.msixTab ∧ s.casc = t.casc ∧ s.tst = t.tst ∧ s.tap = t.tap := by
  unfold State.still State.frame at h
  simp only [State.mk.injEq] at h
  simp only [h, and_self]

theorem pass_fields (s : State) (dt : Nat) :
    (s.pass dt).pending = s.pending ∧ (s.pass dt).regs = s.regs ∧ (s.pass dt).latch = s.latch ∧
    (s.pass dt).lowHeld = s.lowHeld ∧ (s.pass dt).sram = s.sram ∧
    (s.pass dt).openRam = s.openRam ∧ (s.pass dt).pwr = s.pwr ∧ (s.pass dt).sup = s.sup ∧ (s.pass dt).bus = s.bus ∧
    (s.pass dt).dma = s.dma ∧
    (s.pass dt).sched = s.sched ∧ (s.pass dt).fab = s.fab ∧ (s.pass dt).arbPos = s.arbPos ∧
    (s.pass dt).msixTab = s.msixTab ∧ (s.pass dt).casc = s.casc ∧ (s.pass dt).tst = s.tst ∧ (s.pass dt).tap = s.tap :=
  still_fields (still_pass s dt)

section
variable (s : State) (dt : Nat)
@[simp] theorem pass_pending : (s.pass dt).pending = s.pending := (pass_fields s dt).1
@[simp] theorem pass_regs : (s.pass dt).regs = s.regs := (pass_fields s dt).2.1
@[simp] theorem pass_latch : (s.pass dt).latch = s.latch := (pass_fields s dt).2.2.1
@[simp] theorem pass_lowHeld : (s.pass dt).lowHeld = s.lowHeld := (pass_fields s dt).2.2.2.1
@[simp] theorem pass_sram : (s.pass dt).sram = s.sram := (pass_fields s dt).2.2.2.2.1
@[simp] theorem pass_openRam : (s.pass dt).openRam = s.openRam := (pass_fields s dt).2.2.2.2.2.1
@[simp] theorem pass_pwr : (s.pass dt).pwr = s.pwr := (pass_fields s dt).2.2.2.2.2.2.1
@[simp] theorem pass_sup : (s.pass dt).sup = s.sup := (pass_fields s dt).2.2.2.2.2.2.2.1
@[simp] theorem pass_bus : (s.pass dt).bus = s.bus := (pass_fields s dt).2.2.2.2.2.2.2.2.1
@[simp] theorem pass_dma : (s.pass dt).dma = s.dma := (pass_fields s dt).2.2.2.2.2.2.2.2.2.1
@[simp] theorem pass_sched : (s.pass dt).sched = s.sched := (pass_fields s dt).2.2.2.2.2.2.2.2.2.2.1
@[simp] theorem pass_fab : (s.pass dt).fab = s.fab := (pass_fields s dt).2.2.2.2.2.2.2.2.2.2.2.1
@[simp] theorem pass_arbPos : (s.pass dt).arbPos = s.arbPos := (pass_fields s dt).2.2.2.2.2.2.2.2.2.2.2.2.1
@[simp] theorem pass_msixTab : (s.pass dt).msixTab = s.msixTab := (pass_fields s dt).2.2.2.2.2.2.2.2.2.2.2.2.2.1
@[simp] theorem pass_casc : (s.pass dt).casc = s.casc := (pass_fields s dt).2.2.2.2.2.2.2.2.2.2.2.2.2.2.1
@[simp] theorem pass_tst : (s.pass dt).tst = s.tst := (pass_fields s dt).2.2.2.2.2.2.2.2.2.2.2.2.2.2.2.1
@[simp] theorem pass_tap : (s.pass dt).tap = s.tap := (pass_fields s dt).2.2.2.2.2.2.2.2.2.2.2.2.2.2.2.2
end

/-- The time unit without the state of the link delay service. -/
def TimeUnit.core (t : TimeUnit) : TimeUnit := { t with delays := [] }

theorem core_foldl {α} (l : List α) (f : State → α → State) (h : ∀ s a, (f s a).time.core = s.time.core) (s : State) :
    (l.foldl f s).time.core = s.time.core := by
  induction l generalizing s with
  | nil => rfl
  | cons a l ih => rw [List.foldl_cons, ih, h]

theorem core_elapse (s : State) : s.elapse.time.core = s.time.core := by
  unfold State.elapse State.askDelays State.profJobs State.lateSnaps
  rw [core_foldl, core_foldl]
  · show (List.foldl _ s _).time.core = _
    rw [core_foldl]
    intro s a; split
    · unfold State.takeSnap; split
      · split <;> rfl
      · rfl
    · rfl
  · intro s j
    unfold State.profJob; dsimp only; split
    · rw [(frame_fields (frame_finishCmd ..)).2.2.2.2.2.2.2.2.2.2.1]; split <;> (try unfold State.onRelpety) <;> (try split) <;> rfl
    · rfl
  · intro s l; unfold State.askDelay; split
    · unfold State.sendOwn; split <;> rfl
    · rfl

theorem core_pass (s : State) (dt : Nat) : (s.pass dt).time.core = { s.time.core with raw := (s.run dt).time.raw } := by
  unfold State.pass; rw [core_elapse]; unfold State.run; split <;> rfl

@[simp] theorem pass_raw (s : State) (dt : Nat) : (s.pass dt).time.raw = (s.run dt).time.raw := by
  simpa [TimeUnit.core] using congrArg TimeUnit.raw (core_pass s dt)
@[simp] theorem pass_time_running (s : State) (dt : Nat) : (s.pass dt).time.running = s.time.running := by
  simpa [TimeUnit.core] using congrArg TimeUnit.running (core_pass s dt)
@[simp] theorem pass_time_aRaw (s : State) (dt : Nat) : (s.pass dt).time.aRaw = s.time.aRaw := by
  simpa [TimeUnit.core] using congrArg TimeUnit.aRaw (core_pass s dt)
@[simp] theorem pass_time_aNt (s : State) (dt : Nat) : (s.pass dt).time.aNt = s.time.aNt := by
  simpa [TimeUnit.core] using congrArg TimeUnit.aNt (core_pass s dt)
@[simp] theorem pass_time_inc (s : State) (dt : Nat) : (s.pass dt).time.inc = s.time.inc := by
  simpa [TimeUnit.core] using congrArg TimeUnit.inc (core_pass s dt)
@[simp] theorem pass_time_prior (s : State) (dt : Nat) : (s.pass dt).time.prior = s.time.prior := by
  simpa [TimeUnit.core] using congrArg TimeUnit.prior (core_pass s dt)
@[simp] theorem pass_time_integ (s : State) (dt : Nat) : (s.pass dt).time.integ = s.time.integ := by
  simpa [TimeUnit.core] using congrArg TimeUnit.integ (core_pass s dt)
@[simp] theorem pass_time_state (s : State) (dt : Nat) : (s.pass dt).time.state = s.time.state := by
  simpa [TimeUnit.core] using congrArg TimeUnit.state (core_pass s dt)
@[simp] theorem pass_time_drift (s : State) (dt : Nat) : (s.pass dt).time.drift = s.time.drift := by
  simpa [TimeUnit.core] using congrArg TimeUnit.drift (core_pass s dt)
@[simp] theorem pass_time_accepted (s : State) (dt : Nat) : (s.pass dt).time.accepted = s.time.accepted := by
  simpa [TimeUnit.core] using congrArg TimeUnit.accepted (core_pass s dt)
@[simp] theorem pass_time_acceptedAt (s : State) (dt : Nat) : (s.pass dt).time.acceptedAt = s.time.acceptedAt := by
  simpa [TimeUnit.core] using congrArg TimeUnit.acceptedAt (core_pass s dt)
@[simp] theorem pass_time_good (s : State) (dt : Nat) : (s.pass dt).time.good = s.time.good := by
  simpa [TimeUnit.core] using congrArg TimeUnit.good (core_pass s dt)
@[simp] theorem pass_time_calm (s : State) (dt : Nat) : (s.pass dt).time.calm = s.time.calm := by
  simpa [TimeUnit.core] using congrArg TimeUnit.calm (core_pass s dt)
@[simp] theorem pass_time_refCnt (s : State) (dt : Nat) : (s.pass dt).time.refCnt = s.time.refCnt := by
  simpa [TimeUnit.core] using congrArg TimeUnit.refCnt (core_pass s dt)
@[simp] theorem pass_time_refSince (s : State) (dt : Nat) : (s.pass dt).time.refSince = s.time.refSince := by
  simpa [TimeUnit.core] using congrArg TimeUnit.refSince (core_pass s dt)
@[simp] theorem pass_time_jumpFired (s : State) (dt : Nat) : (s.pass dt).time.jumpFired = s.time.jumpFired := by
  simpa [TimeUnit.core] using congrArg TimeUnit.jumpFired (core_pass s dt)
@[simp] theorem pass_time_theta (s : State) (dt : Nat) : (s.pass dt).time.theta = s.time.theta := by
  simpa [TimeUnit.core] using congrArg TimeUnit.theta (core_pass s dt)
@[simp] theorem pass_time_thetaAt (s : State) (dt : Nat) : (s.pass dt).time.thetaAt = s.time.thetaAt := by
  simpa [TimeUnit.core] using congrArg TimeUnit.thetaAt (core_pass s dt)
@[simp] theorem pass_time_insts (s : State) (dt : Nat) : (s.pass dt).time.insts = s.time.insts := by
  simpa [TimeUnit.core] using congrArg TimeUnit.insts (core_pass s dt)
@[simp] theorem pass_time_ppsValid (s : State) (dt : Nat) : (s.pass dt).time.ppsValid = s.time.ppsValid := by
  simpa [TimeUnit.core] using congrArg TimeUnit.ppsValid (core_pass s dt)
@[simp] theorem pass_time_ppsLast (s : State) (dt : Nat) : (s.pass dt).time.ppsLast = s.time.ppsLast := by
  simpa [TimeUnit.core] using congrArg TimeUnit.ppsLast (core_pass s dt)
@[simp] theorem pass_time_todNext (s : State) (dt : Nat) : (s.pass dt).time.todNext = s.time.todNext := by
  simpa [TimeUnit.core] using congrArg TimeUnit.todNext (core_pass s dt)
@[simp] theorem pass_time_todWritten (s : State) (dt : Nat) : (s.pass dt).time.todWritten = s.time.todWritten := by
  simpa [TimeUnit.core] using congrArg TimeUnit.todWritten (core_pass s dt)
@[simp] theorem pass_time_tod (s : State) (dt : Nat) : (s.pass dt).time.tod = s.time.tod := by
  simpa [TimeUnit.core] using congrArg TimeUnit.tod (core_pass s dt)
@[simp] theorem pass_time_ppsOut (s : State) (dt : Nat) : (s.pass dt).time.ppsOut = s.time.ppsOut := by
  simpa [TimeUnit.core] using congrArg TimeUnit.ppsOut (core_pass s dt)
@[simp] theorem pass_time_ppsOutEnd (s : State) (dt : Nat) : (s.pass dt).time.ppsOutEnd = s.time.ppsOutEnd := by
  simpa [TimeUnit.core] using congrArg TimeUnit.ppsOutEnd (core_pass s dt)
@[simp] theorem pass_time_step (s : State) (dt : Nat) : (s.pass dt).time.step = s.time.step := by
  simpa [TimeUnit.core] using congrArg TimeUnit.step (core_pass s dt)
@[simp] theorem pass_time_stepped (s : State) (dt : Nat) : (s.pass dt).time.stepped = s.time.stepped := by
  simpa [TimeUnit.core] using congrArg TimeUnit.stepped (core_pass s dt)
@[simp] theorem pass_time_lapsed (s : State) (dt : Nat) : (s.pass dt).time.lapsed = s.time.lapsed := by
  simpa [TimeUnit.core] using congrArg TimeUnit.lapsed (core_pass s dt)
@[simp] theorem pass_time_relocked (s : State) (dt : Nat) : (s.pass dt).time.relocked = s.time.relocked := by
  simpa [TimeUnit.core] using congrArg TimeUnit.relocked (core_pass s dt)
@[simp] theorem pass_time_snapRaw (s : State) (dt : Nat) : (s.pass dt).time.snapRaw = s.time.snapRaw := by
  simpa [TimeUnit.core] using congrArg TimeUnit.snapRaw (core_pass s dt)
@[simp] theorem pass_time_snapNt (s : State) (dt : Nat) : (s.pass dt).time.snapNt = s.time.snapNt := by
  simpa [TimeUnit.core] using congrArg TimeUnit.snapNt (core_pass s dt)

end Sys2Proof.Machine
end

