-- ==== Sys2Proof/Tests/Slice0.lean ====
section
/-! SUPPORT. Tests. `ill_…` are ill-formed terms that the well-formedness check refuses; `holds_…` give, for the
statement of that name, concrete states and operands that meet the hypotheses of each of its clauses, and what the
clause says of them; `test_…` take their expected results from the worked examples and tables of spec/. -/

set_option Elab.async false

namespace Sys2Proof.Tests

open Sys2Proof Sys2Proof.Machine

/-- The outcome is a next state for which `f` holds. -/
def got (o : Host.Outcome State Fault Refusal) (f : State → Bool) : Bool :=
  match o with
  | .next t => f t
  | _ => false

/-- The outcome is the end of the state `t`. -/
def ends (o : Host.Outcome State Fault Refusal) (t : State) : Bool := got o fun u => u = t.finish

/-- A module that runs, its host in D0 with Bus Master Enable, its supervisor available. -/
def up : State :=
  { pwr := { phase := .running, endpointReady := true, bme := true }, sup := { available := true }, time := { running := true } }

/-- The same under an installer grant. -/
def inst : State := { up with sec := { grant := some { role := .installer, keyId := 16, ends := 2 ^ 40 } } }

/-- A command entry with phase 1: opcode, and bytes at offsets. -/
def ent (op : Nat) (ps : List (Nat × List Byte)) : List Byte :=
  ps.foldl (fun b p => putBytes b p.1 p.2) ([BitVec.ofNat 8 op, 0#8, 0#8, 0x80#8] ++ zeros 60)

/-- `s` with command ring 0 running and one ready entry at its head. -/
def withCmd (s : State) (op : Nat) (ps : List (Nat × List Byte) := []) (p : Memory := []) : State :=
  { s with rings := [(0, { state := .running, pi := 1, fi := 1, entries := [{ idx := 0, bytes := ent op ps, payload := p, state := .ready }] })] }

/-- The entry that `withCmd` puts at the head. -/
def cmdE (op : Nat) (ps : List (Nat × List Byte) := []) (p : Memory := []) : Entry :=
  { idx := 0, bytes := ent op ps, payload := p, state := .ready }

def fires (t : State) (n : Nat) : Bool := t.sticky n

/-! ### The queue, the fault collector, pins -/

def w_StepRunsTheFrontCommand : List Bool :=
  [got (step { up with pending := [.secKeySel 5#32, .timeJump] }) fun t => t.pending = [.timeJump] && t.rg .secKeySel = 5#32,
   up.loop.jobs = [] && up.loop.chans = [] && ((List.range 8).all fun l => !(up.run 7).delayRuns l) &&
     up.pass 7 = { up with time := { up.time with raw := 7#64 } },
   up.pending = [] && up.time.running && up.clockStep = 1 && got (step up) fun t => t.time.raw = 1#64,
   State.reset.pending = [] && !State.reset.time.running && got (step State.reset) fun t => t = State.reset]

def w_StepKeepsTheFaultCollector : List Bool :=
  [up.flt.fireQ = [] && !up.flt.errHeld && up.flt.src = [],
   got (step { up with pending := [.faultFire 3 33 7#16 false] }) fun t =>
     t.activeSrc 33 && t.sticky 33 && t.flt.fireQ = []]

def w_SmbusAndTestPort : List Bool :=
  [got (exec .smbState { up with pwr := { up.pwr with phase := .stabled } }) fun t => t.out = [.smbusData [3#8]],
   ([(Phase.starting, 0#8), (.running, 1#8), (.stabling, 2#8), (.stabled, 3#8), (.waking, 4#8), (.reset, 5#8)].all fun p =>
     let s := { up with pwr := { phase := p.1 } }
     ends (exec .smbState s) (s.emit (.smbusData [p.2]))),
   (let s := { up with pwr := { phase := .unpowered } }
    [Instr.smbState, .smbUnitId, .smbVin, .smbTcase, .smbTdie, .smbPinStatus, .smbRev, .smbRefused true 9#8].all fun c =>
      ends (exec c s) s),
   (let s := { up with pwr := { phase := .stabled } }
    !s.tapRuns && [Instr.samplePreload, .idcode, .bypass 0xFF#8, .tapReset, .extest, .clamp, .highz,
      .makerPrivateInstruction 0x80#8].all fun c => ends (exec c s) s),
   up.tap.instr = .idcode && ends (exec (.pinTakingEnd 5) up) (up.pass 5),
   got (exec .smbUnitId { up with sup := { startedOnce := true }, flash := { relpety := { unitId := 0x0102#64 } } }) fun t =>
     t.out = [.smbusData [2#8, 1#8, 0#8, 0#8, 0#8, 0#8, 0#8, 0#8]],
   got (exec .smbUnitId up) fun t => t.out = [.smbusData (zeros 8)],
   got (exec .smbVin up) fun t => t.out = [.smbusData [0xB0#8, 0x04#8]],
   got (exec .smbTcase up) fun t => t.out = [.smbusData [25#8]],
   got (exec .smbTdie up) fun t => t.out = [.smbusData [25#8]],
   got (exec .smbPinStatus { up with flt := { errHeld := true, parkedAll := true } }) fun t => t.out = [.smbusData [5#8, 0#8]],
   got (exec .smbRev { up with sup := { revLast := 0x0301#16 } }) fun t => t.out = [.smbusData [1#8, 3#8]],
   got (exec (.smbRefused false 7#8) up) fun t => t.out = [.smbusNack],
   got (exec (.smbRefused true 0#8) up) fun t => t.out = [.smbusNack],
   up.tapRuns && got (exec .samplePreload up) fun t => t.tap.instr = .samplePreload,
   got (exec .idcode up) fun t => t.tap.dr = 0x0256056F#32,
   got (exec (.bypass 0xFF#8) up) fun t => t.tap.instr = .bypass && t.tap.dr = 0#32,
   got (exec .tapReset { up with tap := { instr := .bypass } }) fun t => t.tap.instr = .idcode,
   !up.pinsAllowed .extest && got (exec .extest up) fun t => t.tap.instr = .bypass,
   (let s := { up with pwr := { up.pwr with phase := .reset, rstN := false } }
    s.tapRuns && s.pinsAllowed .clamp && got (exec .clamp s) fun t => t.tap.instr = .clamp),
   (let s := { up with pwr := { up.pwr with testEn := true } }
    s.pinsAllowed .highz && !s.pinsAllowed (.maker 0x80#8) && (got (exec .highz s) fun t => t.tap.instr = .highz) &&
      got (exec (.makerPrivateInstruction 0x80#8) s) fun t => t.tap.instr = .bypass),
   (let s := { up with pwr := { up.pwr with testEn := true },
                       sec := { grant := some { role := .maker, keyId := 0, ends := 2 ^ 40 } } }
    s.pinsAllowed (.maker 0xBF#8) && got (exec (.makerPrivateInstruction 0xBF#8) s) fun t => t.tap.instr = .maker 0xBF#8),
   (let s := { up with tap := { instr := .highz } }
    s.tap.instr.takesPins && !(s.pass 5).pinsAllowed s.tap.instr && got (exec (.pinTakingEnd 5) s) fun t => t.tap.instr = .bypass)]

/-! ### Power, resets, the supervisor -/

def d3 : State := { up with pwr := { up.pwr with d3hot := true } }

def w_HostFunctionEvents : List Bool :=
  [(let s := { inst with latch := [(4, 1#32)], lowHeld := [(5, 1#32)], msixTab := [(3, 0#32)], msixPba := 1#64 }
    s.hostUp && got (exec .functionLevelReset s) fun t => !t.pwr.bme && t.sec.grant = none && t.latch = [] && t.lowHeld = [] &&
      t.msixTab = [] && t.msixPba = 0#64 && t.fab.histOff = 0),
   (d3.pwr.d3hot && got (exec .functionLevelReset d3) fun t => t.pwr = { d3.pwr with bme := false, d3hot := false }),
   (let s : State := { up with pwr := { up.pwr with phase := .stabled, endpointReady := false } }
    !s.hostUp && !s.pwr.d3hot && !s.core && ends (exec .functionLevelReset s) s && ends (exec .d3hotEntry s) s &&
      ends (exec .perstNAssert s) (s.onPwr fun p => { p with perstN := false, linkL0 := false }) &&
      (got (exec .busMasterEnableSet s) fun t => t.pwr = s.pwr) && (got (exec .busMasterEnableClear s) fun t => t.pwr = s.pwr) &&
      ends (exec (.endpointReady 9) s) (s.pass 9)),
   (let s : State := { up with pwr := { up.pwr with phase := .waking, endpointReady := false } }
    got (exec (.endpointReady 9) s) fun t => t.pwr = up.pwr && t.out = [.deviceReadiness] && t.flt.pulseEnd = none),
   got (exec .busMasterEnableSet { up with pwr := { up.pwr with bme := false } }) fun t => t.pwr = up.pwr,
   got (exec .busMasterEnableClear up) fun t => t.pwr = { up.pwr with bme := false },
   ends (exec .d3hotEntry up) d3,
   d3.pwr.d3hot && got (exec .d0Return d3) fun t => t.pwr = up.pwr,
   inst.core && got (exec .perstNAssert inst) fun t => !t.pwr.perstN && !t.pwr.linkL0 && t.sec.grant = none && t.latch = [],
   (let s := { up with pwr := { up.pwr with perstN := false } }
    s.pwr.phase = .running && got (exec (.perstNRelease 7) s) fun t => t.pwr = up.pwr),
   (let s := { up with pwr := { up.pwr with phase := .starting, endpointReady := false } }
    ends (exec (.endpointReady 9) s) (((s.pass 9).onPwr fun p => { p with phase := .running, endpointReady := true }).emit .deviceReadiness))]

def stabling : State := { up with pwr := { up.pwr with phase := .stabling, endpointReady := false } }
def stabledS : State := { up with pwr := { up.pwr with phase := .stabled, endpointReady := false, perstN := false, stableReqN := false },
                                  sup := {} }

def w_PowerAndResetEvents : List Bool :=
  [(let s := { up with pwr := { phase := .unpowered } }
    got (exec (.powerUp ⟨true, 3#5, 1#2⟩ 1200#16) s) fun t => t.pwr.phase = .starting && t.pwr.straps = ⟨true, 3#5, 1#2⟩ &&
      t.pwr.vin10mV = 1200#16 && t.time.running && t.bus.remap && t.sup.available),
   (let s := { inst with fab := { inForce := some 3 }, sched := { run := some { bank := 0, matrix := 0, row := 0, next := 5 } },
                         sram := [(5, 1#8)], rings := [(0, { state := .running })], regs := [(0x60, 1#32)] }
    (got (exec .vinDropOut s) fun t => t.pwr.phase = .unpowered && t.regs = [] && t.sram = [] && t.rings = [] &&
      !t.time.running && t.fab.inForce = none && t.sched.run = none && t.flash.store = s.flash.store && t.sec.audit = s.sec.audit) &&
    (got (exec .rstNAssert s) fun t => t.pwr.phase = .reset && !t.pwr.rstN && t.sram = [] && t.rings = [] && t.fab.inForce = none &&
      t.sched.run = none && t.sec.grant = none && bit (t.rg .sysResetCause) 30) &&
    s.hostUp && s.grantOk && got (exec (.modrst 0x80000000#32) s) fun t => t.pwr.phase = .starting && t.sec.grant = none &&
      t.fab.inForce = none && t.sched.run = none && bit (t.rg .sysResetCause) 29),
   (let s := { up with pwr := { phase := .unpowered } }
    ends (exec .vinDropOut s) s && ends (exec .rstNAssert s) (s.onPwr fun p => { p with rstN := false })),
   ends (exec (.powerUp ⟨true, 3#5, 1#2⟩ 1200#16) up) up && ends (exec .rstNRelease up) up,
   (let s := { up with pwr := { up.pwr with rstN := false } }
    ends (exec .rstNRelease s) up),
   (let s := { State.reset with pwr := { State.reset.pwr with rstN := false, strapPins := ⟨true, 1#5, 2#2⟩ } }
    s.pwr.phase = .reset && got (exec .rstNRelease s) fun t => t.pwr.phase = .starting && t.pwr.rstN &&
      t.pwr.straps = ⟨true, 1#5, 2#2⟩ && t.time.running)]

def w_StablingAndWake : List Bool :=
  [got (exec (.stabling 5) inst) fun t => t.pwr.phase = .stabling && !t.pwr.stableReqN && !t.pwr.endpointReady &&
     t.sec.grant = none && t.fab.sumDue = some true,
   (let s := { stabling with pwr := { stabling.pwr with closingDone := true } }
    got (exec (.stabled 5) s) fun t => t.pwr.phase = .stabled && !t.pwr.clkreq && !t.sup.available && t.fab.inForce = none &&
      t.sched.run = none && t.ept.wheel = [] && t.pwr.stabledAt = 5),
   (let s := { stabling with pwr := { stabling.pwr with closing := some 5 }, sup := {} }
    (s.pass 5).expired s.pwr.closing && got (exec (.closingSummaryTimeout 5) s) fun t => t.pwr.closingDone && t.pwr.closing = none &&
      bit (t.rg .pwrStatus) 27),
   got (exec (.wakeIn 62500) stabledS) fun t => t.pwr.phase = .waking && t.pwr.wakeCause = 1#3 && t.pwr.wakeIn &&
     t.pwr.pewake = some ((stabledS.pass 62500).now + secC 1),
   got (exec (.stableReqNRelease 0) stabledS) fun t => t.pwr.phase = .waking && t.pwr.wakeCause = 2#3 && t.pwr.stableReqN,
   (let s := { stabledS with pwr := { stabledS.pwr with wakeTimer := some 0 } }
    (s.pass 0).expired s.pwr.wakeTimer && got (exec (.wakeTimer 0) s) fun t => t.pwr.phase = .waking && t.pwr.wakeCause = 4#3),
   (let s := stabledS.setBit .pwrStableCfg 0 29
    !s.pwr.perstN && bit (s.rg .pwrStableCfg) 29 && got (exec (.perstNRelease 0) s) fun t => t.pwr.phase = .waking &&
      t.pwr.wakeCause = 3#3 && t.pwr.pewake = none),
   ends (exec (.stabling 5) stabledS) (stabledS.pass 5) &&
     (let s := { up with pwr := { up.pwr with phase := .starting } }
      got (exec (.stabling 5) s) fun t => t.pwr.phase = .stabling),
   (let s := { stabling with pwr := { stabling.pwr with closingDone := true, wakeLatched := some .timer } }
    got (exec (.stabled 5) s) fun t => t.pwr.phase = .waking && t.pwr.wakeCause = 4#3 && t.pwr.clkreq && t.fab.inForce = none &&
      bit (t.rg .pwrStatus) 28),
   ends (exec (.stabled 5) stabling) (stabling.pass 5) && ends (exec (.closingSummaryTimeout 5) stabling) (stabling.pass 5),
   ends (exec (.wakeIn 5) stabling) ((stabling.pass 5).onPwr fun p => { p with wakeIn := true, wakeLatched := some .wakeIn }) &&
     ends (exec (.stableReqNRelease 5) { stabling with pwr := { stabling.pwr with wakeLatched := some .wakeIn } })
       ((stabling.pass 5).onPwr fun p => { p with stableReqN := true, wakeLatched := some .wakeIn }),
   (let s := ({ stabling with pwr := { stabling.pwr with perstN := false } }).setBit .pwrStableCfg 0 29
    ends (exec (.perstNRelease 5) s) ((s.pass 5).onPwr fun p => { p with perstN := true, wakeLatched := some .perstN })),
   ends (exec (.wakeIn 5) up) ((up.pass 5).onPwr fun p => { p with wakeIn := true }) &&
     ends (exec (.stableReqNRelease 5) up) (up.pass 5) && ends (exec (.wakeTimer 5) up) (up.pass 5) &&
     ends (exec (.perstNRelease 5) up) (up.pass 5) && ends (exec (.pewakeNTimeout 5) up) (up.pass 5),
   (let s := { up with pwr := { up.pwr with pewake := some 3 } }
    (s.pass 3).expired s.pwr.pewake && ends (exec (.pewakeNTimeout 3) s) ((s.pass 3).onPwr fun p => { p with pewake := none }))]

def good0 : State := { up with sup := { available := true, slot := 0#1 }, bus := { remap := true } }

def w_SupervisorRestartsAndReturns : List Bool :=
  [(good0.img good0.sup.slot.toNat).state = .good && (got (exec (.supervisorWdt 4) good0) fun t => !t.sup.available && !t.bus.remap &&
     bit (t.rg .sysResetCause) 28) && got (exec (.lockstepMismatch 4) good0) fun t => !t.sup.available && !t.bus.remap &&
     bit (t.rg .sysResetCause) 27,
   (let s := { good0 with sup := { slot := 0#1 } }
    s.core && got (exec (.supervisorReturn 4) s) fun t => t.sup.available && t.bus.remap && t.casc.senders = [] && t.sec.held = []),
   (let s := { up with sup := { available := true, slot := 1#1, trial := some 4 }, flash := { slots := [(1, { state := .trial })] } }
    (s.pass 4).expired s.sup.trial && got (exec (.trialEnd 4) s) fun t => (t.img 1).state = .good && t.sup.trial = none),
   (let e : Entry := { cmdE 0x06 with state := .waitSup }
    let s := { up with sup := {}, rings := [(0, { state := .running, entries := [e], supWait := some 5 })] }
    (s.pass 5).expired (s.ring 0).supWait && ends (exec (.supervisorWaitExpiry 5 0) s)
      (((s.pass 5).holdAudit { cmdAudit 0 e 4 with result := 4#8 }).finishCmd 0 0 4 false) &&
      ends (exec (.supervisorWaitExpiry 5 1) s) (s.pass 5)),
   ends (exec (.watchdogHalfTime 6) up) ((up.pass 6).irqPulse 88),
   (let s := { up with sup := {} }
    ends (exec (.watchdogHalfTime 6) s) (s.pass 6) && ends (exec (.supervisorWdt 6) s) (s.pass 6) &&
      ends (exec (.lockstepMismatch 6) s) ((s.pass 6).fire 67) && ends (exec (.trialEnd 6) s) (s.pass 6)),
   ends (exec (.supervisorReturn 6) up) (up.pass 6),
   (let s := { good0 with sup := { good0.sup with restarts := [0, 0] } }
    !s.sup.recovery && got (exec (.supervisorWdt 4) s) fun t => t.sup.stopped),
   (let s := fun n => { up with sup := { available := true, slot := 1#1 },
                                flash := { slots := [(1, { state := .trial, fails := n })] } }
    (got (exec (.supervisorWdt 4) (s 1)) fun t => (t.img 1).fails = 2 && (t.img 1).state = .trial) &&
      got (exec (.supervisorWdt 4) (s 2)) fun t => (t.img 1).fails = 3 && (t.img 1).state = .failed && t.sup.fallback)]

def w_FaultFiringsAndInjection : List Bool :=
  [up.core && !ownCondition 66 && !isLevelSource 66 && ends (exec (.faultFire 4 66 5#16 false) up) ((up.pass 4).fire 66 5),
   up.core && !ownCondition 32 && isLevelSource 32 && !up.activeSrc 32 && got (exec (.faultFire 4 32 5#16 false) up) fun t =>
     (t.fsrc 32).active && t.sticky 32,
   (let s := { up with flt := { src := [(32, { active := true, conds := [(5, (unitOf 32 5).index)] })] } }
    got (exec (.faultFire 4 32 5#16 false) s) fun t => (t.fsrc 32).count = 0 && (t.fsrc 32).active),
   (let s := { up with casc := { role := .stack } }
    isLevelSource 95 && ownCondition 95 = false && got (exec (.faultFire 4 95 5#16 false) s) fun t => (t.fsrc 95).active),
   ends (exec (.faultFire 4 94 5#16 false) up) (up.pass 4) && ends (exec (.faultFire 4 95 5#16 false) up) (up.pass 4) &&
     ends (exec (.faultFire 4 66 5#16 false) stabledS) (stabledS.pass 4) && ownCondition 33 = false,
   (let s := { up with flt := { src := [(88, { active := true })] }, time := { up.time with state := .locked } }
    s.src ≠ 3 && got (exec (.faultFire 4 88 0#16 true) s) fun t => (t.fsrc 88).active && t.time.xoStopped && t.clockStep = 31250 &&
      t.time.state = .free && (t.fsrc 88).detail = 0#16),
   (let s := { up.setRg .timeCtrl 0 0 3#32 with flt := { src := [(88, { active := true })] }, time := { up.time with state := .locked } }
    s.src = 3 && got (exec (.faultFire 4 88 0#16 true) s) fun t => t.time.xoStopped && t.time.state = s.time.state),
   (let s := { up with pwr := { up.pwr with linkL0 := false }, flt := { src := [(79, { active := true })] } }
    isLevelSource 79 && !ownCondition 79 && got (exec (.levelSourceEnd 4 79) s) fun t => t.pwr.linkL0 && !(t.fsrc 79).active),
   ends (exec (.levelSourceEnd 4 66) up) (up.pass 4) && ends (exec (.errNPulseEnd 4) up) (up.pass 4) &&
     ends (exec (.injectionExpiry 4 57) up) (up.pass 4),
   (up.readyHead 0 0x5F).isNone && ends (exec (.faultInject 0) up) up && ends (exec (.faultInjectHold 0) up) up &&
     ends (exec (.faultInjectEnd 0) up) up,
   (let s := { up with flt := { src := [(32, { active := true })] } }
    got (exec (.levelSourceEnd 4 32) s) fun t => !(t.fsrc 32).active),
   (let s := { up with flt := { pulseEnd := some 4 } }
    (s.pass 4).expired s.flt.pulseEnd && ends (exec (.errNPulseEnd 4) s) ((s.pass 4).onFlt fun f =>
      { f with pulseEnd := none, relWritten := false, errHeld := s.errMode = 1 || (s.errMode = 2 && !f.relWritten) })),
   (let s := withCmd up 0x5F [(24, [66#8]), (26, [9#8])]
    (s.readyHead 0 0x5F).isSome && got (exec (.faultInject 0) s) fun t => t.sticky 66 && (t.fsrc 66).injected &&
      (t.fsrc 66).detail = 9#16 && (t.ring 0).entries = []),
   (let s := withCmd up 0x5F [(24, [32#8]), (25, [1#8]), (28, [100#8])]
    got (exec (.faultInjectHold 0) s) fun t => (t.fsrc 32).forced && (t.fsrc 32).forcedEnd.any (· == 102400) && t.sticky 32),
   (let s := withCmd { up with flt := { src := [(57, { forced := true, forcedEnd := some 1000 })] } } 0x5F [(24, [57#8]), (25, [2#8])]
    got (exec (.faultInjectEnd 0) s) fun t => !(t.fsrc 57).forced),
   (let s := { up with flt := { src := [(57, { forced := true, forcedEnd := some 1000 })] } }
    (s.pass 1000).expired (s.fsrc 57).forcedEnd && got (exec (.injectionExpiry 1000 57) s) fun t => !(t.fsrc 57).forced)]

/-- Source 12 is active with severity STOP (code 4) and fires again in no chamber. -/
def stopped12 : State := { up.setRg .fltSev 1 0 0x40000#32 with flt := { src := [(12, { active := true })], parkedAll := true } }

def w_FaultRegisterWrites : List Bool :=
  [(let s := d3
    !s.hostUp && [Instr.stickyClear 0 1#32, .severityWrite 0 1#32, .errForce 1#32, .errRelease 0x80000000#32, .allClr 0x20000000#32,
      .parkRelease 1#32, .isolationRelease 1#32, .fltSel 1#32].all fun c => ends (exec c s) s),
   !up.grantOk && (got (exec (.severityWrite 11 0x12345678#32) up) fun t => t.sec.denied = 1 && bit (t.rg .secGrantStatus) 28 &&
     t.rg .fltSev 11 = up.rg .fltSev 11),
   got (exec (.errRelease 0x80000000#32) { up with flt := { pulseEnd := some 9 } }) fun t => t.flt.relWritten,
   up.errMode ≠ 2 && ends (exec (.errRelease 0x80000000#32) up) (up.putReg .fltCtrl 0 0 0x80000000#32),
   stopped12.activeSrc 12 && stopped12.severity 12 = 4 && (got (exec (.allClr 0x20000000#32) stopped12) fun t =>
     t.flt.parkedAll && bit (t.rg .fltStatus) 28),
   (let s := { up with flt := { park := 1#32, parkedAll := true } }
    s.parked 0 && got (exec (.parkRelease 1#32) s) fun t => t.parked 0 && t.flt.parkedAll && bit (t.rg .fltStatus) 28),
   (let s := { up with flt := { isol := 1#8, src := [(32, { active := true })] } }
    s.activeSrc 32 && got (exec (.isolationRelease 1#32) s) fun t => t.isolated 0 && bit (t.rg .fltStatus) 28),
   got (exec (.fltSel 96#32) up) fun t => t.flt.timeSnap = 0#64 && t.flt.infoSnap = 0#64,
   up.hostUp && got (exec (.stickyClear 1 1#32) { up with flt := { sticky := BitVec.ofNat 96 (2 ^ 32 + 4) } }) fun t =>
     t.flt.sticky = 4#96,
   inst.grantOk && got (exec (.severityWrite 11 0x12345678#32) inst) fun t => t.rg .fltSev 11 = 0x12345678#32,
   got (exec (.errForce 0x40000000#32) up) fun t => bit (t.rg .fltCtrl) 30 && t.errAsserted,
   (let s := { up.setRg .fltErrCfg 0 0 0x80000002#32 with flt := { errHeld := true } }
    s.errMode = 2 && s.flt.pulseEnd = none && got (exec (.errRelease 0x80000000#32) s) fun t => !t.flt.errHeld && !t.errAsserted),
   (let s := { up with flt := { parkedAll := true } }
    !s.parked 0 && got (exec (.allClr 0x20000000#32) s) fun t => !t.flt.parkedAll),
   (let s := { up with flt := { park := 0x80000000#32 } }
    s.parked 31 && !s.chamberHeld 31 && ends (exec (.parkRelease 0x80000000#32) s) (s.releasePark 31)),
   (let s := { up with flt := { isol := 0x80#8 } }
    s.isolated 7 && !s.activeSrc 39 && got (exec (.isolationRelease 0x80#32) s) fun t => t.flt.isol = 0#8),
   (let s := { up with flt := { src := [(95, { count := 3, time := 77#64 })] } }
    got (exec (.fltSel 95#32) s) fun t => t.flt.timeSnap = 77#64 && fld ((t.flt.infoSnap >>> 32).setWidth 32) 31 0 = 3)]

theorem holds_StepRunsTheFrontCommand : w_StepRunsTheFrontCommand.all id = true := by decide +kernel

theorem holds_StepKeepsTheFaultCollector : w_StepKeepsTheFaultCollector.all id = true := by decide +kernel

theorem holds_SmbusAndTestPort_1 : (w_SmbusAndTestPort.take 15).all id = true := by decide +kernel

theorem holds_SmbusAndTestPort_2 : (w_SmbusAndTestPort.drop 15).all id = true := by decide +kernel

theorem holds_HostFunctionEvents : w_HostFunctionEvents.all id = true := by decide +kernel

theorem holds_PowerAndResetEvents : w_PowerAndResetEvents.all id = true := by decide +kernel

theorem holds_StablingAndWake : w_StablingAndWake.all id = true := by decide +kernel

theorem holds_SupervisorRestartsAndReturns : w_SupervisorRestartsAndReturns.all id = true := by decide +kernel

theorem holds_FaultFiringsAndInjection : w_FaultFiringsAndInjection.all id = true := by decide +kernel

theorem holds_FaultRegisterWrites : w_FaultRegisterWrites.all id = true := by decide +kernel


/-! ### Roles, supervisor commands, registers -/

/-- An authentication block of key 10h with a counter, tagged for a message. -/
def authBlk (ctr : Nat) (msg : List Byte) : List Byte :=
  let h := [2#8, 0x10#8] ++ zeros 6 ++ leBytes 8 ctr
  h ++ hmac (zeros 32) (h ++ msg) ++ zeros 16

/-- SEC_GRANT_BLOCK holds a block. -/
def withBlock (s : State) (b : List Byte) : State :=
  (List.range 16).foldl (fun s w => s.setRg .secGrantBlock 0 w (w32 (lef b (4 * w) 4))) s

def keyed : State := { up with sec := { keys := [(16, shippedKey)] } }

def w_GrantsAndSelectors : List Bool :=
  [(let v : Word := 0x80000005#32
    let s := withBlock keyed (authBlk 1 (keyed.ident ++ leBytes 4 v.toNat))
    (s.key 16).held && (s.key 16).last.toNat < 1 && got (exec (.secGrantRequest 9 v true) s) fun t => t.sec.lastStatus = 0#8 &&
      t.sec.auditSeq = 1 && t.sec.grant = some { role := .installer, keyId := 16, ends := 9 + secC 5, audit := 0 } && (t.key 16).last = 1#64),
   (let v : Word := 0x80000005#32
    let s := withBlock keyed (authBlk 1 (keyed.ident ++ leBytes 4 v.toNat))
    let st := fun (s : State) (v : Word) (ok : Bool) (n : Byte) =>
      got (exec (.secGrantRequest 9 v ok) s) fun t => t.sec.lastStatus = n && t.sec.grant = none && t.sec.auditSeq = 1
    st s v false 0x50#8 && st s 0xC0000005#32 true 5#8 && st { s with sec := { keys := [(16, { shippedKey with last := 1#64 })] } } v true 6#8),
   (let v : Word := 0x80000000#32
    let s := { up with sup := {} }
    got (exec (.secGrantRequest 9 v true) s) fun t => t.sec.lastStatus = 4#8 && t.sec.held.length = 1 && t.sec.auditSeq = 0),
   ends (exec (.secGrantRequest 9 7#32 true) up) ((up.pass 9).putReg .secGrantCtrl 0 0 7#32) &&
     ends (exec (.revoke 0x40000000#32) d3) d3 && ends (exec (.secKeySel 1#32) d3) d3,
   ends (exec (.grantExpiry 7) inst) (inst.pass 7) && ends (exec (.grantExpiry 7) up) (up.pass 7) &&
     ends (exec (.deniedWriteAudit 7) up) (up.pass 7) && ends (exec (.authBurst 7) up) (up.pass 7),
   (let s := { up with sup := {}, sec := { denied := 3 } }
    got (exec (.deniedWriteAudit 7) s) fun t => t.sec.denied = 0 && t.sec.held.length = 1 && t.sec.auditSeq = 0),
   ends (exec (.revoke 0x40000000#32) inst) ((inst.putReg .secGrantCtrl 0 0 0x40000000#32).onSec fun c => { c with grant := none }),
   (let s := { up with sec := { grant := some { role := .maker, keyId := 0, ends := 7 } } }
    ends (exec (.grantExpiry 7) s) ((s.pass 7).onSec fun c => { c with grant := none })),
   (let s := { up with sec := { denied := 3 } }
    got (exec (.deniedWriteAudit 7) s) fun t => t.sec.denied = 0 && t.sec.deniedAt = some (7 + msC 100) && t.sec.auditSeq = 1),
   ends (exec (.secKeySel 0x3F#32) up) (up.putReg .secKeySel 0 0 0x3F#32),
   (let s := { up with sec := { refusals := List.replicate 8 0, lastKeyId := 4#8 } }
    ends (exec (.authBurst 7) s) (((s.pass 7).onSec fun c => { c with refusals := [] }).fire 92 4))]

/-- The KEY_SET entry of the witness: its record wraps a key of zeros under the key of its block. -/
def keyEnt (op : Byte) : Entry :=
  let auth := authBlk 1 []
  let e : Entry := { cmdE 0x52 [(24, [0x11#8])] with auth := auth }
  let w := hmac (zeros 32) (up.ident ++ (auth.drop 8).take 8 ++ [0x11#8])
  { e with payload := memOfList ([0#8, op] ++ zeros 14 ++ w ++ keyCheckValue (zeros 32)) }

def keyState (op : Byte) : State := { keyed with rings := [(0, { state := .running, pi := 1, fi := 1, entries := [keyEnt op] })] }

def w_SupervisorCommands : List Bool :=
  [(let s := withCmd { up with sec := { auditSeq := 2, audit := [(0, { stored := true }), (1, { seq := 1, stored := true })] } }
      0x51 [(8, leBytes 8 0x10000), (24, [1#8]), (28, [1#8]), (4, leBytes 4 256)]
    (s.readyHead 0 0x51).isSome && got (exec (.auditRead 0) s) fun t => match t.out.head? with
      | some (.hostWrite 0x10000 b) => b.take 8 = (({ seq := 1, stored := true : AuditEntry }).bytes).take 8
      | _ => false),
   (let e := keyEnt 0#8
    let s := keyState 0#8
    keyCheckValue (s.unwrap e) = rdBytes e.payload 48 16 && got (exec (.keySet 0) s) fun t =>
      t.flash.pending = [(.key 0x11 (some (s.unwrap e)), 0, 0)]),
   (let e := { keyEnt 0#8 with payload := [] }
    let s := { keyed with rings := [(0, { state := .running, pi := 1, fi := 1, entries := [e] })] }
    (s.readyHead 0 0x52).isSome && keyCheckValue (s.unwrap e) ≠ rdBytes e.payload 48 16 &&
      ends (exec (.keySet 0) s) (s.refuseRole 0 e 5)),
   (let e := { keyEnt 1#8 with bytes := ent 0x52 [(24, [0x10#8])] }
    let s := { keyed with rings := [(0, { state := .running, pi := 1, fi := 1, entries := [e] })] }
    s.lastInstaller 0x10 && ends (exec (.keyClear 0) s) (s.refuseRole 0 e 7)),
   ([(Instr.auditRead 0, 0x51), (.keySet 0, 0x52), (.keyClear 0, 0x52), (.cfgStore 0, 0x50), (.imageWrite 0, 0x53),
      (.imageActivate 0, 0x53), (.imageQuery 0, 0x53)].all fun p => (up.readyHead 0 p.2).isNone && ends (exec p.1 up) up),
   (let s := withCmd up 0x53 [(24, [1#8, 1#8])]
    (s.img 1).state ≠ .valid && (s.img 1).state ≠ .good && ends (exec (.imageActivate 0) s) (s.finishCmd 0 0 0x51 false)),
   (let e := { cmdE 0x52 with state := .begun }
    let s := { up with flash := { pending := [(.key 0x11 (some [1#8]), 0, 0), (.image 1 { state := .valid }, 0, 0)] },
                       rings := [(0, { state := .running, pi := 1, fi := 1, entries := [e] })] }
    (got (exec (.flashOperationDone 5 .keySet true) s) fun t => (t.key 0x11).held && (t.key 0x11).material = [1#8] &&
      t.flash.pending = [(.image 1 { state := .valid }, 0, 0)]) &&
    got (exec (.flashOperationDone 5 .imageWrite true) s) fun t => (t.img 1).state = .valid &&
      t.flash.pending = [(.key 0x11 (some [1#8]), 0, 0)]),
   (let e := { cmdE 0x52 with state := .begun }
    let s := { up with flash := { pending := [(.key 3 (some [1#8]), 0, 0)] },
                       rings := [(0, { state := .running, pi := 1, fi := 1, entries := [e] })] }
    got (exec (.flashOperationDone 5 .keySet true) s) fun t => !(t.key 3).held && t.flash.pending = []),
   ends (exec (.flashOperationDone 5 .cfgStore true) up) (up.pass 5),
   (let s := { up with sec := { auditSeq := 1, audit := [(0, { stored := true, kind := 3#8 })] },
                       flash := { lasts := [(3, 9#64)], lastsOld := [(3, 4#64)] } }
    ends (exec (.flashOperationDone 5 .auditEntry true) s) ((s.pass 5).irqPulse 85) && ((s.pass 5).audit 0).stored &&
    got (exec (.flashOperationDone 5 .auditEntry false) s) fun t => !(t.audit 0).stored && t.flash.lasts = [(3, 4#64)] &&
      t.sticky 69),
   (let s := { up with fab := { sumDue := some false, sumSeq := 3, drips := [(7, 2)] } }
    (got (exec (.flashOperationDone 5 .wearSummary true) s) fun t => t.fab.sumDue = none && t.fab.sumSeq = 4 &&
      tget (fun _ => {}) t.fab.summaries 3 = (s.pass 5).summary false) &&
    got (exec (.flashOperationDone 5 .wearSummary false) s) fun t => t.fab.sumSeq = 4 && t.sticky 69),
   ends (exec (.flashOperationDone 5 .wearSummary true) up) (up.pass 5),
   (let s := keyState 1#8
    !s.lastInstaller 0x11 && got (exec (.keyClear 0) s) fun t => t.flash.pending = [(.key 0x11 none, 0, 0)]),
   (let s := withCmd up 0x50
    got (exec (.cfgStore 0) s) fun t => t.flash.pending = [(.store s.storeImage, 0, 0)]),
   (let s := withCmd { up with flash := { slots := [(0, shippedImage), (1, { shippedImage with state := .valid })] },
                               sup := { available := true, slot := 0#1 } } 0x53 [(24, [1#8, 1#8])]
    (s.img 1).state = .valid && s.rf .sysProfileReq 0 15 0 = 0 && got (exec (.imageActivate 0) s) fun t => (t.img 1).state = .trial &&
      (t.img 1).actSeq = 2 && !t.sup.available && t.sup.activating),
   (let s := withCmd up 0x53 [(24, [0#8, 1#8])]
    !s.runsSlot 1 && got (exec (.imageWrite 0) s) fun t => t = { (s.finishCmd 0 0 0x51 false) with irq := t.irq, marks := t.marks }),
   (let s := withCmd up 0x53 [(24, [2#8, 0#8]), (4, leBytes 4 64), (8, leBytes 8 0x2000)]
    got (exec (.imageQuery 0) s) fun t => t.out.head? = some (.hostWrite 0x2000 (s.slotStatus 0))),
   (let e := { cmdE 0x50 with state := .begun }
    let s := { up with flash := { pending := [(.store { regs := [(0x24, 1#32)] }, 0, 0)] },
                       rings := [(0, { state := .running, pi := 1, fi := 1, entries := [e] })] }
    (got (exec (.flashOperationDone 5 .cfgStore true) s) fun t => t.flash.pending = [] && t.flash.store.gen = 1 &&
      t.flash.store.regs = [(0x24, 1#32)]) &&
    got (exec (.flashOperationDone 5 .cfgStore false) s) fun t => t.flash.pending = [] && t.flash.store = s.flash.store &&
      t.sticky 69)]

def w_HostReadsChangeNothingElse : List Bool :=
  [(up.pass 9).hostUp && got (exec (.timeSnap 9) up) fun t => t.time.snapRaw = 9#64 && t.time.snapNt = (up.pass 9).nt && t.regs = [],
   (let s := up.setRg .ringBase 3 1 7#32
    lowOf8 (0x20000 + 0x40 * 3) = some (.ringBase, 3) && got (exec (.lowWordRead (0x20000 + 0x40 * 3)) s) fun t =>
      t.readHost (0x20000 + 0x40 * 3 + 4) = 7#32 && t.regs = s.regs),
   ends (exec (.timeSnap 9) d3) (d3.pass 9) && ends (exec (.lowWordRead 0x8020) d3) d3 && ends (exec (.badAlignRead 0x1236 4) d3) d3,
   lowOf8 0x44 = none && got (exec (.lowWordRead 0x44) up) fun t => t.latch = [] && t.regs = up.regs,
   !badRead 0x1234 4 && ends (exec (.badAlignRead 0x1234 4) up) up,
   badRead 0x1236 4 && got (exec (.badAlignRead 0x1236 4) up) fun t => t.out = [.readData 0x1236 0#64] &&
     bit (t.rg .sysHostAcc) 30 && fld (t.rg .sysHostAcc) 19 0 = 0x1236]

def w_RegisterWrites : List Bool :=
  [got (exec (.registerWrite 0x6C 4 0xFFFFFFFF#64) up) fun t => t.readHost 0x6C = 0xFFFFFFFF#32 && t = { up with regs := t.regs, irq := t.irq, marks := t.marks },
   ends (exec (.registerWrite 0x6C 4 1#64) d3) d3 && ends (exec (.registerWrite 0x2000 4 7#64) up) (up.putReg .secGrantBlock 0 0 7#32),
   got (exec (.registerWrite (Reg.fltSev.addr 11) 4 0x12345678#64) inst) fun t => t.rg .fltSev 11 = 0x12345678#32 && t.time = inst.time,
   [0x30098, 0, 0x5C, 0x7000, 0x22900, 0x80500, 0xFFFFC].all fun o => ends (exec (.registerWrite o 4 0xFFFFFFFF#64) up) up,
   ends (exec (.registerWrite 0x60 3 0#64) up) (up.hostAcc 31 0x60),
   ends (exec (.registerWrite 0x62 4 0#64) up) (up.hostAcc 30 0x62),
   ends (exec (.registerWrite 0x500000 8 1#64) up) up]

def w_DeniedWritesChangeNothing : List Bool :=
  [up.hostUp && !up.grantOk && ([.severityWrite 0 0#32, .modrst 0x80000000#32, .registerWrite 0x24 4 1#64, .driftLimWrite 0#32,
        .timeCtrlWrite 3#32, .laneReset 1#32, .chamberReset 1#32, .fabChCtrlWrite 0 0#32, .fabPolCfgWrite 0#32,
        .wearSummaryNow 0x80000000#32, .flowstoneClear 0 0x40000000#32, .eptShapeWrite 0 0 0#64] : List Instr).all fun c =>
      got (exec c up) fun t => t = { up.setBit .secGrantStatus 0 28 with irq := t.irq, marks := t.marks, sec := { up.sec with denied := 1 } },
   up.hostUp && got (exec (.loopProfileIdx 31 1#32) up) fun t => bit (t.rg .secGrantStatus) 28 && bit (t.rg .loopEvt 31) 0 &&
     t.sec.denied = 1]

/-- Context 5 is valid and bound to slot 3, for transmission or for reception. -/
def slotted (rx : Bool) : State :=
  { up with sram := wr (wrBytes [] (ctxBase 5) [if rx then 5#8 else 3#8, 0#8, if rx then 0x60#8 else 0x20#8]) (ctxBase 5 + 26) 3#8 }

def w_WidthsOfHostWrites : List Bool :=
  [!up.slotBound 3 true && !up.slotBound 3 false && got (exec (.registerWrite (0x100000 + 0x1800) 1 9#64) up) fun t => t.sram = [(0x1800, 9#8)],
   (up.ring 159).state = .disabled && got (exec (.registerWrite (0x20000 + 0x40 * 159) 4 0xFFFFFFFF#64) up) fun t =>
     t.regs = [] && ((t.writeBar0 2 (0x20000 + 0x40 * 159 + 4) 5#32).rg .ringBase 159 0 = 0xFFFFF000#32) &&
     ((t.writeBar0 2 (0x20000 + 0x40 * 159 + 4) 5#32).rg .ringBase 159 1 = 5#32),
   got (exec (.registerWrite 0x8068 8 0xFFFF000000000007#64) up) fun t => t.time.todNext = some (7, 0),
   got (exec (.registerWrite (Reg.eptMac.addr 7) 4 9#64) inst) fun t => t = { inst with lowHeld := t.lowHeld, irq := t.irq, marks := t.marks } &&
     (t.writeBar0 2 (Reg.eptMac.addr 7 + 4) 5#32).rg .eptMac 7 0 = 9#32,
   (let s := { up with rings := [(143, { state := .running })] }
    s.writeWide .ringBase 143 0#64 = s.setBit .ringStatus 143 26),
   (slotted true).slotBound 3 true && got (exec (.registerWrite (0x100000 + 0x1FFF) 1 9#64) (slotted true)) fun t =>
     t.sram = (slotted true).sram,
   (slotted false).slotBound 3 false && (got (exec (.registerWrite (0x100000 + 0x1808) 1 9#64) (slotted false)) fun t =>
     t.sram = (slotted false).sram) && (got (exec (.registerWrite (0x100000 + 0x1813) 1 9#64) (slotted false)) fun t =>
     t.sram = (slotted false).sram) && got (exec (.registerWrite (0x100000 + 0x1814) 1 9#64) (slotted false)) fun t =>
     rd t.sram 0x1814 = 9#8,
   got (exec (.registerWrite (0x80000 + 8 * 143) 4 1#64) { up with rings := [(143, { state := .running })] }) fun t =>
     (t.ring 143).pi = 1]

def maker : State := { up with pwr := { up.pwr with testEn := true }, sec := { grant := some { role := .maker, keyId := 0, ends := 2 ^ 40 } } }

def w_TestBlockCommands : List Bool :=
  [inst.testRefusal 15 = 0 && got (exec (.selfTestStart 0x8000001F#32) inst) fun t => t.tst.busy && t.tst.pairs = 15#4 &&
     t.tst.ends = some (secC 1) && t.tst.err = [],
   ends (exec (.selfTestStart 0x8000001F#32) d3) d3 && ends (exec (.selfTestStop 0x40000000#32) d3) d3 &&
     ends (exec (.tstModeWrite false 3#32) d3) d3 && ends (exec (.selfTestStart 0x1F#32) inst) (inst.putReg .tstStCtrl 0 0 0x1F#32),
   (let s := { up with tst := { busy := true, ends := some 5 } }
    ends (exec (.selfTestStart 0x80000001#32) s) s && ends (exec (.selfTestEnd 4) s) (s.pass 4)),
   (let s := { inst with ept := { lanes := [(0, { fec := true })] } }
    s.testRefusal 1 = 4 && s.testRefusal 2 = 0),
   !stabledS.readsTestEn && ends (exec .testEnActive stabledS) stabledS && ends (exec .testEnInactive stabledS) stabledS,
   up.testRefusal 15 = 1 && got (exec (.selfTestStart 0x8000001F#32) up) fun t => t.tst.why = 1#4 && bit (t.rg .tstStStatus) 28 && !t.tst.busy,
   ({ inst with fab := { inForce := some 0 } } : State).testRefusal 15 = 2 && inst.testRefusal 0 = 3,
   (let s := { up with tst := { busy := true, ends := some 5, pairs := 15#4 } }
    (got (exec (.selfTestStop 0x40000000#32) s) fun t => !t.tst.busy && bit (t.rg .tstStStatus) 29 && bit (t.rg .tstStStatus) 30) &&
    got (exec (.selfTestEnd 5) s) fun t => !t.tst.busy && bit (t.rg .tstStStatus) 30),
   maker.makerOk && ends (exec (.tstModeWrite true 3#32) maker) (maker.putReg .tstAdcRaw 0 0 3#32),
   maker.makerOk && got (exec (.tstModeWrite false 0#32) maker) fun t => t.regs = (maker.putReg .tstMode 0 0 0#32).regs,
   !inst.makerOk && ends (exec (.tstModeWrite false 3#32) inst) (inst.setBit .secGrantStatus 0 28),
   up.readsTestEn && (got (exec .testEnActive up) fun t => t.pwr.testEn && (t.fsrc 93).active) &&
     got (exec .testEnInactive maker) fun t => !t.pwr.testEn && t.rg .tstMode = 0#32 && t.sec.grant = none]

def chan0 (c : DmaCh) : State := { up with dma := { chans := [(0, c)] } }

def w_DmaChannels : List Bool :=
  [(let s := chan0 { src := 0x10000000#32, dst := 0x10000100#32, count := 64 }
    got (exec (.dmaStart ⟨0, []⟩ 0 0x80000008#32) s) fun t => (t.dmac 0).busy && (t.dmac 0).left = 64 && (t.dmac 0).code = .none),
   (let s := chan0 { src := 0x10000002#32, dst := 0x10000100#32, count := 64 }
    got (exec (.dmaStart ⟨0, []⟩ 0 0x80000008#32) s) fun t => !(t.dmac 0).busy && (t.dmac 0).code = .refused && (t.dmac 0).why = 1#4),
   (let s := chan0 { busy := true, left := 12, total := 16 }
    got (exec (.dmaAbort ⟨0, []⟩ 0 0x40000000#32) s) fun t => !(t.dmac 0).busy && (t.dmac 0).code = .aborted && (t.dmac 0).count = 12),
   ends (exec (.dmaStart ⟨0, []⟩ 0 4#32) (chan0 {})) ((chan0 {}).modDma 0 fun c => { c with ctrl := 4#32 &&& ctrlMask }) &&
     ends (exec (.dmaStart ⟨0, []⟩ 0 4#32) (chan0 { busy := true })) ((chan0 { busy := true }).setBit .dmaStatus 0 24) &&
     ends (exec (.dmaStart ⟨2, []⟩ 0 4#32) d3) d3 && ends (exec (.dmaAbort ⟨1, []⟩ 0 4#32) stabledS) stabledS &&
     ends (exec (.dmaTrigger 6#6 true) up) up && ends (exec (.dmaTrigger 31#6 false) up) up,
   got (exec (.dmaTrigger 5#6 true) up) fun t => t.dma.lines = 0x20#6,
   ends (exec (.dmaTrigger 31#6 true) up) (up.pulseTo 15),
   !inst.makerOk && ends (exec (.dmaStart ⟨2, []⟩ 0 0x80000000#32) inst) (inst.setBit .sysBusmxStatus 0 31)]

def burstS : State :=
  { chan0 { src := 0x10000000#32, dst := 0x10000004#32, count := 12, busy := true, curSrc := 0x10000000, curDst := 0x10000004,
            total := 12, left := 12, ctrl := 0x2#32 } with sram := memOfList [1#8, 2#8, 3#8, 4#8, 5#8, 6#8, 7#8, 8#8, 9#8, 10#8, 11#8, 12#8] }

def readReq : BusReq :=
  { master := 3, cls := .bulk, id := 31, addr := 0x10000000 + 252, len := 4, write := false, data := [], first := true, rest := 0 }

def w_DmaBurstMovesItsBytes : List Bool :=
  [(let s := chan0 { src := 0xF0000000#32, dst := 0x10000004#32, count := 4, busy := true, curSrc := 0xF0000000,
                     curDst := 0x10000004, total := 4, left := 4, ctrl := 0x2#32 }
    s.dmaGrant = some 0 && targetOf (s.dmac 0).nextSrc = .default && got (exec .dmaBurst s) fun t => !(t.dmac 0).busy &&
      (t.dmac 0).code = .busError && (t.dmac 0).errAddr = 0xF0000000#32 && t.sticky 78),
   ends (exec .dmaBurst stabledS) stabledS && up.dmaGrant = none && ends (exec .dmaBurst up) up,
   (let s := { up with sram := wrBytes [] 252 [1#8, 2#8, 3#8, 4#8], bus := { waiting := [readReq] } }
    (got (exec .dmaBurst s) fun t => t.sram = s.sram && t.bus.waiting = [] &&
      t.bus.answers = [{ master := 3, id := 31, data := [1#8, 2#8, 3#8, 4#8] }]) &&
    got (exec .dmaBurst { s with bus := { waiting := [{ readReq with write := true, data := [9#8, 8#8, 7#8, 6#8] }] } }) fun t =>
      t.sram = wrBytes [] 252 [9#8, 8#8, 7#8, 6#8] && t.bus.answers = [{ master := 3, id := 31 }]),
   burstS.dmaGrant = some 0 && (burstS.dmac 0).nextSrc = 0x10000000 + 8 && (burstS.dmac 0).nextDst = 0x10000000 + 12 &&
     (burstS.dmac 0).burst.2 = 4 && got (exec .dmaBurst burstS) fun t => rdBytes t.sram 12 4 = [9#8, 10#8, 11#8, 12#8] &&
       rdBytes t.sram 0 12 = rdBytes burstS.sram 0 12 && (t.dmac 0).left = 8 && (t.dmac 0).busy]

def w_MatrixAndInterrupts : List Bool :=
  [got (exec (.remapWrite ⟨0, []⟩ 1#32) up) fun t => t.bus.remapTo = some true,
   ends (exec (.remapWrite ⟨1, []⟩ 1#32) up) up,
   got (exec .remapSwitch { up with bus := { remapTo := some true } }) fun t => t.bus.remap && t.bus.remapTo = none,
   (let z := { readReq with master := 0, addr := 0 }
    let s : State := { up with bus := { remapTo := some true } }
    (got (exec (.dmaStart ⟨0, [readReq, z]⟩ 0 4#32) s) fun t => t.bus.waiting = [readReq] && t.bus.held = [z]) &&
    (got (exec (.remapWrite ⟨0, [z]⟩ 1#32) up) fun t => t.bus.waiting = [z] && t.bus.remapTo = some true) &&
    got (exec .remapSwitch { up with bus := { remapTo := some true, waiting := [readReq] } }) fun t =>
      t.bus.remap && t.bus.waiting = [] && t.bus.answers.length = 1),
   (let z := { readReq with master := 0, addr := 0 }
    let s : State := { up with bus := { remapTo := some true, waiting := [z],
                                        ports := [(Target.rom.code, { lock := some { at_ := 0, left := 1 } })] } }
    got (exec .remapSwitch s) fun t => !t.bus.remap && t.bus.remapTo = some true && t.bus.waiting = [z]),
   (let r := { readReq with cls := .locked, first := true, rest := 1 }
    let s : State := { up with bus := { waiting := [readReq, { r with master := 0 }] } }
    s.pick .sram = some 1 && ({ s with bus := { s.bus with ports := [(Target.sram.code, { run := 4 })] } } : State).pick .sram = some 0),
   (let r := { readReq with cls := .locked, first := false }
    let s : State := { up with bus := { waiting := [r], broken := true } }
    !(s.grant .sram 0).bus.broken && (s.grant .sram 0).bus.answers = [{ master := 3, id := 31, error := true }]),
   ends (exec (.remapWrite ⟨0, []⟩ 1#32) stabledS) stabledS && ends (exec .remapSwitch up) up && up.drainBus = up,
   ends (exec (.lockBrk 4) up) (up.pass 4) && ends (exec (.irqClaim 2) d3) d3 &&
     ends (exec (.irqClaim 1) up) (up.emit (.readData 0x4240 0#64)) && ends (exec (.irqComplete 0 5#32) up) up,
   !inst.makerOk && ([Instr.irqComplete 2 5#32, .irqSetpend 2 0 1#32, .irqPendClear 2 0 1#32, .irqSrcCfgWrite 2 0 1#32].all fun c =>
     ends (exec c inst) (inst.setBit .sysBusmxStatus 0 31) && ends (exec c d3) d3),
   (let s := { up with irq := [(90, { en := true, pending := true, prio := 3#4 })] }
    ends (exec (.irqClaim 1) s) (s.emit (.readData 0x4240 (BitVec.ofNat 64 (2 ^ 31 + 90))))),
   (let s : State := { up with bus := { ports := [(Target.sram.code, { lock := some { at_ := 0, left := 1 } })] } }
    (s.pass 513).overLocked .sram && got (exec (.lockBrk 513) s) fun t => bit (t.rg .sysBusmxStatus) 29 && t.bus.broken &&
      (t.port .sram).lock = none),
   (let s := { up with irq := [(90, { en := true, pending := true, prio := 3#4 }), (91, { en := true, pending := true, prio := 3#4 })] }
    s.claim = some 90 && got (exec (.irqClaim 0) s) fun t => (t.irqs 90).active && !(t.irqs 90).pending &&
      t.out = [.readData 0x4240 (BitVec.ofNat 64 (2 ^ 31 + 90))]),
   (let s := { up with irq := [(127, { active := true, pending := true })] }
    got (exec (.irqComplete 0 127#32) s) fun t => !(t.irqs 127).active && !(t.irqs 127).pending),
   got (exec (.irqSetpend 1 3 0x80000000#32) up) fun t => (t.irqs 127).pending,
   got (exec (.irqPendClear 1 3 0x80000000#32) { up with irq := [(127, { pending := true })] }) fun t => !(t.irqs 127).pending,
   got (exec (.irqSrcCfgWrite 0 127 0xCF000000#32) up) fun t => (t.irqs 127).en && (t.irqs 127).sense = 2#2 && (t.irqs 127).prio = 15#4]

theorem holds_GrantsAndSelectors_1 : (w_GrantsAndSelectors.take 1).all id = true := by decide +kernel

theorem holds_GrantsAndSelectors_2 : ((w_GrantsAndSelectors.drop 1).take 1).all id = true := by decide +kernel

theorem holds_GrantsAndSelectors_3 : (w_GrantsAndSelectors.drop 2).all id = true := by decide +kernel

theorem holds_SupervisorCommands_1 : (w_SupervisorCommands.take 1).all id = true := by decide +kernel

theorem holds_SupervisorCommands_2 : ((w_SupervisorCommands.drop 1).take 1).all id = true := by decide +kernel

theorem holds_SupervisorCommands_3 : ((w_SupervisorCommands.drop 2).take 3).all id = true := by decide +kernel

theorem holds_SupervisorCommands_4 : ((w_SupervisorCommands.drop 5).take 10).all id = true := by decide +kernel

theorem holds_SupervisorCommands_5 : (w_SupervisorCommands.drop 15).all id = true := by decide +kernel

theorem holds_HostReadsChangeNothingElse : w_HostReadsChangeNothingElse.all id = true := by decide +kernel

theorem holds_RegisterWrites : w_RegisterWrites.all id = true := by decide +kernel

theorem holds_DeniedWritesChangeNothing : w_DeniedWritesChangeNothing.all id = true := by decide +kernel

theorem holds_WidthsOfHostWrites : w_WidthsOfHostWrites.all id = true := by decide +kernel

theorem holds_TestBlockCommands : w_TestBlockCommands.all id = true := by decide +kernel

theorem holds_DmaChannels : w_DmaChannels.all id = true := by decide +kernel

theorem holds_DmaBurstMovesItsBytes : w_DmaBurstMovesItsBytes.all id = true := by decide +kernel

theorem holds_MatrixAndInterrupts : w_MatrixAndInterrupts.all id = true := by decide +kernel


/-! ### The fabric, maps and the schedule -/

def w_WiringOfTheFabric : List Bool :=
  [(tracePath (fun _ => false) 17).2 = 17 && ((tracePath (fun _ => false) 17).1.map fun h => h.cell / 128) = List.range 16,
   beta 7 = 7 && beta 8 = 7 && beta 15 = 0 && tau 7 255 = 255 && tau 7 128 = 1 && tau 0 5 = 5,
   cellAt 15 (tau (beta 15) 255) = (2047, true),
   -- R34, worked example: output wire position 22 of G03 joins G04 input position 7, which is cell 3, input 1
   tau 3 22 = 22 && tau 4 (tau 3 22) = 7 && cellAt 4 22 = (4 * 128 + 3, true)]

/-- A port map with one connection, from entry `a` to exit `b`. -/
def onePort (a b : Nat) : Memory :=
  let v := (256 + b) * 2 ^ (9 * a % 8)
  wrBytes [] (9 * a / 8) (leBytes 2 v)

def up5 : State := { up with fab := { failGen := 9#8 } }

def w_MapLoading : List Bool :=
  [(let s := withCmd up5 0x01 [(24, leBytes 2 1023)] (onePort 248 17)
    s.mapBusy 1023 = false && !s.mapProtected 1023 && got (exec (.mapLoad 0) s) fun t => (t.dir 1023).state = .loaded &&
      t.mapConns 1023 = [(248, 17)] && (t.dir 0) = {} && (t.ring 0).entries = []),
   ends (exec (.mapLoad 0) up) up && ends (exec (.mapLoadComplete 0) up) up,
   (let s := withCmd { up5 with fab := { up5.fab with routes := [{ ring := 1, idx := 0, src := 3, dst := 3, base := none, since := 0 }] } }
      0x01 [(24, leBytes 2 3)]
    s.mapBusy 3 && ends (exec (.mapLoad 0) s) s && ends (exec (.mapLoadComplete 0) s) s),
   (let s := withCmd { up5 with casc := { role := .stack } } 0x01 [(24, leBytes 2 3)] (onePort 240 17)
    !(s.putMap 3 256 (rdBytes (onePort 240 17) 0 288)).connsOk 3 && got (exec (.mapLoad 0) s) fun t => t.dir 3 = {}),
   (let s := withCmd { up5 with fab := { inForce := some 3 } } 0x01 [(24, leBytes 2 3)] (onePort 248 17)
    s.mapProtected 3 && got (exec (.mapLoad 0) s) fun t => t.sram = [] && t.fab = s.fab),
   (let s := withCmd { up5 with fab := { inForce := some 3 } } 0x01 [(24, leBytes 2 3), (26, [1#8])] (onePort 248 17)
    s.mapProtected 3 && got (exec (.mapLoadComplete 0) s) fun t => t.sram = [] && t.fab = s.fab),
   (let s := withCmd up5 0x01 [(24, leBytes 2 3)] (onePort 248 17 ++ [(285, 1#8), (286, 0x89#8)])
    got (exec (.mapLoad 0) s) fun t => rdBytes t.sram (mapBase 3 + 256) 288 = rdBytes (onePort 248 17 ++ [(285, 1#8), (286, 0x89#8)]) 0 288),
   (let s := withCmd up5 0x01 [(24, leBytes 2 3), (26, [1#8])] ((onePort 0 1).map fun p => (p.1 + 256, p.2))
    got (exec (.mapLoadComplete 0) s) fun t => (t.dir 3).state = .routed && (t.dir 3).host && (t.dir 3).failGen = 9#8),
   (let s := withCmd up5 0x01 [(24, leBytes 2 3), (26, [1#8])] ((onePort 0 0).map fun p => (p.1 + 256, p.2))
    got (exec (.mapLoadComplete 0) s) fun t => t.dir 3 = {} && rdBytes t.sram (mapBase 3) 544 =
      rdBytes ((onePort 0 0).map fun p => (p.1 + 256, p.2)) 0 544)]

/-- Map 1 LOADED with a connection from 248 to 17. -/
def loaded : State :=
  { up with fab := { dirs := [(1, { state := .loaded, nconn := 1 })] },
            sram := (onePort 248 17).map fun p => (mapBase 1 + 256 + p.1, p.2) }

def jobR : RouteJob := { ring := 0, idx := 0, src := 1, dst := 2, base := none, since := 0 }

def w_RoutingAMap : List Bool :=
  [(let s := withCmd loaded 0x02 [(24, leBytes 2 1), (26, leBytes 2 2), (28, leBytes 2 0x8000)]
    !s.mapBusy 1 && !s.mapBusy 2 && !s.mapProtected 2 && got (exec (.mapRoute 0) s) fun t => t.fab.routes = [jobR]),
   (let s := withCmd { loaded with fab := { loaded.fab with inForce := some 2 } } 0x02 [(24, leBytes 2 1), (26, leBytes 2 2), (28, leBytes 2 0x8000)]
    s.mapProtected 2 && got (exec (.mapRoute 0) s) fun t => t.fab = s.fab && (t.ring 0).entries = []),
   (let s := withCmd loaded 0x02 [(24, leBytes 2 5), (26, leBytes 2 2), (28, leBytes 2 0x8000)]
    (s.dir 5).state = .empty && got (exec (.mapRoute 0) s) fun t => t.fab = s.fab && (t.ring 0).entries = []),
   (let s := withCmd { loaded with fab := { loaded.fab with routes := [jobR] } } 0x02 [(24, leBytes 2 1), (26, leBytes 2 3), (28, leBytes 2 0x8000)]
    s.mapBusy 1 && ends (exec (.mapRoute 0) s) s),
   (let s := withCmd loaded 0x02 [(24, leBytes 2 1), (26, leBytes 2 2), (28, leBytes 2 5)]
    !s.mapRouted 5 && ends (exec (.mapRoute 0) s) (s.finishCmd 0 0 0x13 false (s.dirBytes 2))),
   ends (exec (.mapRoute 0) up) up && ends (exec (.routeDone 9) up) (up.pass 9),
   (let s := { loaded with fab := { loaded.fab with routes := [jobR], inForce := some 2 } }
    s.mapProtected 2 && got (exec (.routeDone 9) s) fun t => t.fab = { s.fab with routes := [] } && t.sram = s.sram),
   (let s := { loaded with fab := { loaded.fab with routes := [jobR], failGen := 1#8 } }
    got (exec (.routeDone 9) s) fun t => t.fab.routes = [{ jobR with gen := 1#8, since := 9 }] && t.sram = s.sram),
   (let s := { loaded with fab := { loaded.fab with routes := [jobR] } }
    (route s.fab.failed none (s.mapConns 1)).1.isSome && got (exec (.routeDone 9) s) fun t => t.fab.routes = [] &&
      (t.dir 2).state = .routed && (t.dir 2).engine && t.mapConns 2 = [(248, 17)] && (tracePath (t.mapVec 2) 248).2 = 16),
   (let c := (cellAt 0 248).1
    let s := { loaded with fab := { loaded.fab with routes := [jobR], failed := [{ cell := c, kind := .darkOnly, src := .installer }] } }
    (route s.fab.failed none (s.mapConns 1)).1 = none && got (exec (.routeDone 9) s) fun t => t.fab.routes = [] &&
      (t.dir 2).state = .loaded && (t.dir 2).engine = false)]

def w_NopMapReadAndFree : List Bool :=
  [(let s := withCmd up 0x00
    got (exec (.nop 0) s) fun t => (t.ring 0).entries = [] && t.frame = s.frame &&
      t.out.getLast? = some (.hostWrite 0 [0#8, 0#8, 0#8, 0xD0#8])),
   (let s := withCmd loaded 0x05 [(24, leBytes 2 1), (8, leBytes 8 0x4000)]
    !s.mapBusy 1 && got (exec (.mapRead 0) s) fun t => t.frame = s.frame &&
      t.out.head? = some (.hostWrite 0x4000 (rdBytes s.sram (mapBase 1) 544))),
   ends (exec (.nop 0) up) up && ends (exec (.mapRead 0) up) up && ends (exec (.mapFree 0) up) up,
   (let s := { loaded with fab := { loaded.fab with routes := [jobR] } }
    let a := withCmd s 0x05 [(24, leBytes 2 1)]
    let b := withCmd s 0x06 [(24, leBytes 2 2)]
    a.mapBusy 1 && ends (exec (.mapRead 0) a) a && ends (exec (.mapFree 0) b) b),
   (let s := withCmd loaded 0x05 [(24, leBytes 2 2)]
    (s.dir 2).state = .empty && got (exec (.mapRead 0) s) fun t => t.out.length = 2),
   (let s := withCmd loaded 0x06 [(24, leBytes 2 1)]
    !s.mapProtected 1 && got (exec (.mapFree 0) s) fun t => t.dir 1 = {} && t.sram = s.sram),
   (let s := withCmd { loaded with fab := { loaded.fab with inForce := some 1 } } 0x06 [(24, leBytes 2 1)]
    s.mapProtected 1 && got (exec (.mapFree 0) s) fun t => t.fab = s.fab)]

/-- Map 1 ROUTED, every cell BAR: entry 0 to exit 1. -/
def routed : State :=
  { up with fab := { dirs := [(1, { state := .routed })] },
            sram := (onePort 0 1).map fun p => (mapBase 1 + 256 + p.1, p.2) }

/-- Bank `b` VALID with rows of 1 ms, a START_MAP word, change entries of 6 bytes each. -/
def bankBytes (b rows start : Nat) (chg : List (List Byte)) (lane : List Byte := []) : Memory :=
  let m := wrBytes [] (bankBase b) ([0#8, BitVec.ofNat 8 rows, 0#8, 0#8] ++ leBytes 4 8000000 ++ zeros 8 ++ zeros 2 ++
    leBytes 2 chg.length ++ leBytes 2 start ++ zeros 2 ++ lane)
  wrBytes m (bankBase b + 106496) chg.flatten

/-- A change entry of row 0, `off` × 32 ns, to `map`, guard 1000 ns. -/
def chgB (row off map : Nat) : List Byte := leBytes 6 (off + row * 2 ^ 17 + map * 2 ^ 23 + 1000 * 2 ^ 33)

def msNt : Nat := 1000000 * 65536

/-- Bank 0 runs, two rows of 1 ms, from time 0. -/
def running (chg : List (List Byte)) : State :=
  { up with sram := bankBytes 0 2 0x8000 chg,
            sched := { banks := [(0, { state := .running })], run := some { bank := 0, matrix := 0, row := 0, next := msNt } } }

def cmdAt (s : State) (op : Nat) (ps : List (Nat × List Byte)) : State := withCmd s op ps

def w_ApplyingAMap : List Bool :=
  [(let s := withCmd up 0x03 [(24, leBytes 2 1), (32, leBytes 8 (2 ^ 64 - 1))]
    !s.mapRouted 1 && ends (exec (.mapApply 0) s) (s.finishCmd 0 0 0x13 false).shutGates),
   (let s := withCmd { running [chgB 0 5 1] with fab := routed.fab } 0x03 [(24, leBytes 2 1), (32, leBytes 8 (2 ^ 64 - 1))]
    s.mapRouted 1 && s.patternOwns && ends (exec (.mapApply 0) s) (s.finishCmd 0 0 0x15 false).shutGates),
   (let s := withCmd routed 0x03 [(24, leBytes 2 1), (32, leBytes 8 (2 ^ 39 + 1))]
    s.timeBad (2 ^ 39 + 1) && ends (exec (.mapApply 0) s) (s.finishCmd 0 0 0x08 false).shutGates),
   (let s := withCmd { routed with fab := { routed.fab with chambers := [(0, { pstate := .hold })] }, loop := { cells := [(0, { state := true })] } }
      0x03 [(24, leBytes 2 1), (32, leBytes 8 (2 ^ 64 - 1))]
    s.applyMask 1 = 1 && ends (exec (.mapApply 0) s) (s.finishCmd 0 0 0x17 false (applyRes 0 0 0 0 0 1 0)).shutGates),
   (let s := withCmd routed 0x03 [(24, leBytes 2 1), (32, leBytes 8 (2 ^ 39))]
    !s.timeBad (2 ^ 39) && s.applyMask 1 = 0 && !s.prepDue (2 ^ 39) && got (exec (.mapApply 0) s) fun t =>
      t.fab.applies = [{ ring := 0, idx := 0, map := 1, time := 2 ^ 39 }] && t.fab.change = none),
   (let s := withCmd routed 0x03 [(24, leBytes 2 1), (32, leBytes 8 (2 ^ 64 - 1))]
    got (exec (.mapApply 0) s) fun t => t.fab.applies = [] && t.fab.inForce = none &&
      t.fab.waiting.any fun c => c.map = 1 && c.src = .apply 0 0 && c.at_ = none),
   (let s := { routed with fab := { routed.fab with applies := [{ ring := 0, idx := 0, map := 1, time := 250009 }] } }
    (s.pass 10).prepDue 250009 && got (exec (.mapApplyPreparation 10 0) s) fun t => t.fab.applies = [] &&
      t.fab.waiting.any fun c => c.map = 1 && c.at_ = some 250009),
   ends (exec (.mapApply 0) up) up.shutGates && ends (exec (.mapApplyPreparation 10 0) up) (up.pass 10).shutGates &&
     ends (exec (.mapCancel 0) up) up,
   (let s := withCmd { routed with fab := { routed.fab with routes := [jobR] } } 0x03 [(24, leBytes 2 1), (32, leBytes 8 (2 ^ 64 - 1))]
    s.mapRouting 1 && ends (exec (.mapApply 0) s) s.shutGates),
   (let s := { up with fab := { applies := [{ ring := 0, idx := 0, map := 1, time := 250009 }] } }
    ends (exec (.mapApplyPreparation 10 0) s) (((s.pass 10).onFab fun f => { f with applies := [] }).finishCmd 0 0 0x13 false).shutGates),
   (let s := { routed with fab := { routed.fab with chambers := [(0, { pstate := .hold })],
                                                    applies := [{ ring := 0, idx := 0, map := 1, time := 250009 }] },
                           loop := { cells := [(0, { state := true })] } }
    ends (exec (.mapApplyPreparation 10 0) s) (((s.pass 10).onFab fun f => { f with applies := [] }).finishCmd 0 0 0x17 false
      (applyRes 0 0 0 0 0 1 0)).shutGates),
   (let s := withCmd routed 0x04 [(24, [1#8]), (28, leBytes 4 7)]
    ends (exec (.mapCancel 0) s) (s.finishCmd 0 0 0x0B false)),
   (let s := withCmd { routed with fab := { routed.fab with applies := [{ ring := 1, idx := 7, map := 1, time := 250001 }] } } 0x04 [(24, [1#8]), (28, leBytes 4 7)]
    !s.prepDue 250001 && got (exec (.mapCancel 0) s) fun t => t.fab.applies = [] && t.fab.inForce = none)]

def full16 : List FailEntry := (List.range 16).map fun k => { cell := k, kind := .darkOnly, src := .factory }

def w_FailedCellList : List Bool :=
  [(let s := withCmd up 0x07 [(24, leBytes 2 2047), (26, [2#8])]
    s.failed 2047 = none && got (exec (.failAdd 0) s) fun t => t.fab.failGen = 1#8 &&
      t.fab.failed = [{ cell := 2047, kind := .stuckCross, src := .installer }]),
   (let s := withCmd { up with fab := { failed := full16 } } 0x07 [(24, leBytes 2 2047), (26, [2#8])]
    ends (exec (.failAdd 0) s) (s.finishCmd 0 0 0x18 false [16#8, s.fab.failGen])),
   (let s := withCmd { up with fab := { failed := full16 } } 0x08 [(24, leBytes 2 15)]
    (s.failed 15).isSome && got (exec (.failRemove 0) s) fun t => t.fab.failed.length = 15 && t.failed 15 = none),
   (let s := withCmd up 0x08 [(24, leBytes 2 15)]
    ends (exec (.failRemove 0) s) (s.finishCmd 0 0 0x19 false [0#8, s.fab.failGen])),
   ends (exec (.failAdd 0) up) up && ends (exec (.failRemove 0) up) up && ends (exec (.cellFailed 9) up) up,
   (let s := withCmd { up with fab := { failed := [{ cell := 9, kind := .darkOnly, src := .factory }] },
                               pwr := { up.pwr with testEn := true },
                               flash := { relpety := { failed := [{ cell := 9, kind := .darkOnly, src := .factory }] } } }
      0x07 [(24, leBytes 2 9), (26, [2#8])]
    (got (exec (.failAdd 0) s) fun t => t.fab.failed = [{ cell := 9, kind := .stuckCross, src := .factory }] &&
      t.flash.relpety.failed = [{ cell := 9, kind := .stuckCross, src := .factory }]) &&
    (got (exec (.failAdd 0) { s with pwr := up.pwr }) fun t => t.flash.relpety = s.flash.relpety &&
      t.fab.failed = [{ cell := 9, kind := .stuckCross, src := .factory }])),
   (let s := withCmd { up with fab := { failed := [{ cell := 9, kind := .darkOnly, src := .module }] } } 0x07 [(24, leBytes 2 9), (26, [2#8])]
    got (exec (.failAdd 0) s) fun t => t.fab.failed = [{ cell := 9, kind := .stuckCross, src := .installer }]),
   (let s := { up with fab := { failed := [{ cell := 9, kind := .darkOnly, src := .module }] },
                       loop := { cells := [(9, { failDue := true, hist := [(true, true)] })] } }
    got (exec (.cellFailed 9) s) fun t => t.fab.failed = [{ cell := 9, kind := .stuckBar, src := .module }] && t.sticky 50),
   (let s := { up with fab := { failed := [{ cell := 9, kind := .darkOnly, src := .installer }] },
                       loop := { cells := [(9, { failDue := true, hist := [(true, true)] })] } }
    ends (exec (.cellFailed 9) s) (s.modCell 9 fun x => { x with failDue := false })),
   (let s := { up with loop := { cells := [(9, { failDue := true, hist := [(true, true)] })] } }
    got (exec (.cellFailed 9) s) fun t => t.fab.failed = [{ cell := 9, kind := .stuckBar, src := .module }] && t.sticky 50 && (t.fsrc 50).detail = 9#16),
   (let s := { up with fab := { failed := full16 }, loop := { cells := [(99, { failDue := true, hist := [(true, true)] })] } }
    got (exec (.cellFailed 99) s) fun t => t.fab.failed = full16 && bit (t.rg .fabFailStatus) 5 && t.sticky 51)]

/-- An image that passes every check: two rows of 1 ms, every queue open, no change entries. -/
def goodBank (b : Nat) : Memory :=
  let h := [1#8, 2#8, 0#8, 0#8] ++ leBytes 4 8000000 ++ zeros 12 ++ leBytes 2 0x8000 ++ zeros 2 ++
    (List.replicate 8 [0xFF#8, 2#8]).flatten ++ zeros 20
  wrBytes [] (bankBase b) (h ++ leBytes 4 (crc32 h).toNat)

def w_LoadingABank : List Bool :=
  [(let s := withCmd (running []) 0x20 [(24, [0#8])]
    (s.bank 0).state = .running && got (exec (.bankLoad 0) s) fun t => t.sched = s.sched && t.sram = s.sram && (t.ring 0).entries = []),
   (let s := withCmd (running []) 0x20 [(24, [3#8])] [(5, 7#8)]
    (s.bank 3).state = .empty && got (exec (.bankLoad 0) s) fun t => (t.bank 3).state = .loading && (t.bank 3).issuer = some (0, 0) &&
      rd t.sram (bankBase 3 + 5) = 7#8 && rd t.sram (bankBase 0 + 1) = 2#8),
   ends (exec (.bankLoad 0) up) up && ends (exec (.bankLoadChecked 7 3) up) (up.pass 7),
   (let s := withCmd { up with sched := { banks := [(3, { state := .loading })] } } 0x20 [(24, [3#8])]
    ends (exec (.bankLoad 0) s) s),
   (let s := { up with sched := { banks := [(3, { state := .loading })] } }
    (s.bank 3).issuer = none && got (exec (.bankLoadChecked 7 3) s) fun t => (t.bank 3).state = .refused && t.out = s.out),
   (let s := { up with sched := { banks := [(3, { state := .loading, issuer := some (0, 0) })] } }
    let v := (s.pass 7).checkBank 3
    v.status ≠ 0 && got (exec (.bankLoadChecked 7 3) s) fun t => (t.bank 3).state = .refused && (t.bank 3).issuer = none),
   (let s := { up with sram := goodBank 3, sched := { banks := [(3, { state := .loading, issuer := some (0, 0) })] } }
    let v := (s.pass 7).checkBank 3
    v.status = 0 && got (exec (.bankLoadChecked 7 3) s) fun t => (t.bank 3).state = .valid && (t.bank 3).checkDrift = v.drift)]

def validB (start : Nat) : State :=
  { up with sram := bankBytes 1 2 start [], sched := { banks := [(1, { state := .valid })] } }

def pendingB : Sched :=
  { banks := [(1, { state := .pending })],
    start := some { bank := 1, time := 0, needMap := false, boundary := some 0, ring := 0, idx := 0 } }

def w_StartingABank : List Bool :=
  [(let s := withCmd (running []) 0x21 [(24, [1#8]), (32, leBytes 8 5)]
    ends (exec (.patternStart 0) s) (s.finishCmd 0 0 0x2C false).shutGates),
   (let s := withCmd up 0x21 [(24, [1#8]), (32, leBytes 8 5)]
    ends (exec (.patternStart 0) s) (s.finishCmd 0 0 0x2E false).shutGates),
   (let s := withCmd (validB 0x8000) 0x21 [(24, [1#8]), (32, leBytes 8 (2 ^ 39 + 1))]
    s.timeBad (2 ^ 39 + 1) && ends (exec (.patternStart 0) s) (s.finishCmd 0 0 0x08 false).shutGates),
   (let s := withCmd (validB 0x8000) 0x21 [(24, [1#8]), (32, leBytes 8 5)]
    !s.timeBad 5 && s.startMap 1 = none && got (exec (.patternStart 0) s) fun t => (t.bank 1).state = .pending &&
      t.sched.start = some { bank := 1, time := 5, needMap := false, boundary := some (2 * msNt), ring := 0, idx := 0 }),
   ends (exec (.patternStart 0) up) up.shutGates && ends (exec (.bankStart 3) up) (up.pass 3),
   (let s := withCmd { up with sched := { banks := [(1, { state := .loading })] } } 0x21 [(24, [1#8]), (32, leBytes 8 5)]
    ends (exec (.patternStart 0) s) s.shutGates),
   (let s := withCmd { validB 0x8000 with casc := { role := .stack } } 0x21 [(24, [1#8]), (32, leBytes 8 5)]
    ends (exec (.patternStart 0) s) (s.finishCmd 0 0 0x2E false).shutGates),
   (let s := withCmd { validB 1 with sram := routed.sram ++ (validB 1).sram, fab := { routed.fab with chambers := [(0, { pstate := .hold })] },
                                     loop := { cells := [(0, { state := true })] } } 0x21 [(24, [1#8]), (32, leBytes 8 5)]
    (s.startMap 1).any (fun m => s.applyMask m ≠ 0) && ends (exec (.patternStart 0) s) (s.finishCmd 0 0 0x17 false).shutGates),
   (let s := withCmd { validB 1 with fab := routed.fab } 0x21 [(24, [1#8]), (32, leBytes 8 5)]
    s.startMap 1 = some 1 && got (exec (.patternStart 0) s) fun t => (t.bank 1).state = .pending &&
      t.fab.waiting.any fun c => c.map = 1 && c.src = .startMap && c.stage = .prep),
   (let q : StartReq := { bank := 1, time := 0, needMap := false, boundary := some (9 * msNt), ring := 0, idx := 0 }
    let s := { validB 0x8000 with sched := { pendingB with start := some q } }
    ends (exec (.bankStart 3) s) (s.pass 3)),
   (let s := { validB 0x8000 with sched := pendingB }
    (s.pass 3).dueNt 0 && !s.tst.busy && got (exec (.bankStart 3) s) fun t => t.sched.run = some { bank := 1, matrix := 0, row := 0, next := msNt } &&
      t.sched.rowCnt = 1#32 && (t.bank 1).state = .running && t.sched.start = none)]

def twoBanks (w : Sched → Sched) : State :=
  { up with sram := bankBytes 0 2 0x8000 [] ++ bankBytes 1 1 0x8000 [],
            sched := w { banks := [(0, { state := .running }), (1, { state := .valid })],
                         run := some { bank := 0, matrix := 0, row := 0, next := msNt } } }

def w_SwappingAndStopping : List Bool :=
  [0 < imgM (bankImg0) && nextMatrix bankImg0 1 = 2 * msNt && lastMatrix bankImg0 (2 * msNt) = 2 * msNt && nextMatrix bankImg0 (2 * msNt) = 2 * msNt,
   (let s := withCmd up 0x22 [(24, [1#8])]
    ends (exec (.patternSwap 0) s) (s.finishCmd 0 0 0x2D false)),
   (let s := withCmd (twoBanks id) 0x22 [(24, [1#8]), (32, leBytes 8 (2 ^ 64 - 1))]
    s.swapCheck 1 none = (0, 0) && s.sched.swap = none && got (exec (.patternSwap 0) s) fun t => (t.bank 1).state = .pending &&
      t.sched.swap = some { bank := 1, boundary := 0, issuer := some (0, 0) }),
   ends (exec (.patternSwap 0) up) up && ends (exec (.patternStop 0) up) up && ends (exec (.bankSwap 9) up) (up.pass 9) &&
     ends (exec (.bankEnd 9) up) (up.pass 9),
   (let s := withCmd (twoBanks fun q => { q with banks := [(0, { state := .running }), (1, { state := .loading })] }) 0x22 [(24, [1#8])]
    ends (exec (.patternSwap 0) s) s),
   (let s := withCmd (twoBanks id) 0x22 [(24, [2#8]), (32, leBytes 8 (2 ^ 64 - 1))]
    (s.swapCheck 2 none).1 = 0x2E && ends (exec (.patternSwap 0) s) (s.finishCmd 0 0 0x2E false)),
   (let s := withCmd (twoBanks id) 0x22 [(24, [1#8]), (32, leBytes 8 (2 ^ 39 + 1))]
    (s.swapCheck 1 (some (2 ^ 39 + 1))).1 = 0x08 && ends (exec (.patternSwap 0) s) (s.finishCmd 0 0 0x08 false)),
   (let s := twoBanks fun q => { q with swap := some { bank := 1, boundary := 2 * msNt, issuer := none }, stopAt := some (2 * msNt) }
    ends (exec (.bankSwap 9) s) (s.pass 9) && ends (exec (.bankEnd 9) s) (s.pass 9)),
   (let s := withCmd up 0x23
    ends (exec (.patternStop 0) s) (s.finishCmd 0 0 0x2D false)),
   (let s := withCmd (twoBanks id) 0x23
    got (exec (.patternStop 0) s) fun t => t.sched.stops = [(0, 0)] && t.sched.stopAt = some (2 * msNt)),
   (let s := twoBanks fun q => { q with run := some { bank := 0, matrix := 2 * msNt, row := 0, next := 3 * msNt },
                                        swap := some { bank := 1, boundary := 2 * msNt, issuer := none } }
    (s.pass 2048000).dueNt (2 * msNt) && got (exec (.bankSwap 2048000) s) fun t =>
      t.sched.run = some { bank := 1, matrix := 2 * msNt, row := 0, next := 3 * msNt } && (t.bank 1).state = .running &&
      (t.bank 0).state = .valid && t.sched.swap = none && t.sched.rowCnt = s.sched.rowCnt),
   (let s := twoBanks fun q => { q with run := some { bank := 0, matrix := 2 * msNt, row := 0, next := 3 * msNt }, stopAt := some (2 * msNt) }
    got (exec (.bankEnd 2048000) s) fun t => t.sched.run = none && (t.bank 0).state = .valid && t.sched.stopAt = none &&
      (t.lane 7).gates = 0xFF#8 && (t.lane 7).kind = .arbitrating)]
where bankImg0 : Img := fun o => rd (bankBytes 0 2 0x8000 []) (bankBase 0 + o)

/-- Bank 0 with one gate entry of lane 0 in row 1. -/
def gated : State :=
  let g := leBytes 6 (0 + 1 * 2 ^ 17 + 0 * 2 ^ 23 + 0x5A * 2 ^ 26 + 1 * 2 ^ 34)
  let m := wrBytes (wr (bankBytes 0 2 0x8000 []) (bankBase 0 + 16) 1#8) (bankBase 0 + 8192) g
  { running [] with sram := m }

def w_RowsAndGates : List Bool :=
  [!((running []).pass 1023999).dueNt msNt && ends (exec (.rowBoundary 1023999) (running [])) ((running []).pass 1023999),
   ((running []).pass 1024000).dueNt msNt && got (exec (.rowBoundary 1024000) (running [])) fun t => t.sched.rowCnt = 1#32 &&
     t.sched.run = some { bank := 0, matrix := 0, row := 1, next := 2 * msNt },
   (let s := { running [] with sched := { (running []).sched with run := some { bank := 0, matrix := 0, row := 1, next := 2 * msNt } } }
    got (exec (.rowBoundary 2048000) s) fun t => t.sched.run = some { bank := 0, matrix := 2 * msNt, row := 0, next := 3 * msNt }),
   ends (exec (.rowBoundary 9) up) (up.pass 9) && ends (exec (.gateEvent 9 7) up) (up.pass 9) &&
     ends (exec (.gateEvent 1024000 1) gated) (gated.pass 1024000) && ends (exec (.gateEvent 9 0) gated) (gated.pass 9),
   (let e := imgGate (gated.bankImg 0) 0
    (laneGates (gated.bankImg 0) 0)[(gated.lane 0).gateIdx]? = some e && (gated.pass 1024000).dueNt (0 + entryAt (gated.bankImg 0) e.row e.off) &&
      got (exec (.gateEvent 1024000 0) gated) fun t => (t.lane 0).gates = 0x5A#8 && (t.lane 0).kind = .exclusive && (t.lane 0).gateIdx = 1)]

def w_FailQuietAndHold : List Bool :=
  [(let s := gated
    s.time.drift && hasExclusive (s.bankImg 0) && got (exec (.failQuietStart 3) s) fun t => t.sched.failQuiet &&
      bit (t.rg .schedStatus) 24 && t.activeSrc 62 && t.sticky 62),
   (let s := { gated with sched := { gated.sched with failQuiet := true, fqRows := 255 }, flt := { src := [(62, { active := true })] } }
    s.releaseRows ≤ 255 && (s.pass 3).realignNeed true = none && got (exec (.failQuietEnd 3) s) fun t => !t.sched.failQuiet && !t.activeSrc 62),
   (let s := { gated with sched := { gated.sched with holdReq := some .step, holdAt := 0 } }
    got (exec (.holdStart 3) s) fun t => t.sched.hold = some { why := .step } && t.sched.holdReq = none),
   (let s := { gated with sched := { gated.sched with hold := some { why := .step, endDue := true } } }
    s.holdOver && (s.pass 3).realignNeed true = none && got (exec (.holdEnd 3) s) fun t => t.sched.hold = none),
   ends (exec (.failQuietStart 3) up) (up.pass 3), ends (exec (.failQuietStart 3) (running [])) ((running []).pass 3),
   ends (exec (.failQuietEnd 3) up) (up.pass 3).shutGates, ends (exec (.holdStart 3) gated) (gated.pass 3).shutGates,
   ends (exec (.holdEnd 3) gated) (gated.pass 3).shutGates,
   (let s := { gated with sched := { gated.sched with failQuiet := true, fqRows := 0 } }
    0 < (s.pass 3).releaseRows && ends (exec (.failQuietEnd 3) s) (s.pass 3).shutGates),
   (let s := { gated with sched := { gated.sched with holdReq := some .step, holdAt := msNt } }
    ends (exec (.holdStart 3) s) (s.pass 3).shutGates),
   (let s := { gated with sched := { gated.sched with hold := some { why := .step } } }
    ends (exec (.holdEnd 3) s) (s.pass 3).shutGates),
   (let s := { running [chgB 0 0 1] with fab := routed.fab, sched := { (running []).sched with failQuiet := true, fqRows := 255 } }
    (s.pass 3).realignNeed true = some 1 && got (exec (.failQuietEnd 3) s) fun t => t.sched.realign && bit (t.rg .schedStatus) 20 &&
      t.fab.waiting.any fun c => c.map = 1 && c.src = .realign && c.stage = .prep),
   (let s := { running [chgB 0 0 1] with fab := routed.fab, sched := { (running []).sched with hold := some { why := .step, endDue := true } } }
    (s.pass 3).realignNeed true = some 1 && got (exec (.holdEnd 3) s) fun t => t.sched.hold = none && t.sched.realign &&
      t.fab.waiting.any fun c => c.map = 1 && c.src = .realign && c.stage = .prep),
   (let s := { running [] with fab := routed.fab, sched := { (running []).sched with holdReq := some .coupling } }.setRg .schedCfg 0 0 (BitVec.ofNat 32 (2 ^ 31 + 2 ^ 16))
    fld ((s.pass 3).rg .schedCfg) 25 16 = 1 && bit ((s.pass 3).rg .schedCfg) 31 && (s.pass 3).mapRouted 1 && got (exec (.holdStart 3) s) fun t =>
      t.fab.waiting.any fun c => c.map = 1 && c.src = .inaug && c.stage = .prep)]

theorem holds_WiringOfTheFabric : w_WiringOfTheFabric.all id = true := by decide +kernel

theorem holds_MapLoading : w_MapLoading.all id = true := by decide +kernel

theorem holds_RoutingAMap_1 : (w_RoutingAMap.take 8).all id = true := by decide +kernel

theorem holds_RoutingAMap_2 : ((w_RoutingAMap.drop 8).take 1).all id = true := by decide +kernel

theorem holds_RoutingAMap_3 : (w_RoutingAMap.drop 9).all id = true := by decide +kernel

theorem holds_NopMapReadAndFree : w_NopMapReadAndFree.all id = true := by decide +kernel

theorem holds_ApplyingAMap_1 : (w_ApplyingAMap.take 6).all id = true := by decide +kernel

theorem holds_ApplyingAMap_2 : (w_ApplyingAMap.drop 6).all id = true := by decide +kernel

theorem holds_FailedCellList : w_FailedCellList.all id = true := by decide +kernel

theorem holds_LoadingABank : w_LoadingABank.all id = true := by decide +kernel

theorem holds_StartingABank : w_StartingABank.all id = true := by decide +kernel

theorem holds_BoundariesOfABank : w_SwappingAndStopping.head? = some true := by decide +kernel

theorem holds_SwappingAndStopping : w_SwappingAndStopping.all id = true := by decide +kernel

theorem holds_RowsAndGates : w_RowsAndGates.all id = true := by decide +kernel

theorem holds_FailQuietAndHold_1 : (w_FailQuietAndHold.take 12).all id = true := by decide +kernel

theorem holds_FailQuietAndHold_2 : ((w_FailQuietAndHold.drop 12).take 2).all id = true := by decide +kernel

theorem holds_FailQuietAndHold_3 : (w_FailQuietAndHold.drop 14).all id = true := by decide +kernel


/-! ### Chambers, changes and stitches -/

/-- Chamber 0 in a power state. -/
def chS (c : Chamber) : State := { up with fab := { chambers := [(0, c)] } }

/-- Map 1 crosses cell 0 alone of chamber 0 that it cares for; it is ROUTED. -/
def crossMap : Memory := (onePort 0 0).map (fun p => (mapBase 1 + 256 + p.1, p.2))

/-- Map 1 of one connection, entry 0, through cell 0 in CROSS. -/
def crossed (f : Fabric → Fabric) : State :=
  { up with fab := f { dirs := [(1, { state := .routed })] }, sram := wr crossMap (mapBase 1) 1#8 }

def w_ChambersCastOnAndBindOff : List Bool :=
  [up.pstate 31 = .off && up.mayCast 31 && (up.castOn 31).pstate 31 = .castingOn && ((up.castOn 31).chamber 31).timer = some (usC 150),
   (let s := { running [chgB 1 0 1] with fab := routed.fab }
    (s.pass 10).castNext = some (0, 0, msNt) && !s.quiet && !(s.pass 10).dueNt (msNt - 200000 * 65536) &&
      ends (exec (.castOnOrder 10) s) (s.pass 10)),
   (let s := { running [chgB 1 0 1] with fab := routed.fab }
    (s.pass 819200).dueNt (msNt - 200000 * 65536) && got (exec (.castOnOrder 819200) s) fun t => t.fab.casts = [(0, 0, msNt)]),
   up.castNext = none && ends (exec (.castOnOrder 10) up) (up.pass 10) && (up.castOn 31).loop = up.loop && ((chS { pstate := .on }).castOn 0) = chS { pstate := .on },
   (let s := { crossed id with fab := { (crossed id).fab with inForce := some 1, chambers := [(2, { pstate := .castingOn, timer := some 5 })] } }
    ((s.pass 5).caredCells 1).contains (129, false) && !s.darkOnly 129 && (s.cell 129).mode = .park && got (exec (.castOnComplete 5 2) s) fun t =>
      (t.cell 129).mode = .holdPosition && (t.cell 129).pos = .bar),
   got (exec (.castOnComplete 5 0) (chS { pstate := .castingOn, timer := some 5 })) fun t => t.pstate 0 = .on && (t.chamber 0).timer = none,
   (let s := { chS { pstate := .on, idle := some 5 } with loop := { cells := [(63, { pos := .cross, state := true, mode := .holdPosition }), (64, { pos := .bar, mode := .holdPosition })] } }
    (s.pass 5).mayBindOff 0 && !s.involved 0 && got (exec (.bindOff 5 0) s) fun t => t.pstate 0 = .bindingOff &&
      (t.chamber 0).timer = some (5 + usC 50) && (t.cell 63).pos = .rest && (t.cell 63).mode = .park && (t.cell 64).pos = .bar && t.drip 126 = 1),
   (let s := chS { pstate := .bindingOff, timer := some 5 }
    !s.needed 0 && got (exec (.bindOffComplete 5 0) s) fun t => t.pstate 0 = .off),
   (let s := (chS { pstate := .bindingOff, timer := some 5 }).setRg .fabChCtrl 0 0 2#32
    s.needed 0 && s.mayCast 0 && got (exec (.bindOffComplete 5 0) s) fun t => t.pstate 0 = .castingOn),
   ends (exec (.castOnComplete 5 31) up) (up.pass 5) && ends (exec (.bindOff 5 31) up) (up.pass 5) && ends (exec (.bindOffComplete 5 31) up) (up.pass 5),
   (let s := chS { pstate := .castingOn, timer := some 6 }
    ends (exec (.castOnComplete 5 0) s) (s.pass 5)),
   got (exec (.fabChCtrlWrite 31 2#32) inst) fun t => t.rg .fabChCtrl 31 = inst.written .fabChCtrl 31 0 2#32 && t.pstate 31 = .castingOn]

/-- Map 1 is ROUTED and connects nothing. -/
def bare : State := { up with fab := routed.fab }

/-- Map 1 is ROUTED and the changes wait. -/
def waitS (cs : List Change) : State := { bare with fab := { bare.fab with waiting := cs } }

def realignC : Change := { map := 1, prev := none, src := .realign }

def applyC : Change := { map := 1, prev := none, src := .apply 0 0 }

def w_CircuitChanges : List Bool :=
  [(let s := { running [chgB 0 31250 1] with fab := routed.fab }
    (s.pass 1023488).dueEntry.isSome && !s.quiet && (s.pass 1023488).dueNt (1000000 * 65536 - 500 * 65536) &&
      got (exec (.sequencerArmed 1023488) s) fun t => t.fab.armedEntry = some 0 && t.loop = s.loop && t.fab.waiting = []),
   (let s := { running [chgB 0 31250 1] with fab := routed.fab }
    !(s.pass 9).dueNt (1000000 * 65536 - 500 * 65536) && got (exec (.sequencerArmed 9) s) fun t => t.fab.armedEntry = none),
   (up.pass 9).dueEntry.isNone && got (exec (.sequencerArmed 9) up) fun t => t.fab.armedEntry = none && t.fab.waiting = [],
   (let s := waitS [applyC, { applyC with at_ := some 100000 }]
    (s.pass 9).changeReady applyC && !(s.pass 9).isDue 99500 && got (exec (.sequencerArmed 9) s) fun t =>
      t.fab.waiting = [{ applyC with stage := .armed }, { applyC with at_ := some 100000 }]),
   (let s := waitS [{ applyC with at_ := some 600 }]
    (s.pass 128).isDue 100 && got (exec (.sequencerArmed 128) s) fun t => t.fab.waiting = [{ applyC with at_ := some 600, stage := .armed }]),
   (let s := { running [chgB 0 5 1] with fab := routed.fab, sched := { (running []).sched with failQuiet := true } }
    s.quiet && (s.pass 200).dueNt (160 * 65536) && got (exec (.circuitChangeStart 200) s) fun t => t.fab.change = none && t.loop = s.loop &&
      (t.sched.run.any fun x => x.change = 1) && t.sched.fqSkipped = 1),
   (let s := { running [chgB 0 5 1] with fab := routed.fab, sched := { (running []).sched with hold := some { why := .step, skipped := 4 } } }
    s.quiet && (s.pass 200).dueNt (160 * 65536) && got (exec (.circuitChangeStart 200) s) fun t => t.fab.change = none && t.sched.fqSkipped = 0 &&
      t.sched.hold = some { why := .step, skipped := 5 }),
   (let s := { running [chgB 0 5 1] with fab := routed.fab }
    !s.quiet && (s.pass 200).dueNt (160 * 65536) && got (exec (.circuitChangeStart 200) s) fun t => (t.sched.run.any fun x => x.change = 1) &&
      t.fab.change.any fun ch => ch.map = 1 && ch.src = .scheduled 0 && ch.stage = .started && ch.tc = 160 * 65536 && ch.guard = 1000 &&
        ch.cells = [] && ch.endRaw = 200 + 1024),
   (let s := waitS [applyC]
    (s.pass 64).stoppedMask 1 = 0 && (s.pass 64).refuseStopped.setShut.commandStart ({ applyC with gatesShut := 0#8 }) = some false &&
      got (exec (.circuitChangeStart 64) s) fun t => t.fab.waiting = [] &&
        t.fab.change.any fun c => c.stage = .started && c.tc = (s.pass 64).nt && !c.late && c.endRaw = 64 + 1024),
   (let s := waitS [applyC]
    (s.pass 65).refuseStopped.setShut.commandStart applyC = none && ends (exec (.circuitChangeStart 65) s) (s.pass 65).refuseStopped.setShut),
   (let s := { bare with fab := { routed.fab with change := some { applyC with stage := .started, endRaw := 500 }, waiting := [realignC] } }
    ends (exec (.circuitChangeStart 64) s) (s.pass 64).refuseStopped.setShut),
   (let s := waitS [{ realignC with at_ := some 1000000 }, { applyC with at_ := some 10 }, realignC]
    (s.pass 64).isDue 10 && !(s.pass 64).dueNow 10 && got (exec (.circuitChangeStart 64) s) fun t => t.fab.waiting.length = 2 &&
      t.fab.change.any fun c => c.src = .apply 0 0 && c.late && c.tc = (s.pass 64).nt),
   (let s := waitS [{ applyC with at_ := some 62 }]
    (s.pass 64).dueNow 62 && got (exec (.circuitChangeStart 64) s) fun t => t.fab.change.any fun c => !c.late && c.tc = 62 * 65536),
   (let ch : Change := { map := 1, prev := none, src := .realign, stage := .started, endRaw := 5 }
    let s := { bare with fab := { routed.fab with change := some ch } }
    (got (exec (.guardIntervalEnd 5) s) fun t => t.fab.inForce = some 1 && t.fab.change = none && t.fab.verify = some { ch with stage := .verifying }) &&
      ends (exec (.guardIntervalEnd 4) s) (s.pass 4) && ends (exec (.guardIntervalEnd 5) up) (up.pass 5)),
   (let ch : Change := { map := 1, prev := none, src := .startMap, stage := .started, endRaw := 5 }
    let q : StartReq := { bank := 1, time := 0, needMap := true, boundary := none, ring := 0, idx := 0 }
    let s := { validB 1 with sram := routed.sram ++ (validB 1).sram, fab := { routed.fab with change := some ch }, sched := { pendingB with start := some q } }
    got (exec (.guardIntervalEnd 5) s) fun t => t.fab.inForce = some 1 && t.sched.start = some { q with needMap := false, boundary := some (2 * msNt) }),
   (let ch : Change := { map := 1, prev := none, src := .realign, stage := .started, endRaw := 5 }
    let s := { bare with fab := { routed.fab with change := some ch }, flt := { parkedAll := true } }
    got (exec (.guardIntervalEnd 5) s) fun t => t.fab.inForce = none && t.fab.change = none),
   (let ch : Change := { map := 1, prev := none, src := .apply 0 0, stage := .verifying, cells := [3, 4], dropped := [4] }
    let s := { (withCmd bare 0x03) with fab := { routed.fab with verify := some ch } }
    (s.verifyCounts ch).2.2 = 0 && ends (exec (.changeComplete 5) s) ((((s.pass 5).onFab fun q => { q with verify := none }).finishCmd 0 0 0 true
      (applyRes (ch.count ch.cells) (ch.count ch.dropped) 0 ((s.pass 5).verifyCounts ch).2.1 0 0 (timeField ch.tc)) 0).followPolicies)),
   (let ch : Change := { map := 1, prev := none, src := .realign, stage := .verifying, cells := [3, 4], dropped := [4], tc := 9 }
    let s := { up with fab := { routed.fab with verify := some ch } }
    ends (exec (.changeComplete 5) up) (up.pass 5) && got (exec (.changeComplete 5) s) fun t => t.fab.verify = none)]

def w_StitchesStagingAndReverts : List Bool :=
  [(let t := up.startStitch 9 true false
    (t.cell 9).mode = .trajectory && (t.cell 9).state && (t.cell 9).pos = .moving && (t.cell 9).o.trim = 0 && t.drip 18 = 1 && t.drip 20 = 0 && t.cell 10 = {}),
   (let s := crossed fun f => { f with chambers := [(0, { pstate := .on })], applies := [{ ring := 0, idx := 0, map := 1, time := 100000 }] }
    let s := s.setRg .fabChCtrl 0 0 4#32
    let u := s.pass 90000
    u.nextChange = some (1, 100000 * 65536, true) && u.stageSpan (100000 * 65536) && !s.guardRuns && u.stageable 1 0 && u.frameFree 0 &&
      ends (exec (.stagingStitch 90000 2047) s) u && ends (exec (.stagingStitch 101000 0) s) (s.pass 101000) &&
      got (exec (.stagingStitch 90000 0) s) fun t => (t.cell 0).staged && (t.cell 0).state && (t.cell 0).mode = .trajectory && (t.cell 0).stageMove && !(t.cell 0).held && (t.cell 1) = (s.cell 1)),
   (let s := { chS { pstate := .on } with loop := { cells := [(5, { revertDue := true, staged := true, state := true, mode := .holdPosition, pos := .cross })] } }
    (s.pass 7).frameFree 0 && ends (exec (.revert 7 2047) s) (s.pass 7) && got (exec (.revert 7 5) s) fun t => !(t.cell 5).staged && (t.cell 5).reverted && !(t.cell 5).revertDue &&
      (t.cell 5).mode = .trajectory && !(t.cell 5).state),
   ends (exec (.stagingStitch 9 0) up) (up.pass 9),
   (let s := { chS { pstate := .hold } with loop := { cells := [(5, { revertDue := true, staged := true })] } }
    ends (exec (.revert 7 5) s) (s.pass 7))]

def w_EngineLossAndReset : List Bool :=
  [(let s := { inst with fab := (chS { pstate := .on }).fab }
    !s.parked 0 && s.engineHold 1 = s && ends (exec (.engineLoss 5 1) s) (s.pass 5) && (got (exec (.engineLoss 5 0) s) fun t => t.pstate 0 = .hold && (t.chamber 0).resetting && (t.chamber 0).timer = some (5 + msC 2)) &&
      got (exec (.chamberReset 1#32) s) fun t => t.pstate 0 = .hold && (t.chamber 0).resetting && (t.chamber 0).timer = some (msC 2) && t.chamber 1 = s.chamber 1),
   (let s := { chS { pstate := .hold, timer := some 5, resetting := true } with loop := { cells := [(5, { state := true, mode := .holdPosition, pos := .cross })] } }
    ends (exec (.analogHoldExpiry 4 0) s) (s.pass 4) && ends (exec (.analogHoldExpiry 4 0) up) (up.pass 4) &&
      got (exec (.analogHoldExpiry 5 0) s) fun t => (t.cell 5).pos = .rest && (t.cell 5).mode = .park && t.sticky 0 && t.pstate 0 = .reset),
   (let s := { chS { pstate := .hold, timer := some 9, resetting := true } with loop := { cells := [(5, { state := true, mode := .holdOptical, pos := .cross })] } }
    ends (exec (.chamberResetComplete 4 3) s) (s.pass 4) && got (exec (.chamberResetComplete 5 0) s) fun t => t.pstate 0 = .on && !(t.chamber 0).resetting && (t.cell 5).mode = .holdPosition && (t.cell 5).m.resume.isSome),
   (let s := chS { pstate := .reset, resetting := true }
    !s.needed 0 && got (exec (.chamberResetComplete 5 0) s) fun t => t.pstate 0 = .off && !(t.chamber 0).resetting),
   (let s := (chS { pstate := .reset, resetting := true }).setRg .fabChCtrl 0 0 2#32
    s.needed 0 && s.mayCast 0 && got (exec (.chamberResetComplete 5 0) s) fun t => t.pstate 0 = .castingOn),
   (let s := chS { pstate := .off, resetting := true }
    got (exec (.chamberResetComplete 5 0) s) fun t => t.pstate 0 = .off && !(t.chamber 0).resetting)]

theorem holds_ChambersCastOnAndBindOff_1 : (w_ChambersCastOnAndBindOff.take 1).all id = true := by decide +kernel

theorem holds_ChambersCastOnAndBindOff_2 : ((w_ChambersCastOnAndBindOff.drop 1).take 1).all id = true := by decide +kernel

theorem holds_ChambersCastOnAndBindOff_3 : ((w_ChambersCastOnAndBindOff.drop 2).take 1).all id = true := by decide +kernel

theorem holds_ChambersCastOnAndBindOff_4 : (w_ChambersCastOnAndBindOff.drop 3).all id = true := by decide +kernel

theorem holds_CircuitChanges_1 : (w_CircuitChanges.take 8).all id = true := by decide +kernel

theorem holds_CircuitChanges_2 : ((w_CircuitChanges.drop 8).take 3).all id = true := by decide +kernel

theorem holds_CircuitChanges_3 : ((w_CircuitChanges.drop 11).take 1).all id = true := by decide +kernel

theorem holds_CircuitChanges_4 : ((w_CircuitChanges.drop 12).take 2).all id = true := by decide +kernel

theorem holds_CircuitChanges_5 : ((w_CircuitChanges.drop 14).take 1).all id = true := by decide +kernel

theorem holds_CircuitChanges_6 : (w_CircuitChanges.drop 15).all id = true := by decide +kernel

theorem holds_StitchesStagingAndReverts : w_StitchesStagingAndReverts.all id = true := by decide +kernel

theorem holds_EngineLossAndReset : w_EngineLossAndReset.all id = true := by decide +kernel


/-! ### Element loops, supervision, wear and traces -/

/-- Word `k` of parameters or coefficients of profile `p`. -/
def prof (p : Nat) (kind flags : Nat) (ws : List (Nat × List Byte)) : Memory :=
  ws.foldl (fun m w => wrBytes m (64 * p + w.1) w.2) (wrBytes [] (64 * p) [BitVec.ofNat 8 kind, BitVec.ofNat 8 flags])

/-- Chamber 31 ON with cell 2047 as given, and profiles. -/
def cellS (x : Cell) (ps : Memory := []) : State :=
  { up with fab := { chambers := [(31, { pstate := .on })] }, loop := { cells := [(2047, x)], profiles := ps } }

def profM : Memory := prof 0 1 0 [(44, leBytes 4 5), (48, leBytes 4 0x40000000), (52, leBytes 4 655360)]

def w_SamplesOfTheMainLoop : List Bool :=
  [(let s := { up with fab := { chambers := [(31, { pstate := .castingOn })] } }
    !(s.pass 111).frameDue 2047 && ends (exec (.mSample 111 2047 7#32) s) (s.pass 111)),
   (let s := cellS { mode := .holdPosition, m := { r := 100 } } profM
    !(s.pass 110).frameDue 2047 && ends (exec (.mSample 110 2047 7#32) s) (s.pass 110)),
   (let s := cellS { mode := .holdPosition, m := { r := 100, frame := some 63 } } profM
    (s.pass 111).aperture 2047 = 63 && ends (exec (.mSample 111 2047 7#32) s) (s.pass 111)),
   (let s := cellS { mode := .holdPosition, m := { r := 100 } } profM
    (s.pass 111).frameDue 2047 && got (exec (.mSample 111 2047 7#32) s) fun t => (t.cell 2047).m.y = 7 && (s.param 0 0 ≤ s.param 0 1 : Bool) &&
      (t.cell 2047).m.frame = some 63 && (t.cell 2047).mode = .holdPosition && t.fab = s.fab && t.cell 2046 = s.cell 2046),
   (let s := cellS { mode := .park } profM
    got (exec (.mSample 111 2047 (w32 (2 ^ 32 - 7))) s) fun t => (t.cell 2047).m.y = -7 && (t.cell 2047).m.r = -7 && (t.cell 2047).m.sp = -7 &&
      (t.cell 2047).mode = .park),
   (let s := cellS { mode := .cal, cal := some { op := 2, issuer := none, back := .park, target := 50 } } profM
    got (exec (.mSample 111 2047 7#32) s) fun t => (t.cell 2047).m.y = 7 && (t.cell 2047).mode = .cal &&
      (t.cell 2047).m.sp = (t.cell 2047).m.r && (t.cell 2047).m.e0 = (t.cell 2047).m.sp - 7),
   (let s := cellS { mode := .trajectory, stitching := true, stitchRaw := 0, m := { settle := 2 } } profM
    63 < 0 + nsC 400 && got (exec (.mSample 111 2047 7#32) s) fun t => (t.cell 2047).mode = .trajectory && (t.cell 2047).m.settle = 2)]

def w_DroppedStitches : List Bool :=
  [(let s := cellS { stitching := true, mode := .trajectory, stitchRaw := 0, state := true }
    nsC s.settleNs ≤ (s.pass 820).now && ends (exec (.droppedStitch 9 2047) s) (s.pass 9) && ends (exec (.settleTimeout 820 2047) s) (s.pass 820) &&
      got (exec (.droppedStitch 820 2047) s) fun t => !(t.cell 2047).stitching &&
      (t.cell 2047).recovering && (t.cell 2047).dropped && (t.cell 2047).hist = [(true, true)] &&
      fires t 48),
   (let ch : Change := { map := 1, prev := none, src := .realign, stage := .started, cells := [2047] }
    let s := cellS { stitching := true, mode := .trajectory, stitchRaw := 0, state := true }
    let s := { s with fab := { s.fab with change := some ch } }
    got (exec (.droppedStitch 820 2047) s) fun t => t.fab.change.any fun d => d.dropped = [2047]),
   (let s := cellS { mode := .holdPosition, o := { defer := true, deferCnt := 8 }, hist := [(false, true), (true, false)] }
    got (exec (.droppedStitch 820 2047) s) fun t => (t.cell 2047).dropped && (t.cell 2047).hist = [(true, false), (true, false)] &&
      !(t.cell 2047).o.defer && (t.cell 2047).o.retry = some 1024 && fires t 48),
   (let s := cellS { recovering := true, mode := .trajectory, stitchRaw := 0, state := true }
    got (exec (.settleTimeout 8192 2047) s) fun t => (t.cell 2047).mode = .holdPosition && (t.cell 2047).timedOut &&
      !(t.cell 2047).recovering && t.cell 2046 = s.cell 2046),
   (let s := { up with loop := { cells := [(2047, { recovering := true, stitching := true, mode := .trajectory })] } }
    s.pstate 31 ≠ .on && ends (exec (.settleTimeout 8192 2047) s) (s.pass 8192) && ends (exec (.droppedStitch 8192 2047) s) (s.pass 8192))]

/-- Two connections through cell 0 from G00: its samples are hold samples (R106). -/
def twoWay (x : Cell) (ps : Memory := []) : State :=
  let m := wrBytes [] 0 (leBytes 3 ((256 + 0) + (256 + 1) * 2 ^ 9))
  { up with fab := { chambers := [(0, { pstate := .on })], dirs := [(1, { state := .routed })], inForce := some 1 },
            sram := m.map (fun p => (mapBase 1 + 256 + p.1, p.2)),
            loop := { cells := [(0, x)], profiles := ps } }

def profO (en : Nat) : Memory := prof 1 2 en [(44, leBytes 4 1000), (48, leBytes 4 10), (60, leBytes 4 1)]

/-- The taps of cell 0 are read at 112 cycles: a hold sample with light. -/
def lamOf (s : State) (dt : Nat := 112) : Option Int := ((s.pass dt).readTaps 0 9#32 0#32).1
def readS (s : State) (dt : Nat := 112) : State := ((s.pass dt).readTaps 0 9#32 0#32).2

def w_HandOverAndOptics : List Bool :=
  [(let s := twoWay { mode := .holdPosition, o := { check := true }, b := { bCnt := 7, oCnt := 7 } } (profO 1)
    let u := readS s 1136
    let lam := lamOf s 1136
    (s.pass 1136).periodDue 0 && lam = none && u.mayCheck 0 && u.isLit 0 && u.checkPasses 0 lam && got (exec (.oSample 1136 0 9#32 0#32) s) fun t =>
      (t.cell 0).mode = .holdOptical && !(t.cell 0).o.check && (t.cell 0).b.oCnt = 0),
   (let s := twoWay { mode := .holdPosition, o := { check := true } } (profO 1)
    !(s.pass 111).periodDue 0 && ends (exec (.oSample 111 0 9#32 0#32) s) (s.pass 111) && ends (exec (.handoverRetry 111 0 9#32 0#32) s) (s.pass 111)),
   (let s := twoWay { mode := .holdPosition, o := { check := true } } (profO 1)
    !((s.pass 1136).readTaps 0 0#32 0#32).2.isLit 0 && got (exec (.oSample 1136 0 0#32 0#32) s) fun t =>
      (t.cell 0).mode = .holdPosition && !(t.cell 0).o.check),
   (let s := twoWay { mode := .holdPosition, o := { defer := true, deferCnt := 3 } } (profO 1)
    (got (exec (.oSample 112 0 0#32 0#32) s) fun t => (t.cell 0).mode = .holdPosition && !(t.cell 0).o.defer) &&
      got (exec (.oSample 112 0 9#32 0#32) s) fun t => (t.cell 0).mode = .holdOptical && !(t.cell 0).o.defer),
   (let s := twoWay { mode := .holdOptical, o := { trim := 77 }, b := { oCnt := 5 } } (profO 1)
    lamOf s = none && got (exec (.oSample 112 0 9#32 0#32) s) fun t => (t.cell 0).mode = .holdOptical && (t.cell 0).b.oCnt = 6 &&
      (t.cell 0).o.trim = 77 && (t.cell 0).o.tap0 = 9#32 && t.cell 1 = s.cell 1),
   (let s := twoWay { mode := .park } (profO 1)
    ends (exec (.oSample 112 0 9#32 0#32) s) (readS s)),
   (let s := twoWay { mode := .holdPosition, o := { retry := some 1 } } (profO 1)
    let u := readS s
    let lam := lamOf s
    u.mayCheck 0 && u.isLit 0 && u.checkPasses 0 lam &&
      got (exec (.handoverRetry 112 0 9#32 0#32) s) fun t => (t.cell 0).mode = .holdOptical && (t.cell 0).o.retry = none),
   (let s := twoWay { mode := .holdPosition, o := { retry := some 2 } } (profO 1)
    ends (exec (.handoverRetry 112 0 9#32 0#32) s) (readS s)),
   (let s := twoWay { mode := .holdOptical, o := { dark := 1, trim := 77 }, b := { bal := 9 } } (profO 1)
    s.lossCount 0 ≤ (s.cell 0).o.dark && got (exec (.lightLoss 5 0) s) fun t => (t.cell 0).mode = .holdPosition &&
      (t.cell 0).o.trim = 77 && (t.cell 0).b.bal = 9),
   (let s := twoWay { mode := .holdOptical, o := { dark := 0 } } (profO 1)
    ends (exec (.lightLoss 5 0) s) (s.pass 5) && ends (exec (.lightLoss 5 2047) s) (s.pass 5) && ends (exec (.bSample 5 0) s) (s.pass 5)),
   (let s := twoWay { mode := .holdOptical, b := { oCnt := 16, bCnt := 0, bint := 50 } } (prof 2 3 1 [(48, leBytes 4 100), (52, leBytes 4 3)])
    (s.pass 5).bDue 0 && got (exec (.bSample 5 0) s) fun t => (t.cell 0).b.sign = -1 && (t.cell 0).b.bCnt = 1 && (t.cell 0).b.bal = 47 && (t.cell 0).b.bAt = 16),
   (let s := twoWay { mode := .holdOptical, b := { oCnt := 16, bCnt := 4, bal := 50 } } (prof 2 3 0 [])
    (s.pass 5).bDue 0 && got (exec (.bSample 5 0) s) fun t => (t.cell 0).b.bal = 50 && (t.cell 0).b.bCnt = 4 && (t.cell 0).b.bAt = 16),
   (let s := twoWay { mode := .holdOptical, b := { bCnt := 256 } } (prof 2 3 1 [])
    s.balEn 0 && got (exec (.balanceSettled 0) s) fun t => (t.cell 0).b.settled),
   (let s := twoWay { mode := .holdOptical, b := { bCnt := 255 } } (prof 2 3 1 [])
    ends (exec (.balanceSettled 0) s) s && ends (exec (.balanceSettled 2047) up) up)]

/-- The 64 bytes of an M profile: OUT_MIN, OUT_MAX, RAMP_RATE. -/
def profBytesM (lo hi ramp : Nat) : List Byte := rdBytes (prof 0 1 0 [(44, leBytes 4 lo), (48, leBytes 4 hi), (52, leBytes 4 ramp)]) 0 64

def w_ProfilesAndSelections : List Bool :=
  [(let s := withCmd up 0x10 [(24, [200#8, 0#8])] (wrBytes [] 0 (profBytesM 9 5 1))
    let b := cleanProfile (rdBytes (wrBytes [] 0 (profBytesM 9 5 1)) 0 64)
    s.profVerdict 200 b = 0x20 && ends (exec (.profileWrite 0) s) (s.finishCmd 0 0 0x20 false) && ends (exec (.profileWriteField 0) s) s),
   (let s := withCmd up 0x10 [(24, [255#8, 0#8])] (wrBytes [] 0 (profBytesM 5 0x40000000 1))
    let b := cleanProfile (rdBytes (wrBytes [] 0 (profBytesM 5 0x40000000 1)) 0 64)
    s.profVerdict 255 b = 0 && b.length = 64 && (wordsDiffer (s.profileBytes 255) b).length = 4 && got (exec (.profileWrite 0) s) fun t =>
      t.loop.profiles = s.loop.profiles && decide (t.loop.jobs = [{ ring := 0, idx := 0, prof := 255, words := wordsDiffer (s.profileBytes 255) b, next := 64, total := 4 }])),
   (let s := withCmd { up with loop := { profiles := profM } } 0x10 [(24, [0#8, 0#8])] profM
    got (exec (.profileWrite 0) s) fun t => t.loop.jobs = [] && t.loop = s.loop),
   (let s := withCmd { up with loop := { profiles := profM } } 0x10 [(24, [0#8, 1#8, 48#8, 4#8]), (28, leBytes 4 77)]
    ends (exec (.profileWrite 0) s) s && got (exec (.profileWriteField 0) s) fun t => t.loop.jobs.any fun j => j.next = 64 && j.words = [(48, leBytes 4 77)]),
   (let j : ProfJob := { ring := 0, idx := 0, prof := 0, words := [(48, leBytes 4 77), (52, leBytes 4 78)], next := 64, total := 2 }
    let s := { up with loop := { profiles := profM } }
    let u := (s.pass 64).profJob j
    u.param 0 1 = 77 && u.param 0 0 = 5 && u.param 0 2 = 655360 && u.loop.jobs = [{ j with words := [(52, leBytes 4 78)], next := 128 }] &&
      (s.profJob j).loop.jobs = [j] && (s.profJob j).param 0 1 = 0x40000000),
   (let s := withCmd { up with loop := { profiles := profM } } 0x11 [(8, leBytes 8 0x100), (24, [0#8])]
    got (exec (.profileRead 0) s) fun t => t.out.head? = some (.hostWrite 0x100 (profBytesM 5 0x40000000 655360))),
   ends (exec (.profileRead 0) up) up && ends (exec (.profileWrite 0) up) up && ends (exec (.profileWriteField 0) up) up,
   (let s := { inst with loop := { profiles := prof 255 1 0 [] } }
    let v := w32 (255 + 63 * 2 ^ 8 + 1 * 2 ^ 14)
    s.grantOk && s.profKind 255 = 1 && got (exec (.loopProfileIdx 31 v) s) fun t => (t.cell 2047).mnew = some 255#8 && t.cell 2046 = s.cell 2046),
   (let s := { inst with loop := { profiles := prof 255 3 0 [] } }
    let v := w32 (255 + 3 * 2 ^ 14 + 2 ^ 31)
    s.profKind 255 = 3 && got (exec (.loopProfileIdx 31 v) s) fun t => (t.cell 2047).bnew = some 255#8 && (t.cell 1984).bnew = some 255#8 && t.cell 1983 = s.cell 1983),
   (let s := { inst with loop := { profiles := prof 255 2 0 [] } }
    let v := w32 (255 + 63 * 2 ^ 8 + 1 * 2 ^ 14)
    s.profKind 255 ≠ 1 && ends (exec (.loopProfileIdx 31 v) s) (s.setBit .loopEvt 31 0)),
   (let s := { inst with loop := { profiles := prof 255 2 0 [] } }
    let v := w32 (255 + 63 * 2 ^ 8 + 2 * 2 ^ 14)
    got (exec (.loopProfileIdx 31 v) s) fun t => (t.cell 2047).onew = some 255#8),
   (let s : State := { up with pwr := { up.pwr with phase := .unpowered, endpointReady := false } }
    !s.hostUp && ends (exec (.loopProfileIdx 0 0#32) s) s && ends (exec (.fabCellSel 7#32) s) s && ends (exec (.loopSel 3 0 7#32) s) (s.pass 3)),
   got (exec (.loopSel 64 31 63#32) up) fun t => t.loop.cells = up.loop.cells && t.rg .loopSel 31 = 63#32 && (t.chan 31).snapDue = some (2047, 111),
   (let s := (up.pass 111).modChan 31 fun k => { k with snapDue := some (2047, 111) }
    ((s.takeSnap 31).chan 31).snap = s.loopSnap 2047 && ((s.takeSnap 31).chan 31).snapDue = none),
   got (exec (.fabCellSel 2047#32) up) fun t => t.rg .fabCellSel = 2047#32]

/-- All words of a profile written in turn. -/
theorem holds_ProfilesAndSelections_words : rdBytes (applyWords 0 2000 (wordsDiffer (rdBytes [] 0 64) (profBytesM 5 6 7)) 0 []).1 0 64 = profBytesM 5 6 7 := by
  decide +kernel

def meas0 : CalMeasure := { driveBar := 0, driveCross := 0, stiffness := 16384, linOffset := 4 }

def w_CalibrationCommands : List Bool :=
  [(let s := withCmd up 0x12 [(24, leBytes 2 2047)]
    s.eligible 2047 = false && ends (exec (.loopSetpoint 0) s) (s.finishCmd 0 0 0x23 false)),
   (let s := withCmd (cellS { mode := .holdPosition } profM) 0x12 [(24, leBytes 2 2047), (28, leBytes 4 0xFFFFFFFF), (32, leBytes 4 655361)]
    s.eligible 2047 && got (exec (.loopSetpoint 0) s) fun t => (t.cell 2047).mode = .cal && (t.cell 2047).cal.any fun j =>
      j.op = 2 && j.back = .holdPosition && j.issuer = some (0, 0) && j.target = -1 && j.rate = 655361 && j.clipped && j.hold = 0),
   (let s := withCmd up 0x13 [(24, leBytes 2 2047), (26, [0#8])]
    s.eligible 2047 = false && ends (exec (.calProbe 0) s) (s.finishCmd 0 0 0x23 false)),
   (let s := withCmd (cellS {}) 0x13 [(24, leBytes 2 2047), (26, [0#8])]
    s.eligible 2047 && got (exec (.calProbe 0) s) fun t => (t.cell 2047).mode = .cal),
   (let s := withCmd up 0x13 [(24, leBytes 2 2047), (26, [1#8])]
    s.eligible 2047 = false && ends (exec (.calSweep 0) s) (s.finishCmd 0 0 0x23 false)),
   (let s := withCmd (cellS {}) 0x13 [(24, leBytes 2 2047), (26, [1#8])]
    s.eligible 2047 && got (exec (.calSweep 0) s) fun t => (t.cell 2047).mode = .cal && t.drip 4094 = 2 && t.drip 4095 = 0),
   (let s := withCmd { up with loop := { calOff := [(2046, { stiff := 5 }), (2047, { stiff := 5 })] } } 0x13 [(24, leBytes 2 2047), (26, [2#8])]
    got (exec (.calReset 0) s) fun t => t.calOf 2047 = {} && t.calOf 2046 = s.calOf 2046),
   (let s := withCmd { up with loop := { calOff := [(2046, { stiff := 5 }), (2047, { stiff := 5 })] } } 0x13 [(24, leBytes 2 0xFFFF), (26, [2#8])]
    got (exec (.calReset 0) s) fun t => t.loop.calOff = []),
   ends (exec (.loopSetpoint 0) up) up && ends (exec (.calProbe 0) up) up && ends (exec (.calSweep 0) up) up && ends (exec (.calReset 0) up) up,
   (let s := withCmd up 0x13 [(24, leBytes 2 2047), (26, [2#8])]
    ends (exec (.calProbe 0) s) s && ends (exec (.calSweep 0) s) s),
   (let s := withCmd (cellS {}) 0x13 [(24, leBytes 2 2047), (26, [0#8])]
    ends (exec (.calReset 0) s) s),
   (let j : CalJob := { op := 2, issuer := some (0, 0), back := .holdPosition, rate := 8, reached := some 4, hold := 1 }
    let s := withCmd (cellS { mode := .cal, cal := some j, m := { y := -1 } } profM) 0x12
    (s.cell 2047).cal = some j && j.over 5 && !j.over 4 && !(s.pass 5).changeNeeds 2047 && ends (exec (.calComplete 4 2047 meas0) s) (s.pass 4) &&
      ends (exec (.calComplete 5 2047 meas0) s) (((s.pass 5).exitCal 2047 .holdPosition).finishCmd 0 0 0 true
        (leBytes 4 0xFFFFFFFF ++ leBytes 4 8))),
   (let j : CalJob := { op := 0, issuer := none, back := .park, reached := some 4 }
    let s := cellS { mode := .cal, cal := some j } profM
    got (exec (.calComplete 5 2047 { meas0 with stiffness := 3 }) s) fun t => (t.cell 2047).mode = .park && (t.cell 2047).cal = none &&
      (t.calOf 2047).stiff = 12288 && t.cell 2046 = s.cell 2046),
   ends (exec (.calComplete 5 2047 meas0) up) (up.pass 5),
   (let j : CalJob := { op := 0, issuer := none, back := .park, reached := some 4 }
    let s0 := crossed fun f => { f with applies := [{ ring := 0, idx := 0, map := 1, time := 100000 }] }
    let s := { s0 with loop := { cells := [(0, { mode := .cal, cal := some j })] } }
    (s.pass 5).changeNeeds 0 && ends (exec (.calComplete 5 0 meas0) s) ((s.pass 5).leaveCal 0 0x24 true)),
   (let u := (cellS { mode := .cal }).exitCal 2047 .holdPosition
    (u.cell 2047).mode = .holdPosition && (u.cell 2047).m.rampStart && (u.cell 2047).o.trim = 0),
   (let s := (cellS {}).setRg .fabDriftCfg 0 0 0x40000000#32
    (s.pass 5).eligible 2047 && got (exec (.driftProbe 5 2047) s) fun t => (t.cell 2047).mode = .cal && (t.cell 2047).probedAt = some 5 &&
      ((t.cell 2047).cal.any fun j => j.op = 0 && j.issuer = none && j.back = .park)),
   (let s := (cellS {}).setRg .fabDriftCfg 0 0 0#32
    ends (exec (.driftProbe 5 2047) s) (s.pass 5)),
   (let s := (cellS { probedAt := some 1 }).setRg .fabDriftCfg 0 0 0x40000000#32
    ends (exec (.driftProbe 5 2047) s) (s.pass 5))]

def w_PeriodAndFlowstone : List Bool :=
  [(let q : PerSrc := { refAt := some 1000, lastOk := msC 5, run := 2, bad := 1 }
    let now := 1000 + msC 5
    q.refAt = some (now - q.lastOk) && (q.edge now 3).locked && (q.edge now 3).lastOk = msC 5 && (q.edge now 3).bad = 0),
   (let q : PerSrc := { refAt := some 1000, lastOk := msC 500, run := 7 }
    (q.edge (1000 + msC 500) 8).locked),
   (let s := { up with pwr := { up.pwr with periodIn := false } }
    s.core && max (s.rf .fabPeriodCfg 0 21 16) 1 ≤ s.loop.period.pin.edges + 1 && got (exec (.periodIn 7) s) fun t =>
      t.pwr.periodIn && t.loop.period.pin.refAt = some 7),
   (let s := { up with loop := { cells := [(0, { mode := .holdOptical })], period := { filter := { crossAt := some 5 } } } }
    s.core && s.estimatorFed && got (exec (.estimatorEdge 7) s) fun t => t.loop.period.est.refAt = some 5 && t.loop.period.filter.crossAt = none &&
      t.loop.cells = s.loop.cells),
   ends (exec (.estimatorEdge 7) up) (up.pass 7),
   (let s : State := { up with pwr := { up.pwr with phase := .unpowered } }
    !s.core && ends (exec (.estimatorEdge 7) s) (s.pass 7) && ends (exec (.periodIn 7) s) (s.pass 7)),
   (let s := up.setRg .fabPeriodCfg 0 0 (BitVec.ofNat 32 (8 * 2 ^ 16))
    got (exec (.periodIn 7) s) fun t => t.loop.period.pin.edges = 1 && t.loop.period.pin.refAt = none),
   got (exec (.periodLockLoss 7) up) fun t => !t.loop.period.pin.locked && t.loop.period.active = up.loop.period.active,
   ends (exec (.fadeEnd 7) up) (up.pass 7) && ends (exec (.binVisitEnd 0) up) (up.pass 0),
   (let s := { up with loop := { period := { pin := { locked := true, acceptedAt := some 0, lastOk := 100 }, active := 0#2, locked := true, factor1 := true } } }
    let s := s.setRg .fabPeriodCfg 0 0 1#32
    s.loop.period.pin.overdue (s.pass 150).now && s.rf .fabPeriodCfg 0 31 30 = 0 && got (exec (.periodLockLoss 150) s) fun t =>
      !t.loop.period.pin.locked && t.loop.period.active = 3#2 && t.loop.period.fading && !t.loop.period.fadeUp &&
      bit (t.rg .fabPeriodStatus) 28 && fires t 56),
   (let s := { up with loop := { period := { fading := true, fadeUp := true } } }
    s.fadeCycles ≤ (s.pass s.fadeCycles).now && got (exec (.fadeEnd s.fadeCycles) s) fun t =>
      !t.loop.period.fading && t.loop.period.factor1),
   (let s := { up with loop := { period := { locked := true, factor1 := true, period := 25600 } } }
    got (exec (.binVisitEnd 100) s) fun t => t.loop.period.bin = 1),
   (let s := { inst with sram := wr (wr [] (flowBase 2047 + 511) 3#8) (flowBase 1983 + 511) 3#8 }
    s.grantOk && got (exec (.flowstoneClear 31 0x40000000#32) s) fun t => t.sram = [(flowBase 1983 + 511, 3#8)]),
   (let s := { inst with sram := wr [] (flowBase 2047 + 511) 3#8 }
    got (exec (.flowstoneClear 31 0#32) s) fun t => t.sram = s.sram && t.rg .loopFlowCfg 31 = s.written .loopFlowCfg 31 0 0#32),
   ends (exec (.oscDetect 2047) up) up,
   (let s := (cellS { mode := .holdPosition, m := { odDue := true } } (prof 9 1 0 [])).setRg .loopOdetCfg 31 0 (BitVec.ofNat 32 (2 ^ 30 + 9 * 2 ^ 8))
    s.profKind 9 = 1 && got (exec (.oscDetect 2047) s) fun t => (t.cell 2047).mNext = 9#8),
   (let s := (cellS { mode := .holdPosition, m := { odDue := true } } (prof 9 2 0 [])).setRg .loopOdetCfg 31 0 (BitVec.ofNat 32 (2 ^ 31 + 9 * 2 ^ 8))
    let s := { s with sram := wr (wr [] (flowBase 2047 + 511) 3#8) (flowBase 1983 + 511) 3#8 }
    got (exec (.oscDetect 2047) s) fun t => (t.cell 2047).mNext = 0#8 && bit (t.rg .loopOdetStatus 31) 29 && t.sram = [(flowBase 1983 + 511, 3#8)]),
   (let s := cellS { mode := .holdPosition, m := { odDue := true } }
    got (exec (.oscDetect 2047) s) fun t => !(t.cell 2047).m.odDue && (t.chan 31).lastCell = 63 &&
      bit (t.rg .loopOdetStatus 31) 31 && (t.chan 31).odetCount = 1 && fires t 54)]

def w_PolarityAndWear : List Bool :=
  [(let s := (cellS { mode := .holdPosition }).setRg .fabPolCfg 0 0 0x80000000#32
    let a := 4094 * s.polMs * 250
    let k := opportunity 4094 a
    (s.pass k).reversalAt 4094 = some a && s.mayReverse 2047 && ends (exec (.polarityReversal (k - 1) 4094) s) (s.pass (k - 1)) &&
      got (exec (.polarityReversal k 4094) s) fun t =>
      (t.cell 2047).mpol && (t.cell 2047).mpolAt = some a && !(t.cell 2047).bpol && t.fab.drips = []),
   (let s := (cellS { mode := .holdPosition }).setRg .fabPolCfg 0 0 0x80000000#32
    let a := 4095 * s.polMs * 250
    let k := opportunity 4095 a
    (s.pass k).reversalAt 4095 = some a && got (exec (.polarityReversal k 4095) s) fun t =>
      (t.cell 2047).bpol && (t.cell 2047).bpolAt = some a && !(t.cell 2047).mpol && t.drip 4095 = 1),
   (let s := (cellS { mode := .holdPosition }).setRg .fabPolCfg 0 0 0#32
    let k := opportunity 4095 (4095 * s.polMs * 250)
    got (exec (.polarityReversal k 4095) s) fun t => !(t.cell 2047).bpol && t.drip 4095 = 0),
   ends (exec (.polarityReversal 3 4095) up) (up.pass 3) && (up.pass 3).reversalAt 4095 = none,
   (let s := (cellS { mode := .holdPosition, mpolAt := some (4094 * up.polMs * 250) }).setRg .fabPolCfg 0 0 0x80000000#32
    let k := opportunity 4094 (4094 * s.polMs * 250)
    ends (exec (.polarityReversal k 4094) s) (s.pass k)),
   (let s := (cellS {}).setRg .fabPolCfg 0 0 0x80000000#32
    let k := opportunity 4094 (4094 * s.polMs * 250)
    !s.mayReverse 2047 && ends (exec (.polarityReversal k 4094) s) (s.pass k)),
   got (exec (.fabPolCfgWrite 0x80000005#32) inst) fun t => t.loop.polNew = some (10, 10240000),
   got (exec (.fabPolCfgWrite 0x8000FFFF#32) inst) fun t => t.loop.polNew = some (60000, 61440000000),
   (let s : State := { up with pwr := { up.pwr with phase := .unpowered } }
    ends (exec (.fabPolCfgWrite 5#32) s) s && ends (exec (.wearSummaryNow 5#32) s) s && ends (exec (.fabDripSel 5#32) s) s &&
      ends (exec (.wearSummary 5) s) (s.pass 5)),
   ends (exec (.wearLevel 4095) up) up,
   got (exec (.wearRate 0 4095) up) fun t => t.fab.rateSeen = up.fab.rateSeen && t.flt = up.flt,
   got (exec (.wearSummaryNow 5#32) inst) fun t => t.fab = inst.fab && t.rg .fabWearSumCfg = inst.written .fabWearSumCfg 0 0 5#32,
   (let s := { up with fab := { drips := [(4095, 2 ^ 48 - 1)] } }
    0 < min (wearLevelOf (s.drip 4095)) 3 && got (exec (.wearLevel 4095) s) fun t => t.fab.wearSeen = [(4095, 1)] &&
      fires t 52),
   (let s := { up with time := { running := true, aNt := 86400 * 1000000000 * 65536 }, fab := { drips := [(4095, 15800 * 86400 + 1)] } }
    86400 ≤ (s.pass 0).wearSecs 4095 && 15800 * (s.pass 0).wearSecs 4095 < s.drip 4095 && got (exec (.wearRate 0 4095) s) fun t =>
      t.fab.rateSeen = [(4095, 1)] && fires t 53),
   (let s := { up with fab := { sumTimer := some 7 } }
    s.core && (s.pass 7).expired s.fab.sumTimer && got (exec (.wearSummary 7) s) fun t => t.fab.sumDue = some false &&
      t.fab.sumTimer = some (7 + s.sumCycles)),
   got (exec (.wearSummaryNow 0x80000001#32) inst) fun t => t.fab.sumNow && t.fab.sumDue = some false,
   (let s := { up with fab := { drips := [(4095, 5)] } }
    got (exec (.fabDripSel 4095#32) s) fun t => t.fab.dripSnap = s.dripWord 4095)]

def trcS (tr : Trace) : State :=
  { up with fab := { chambers := [(31, { pstate := .on })] }, loop := { chans := [(31, { trace := tr })], cells := [(1984, { m := { y := 5, frame := some 0, count := 7 } })] } }

def w_TracesAndTheHistoryStore : List Bool :=
  [(let s := trcS { armed := true, wrIdx := 16380 }
    (s.pass 49).tickDue 31 && (s.pass 49).rg .tstAdcRaw = 0#32 && got (exec (.traceTick 49 31) s) fun t =>
      rdBytes t.sram (trcBase 31 + 4 * 16380) 4 = leBytes 4 ((s.pass 49).traceWord 31 0).toNat &&
      (t.chan 31).trace.wrIdx = 0 && (t.chan 31).trace.tickAt = some (1984, 7) && t.fab = s.fab),
   (let s := trcS { armed := true, wrIdx := 16380 }
    !(s.pass 48).tickDue 31 && ends (exec (.traceTick 48 31) s) (s.pass 48)),
   (let s := trcS { armed := true, wrIdx := 16380, tickAt := some (1984, 7) }
    ((s.pass 49).selector 31 0).1 = 1984 && ends (exec (.traceTick 49 31) s) (s.pass 49)),
   (let s := (trcS {}).setRg .loopTrcCtrl 31 0 0x00100000#32
    (s.pass 49).tickDue 31 && got (exec (.traceTick 49 31) s) fun t => t.sram = s.sram && t.fab.spool.any fun r => r.type = 1#8 && r.ch = 31#8),
   (let s : State := { up with pwr := { up.pwr with phase := .unpowered } }
    ends (exec (.traceArm 31 0#32) s) s && ends (exec (.swtrig 31 0#32) s) s && ends (exec (.fabHistCtrlWrite 0#32) s) s),
   got (exec (.traceArm 31 0#32) (trcS {})) fun t => t.loop = (trcS {}).loop,
   ends (exec (.traceDone 31) up) up && ends (exec .historyCopy up) up,
   (let q : SpoolRec := { type := 1#8, ch := 2#8, info := 0#16, nt := 0, seq := 0#32, payload := [] }
    let s := { up with fab := { spool := [q], dropsUnmarked := 3 } }.setRg .fabHistCtrl 0 0 0x8000000C#32
    got (exec .historyCopy s) fun t => t.fab.spool.map (·.type) = [3#8] && t.out = [.hostWrite 0 q.bytes]),
   got (exec (.traceArm 31 0x80000000#32) (trcS {})) fun t => (t.chan 31).trace.armed && !(t.chan 31).trace.triggered,
   got (exec (.swtrig 31 0x40000000#32) (trcS { armed := true, wrIdx := 8 })) fun t => (t.chan 31).trace.triggered && (t.chan 31).trace.trigIdx = 8,
   got (exec (.traceDone 31) (trcS { armed := true, triggered := true, doneDue := true })) fun t => !(t.chan 31).trace.armed &&
     bit (t.rg .loopTrcStatus 31) 29,
   (let q : SpoolRec := { type := 1#8, ch := 2#8, info := 0#16, nt := 0, seq := 0#32, payload := [] }
    let s := { up with fab := { spool := [q], histOff := 4096 - 32 } }.setRg .fabHistCtrl 0 0 0x8000000C#32
    s.bmeUp && got (exec .historyCopy s) fun t => t.fab.spool = [] && t.fab.histOff = 0 &&
      t.out = [.hostWrite (4096 - 32) q.bytes]),
   (let s := { up with fab := { histOff := 64, histLap := 3 } }
    got (exec (.fabHistCtrlWrite 0x8000002A#32) s) fun t => t.fab.histOff = 0 && t.fab.histLap = 0 && bit (t.rg .fabHistCtrl) 31),
   (let s := { up with fab := { histOff := 64, histLap := 3 } }
    got (exec (.fabHistCtrlWrite 0x8000002B#32) s) fun t => t.fab = s.fab && !bit (t.rg .fabHistCtrl) 31)]

theorem holds_SamplesOfTheMainLoop : w_SamplesOfTheMainLoop.all id = true := by decide +kernel

theorem holds_DroppedStitches : w_DroppedStitches.all id = true := by decide +kernel

theorem holds_HandOverAndOptics : w_HandOverAndOptics.all id = true := by decide +kernel

theorem holds_ProfilesAndSelections : w_ProfilesAndSelections.all id = true := by decide +kernel

theorem holds_CalibrationCommands : w_CalibrationCommands.all id = true := by decide +kernel

theorem holds_PeriodAndFlowstone : w_PeriodAndFlowstone.all id = true := by decide +kernel

theorem holds_PolarityAndWear : w_PolarityAndWear.all id = true := by decide +kernel

theorem holds_TracesAndTheHistoryStore : w_TracesAndTheHistoryStore.all id = true := by decide +kernel


/-! ### Network time, rings, the endpoint and consists -/

/-- Lane 7 SLAVE of instance 0, with block lock and a link delay; SRC as given. -/
def ptpS (src : Nat) : State :=
  let s := { up with ept := { lanes := [(7, { blockLock := true, linkUp := true })] }, time := { running := true, delays := [(7, { valid := true, mean := 5, next := 2 ^ 60 })] } }
  ((s.setRg .timeDomCfg 0 0 0x80004000#32).setRg .timeCtrl 0 0 (w32 src)).setRg .eptCfg 7 0 0xC0000000#32

def w_SamplesOfNetworkTime : List Bool :=
  let m : PtpMsg := { seqId := 9#16, twoStep := false, origin := 0, corr := 3, logInt := 0#8 }
  [(let s := ptpS 3
    (s.pass 9999).syncUsable 0 7 && got (exec (.sync 9999 0 7 m) s) fun t => (t.inst 0).valid && (t.inst 0).sampleAt = some 9999 &&
      (t.inst 0).theta = (s.pass 9999).syncTheta 7 ((s.pass 9999).nt - (s.lane 7).rxDelay) 0 3),
   (let s := ptpS 3
    got (exec (.sync 9999 0 7 { m with twoStep := true }) s) fun t => (t.inst 0).pending =
      some (9#16, (s.pass 9999).nt - (s.lane 7).rxDelay, 3, 9999)),
   (let s := (ptpS 3).modInst 0 fun k => { k with pending := some (9#16, 77, 4, 5), interval := 1000 }
    (s.pass 1029).now ≤ 5 + nsC (s.inst 0).interval && (s.lane 7).connEnd ≤ 5 && got (exec (.followUp 1029 0 7 m) s) fun t =>
      (t.inst 0).pending = none && (t.inst 0).theta = (s.pass 1029).syncTheta 7 77 0 7),
   (let s := { up with time := { running := true, state := .locking, refCnt := 3 } }
    !s.acquires && (s.takeSample (s.jumpTh * 65536)).time.refCnt = 0 && (s.takeSample (s.jumpTh * 65536)).time.accepted &&
      (s.takeSample (-(s.jumpTh * 65536 : Int))).time.accepted && (s.takeSample (s.jumpTh * 65536 + 1)).time.refCnt = 4 &&
      (s.takeSample (s.jumpTh * 65536 + 1)).time.state = .locking),
   (let s := { up with time := { running := true, refCnt := 8 } }
    got (exec .timeJump s) fun t => t.time.jumpFired && fires t 61),
   (let s := (ptpS 0).modDelay 7 fun _ => { asked := some 4 }
    (s.pass 5).ptpRx 7 && (s.pass 5).txRuns 7 && (s.pass 5).delayRuns 7 && got (exec (.linkDelayExchange 5 7 11 12) s) fun t =>
      t.delayOf 7 = { (s.pass 5).delayOf 7 with valid := true, mean := 11, rateRatio := 12, asked := none } && t.delayOf 6 = s.delayOf 6),
   ends (exec (.linkDelayExchange 5 6 11 12) up) (up.pass 5),
   ends (exec (.sync 5 1 7 m) up) (up.pass 5) && ends (exec (.followUp 5 1 7 m) up) (up.pass 5) && ends (exec (.instanceValidTimeout 5 1) up) (up.pass 5),
   (let s := ptpS 3
    ends (exec (.followUp 9999 0 7 m) s) (s.pass 9999)),
   (let s := (ptpS 3).modInst 0 fun k => { k with pending := some (8#16, 77, 4, 5), interval := 1000 }
    ends (exec (.followUp 1029 0 7 m) s) (s.pass 1029)),
   up.time.state = .freeRun || ({ up with time := { state := .freeRun } }.takeSample 5).time.inc = up.time.inc,
   ends (exec .timeJump up) up,
   (let s := (ptpS 3).modInst 1 fun k => { k with sampleAt := some 5, valid := true, interval := 1000 }
    5 + s.srcTimeout 1 ≤ (s.pass 3077).now && got (exec (.instanceValidTimeout 3077 1) s) fun t => !(t.inst 1).valid)]

/-- Lane 7 MASTER of instance 0, which is the source. -/
def masterS : State := (ptpS 0).setRg .timeDomCfg 0 0 0x80008000#32

def w_TimeMessagesAndSettings : List Bool :=
  [((masterS.pass 5).sendsAsMaster 0 7 && !(masterS.pass 5).queueFull 7 (masterS.ctrlQ 7) && got (exec (.syncTransmit 5 0 7) masterS) fun t =>
      (t.queue 7 (masterS.ctrlQ 7)).length = ((masterS.pass 5).queue 7 (masterS.ctrlQ 7)).length + 1 && tget (fun _ => 0) (t.inst 0).nextSync 7 = 5 + masterS.syncCycles 0),
   ends (exec (.announceTransmit 5 0 7 [1#8]) masterS)
     ((masterS.pass 5).sendOwn 7 { octets := masterS.ptpHead 7 ++ [1#8], src := .own }),
   ends (exec (.syncTransmit 5 1 7) up) (up.pass 5) && ends (exec (.announceTransmit 5 1 7 [1#8]) up) (up.pass 5),
   (let s := masterS.modInst 0 fun k => { k with nextSync := [(7, 6)] }
    ends (exec (.syncTransmit 5 0 7) s) (s.pass 5)),
   (let s : State := { up with pwr := { up.pwr with phase := .unpowered } }
    ends (exec (.timeCtrlWrite 3#32) s) s && ends (exec (.driftLimWrite 3#32) s) s && ends (exec (.timeDomCfgWrite 1 3#32) s) s),
   (let s := { inst with time := { running := true, state := .freeRun, accepted := true } }.setRg .timeCtrl 0 0 3#32
    s.src = 3 && got (exec (.timeCtrlWrite 0#32) s) fun t => t.time.state = .holdover),
   (let s := { inst with time := { running := true, state := .freeRun } }.setRg .timeCtrl 0 0 3#32
    got (exec (.timeCtrlWrite 0#32) s) fun t => t.time.state = .free && t.time.drift && fld (t.rg .timeCtrl) 1 0 = 0),
   (let s := { inst with time := { running := true, state := .locked } }.setRg .timeCtrl 0 0 0#32
    s.src ≠ 3 && got (exec (.timeCtrlWrite 3#32) s) fun t => t.time.state = .freeRun && !t.time.drift && fld (t.rg .timeCtrl) 1 0 = 3),
   (let s := inst.setRg .timeCtrl 0 0 2#32
    got (exec (.timeCtrlWrite 0x80000002#32) s) fun t => t.time = s.time && t.rg .timeCtrl = 0x80000002#32),
   (let s := { inst with sched := { banks := [(3, { state := .valid, checkDrift := 32 }), (2, { state := .valid, checkDrift := 33 })] } }
    got (exec (.driftLimWrite 33#32) s) fun t => (t.bank 3).marginStale && !(t.bank 2).marginStale && t.rg .timeDrift = s.written .timeDrift 0 0 33#32),
   (inst.domBad 1 0x80000005#32 && ends (exec (.timeDomCfgWrite 1 0x80000005#32) inst) (inst.setBit .timeDomCfg 1 28)),
   (!inst.domBad 1 0x80000001#32 && got (exec (.timeDomCfgWrite 1 0x80000001#32) inst) fun t =>
      t.rg .timeDomCfg 1 = inst.written .timeDomCfg 1 0 0x80000001#32 && t.ptpRole 1 0 = 1 && inst.roleStart 1 0 ≤ inst.now)]

def ppsS (t : TimeUnit) (cfg src : Nat) : State :=
  ({ up with time := { t with running := true } }.setRg .timePpsCfg 0 0 (w32 cfg)).setRg .timeCtrl 0 0 (w32 src)

def w_HoldoverAndPps : List Bool :=
  [(let s := { (ptpS 0) with time := { running := true, state := .locked, integ := 5, inc := 7 } }
    let d := s.srcTimeout s.src
    (s.pass d).holdoverDue && got (exec (.holdover d) s) fun t => t.time.state = .holdover && t.time.inc = 4194303995 && (t.fsrc 63).active),
   (let s := { up with time := { running := true, state := .holdover, drift := false } }
    let d := secC 3600
    (s.pass d).heldTooLong && ends (exec (.holdoverDrift d) s) ((s.pass d).onTime fun t => { t with drift := true, calm := 0 })),
   (let s := ppsS { ppsLast := some 0 } (2 ^ 29) 2
    (s.pass 5).edgeIgnored && ends (exec (.ppsIn 5) s) ((s.pass 5).onPwr fun p => { p with ppsIn := true })),
   (let s := ppsS { todNext := some (77, 4) } (2 ^ 29) 0
    !(s.pass 5).edgeIgnored && got (exec (.ppsIn 5) s) fun t => t.time.ppsValid && t.time.ppsLast = some 5 && t.time.tod = 77 &&
      t.time.todNext = none && t.time.theta = ((s.pass 5).nt : Int) - ((77 * 1000000000 + s.rf .timePpsIn 0 15 0) * 65536 : Nat)),
   (let s := ppsS { ppsLast := some 7, ppsValid := true } (2 ^ 29) 0
    let d := 7 + nsC 1500000000
    got (exec (.ppsInLoss d) s) fun t => !t.time.ppsValid && t.time = { (s.pass d).time with ppsValid := false }),
   (let s := ppsS { aNt := 1000000000 * 65536 - 100 } (2 ^ 31) 0
    (s.pass 1).dueNow ((s.pass 1).ns / 1000000000 * 1000000000) && ends (exec (.ppsOut 1) s)
      ((s.pass 1).onTime fun t => { t with ppsOut := true, ppsOutEnd := some (1 + s.ppsWidth) })),
   (let s := ppsS { ppsOut := true, ppsOutEnd := some 9 } (2 ^ 31) 0
    ends (exec (.ppsOutPulseEnd 8) s) (s.pass 8) && ends (exec (.ppsOutPulseEnd 9) s) ((s.pass 9).onTime fun t => { t with ppsOut := false, ppsOutEnd := none })),
   (let s := ppsS { aNt := 999990000 * 65536, ppsOut := true, ppsOutEnd := some 9000000 } (2 ^ 31) 0
    ends (exec (.ppsOutPulseEnd 9) s) ((s.pass 9).onTime fun t => { t with ppsOut := false, ppsOutEnd := none })),
   ends (exec (.holdover 5) up) (up.pass 5) && ends (exec (.holdoverDrift 5) up) (up.pass 5) && ends (exec (.ppsInLoss 5) up) (up.pass 5) &&
     ends (exec (.ppsOut 5) up) (up.pass 5) && ends (exec (.ppsIn 5) (up.setRg .timePpsCfg 0 0 0#32)) (((up.setRg .timePpsCfg 0 0 0#32).pass 5).onPwr fun p => { p with ppsIn := true })]

def stepQ : StepReq := { why := .command, delta := some (-5), authAt := 0, issuer := none }

def w_StepsOfTime : List Bool :=
  [ends (exec (.timeStep 0) up) up && ends (exec (.timeStepToSource 0) up) up && ends (exec (.step 5) up) (up.pass 5),
   (let s := withCmd up 0x30 [(24, [1#8])]
    ends (exec (.timeStep 0) s) s),
   (let s := withCmd { up with sup := {} } 0x30 [(24, [1#8])]
    ends (exec (.timeStepToSource 0) s) s),
   (let s := withCmd (running []) 0x30 [(24, [0#8]), (32, leBytes 8 5)]
    got (exec (.timeStep 0) s) fun t => t.sched.holdReq.isSome && t.nt = s.nt && t.time.step.isSome),
   (let s := { up with sup := {}, time := { running := true, step := some stepQ } }
    ends (exec (.step 0) s) (s.pass 0)),
   (let s := { up with time := { running := true, step := some stepQ } }
    ends (exec (.step (secC 1)) s) ((s.pass (secC 1)).lapseStep stepQ)),
   (let s := withCmd { up with time := { running := true, step := some stepQ } } 0x30 [(24, [0#8])]
    ends (exec (.timeStep 0) s) (s.finishCmd 0 0 0x31 false)),
   (let s := withCmd { up with time := { running := true, step := some stepQ } } 0x30 [(24, [1#8])]
    ends (exec (.timeStepToSource 0) s) (s.finishCmd 0 0 0x31 false)),
   (let s := withCmd up 0x30 [(24, [0#8]), (32, leBytes 8 (2 ^ 64 - 1))]
    got (exec (.timeStep 0) s) fun t => t.time.step = some { why := .command, delta := some (-1), authAt := 0, issuer := some (0, 0) }),
   (let s := withCmd up 0x30 [(24, [1#8])]
    got (exec (.timeStepToSource 0) s) fun t => t.time.step = some { why := .command, delta := none, authAt := 0, issuer := some (0, 0) }),
   (let s := { up with time := { running := true, step := some stepQ } }
    s.core && (s.pass 0).stepReady && (s.pass 0).stepDelta stepQ = some (-5) && got (exec (.step 0) s) fun t =>
      (t.nt : Int) = (ntMod : Int) - 5 && t.time.raw = 0#64 && t.time.step = none && bit (t.rg .timeStatus) 24)]

def w_AStepLapses : List Bool :=
  [(let s := { up with time := { running := true, step := some stepQ } }
    got (exec (.stepLapsed (secC 1)) s) fun t => t.time.step = none && bit (t.rg .timeStatus) 23 && t.time.aNt = 0),
   (let s := { up with time := { running := true, step := some { stepQ with delta := none } } }
    s.stepReady && s.srcSample = none && got (exec (.stepLapsed 5) s) fun t => t.time.step = none && bit (t.rg .timeStatus) 23),
   (let s := { up with time := { running := true, step := some stepQ } }
    ends (exec (.stepLapsed (secC 1 - 1)) s) (s.pass (secC 1 - 1))),
   ends (exec (.stepLapsed (secC 1)) up) (up.pass (secC 1)),
   (let s := withCmd { up with time := { running := true, step := some { stepQ with issuer := some (0, 0) } } } 0x30
    got (exec (.stepLapsed (secC 1)) s) fun t => t.time.step = none && (t.ring 0).entries = [])]

/-- Ring `r` of 16 entries RUNNING. -/
def ringS (r : Nat) (g : Ring) (cfg : Nat := 0x08000000) : State :=
  { up with rings := [(r, { g with state := .running })] }.setRg .ringCfg r 0 (w32 cfg)

def w_DoorbellValues : List Bool :=
  [(let s := ringS 143 { pi := 4, fi := 4, ci := 4 }
    ends (exec (.doorbell 143 4#32) s) s),
   (let s := ringS 143 { pi := 4, fi := 4, ci := 4 }
    let n := 2 ^ s.logSize 143
    ends (exec (.doorbell 143 (w32 (4 + n))) s) (s.modRing 143 fun g => { g with pi := 4 + n })),
   (let s := ringS 143 { pi := 4, fi := 4, ci := 4 }
    let n := 2 ^ s.logSize 143
    n = 16 && got (exec (.doorbell 143 (w32 (5 + n))) s) fun t => (t.ring 143).state = .error && (t.ring 143).errCode = 3#4 &&
      (t.ring 143).errIdx = 5 + n && (t.ring 143).pi = 4),
   (let s := ringS 143 { pi := 4, fi := 4, ci := 4 }
    got (exec (.doorbell 143 3#32) s) fun t => (t.ring 143).state = .error && (t.ring 143).errIdx = 3),
   (let s := ringS 143 { pi := 4, fi := 4, ci := 4 }
    got (exec (.doorbell 143 0x20#32) s) fun t => (t.ring 143).state = .error && (t.ring 143).errIdx = 32)]

def w_RingControl : List Bool :=
  [(let s := ringS 159 {}
    ends (exec (.ringStart 159) s) s && ends (exec (.ringResetComplete 159) s) s && ends (exec (.ringReset 158) s) s),
   (let s : State := { up with pwr := { up.pwr with phase := .unpowered } }
    ends (exec (.ringStart 159) s) s && ends (exec (.ringReset 159) s) s && ends (exec (.doorbell 143 3#32) s) s && ends (exec (.eventDoorbell 15 3#32) s) s),
   ends (exec (.doorbell 143 3#32) up) (up.setBit .ringStatus 143 25) && ends (exec (.eventDoorbell 15 3#32) up) (up.setBit .ringStatus 159 25),
   (let s := { up with rings := [(3, { state := .resetting, entries := [cmdE 0] })] }
    ends (exec (.ringResetComplete 3) s) s),
   (!(up.setRg .ringCfg 0 0 0#32).startOk 0 && ends (exec (.ringStart 0) (up.setRg .ringCfg 0 0 0#32))
     ((up.setRg .ringCfg 0 0 0#32).setBit .ringStatus 0 27)),
   (let s := (up.setRg .ringCfg 0 0 0x08000101#32)
    s.startOk 0 && got (exec (.ringStart 0) s) fun t => (t.ring 0).state = .running && (t.ring 0).entries = []),
   (let s := ringS 144 { held := [{ cls := 1, sub := 0#8, arg := 0#12, nt := 0, data := [] }], lost := 2 ^ 32 - 1 }
    isEvent 144 && got (exec (.ringReset 144) s) fun t => (t.ring 144).state = .resetting && (t.ring 144).held = [] && (t.ring 144).lost = 2 ^ 32 - 1),
   (let s := withCmd up 0x02
    s.ringMode 0 = 0 && s.ringSub 0 (s.ring 0).pi (s.ring 0).fi = 0 && got (exec (.ringReset 0) s) fun t => (t.ring 0).state = .resetting &&
      (t.ring 0).entries = [] && t.fab = s.fab && t.out.length = 2),
   (let s := { up with rings := [(3, { state := .resetting, fi := 4, ci := 4, pi := 9, errCode := 3#4 })] }
    got (exec (.ringResetComplete 3) s) fun t => t.ring 3 = { errCode := 3#4 }),
   (let s := ringS 144 { fi := 4, ci := 4 }
    ends (exec (.eventDoorbell 0 4#32) s) s),
   (let s := ringS 144 { fi := 4, ci := 4 }
    s.ring2S 144 = 32 && got (exec (.eventDoorbell 0 32#32) s) fun t => (t.ring 144).state = .error && (t.ring 144).errCode = 3#4 && (t.ring 144).errIdx = 32),
   (let s := ringS 144 { fi := 4, ci := 20 }
    got (exec (.eventDoorbell 0 20#32) s) fun t => (t.ring 144).fi = 20)]

def w_FetchingAndCompleting : List Bool :=
  [(let s := ringS 5 { pollAt := some 3 } 0x48000101
    s.ringMode 5 = 1 && got (exec (.pollTimer 3 5 none) s) fun t => (t.ring 5).state = .error && (t.ring 5).errCode = 5#4),
   (let s := ringS 5 { pollAt := some 3 } 0x48000101
    s.phaseOf 5 0 = 1 && ends (exec (.pollTimer 3 5 (some 0x80000000#32)) s)
      ((s.pass 3).modRing 5 fun g => { g with pollAt := none, pollDue := true, pollCw := some 0x80000000#32 }) &&
      ends (exec (.pollTimer 2 5 none) s) (s.pass 2) && ends (exec (.pollTimer 3 4 none) s) (s.pass 3)),
   (let s := ringS 5 { pollAt := some 3 } 0x48000101
    ends (exec (.pollTimer 3 5 (some 0x40000000#32)) s)
      ((s.pass 3).modRing 5 fun g => { g with pollAt := some (3 + s.pollInt 5) })),
   (let s := { ringS 0 { pi := 1 } 0x08000101 with pwr := { up.pwr with bme := false } }
    ends (exec (.entryFetch 5 0 [] true) s) (s.pass 5)),
   ends (exec (.entryFetch 5 0 [] true) up) (up.pass 5).newRound,
   (let s := ringS 0 { pi := 1 } 0x08000101
    let c := fun d => exec (.entryFetch 5 0 [d] true) s
    let err := fun (k : Nat) (t : State) => decide ((t.ring 0).state = .error ∧ (t.ring 0).errCode = BitVec.ofNat 4 k ∧ (t.ring 0).errIdx = 0)
    let bad := putBytes (ent 0x00 []) 8 [1#8]
    let rd := putBytes (ent 0x00 []) 3 [0#8]
    let wr := ent 0x01 [(4, leBytes 4 288), (8, leBytes 8 4096), (24, leBytes 2 3)]
    got (c { entry := none, payload := none, auth := none }) (err 5) && got (c { entry := some rd, payload := none, auth := none }) (err 2) &&
      !entryOk 0 bad && got (c { entry := some bad, payload := none, auth := none }) (err 1) &&
      entryOk 0 wr && got (c { entry := some wr, payload := none, auth := none }) (err 4)),
   (let s := ringS 5 { pollDue := true } 0x48000101
    (s.pass 5).newRound.nextRing = some 5 && got (exec (.entryFetch 5 5 [{ entry := some (zeros 64), payload := none, auth := none }] true) s) fun t =>
      (t.ring 5).state = .running && (t.ring 5).pollAt = some (5 + s.pollInt 5)),
   (let s := ringS 0 { pi := 1 } 0x08000101
    let u := (s.pass 5).newRound
    let d : FetchRead := { entry := some (ent 0x00 []), payload := none, auth := none }
    u.nextRing = some 0 && u.hasWork 0 && (u.ring 0).credit = 1 && entryOk 0 (ent 0x00 []) && dataRead 0 (ent 0x00 []) d &&
      !roleSensitive 0x00 && got (exec (.entryFetch 5 0 [d] true) s) fun t => (t.ring 0).fi = 1 && (t.ring 0).entries.map (fun e => (e.idx, e.bytes, e.state)) =
        [(0, ent 0x00 [], .ready)]),
   (let s := withCmd up 0x03
    (s.finishCmd 0 0 9 true [7#8]).out = [.hostWrite 4 (cmdBody (ent 3 []) [7#8]), .hostWrite 0 (leBytes 4 (0xC0000000 + 0x10000000 + 0x900 + 3))] &&
      ((s.finishCmd 0 0 9 true [7#8]).ring 0).entries = [] && ((s.finishCmd 0 0 9 true [7#8]).ring 0).ci = 1),
   (let s := ringS 159 { holdoff := some 5 }
    ends (exec (.holdoffExpiry 4 159) s) (s.pass 4) && ends (exec (.holdoffExpiry 5 159) s) ((s.pass 5).modRing 159 fun g => { g with holdoff := none, msgDue := false })),
   (let s := { (ringS 159 { holdoff := some 5, msgDue := true } (2 ^ 24 + 63 * 2 ^ 18 + 2 ^ 27)) with msixTab := [(255, 0#32)] }
    got (exec (.holdoffExpiry 5 159) s) fun t => t.out = [.msix 63] && !(t.ring 159).msgDue)]

theorem holds_SamplesOfNetworkTime : w_SamplesOfNetworkTime.all id = true := by decide +kernel

theorem holds_TimeMessagesAndSettings : w_TimeMessagesAndSettings.all id = true := by decide +kernel

theorem holds_HoldoverAndPps : w_HoldoverAndPps.all id = true := by decide +kernel

theorem holds_StepsOfTime : w_StepsOfTime.all id = true := by decide +kernel

theorem holds_AStepLapses : w_AStepLapses.all id = true := by decide +kernel

theorem holds_DoorbellValues : w_DoorbellValues.all id = true := by decide +kernel

theorem holds_RingControl : w_RingControl.all id = true := by decide +kernel

theorem holds_FetchingAndCompleting : w_FetchingAndCompleting.all id = true := by decide +kernel


/-! ### Frames, streams and consists -/

/-- A transmit entry of 64 octets for lane 7, queue 3. -/
def txE : Entry := { idx := 0, bytes := leBytes 4 (1 + 3 * 2 ^ 16 + 7 * 2 ^ 19 + 2 ^ 31) ++ leBytes 4 64 ++ zeros 24, payload := [(5, 9#8)], state := .ready }

/-- Lane 7 as given, both ways on. -/
def laneS (x : Lane) : State := { up with ept := { lanes := [(7, x)] } }.setRg .eptCfg 7 0 0xC00005F2#32

def frameA : TxFrame := { octets := zeros 64, src := .own }

/-- 64 octets to the unit address of lane 7. -/
def rxF (s : State) : List Byte := beBytes 6 (s.rg8 .eptMac 7) ++ zeros 58

/-- A receive entry of 128 bytes at host address 0x5000. -/
def rxE : Entry := { idx := 0, bytes := leBytes 4 (1 + 2 ^ 31) ++ leBytes 4 128 ++ leBytes 8 0x5000 ++ zeros 16, state := .ready }

/-- A stream entry of 64 octets under context 4095. -/
def strE : Entry := { txE with bytes := leBytes 4 (1 + 1 * 2 ^ 22 + 2 ^ 31) ++ leBytes 4 (64 + 4095 * 2 ^ 16) ++ zeros 24 }

def txRing (s : State) (e : Entry) : State := { s with rings := [(79, { state := .running, pi := 1, fi := 1, entries := [e] })] }

def w_FramesSentAndReceived : List Bool :=
  [(let s := { laneS {} with rings := [(79, { state := .running, pi := 1, fi := 1, entries := [txE] })] }
    !txStream txE.bytes && txLane txE.bytes = 7 && txQueue txE.bytes = 3 && txLen txE.bytes = 64 && s.txEn 7 && !s.queueFull 7 3 && 68 ≤ s.maxLen 7 &&
      got (exec (.transmitEntry 5 63) s) fun t => (t.queue 7 3).map (·.octets) = [rdBytes [(5, 9#8)] 0 64] &&
        (t.queue 7 3).map (·.src) = [.entry 79 0] && (t.ring 79).entries = [{ txE with state := .begun, copies := 1 }]),
   ends (exec (.transmitEntry 5 63) up) (up.pass 5) && ends (exec (.transmitEntry 5 63) (txRing up { txE with state := .begun })) ((txRing up { txE with state := .begun }).pass 5),
   (let s := txRing (laneS { queues := [(3, List.replicate 128 frameA)] }) txE
    s.txBlocked txE.bytes && ends (exec (.transmitEntry 5 63) s) (s.pass 5)),
   (let s := txRing up txE
    let s := s.setRg .eptCfg 7 0 0#32
    !s.txEn 7 && got (exec (.transmitEntry 5 63) s) fun t => t.ept = s.ept && (t.ring 79).entries = []),
   (let s := txRing up strE
    txStream strE.bytes && txCtx strE.bytes = 4095 && !ctxValid (s.ctx 4095) && got (exec (.transmitEntry 5 63) s) fun t => t.ept = s.ept && (t.ring 79).entries = []),
   (let s := ends (exec (.frameStart 5 7) up) (up.pass 5)
    s && !{ up with pwr := { up.pwr with phase := .unpowered } }.txRuns 7),
   (let s : State := { laneS { queues := [(3, [frameA])] } with pwr := { up.pwr with phase := .unpowered } }
    ends (exec (.frameStart 5 7) s) (s.pass 5)),
   (let s := laneS { queues := [(3, [frameA])], busyTill := 9 }
    ends (exec (.frameStart 5 7) s) (s.pass 5)),
   (let x : TxNow := { frame := frameA, queue := 3, stamp := 77, row := 0#32 }
    let s := laneS { cur := some x, queues := [(7, [frameA])] }
    !s.preemptable 7 3 && ends (exec (.frameStart 5 7) s) (s.pass 5) && ends (exec (.frameSent 5 7) s) (s.pass 5) && ends (exec (.frameSent 5 6) s) (s.pass 5)),
   (let x : TxNow := { frame := { frameA with octets := zeros 600 }, queue := 3, stamp := 77, row := 0#32 }
    let s := (laneS { cur := some x, preempt := true, verify := 2#2, kind := .arbitrating, queues := [(7, [frameA])] }).setRg .eptPreempt 7 0 (BitVec.ofNat 32 (2 ^ 31 + 128))
    s.preemptable 7 3 && got (exec (.frameStart 200 7) s) fun t => t.lane 7 = ((s.pass 200).cut 7).lane 7 && (t.lane 7).cur.isNone),
   (let y : TxNow := { frame := { frameA with octets := zeros 600 }, queue := 3, stamp := 77, row := 0#32, sent := 64 }
    let s := laneS { rest := [(3, y)] }
    queuesDown.find? (fun p => (s.pass 5).canStart 7 p) = some 3 && got (exec (.frameStart 5 7) s) fun t => (t.lane 7).cur = some { y with since := 5 } &&
      tget (fun _ => 0) (t.lane 7).cnt 11 = 1),
   ends (exec (.txNofit 5 7 7) up) (up.pass 5),
   (let s := laneS { queues := [(3, [frameA])] }
    s.txRuns 7 && (s.pass 5).txRuns 7 && queuesDown.find? (fun p => (s.pass 5).canStart 7 p) = some 3 && got (exec (.frameStart 5 7) s) fun t =>
      (t.queue 7 3) = [] && (t.lane 7).cur.any fun x => x.queue = 3 && x.stamp = (s.pass 5).nt + (s.lane 7).sfdDelay + (s.lane 7).txDelay),
   (let x : TxNow := { frame := frameA, queue := 3, stamp := 77, row := 0#32 }
    let s := laneS { cur := some x }
    let d := (s.lane 7).octCycles 76
    got (exec (.frameSent d 7) s) fun t => (t.lane 7).cur = none && t.out = [.frame 7 (zeros 64) 77] && (t.lane 7).busyTill = d &&
      tget (fun _ => 0) (t.lane 7).cnt 0 = 1),
   (let s := { running [] with ept := { lanes := [(7, { queues := [(7, [{ frameA with headAt := some 0 }])] })] } }
    let d := msC 3 + 1
    (s.pass d).pastMatrix d && got (exec (.txNofit d 7 7) s) fun t => t.queue 7 7 = [] && tget (fun _ => 0) (t.lane 7).cnt 9 = 1),
   (let s := laneS { blockLock := true }
    s.lanePowered 7 && s.rxEn 7 && !s.laneTesting 7 && s.maxLen 7 < (zeros 1519).length + 4 &&
      ends (exec (.frameReceive 5 7 ⟨zeros 1519, .none, none⟩) s) ((s.pass 5).laneCnt 7 5 1)),
   (let s := laneS { blockLock := true }
    ends (exec (.frameReceive 5 7 ⟨zeros 64, .fcs, none⟩) s) ((s.pass 5).laneCnt 7 4 1)),
   ends (exec (.frameReceive 5 7 ⟨zeros 64, .none, none⟩) up) (up.pass 5),
   (let s := laneS { blockLock := true, connBusy := true }
    ends (exec (.frameReceive 5 7 ⟨zeros 64, .smd, none⟩) s) ((s.pass 5).laneCnt 7 6 1)),
   (let s := laneS {}
    ends (exec (.frameReceive 5 7 ⟨zeros 64, .smd, none⟩) s) (s.pass 5) && ends (exec (.frameReceive 5 7 ⟨zeros 64, .none, none⟩) s) (s.pass 5)),
   (let s := laneS { blockLock := true }
    ends (exec (.frameReceive 5 7 ⟨zeros 64, .assembly, none⟩) s) ((s.pass 5).laneCnt 7 12 1) &&
      ends (exec (.frameReceive 5 7 ⟨zeros 64, .smd, some 9⟩) s) ((s.pass 5).laneCnt 7 13 1)),
   (let s := laneS { blockLock := true }
    bef (2#8 :: zeros 63) 0 6 ≠ s.rg8 .eptMac 7 && !bit (s.rg .eptCfg 7) 24 && ends (exec (.frameReceive 5 7 ⟨2#8 :: zeros 63, .none, none⟩) s) ((s.pass 5).laneCnt 7 7 1)),
   (let s0 := laneS { blockLock := true }
    let c := putBytes (putBytes (putBytes (zeros 64) 0 [5#8, 0xC3#8]) 5 [1#8]) 8 ((rxF s0).take 6)
    let s := { s0 with sram := wrBytes [] (ctxBase 4095) c, ept := { s0.ept with streams := [(4095, {})] } }
    (s.pass 5).matchCtx 7 (rxF s0) = some 4095 && !ctxRcvy c && got (exec (.frameReceive 5 7 ⟨rxF s0, .none, none⟩) s) fun t =>
      tget (fun _ => 0) (t.lane 7).cnt 2 = 1 && tget (fun _ => 0) (t.stream 4095).cnt 2 = 1),
   (let s := laneS { blockLock := true }
    bef (rxF s) 0 6 = s.rg8 .eptMac 7 && bef (rxF s) (afterTags (rxF s)) 2 ≠ 0x88F7 && !isBiarn (rxF s) && s.matchCtx 7 (rxF s) = none &&
      got (exec (.frameReceive 5 7 ⟨rxF s, .none, none⟩) s) fun t => tget (fun _ => 0) (t.lane 7).cnt 2 = 1 && tget (fun _ => 0) (t.lane 7).cnt 8 = 1),
   (let s := laneS { blockLock := true }
    let k := 80 + s.rf .eptCfg 7 20 15
    let s := { s with rings := [(k, { state := .running, pi := 1, fi := 1, entries := [rxE] })] }
    got (exec (.frameReceive 5 7 ⟨rxF s, .none, none⟩) s) fun t => (t.ring k).entries = [] && t.out.head? = some (.hostWrite 0x5000 (rxF s)))]

def w_LinksShapersAndLaneSettings : List Bool :=
  [(let s := laneS {}
    s.lanePowered 7 && s.rxEn 7 && got (exec (.blockLockChange 5 7 true true) s) fun t => (t.lane 7).blockLock && (t.lane 7).fecLock &&
      (t.lane 7).lockTimer = some (5 + msC 1)),
   ends (exec (.blockLockChange 5 7 true true) (up.setRg .eptCfg 7 0 0#32)) ((up.setRg .eptCfg 7 0 0#32).pass 5) && ends (exec (.linkUp 5 7) up) (up.pass 5) &&
     ends (exec (.linkDown 5 7) up) (up.pass 5) && ends (exec (.preemptVerify 5 7 true) up) (up.pass 5) && ends (exec (.shaperRefill 5 7 7) up) (up.pass 5),
   ends (exec (.preemptVerify 5 7 false) (laneS { verify := 1#2, verifyTimer := some 9 })) ((laneS { verify := 1#2, verifyTimer := some 9 }).pass 5),
   (let s := { inst with ept := { lanes := [(7, { cur := some { frame := frameA, queue := 3, stamp := 77, row := 0#32 } })] } }
    got (exec (.laneReset 0x80#32) s) fun t => t.lane 7 = { s.lane 7 with resetWait := true }),
   ends (exec (.laneConfig 0) up) up,
   (let s := withCmd { up with ept := { lanes := [(7, { rate := 1#2, blockLock := true, preempt := true, verify := 2#2 })] } } 0x40 [(24, [7#8, 9#8])]
    got (exec (.laneConfig 0) s) fun t => t.lane 7 = s.lane 7),
   (let s := laneS { blockLock := true, lockTimer := some 5 }
    got (exec (.linkUp 5 7) s) fun t => (t.lane 7).linkUp && (t.lane 7).lockTimer = none && bit (t.rg .eptStatus 7) 28),
   (let s := laneS { linkUp := true, lockTimer := some 5 }
    got (exec (.linkDown 5 7) s) fun t => !(t.lane 7).linkUp && fires t 47),
   got (exec (.preemptVerify 5 7 true) (laneS { verify := 1#2 })) fun t => (t.lane 7).verify = 2#2,
   got (exec (.preemptVerify 5 7 false) (laneS { verify := 1#2, verifyTries := 2, verifyTimer := some 5 })) fun t => (t.lane 7).verify = 3#2,
   got (exec (.preemptVerify 5 7 false) (laneS { verify := 1#2, verifyTries := 1, verifyTimer := some 5 })) fun t => (t.lane 7).verify = 1#2 && (t.lane 7).verifyTries = 2,
   (let s := (laneS { shapers := [(7, { level := 1522 * 256 - 100, last := 1023 })] }).setRg .eptShape 63 1 0x80000064#32
    got (exec (.shaperRefill 1024 7 7) s) fun t => (t.shaper 7 7).level = min (1522 * 256) (burstOf (s.rg .eptShape 63).toNat * 256) && (t.shaper 7 7).last = 1024),
   (let v : Dword := 0x80000064000005F2#64
    got (exec (.eptShapeWrite 7 7 v) inst) fun t => t.ept = inst.ept && t.rg .eptShape 63 0 = inst.written .eptShape 63 0 (loW v) &&
      t.rg .eptShape 63 1 = inst.written .eptShape 63 1 (hiW v)),
   (let s := { inst with ept := { lanes := [(7, { blockLock := true })] } }
    !s.laneResetting 7 && got (exec (.laneReset 0x80#32) s) fun t => !(t.lane 7).blockLock && (t.lane 7).resetTill = some (msC 2) && t.lane 6 = s.lane 6),
   (let s := withCmd (running []) 0x40 [(24, [7#8, 9#8])]
    ends (exec (.laneConfig 0) s) (s.finishCmd 0 0 0x2C false)),
   (let s := withCmd up 0x40 [(24, [7#8, 9#8])]
    got (exec (.laneConfig 0) s) fun t => (t.lane 7).rate = 1#2 && !(t.lane 7).fec && (t.lane 7).preempt),
   (let s := { up with ept := { streams := [(4095, { gen := 7#16, cnt := [(0, 3)] })] } }
    got (exec (.eptStrSel 4095#32) s) fun t => t.rg .eptStrSel = s.written .eptStrSel 0 0 4095#32 && tget (fun _ => 0) t.ept.strSnap 1 = 7 &&
      tget (fun _ => 0) t.ept.strSnap 0 = 3)]

/-- The bytes of a context: flags, pair and mode, queue and functions, and bytes at offsets. -/
def ctxB (f m q : Nat) (ps : List (Nat × List Byte)) : List Byte :=
  let b := putBytes (zeros 64) 0 [BitVec.ofNat 8 f, BitVec.ofNat 8 m, BitVec.ofNat 8 q, 2#8]
  ps.foldl (fun b p => putBytes b p.1 p.2) (putBytes (putBytes (putBytes b 14 (leBytes 2 1)) 23 [1#8]) 28 [1#8])

def ctxS (x : Nat) (c : List Byte) (st : Stream) (w : List WheelEvent := []) : State :=
  { up with sram := wrBytes [] (ctxBase x) c, ept := { streams := [(x, st)], wheel := w } }

/-- Every event up to that of context 4095 in slot 1. -/
def upTo (s : State) : State := s.serveWhile s.ept.wheel.length fun v => v.slot * 4096 + v.ctx ≤ 1 * 4096 + 4095

def w_WheelStreamsAndSlots : List Bool :=
  [(let s := ctxS 4095 (ctxB 3 0 8 [(16, leBytes 3 10)]) { paced := [(0, frameA)] } [{ time := 16, ctx := 4095, slot := 1 }]
    !(s.stream 4095).paced.isEmpty && (s.pass 20).ept.wheel.any (s.pass 20).slotDue && ends (exec (.pacedRelease 20 4095) s) (upTo (s.pass 20)) &&
      ends (exec (.slotRelease 20 4095) s) (s.pass 20)),
   (let s := ctxS 4095 (ctxB 3 0 0x20 []) {} [{ time := 16, ctx := 4095, slot := 1 }]
    ctxSlotTx (s.ctx 4095) && (s.pass 20).ept.wheel.any (s.pass 20).slotDue && ends (exec (.slotRelease 20 4095) s) (upTo (s.pass 20)) &&
      ends (exec (.pacedRelease 20 4095) s) (s.pass 20)),
   (let s := ctxS 4095 (ctxB 3 0 0x20 []) {} [{ time := 48, ctx := 4095, slot := 3 }]
    (s.ept.wheel.all fun e => !(s.pass 20).slotDue e) && ends (exec (.calendarSlot 20) s) (s.pass 20) && ends (exec (.slotRelease 20 4095) s) (s.pass 20)),
   (let e : WheelEvent := { time := 16, ctx := 4095, slot := 1 }
    let s := ctxS 4095 (ctxB 3 0 0x20 []) {} [e]
    (s.pass 20).slotDue e && ends (exec (.calendarSlot 20) s) (((s.pass 20).onEpt fun p => { p with wheel := [], slotAt := 1, slotUsed := 1 }).handleEvent e)),
   (let e : WheelEvent := { time := 16, ctx := 4095, slot := 1 }
    let s := ctxS 4095 (ctxB 3 0 0x20 []) {} [e]
    let s := { s with ept := { s.ept with slotAt := 1, slotUsed := 8 } }
    ends (exec (.calendarSlot 20) s) (((s.pass 20).onEpt fun p => { p with wheel := [{ e with slot := 2 }] }).setBit .eptWheelStatus 0 31)),
   (let e : WheelEvent := { time := 16, ctx := 4095, slot := 1 }
    let s := ctxS 4095 (ctxB 3 0 8 [(16, leBytes 3 10)]) { paced := [(0, frameA)] }
    (s.handleEvent e).stream 4095 = { s.stream 4095 with paced := [], lastRelease := some 16 } && up.handleEvent e = up),
   (let e : WheelEvent := { time := 0, ctx := 1, slot := 4096 + 16383 }
    let f : WheelEvent := { time := 0, ctx := 2, slot := 4096 + 16384 }
    let s := { up with time := { running := true, aNt := 65536 * 65536 }, ept := { ovfl := [e, f] } }
    (s.pass 0).slotNo = 4096 && got (exec (.overflowMove 0) s) fun t => t.ept.movedAt = 4096 && t.ept.wheel = [e] && t.ept.ovfl = [f]),
   ends (exec (.overflowMove 5) up) (up.pass 5) && ends (exec (.policeCredit 5 4095) up) (up.pass 5) && ends (exec (.recoveryReset 5 4095) up) (up.pass 5) &&
     ends (exec (.calendarSlot 5) up) (up.pass 5) && ends (exec (.streamWrite 0) up) up && ends (exec (.streamRead 0) up) up,
   (let s := ctxS 4095 (ctxB 3 0 0x10 [(20, leBytes 3 1), (23, [15#8])]) { credits := 14, creditAt := some 5000 }
    ctxValid (s.ctx 4095) && ctxPolEn (s.ctx 4095) && ends (exec (.policeCredit 4 4095) s) (s.pass 4) && got (exec (.policeCredit 5 4095) s) fun t =>
      (t.stream 4095).credits = 15 && (t.stream 4095).creditAt = some (5000 + polGap (s.ctx 4095)) && polGap (s.ctx 4095) = 16384),
   (let s := ctxS 4095 (ctxB 0x13 0 0 []) { rcvyTimer := some 5, recov := { takeAny := false }, cnt := [(8, 2 ^ 32 - 1)] }
    ctxRcvy (s.ctx 4095) && got (exec (.recoveryReset 5 4095) s) fun t => (t.stream 4095).recov = {} && (t.stream 4095).rcvyTimer = none && tget (fun _ => 0) (t.stream 4095).cnt 8 = 2 ^ 32 - 1),
   (let s0 := ctxS 4095 (ctxB 3 0 0x20 [(26, leBytes 2 2047)]) {}
    let s := (s0.slotPut 2047 0 (leBytes 4 2 ++ leBytes 2 60))
    let t := s.releaseSlot 4095
    (t.stream 4095).goodCopy = some (zeros 60) && (t.stream 4095).age = 0 && ((t.releaseSlot 4095).stream 4095).age = 1 &&
      (t.releaseSlot 4095).slotLE 2047 8 4 = 0),
   (let s0 := ctxS 4095 (ctxB 3 0 0x20 [(26, leBytes 2 2047)]) {}
    let s := s0.slotPut 2047 0 (leBytes 4 1)
    s.slotLE (ctxSlot (s.ctx 4095)) 0 4 % 2 = 1 && tget (fun _ => 0) ((s.releaseSlot 4095).stream 4095).cnt 12 = 1 &&
      tget (fun _ => 0) ((s.releaseSlot 4095).stream 4095).cnt 13 = 1 && (s.releaseSlot 4095).ept.lanes = s.ept.lanes),
   (let s := withCmd up 0x41 [(24, leBytes 2 4095)]
    let c := zeros 64
    s.ctxStatus 4095 c = 0x38 && ends (exec (.streamWrite 0) s) (s.finishCmd 0 0 0x38 false)),
   (let c := ctxB 3 12 0 []
    let d := ctxB 3 2 0 []
    let s := withCmd up 0x41 [(24, leBytes 2 4095)] (wrBytes [] 0 d)
    s.ctxStatus 4095 c ≠ 0 && s.ctxStatus 4095 d = 0 && got (exec (.streamWrite 0) s) fun t => t.ctx 4095 = d && (t.stream 4095).credits = ctxPolBurst d),
   (let d := ctxB 3 2 0 []
    let s := withCmd (ctxS 4095 d { gen := 7#16 }) 0x41 [(24, leBytes 2 4095)] (wrBytes [] 0 d)
    got (exec (.streamWrite 0) s) fun t => (t.stream 4095).gen = 7#16),
   (let s := withCmd (ctxS 4095 (ctxB 3 2 0 []) {}) 0x42 [(24, leBytes 2 4095), (8, leBytes 8 0x7000)]
    got (exec (.streamRead 0) s) fun t => match t.out.head? with
      | some (.hostWrite 0x7000 b) => b.length = 256 && b.take 64 = ctxB 3 2 0 []
      | _ => false)]

/-- The octets of a Biarn frame from unit `u` of consist `c`: type, slot, role, priority, payload. -/
def biarnO (type c u slot role pri ncons : Nat) (p : List Byte) : List Byte :=
  zeros 12 ++ [0x88#8, 0xB5#8, 0x42#8, 0x49#8, 1#8, BitVec.ofNat 8 type] ++ beBytes 4 c ++ beBytes 8 u ++
    [BitVec.ofNat 8 slot, BitVec.ofNat 8 role, BitVec.ofNat 8 pri, BitVec.ofNat 8 ncons] ++ beBytes 8 1 ++
    beBytes 2 p.length ++ [16#8, 1#8] ++ p

/-- The frame with its tag, which is right under the key of 32 zero bytes. -/
def biarnF (o : List Byte) (tag : Nat) : BiarnFrame := { octets := o, tag := beBytes 16 tag, vlan := [] }

/-- A module of consist 5 in slot 2 whose unit identity is 22; unit 21 is in slot 1; Biarn key 16 held, lane 7. -/
def cascS (f : Casc → Casc) : State :=
  let r := wrBytes [] 3 [16#8, 5#8, 0#8, 0#8, 0#8, 0x80#8, 10#8, 2#8, 1#8]
  let r := wrBytes r 72 (leBytes 8 21 ++ leBytes 8 22)
  { up with casc := f { record := r, enabled := true }, sec := { keys := [(16, { material := List.replicate 32 0#8, held := true })] },
            pwr := { up.pwr with straps := ⟨false, 2#5, 0#2⟩ }, flash := { relpety := { unitId := 22#64 } } }

/-- A heartbeat of unit 21 in slot 1 of the own consist, in the role given. -/
def hbOf (role pri : Nat) (p : List Byte) (tag : Nat) : BiarnFrame := biarnF (biarnO 1 5 21 1 role pri 1 p) tag

/-- Every Biarn row with one frame. -/
def biarnRows (f : BiarnFrame) : List Instr :=
  [.heartbeat 5 7 f, .claim 5 7 f, .couple 5 7 f, .ready 5 7 f, .release 5 7 f, .distData 5 7 f, .distResult 5 7 f, .swap 5 7 f, .swapResult 5 7 f]

def w_MembersAndManagers : List Bool :=
  [ends (exec (.consistConfigure 0) up) up && (biarnRows (hbOf 3 9 (zeros 8) 0x3ad7385c80c7d12ced4133153e5b9091)).all (fun c => ends (exec c up) (up.pass 5)) &&
     ends (exec (.heartbeatInterval 5) up) (up.pass 5) && ends (exec (.memberLost 5 31) up) (up.pass 5) && ends (exec (.mgrLost 5) up) (up.pass 5) &&
     ends (exec (.promotion 5) up) (up.pass 5) && ends (exec (.consistLeft 5 6#32) up) (up.pass 5) && ends (exec (.biarnRefused 5) up) (up.pass 5),
   (let s := { withCmd (cascS fun c => { c with role := .stack }) 0x54 with sup := { available := true } }
    got (exec (.consistConfigure 0) s) fun t => t.casc.role = .stack && !t.casc.enabled),
   (let s := withCmd (cascS fun c => { c with role := .stack }) 0x54 [] [(1, 1#8), (511, 0#8)]
    got (exec (.consistConfigure 0) s) fun t => t.casc.role = .stack && t.casc.enabled),
   (let s0 := cascS fun _ => {}
    let s := withCmd { s0 with pwr := { s0.pwr with straps := ⟨true, 2#5, 0#2⟩ } } 0x54 [] [(1, 1#8), (2, 9#8), (511, 0#8)]
    got (exec (.consistConfigure 0) s) fun t => t.casc.role = .claiming && t.casc.priority = 9#8 && t.casc.claimAt = some 0 && t.casc.claimRounds = 1),
   (let s0 := cascS fun c => { c with role := .deputy }
    let s := withCmd { s0 with pwr := { s0.pwr with straps := ⟨true, 2#5, 0#2⟩ } } 0x54 [] [(1, 1#8), (2, 9#8), (511, 0#8)]
    got (exec (.consistConfigure 0) s) fun t => t.casc.role = .deputy && t.casc.priority = 9#8),
   (let s := withCmd (cascS fun _ => {}) 0x54 [] [(0, 1#8)]
    ends (exec (.consistConfigure 0) s) s),
   (let s := cascS fun c => { c with role := .worker }
    let f := biarnF (biarnO 1 5 21 1 3 9 1 (zeros 8)) 1
    s.biarnUp && s.biarnFail f (biarnHdr f.octets) = some (2, some 2) && ends (exec (.heartbeat 5 7 f) s) (((s.pass 5).casCount 2).noteBiarn 2) &&
      ends (exec (.couple 5 7 f) s) (s.pass 5)),
   (let s := cascS fun c => { c with role := .worker }
    let f := hbOf 3 9 (zeros 8 ++ beBytes 2 7 ++ beBytes 8 77) 0x4c53d23e02cdf905bae29da43b05f9b5
    got (exec (.heartbeat 5 7 f) s) fun t => t.casc.inaugCnt = 7#16 && t.casc.tmId = 77#64 && (t.senderOf 21).any fun q => q.counter = 1#64),
   (let s := cascS fun c => { c with role := .deputy, priority := 1#8 }
    betterKey (9, 21) s.ownKey && got (exec (.heartbeat 5 7 (hbOf 3 9 (zeros 8) 0x3ad7385c80c7d12ced4133153e5b9091)) s) fun t => t.casc.role = .worker && t.casc.demoted && bit (t.rg .cascRoleStatus) 26),
   (let s := cascS fun c => { c with role := .deputy, priority := 200#8 }
    !betterKey (9, 21) s.ownKey && got (exec (.heartbeat 5 7 (hbOf 3 9 (zeros 8) 0x3ad7385c80c7d12ced4133153e5b9091)) s) fun t => t.casc.role = .deputy && bit (t.rg .cascRoleStatus) 26),
   (let s := cascS fun c => { c with role := .trainMgr }
    s.memberSlot 21 = some 1 && got (exec (.heartbeat 5 7 (hbOf 1 0 (zeros 8) 0x746a8b0124e4b031eab03a720a3d5181)) s) fun t => tget (fun _ => 0) t.casc.members 1 = 6),
   (let s := cascS fun c => { c with role := .deputy, coupling := true, members := [(1, 999999999), (31, 1)], readySlots := [2, 1] }
    got (exec (.memberLost s.hbLost 31) s) fun t => !t.casc.coupling && tget (fun _ => 0) t.casc.members 31 = 0),
   (let s := cascS fun c => { c with role := .worker, mgrHeard := some 0 }
    ends (exec (.mgrLost (s.hbLost - 1)) s) (s.pass (s.hbLost - 1))),
   (let s := { withCmd (cascS fun c => { c with role := .worker }) 0x54 with sup := { available := true } }
    s.casc.role ≠ .stack && got (exec (.consistConfigure 0) s) fun t => t.casc.role = .disabled && !t.casc.enabled && !t.casc.coupling),
   (let s := withCmd (cascS fun _ => {}) 0x54 [] [(1, 1#8), (2, 9#8), (511, 0#8)]
    got (exec (.consistConfigure 0) s) fun t => t.casc.role = .worker && t.casc.enabled && t.casc.priority = 0#8 && rd t.casc.record 2 = 9#8),
   (let s := cascS fun c => { c with role := .worker, hbAt := some 5 }
    s.biarnUp && got (exec (.heartbeatInterval 5) s) fun t => t.casc.hbAt = some (5 + s.hbCycles) && t.casc.txCount = 1),
   (let s := cascS fun c => { c with role := .worker, mgrLost := true }
    let f := biarnF (biarnO 1 5 21 1 3 9 1 (zeros 8)) 0x3ad7385c80c7d12ced4133153e5b9091
    s.biarnUp && isBiarn f.octets && (biarnHdr f.octets).manages && got (exec (.heartbeat 5 7 f) s) fun t =>
      t.casc.mgrHeard = some 5 && !t.casc.mgrLost && t.casc.role = .worker),
   (let s := cascS fun c => { c with role := .worker, senders := [{ id := 21#64, counter := 1#64, heardAt := 0, slot := 1, consist := 5#32, isMgr := true }] }
    let f := biarnF (biarnO 1 5 21 1 3 9 1 (zeros 8)) 0x3ad7385c80c7d12ced4133153e5b9091
    s.biarnFail f (biarnHdr f.octets) = some (4, none) && ends (exec (.heartbeat 5 7 f) s) ((s.pass 5).casCount 4)),
   (let s := cascS fun c => { c with role := .deputy, members := [(31, 1)] }
    got (exec (.memberLost s.hbLost 31) s) fun t => t.casc.members = []),
   (let s := cascS fun c => { c with role := .worker, mgrHeard := some 0 }
    got (exec (.mgrLost s.hbLost) s) fun t => t.casc = { s.casc with mgrLost := true }),
   (let s := cascS fun c => { c with role := .deputy, inaugCnt := 7#16 }
    got (exec (.promotion s.hbLost) s) fun t => t.casc.role = .trainMgr && t.casc.inaugCnt = 8#16 && t.casc.tmId = 22#64),
   (let s := cascS fun c => { c with role := .trainMgr, inaugCnt := 0xFFFF#16, train := [{ id := 5#32, mgr := 22#64 }, { id := 6#32, mgr := 66#64 }] }
    got (exec (.consistLeft s.hbLost 6#32) s) fun t => t.casc.train.length = 1 && t.casc.inaugCnt = 0#16),
   (let s := cascS fun c => { c with role := .worker, refusals := List.replicate 16 (0, 2) }
    ends (exec (.biarnRefused (secC 1)) s) (s.pass (secC 1))),
   (let s := cascS fun c => { c with role := .worker, refusals := List.replicate 16 (0, 2) }
    ends (exec (.biarnRefused 5) s) (((s.pass 5).onCasc fun c => { c with refusals := [] }).fire 91 2))]

def mgr (c : Casc) : Casc := { c with role := .trainMgr, train := [{ id := 5#32, mgr := 22#64 }] }

/-- A heartbeat or claim of unit 66, the manager of consist 6. -/
def farF (type role pri ncons : Nat) (p : List Byte) (tag : Nat) : BiarnFrame := biarnF (biarnO type 6 66 0 role pri ncons p) tag

def w_ElectionAndCoupling : List Bool :=
  [(let s := cascS fun c => { mgr c with train := List.replicate 4 { id := 5#32, mgr := 22#64 } }
    let f := farF 2 3 9 1 [0#8, 4#8] 0x864557b04c4f3bd93ae44a484b24e7df
    4 < (biarnHdr f.octets).nconsist + s.casc.train.length && got (exec (.claim 5 7 f) s) fun t => t.casc.role = .claiming &&
      bit (t.rg .cascRoleStatus) 25 && t.casc.bestKey = none && t.casc.wasTm),
   (let s := cascS mgr
    got (exec (.heartbeat 5 7 (farF 1 3 9 1 (zeros 18) 0xcf115055bebd4974f1b9b3095f228470)) s) fun t => t.casc.role = .claiming && t.casc.claimAt = some 5 && t.casc.bestKey = some (9#8, 66#64)),
   (let s := cascS fun c => { c with role := .claiming, claimAt := some 0, bestKey := some (1#8, 70#64) }
    got (exec (.claim 5 7 (farF 2 3 9 1 [0#8, 4#8] 0x864557b04c4f3bd93ae44a484b24e7df)) s) fun t => t.casc.role = .claiming && t.casc.bestKey = some (9#8, 66#64)),
   (let s := cascS fun c => { c with role := .claiming, claimAt := some 0, bestKey := some (200#8, 70#64) }
    got (exec (.claim 5 7 (farF 2 3 9 1 [0#8, 4#8] 0x864557b04c4f3bd93ae44a484b24e7df)) s) fun t => t.casc.bestKey = some (200#8, 70#64)),
   (let s := cascS fun c => { c with role := .claiming, claimAt := some 0, bestKey := none }
    got (exec (.claim (msC 6) 7 (farF 2 3 9 1 [0#8, 4#8] 0x864557b04c4f3bd93ae44a484b24e7df)) s) fun t => t.casc.bestKey = none && t.casc.claimAt = some 0),
   (let s := cascS fun c => { c with role := .claiming, claimAt := some 0, bestKey := none, train := List.replicate 4 { id := 5#32, mgr := 22#64 } }
    got (exec (.claim 5 7 (farF 2 3 9 1 [0#8, 4#8] 0x864557b04c4f3bd93ae44a484b24e7df)) s) fun t => t.casc.bestKey = none && bit (t.rg .cascRoleStatus) 25),
   (let s := cascS fun c => { c with role := .deputy, tmId := 66#64 }
    got (exec (.heartbeat 5 7 (farF 1 3 9 1 (zeros 8 ++ beBytes 2 7 ++ zeros 8) 0x2d376bdeba72407dc72a53d816db6d7a)) s) fun t => t.casc.role = .deputy && t.casc.tmHeard = 5 && t.casc.inaugCnt = 7#16),
   (let s := cascS fun c => { c with role := .deputy, tmId := 67#64 }
    (got (exec (.heartbeat 5 7 (farF 1 3 9 1 (zeros 18 ++ beBytes 4 5 ++ beBytes 8 22) 0x8a52b78ff5e723e36b4580ec5538bbe1)) s) fun t => t.casc.tmId = 66#64 && t.casc.coupling) &&
      got (exec (.heartbeat 5 7 (farF 1 3 9 1 (zeros 18 ++ beBytes 4 8 ++ beBytes 8 22) 0x1752cdd468d9a8a61bea9e5716d70fd9)) s) fun t => t.casc.tmId = 67#64 && !t.casc.coupling),
   (let s := cascS fun c => { c with role := .worker, mgrLost := true }
    (got (exec (.couple 5 7 (biarnF (biarnO 3 5 21 1 4 9 1 (beBytes 8 66 ++ beBytes 2 4)) 0x3e358eb78d7138da6a9839aac525e6ed)) s) fun t => !t.casc.coupling && t.casc.tmId = 0#64) &&
      (got (exec (.release 5 7 (biarnF (biarnO 5 5 21 1 4 9 1 [0#8]) 0xfc6716f199b5f170ac7bba8c97861845)) s) fun t => !t.casc.coupling && t.sched = s.sched) &&
      got (exec (.ready 5 7 (biarnF (biarnO 4 5 21 1 1 0 0 [0#8]) 0x51627d7e8be6a2d00e6c14864d2d4d1f)) s) fun t => t.casc.readySlots = []),
   ends (exec (.claimRound 5) up) (up.pass 5) && ends (exec (.claimEnd 5) up) (up.pass 5) && ends (exec (.couplingStep 5) up) (up.pass 5) && ends (exec (.couplingLimit 5) up) (up.pass 5),
   (let s := cascS fun c => { c with role := .claiming, claimAt := some 0, claimRounds := 2 }
    ends (exec (.claimRound (msC 4 - 1)) s) (s.pass (msC 4 - 1)) && ends (exec (.claimEnd (msC 6 - 1)) s) (s.pass (msC 6 - 1))),
   (let s := cascS fun c => { c with role := .worker, coupling := true, coupleEnd := some 5, outcome := some 1#8 }
    got (exec (.couplingLimit 5) s) fun t => !t.casc.coupling && t.casc.outcome = some 1#8),
   (let s := cascS fun c => { c with role := .trainMgr, train := [{ id := 5#32, mgr := 22#64 }] }
    let f := biarnF (biarnO 2 6 66 0 3 9 3 [0#8, 4#8]) 0x19ca1658794e079bc576cbf38dc5b365
    (biarnHdr f.octets).nconsist + s.casc.train.length = 4 && got (exec (.claim 5 7 f) s) fun t =>
      t.casc.role = .claiming && t.casc.claimAt = some 5 && t.casc.claimRounds = 1 && t.casc.wasTm && t.casc.bestKey.isSome),
   (let s := cascS fun c => { c with role := .worker, outcome := some 0#8 }
    let f := biarnF (biarnO 3 5 21 1 4 9 1 (beBytes 8 66 ++ beBytes 2 4)) 0x3e358eb78d7138da6a9839aac525e6ed
    got (exec (.couple 5 7 f) s) fun t => t.casc.coupling && t.casc.outcome = none &&
      t.casc.coupleEnd = some (5 + msC (100 * s.recByte 11)) && t.casc.tmId = 66#64),
   (let s := cascS fun c => { c with role := .deputy, coupling := true, members := [(1, 1)], readySlots := [2] }
    let f := biarnF (biarnO 4 5 21 1 1 0 0 [0#8]) 0x51627d7e8be6a2d00e6c14864d2d4d1f
    s.countedSlots.all (· ∈ s.casc.readySlots ++ [1]) && got (exec (.ready 5 7 f) s) fun t =>
      !t.casc.coupling && !t.sched.couplingHeld),
   (let s := cascS fun c => { c with role := .deputy, coupling := true, members := [(1, 1), (3, 1)], readySlots := [2] }
    let f := biarnF (biarnO 4 5 21 1 1 0 0 [0#8]) 0x51627d7e8be6a2d00e6c14864d2d4d1f
    !s.countedSlots.all (· ∈ s.casc.readySlots ++ [1]) && got (exec (.ready 5 7 f) s) fun t => t.casc.coupling && t.casc.readySlots = [2, 1]),
   (let s := cascS fun c => { c with role := .worker, coupling := true }
    let f := biarnF (biarnO 5 5 21 1 4 9 1 [0#8]) 0xfc6716f199b5f170ac7bba8c97861845
    got (exec (.release 5 7 f) s) fun t => !t.casc.coupling && !t.sched.couplingHeld),
   (let s := cascS fun c => { c with role := .claiming, claimAt := some 0, claimRounds := 2 }
    got (exec (.claimRound (msC 4)) s) fun t => t.casc.claimRounds = 3 && t.casc.txCount = 1),
   (let s := cascS fun c => { c with role := .claiming, claimAt := some 0, claimRounds := 3, bestCnt := 8#16 }
    got (exec (.claimEnd (msC 6)) s) fun t => t.casc.role = .trainMgr && t.casc.inaugCnt = 9#16 && t.casc.tmId = 22#64),
   (let s := cascS fun c => { c with role := .claiming, claimAt := some 0, claimRounds := 3, bestCnt := 8#16, bestKey := some (0#8, 21#64) }
    betterKey (0, 21) s.ownKey && got (exec (.claimEnd (msC 6)) s) fun t => t.casc.role = .deputy && t.casc.inaugCnt = 8#16 && t.casc.tmId = 21#64 && t.casc.coupling),
   (let s := { (cascS fun c => { c with role := .worker, coupling := true }) with time := { running := true, refSince := 2 } }
    s.recByte 10 ≤ s.time.refSince && got (exec (.couplingStep 5) s) fun t => t.sched.couplingHeld && t.casc.stepAuth &&
      t.time.step = some { why := .coupling, delta := none, authAt := 5 }),
   (let s := cascS fun c => { c with role := .worker, coupling := true, coupleEnd := some 5 }
    got (exec (.couplingLimit 5) s) fun t => !t.casc.coupling && !t.sched.couplingHeld && t.casc.outcome = some 3#8)]

/-- The record of an order: OP, SLOTS and BANK at 4 and 8, T or the set's length further on. -/
def orderS (f : Casc → Casc) (op : Nat) (ps : List (Nat × List Byte)) (s0 : State := up) : State :=
  let p := ps.foldl (fun m p => wrBytes m p.1 p.2) (wrBytes [] 0 [BitVec.ofNat 8 op])
  let s := { withCmd (cascS f) 0x54 [] p with sram := s0.sram }
  { s with sched := s0.sched }

/-- Bank 0 runs an image of two rows of 1 ms, and bank 1 holds the same image, VALID. -/
def bankPair : State :=
  let s := running []
  { s with sram := (goodBank 0) ++ goodBank 1,
           sched := { s.sched with banks := [(0, { state := .running }), (1, { state := .valid })] } }


/-- A set of one map record, for map 9, or of none, and a worker that applies it to bank 3. -/
def setOf (n m : Nat) : Memory := wrBytes (wrBytes (wrBytes [] 0 (leBytes 4 n)) 64 (leBytes 2 m ++ leBytes 2 0x8000)) (64 + 296 * n) (wrBytes [] 0 [0#8, 2#8] |> fun q => rdBytes q 0 8)

def applying (n m step : Nat) (f : Casc → Casc := id) : State :=
  cascS fun c => f { c with role := .worker, distApply := true, distIn := setOf n m, distBank := 3, distStep := step }

/-- Chunk `n` of a set of chunks up to `last`, for slot 2 and bank 3. -/
def chunkF (n last tag : Nat) : BiarnFrame :=
  biarnF (biarnO 6 5 21 1 3 9 1 ([2#8, 3#8] ++ beBytes 2 n ++ beBytes 2 last ++ zeros 2 ++ List.replicate 16 7#8)) tag

def w_DistributionAndSwaps : List Bool :=
  [ends (exec (.consistDistribute 0) up) up && ends (exec (.consistSwap 0) up) up && ends (exec (.distResendTimeout 5) up) (up.pass 5) && up.distNext = up,
   (let s := orderS mgr 1 [(4, leBytes 4 6), (8, [3#8]), (24, leBytes 4 64)]
    s.slotNum = 2 && got (exec (.consistDistribute 0) s) fun t => t.casc.distApply && t.casc.distLocal && t.casc.distBank = 3 &&
      t.casc.distOut.map (·.slot) = [1] && (t.bank 3).state = .loading),
   (let s := orderS (fun c => { mgr c with distApply := true, distIn := setOf 1 9 }) 1 [(4, leBytes 4 4), (8, [3#8]), (24, leBytes 4 64)]
    got (exec (.consistDistribute 0) s) fun t => t.casc.distOut.map (fun j => (j.slot, j.bank)) = [(2, 3)]),
   (let s := orderS mgr 2 [(8, [1#8]), (16, leBytes 8 20000000)]
    (s.swapCheck 1 (some 20000000)).1 ≠ 0 && got (exec (.consistSwap 0) s) fun t => t.sched = s.sched),
   (let s := cascS fun c => { c with role := .worker, mgrLost := true }
    got (exec (.distData 5 7 (chunkF 0 1 0x588c96cbf81da34d8509ef28f95bfbe5)) s) fun t => t.casc.distGot = [] && t.casc.txCount = 0#32),
   (let s := applying 1 9 0
    (got (exec (.distData 5 7 (chunkF 1 1 0xad85420a4245d9a0ba228ec1dbeab5b4)) s) fun t => t.casc.distApply && t.casc.distIn = s.casc.distIn && t.casc.txCount = 1#32) &&
      got (exec (.distData 5 7 (chunkF 0 1 0x588c96cbf81da34d8509ef28f95bfbe5)) s) fun t => t.casc.txCount = 0#32),
   (let s := cascS fun c => { c with role := .worker, distAt := some 99999, distBank := 3, distLast := 1, distGot := [0] }
    let f := biarnF (biarnO 6 5 21 1 3 9 1 ([2#8, 3#8] ++ beBytes 2 1 ++ beBytes 2 1 ++ zeros 2 ++ zeros 16)) 7745653352452506985520027102477922532
    got (exec (.distData 5 7 f) s) fun t => t.casc.distBank = 3 && t.casc.distAt = none),
   (let s := cascS fun c => { c with role := .worker, distAt := some 99999, distBank := 3, distLast := 2, distGot := [0] }
    got (exec (.distData 5 7 (chunkF 2 2 0xb024682793ead50d683b1d2ffb3b4003)) s) fun t => t.casc.distAsked = 1 && 2 ∈ t.casc.distGot && t.casc.txCount = 1#32),
   (let s := cascS fun c => { c with role := .worker, distAt := some 99999, distBank := 3, distLast := 2, distGot := [2], distAsked := 3 }
    got (exec (.distData 5 7 (chunkF 2 2 0xb024682793ead50d683b1d2ffb3b4003)) s) fun t => t.casc.distAsked = 4 && t.casc.txCount = 1#32),
   (let s := cascS fun c => { c with role := .worker, distAt := some 99999, distBank := 3, distLast := 2, distGot := [2], distAsked := 4 }
    got (exec (.distData 5 7 (chunkF 2 2 0xb024682793ead50d683b1d2ffb3b4003)) s) fun t => t.casc.distAt = none && t.casc.distGot = [] && t.casc.txCount = 0#32),
   (let s := cascS fun c => { mgr c with distOut := [{ slot := 1, bank := 3, set := [], resends := 3 }] }
    let f := biarnF (biarnO 7 5 21 1 1 0 0 [1#8, 0xFF#8, 0#8, 0#8, 0#8, 0#8]) 0x3643ec8806e52157f3c6aefdc4a426bc
    got (exec (.distResult 5 7 f) s) fun t => t.casc.distOut = []),
   (let s := cascS fun c => { mgr c with distOut := [{ slot := 1, bank := 3, set := [], resends := 3 }] }
    let f := biarnF (biarnO 7 5 21 1 1 0 0 [1#8, 0xFF#8, 0#8, 0#8, 0#8, 1#8]) 0x71a07af8d8356be9287360f74245ffe8
    got (exec (.distResult 5 7 f) s) fun t => t.casc.distOut = [{ slot := 1, bank := 3, set := [], resends := 1, missing := 1 }]),
   (let s := cascS mgr
    got (exec (.distResult 5 7 (biarnF (biarnO 7 5 21 1 1 0 0 (zeros 6)) 0xd6de76f4a457dc3090bd7d2041e5cdb3)) s) fun t => t.casc.distOut = []),
   (let s := cascS fun c => { c with role := .deputy, tmId := 66#64 }
    let f := biarnF (biarnO 8 6 66 0 3 9 3 ([1#8, 1#8] ++ zeros 6 ++ beBytes 8 20000000)) 97764248330161672791223783493680788937
    got (exec (.swap 5 7 f) s) fun t => t.casc.txCount = 2#32 && t.sched = s.sched),
   (let s := cascS fun c => { c with role := .worker, mgrLost := true }
    got (exec (.swap 5 7 (biarnF (biarnO 8 5 21 1 3 9 1 ([0#8, 1#8] ++ zeros 6 ++ beBytes 8 20000000)) 0x4799d00a9f88d52929e07f1ecba4cd7f)) s) fun t => t.sched = s.sched && t.casc.txCount = 0#32),
   (let s := applying 1 9 0
    s.distMaps = 1 && !s.mapBusy 9 && !s.mapProtected 9 && s.distNext.fab.routes.map (fun j => (j.src, j.dst, j.remote)) = [(9, 9, true)] && s.distNext.casc.distApply),
   (let s := applying 1 9 0
    got (exec (.distResendTimeout 5) s) fun t => t.casc.distApply && !t.fab.routes.isEmpty),
   (let s := applying 1 1024 0
    !s.distNext.casc.distApply && s.distNext.sram = s.sram && s.distNext.fab = s.fab),
   (let s := { applying 1 9 0 with fab := { inForce := some 9 } }
    s.mapProtected 9 && !s.distNext.casc.distApply && s.distNext.sram = s.sram),
   (let s := { applying 1 9 0 with fab := { routes := [{ ring := 0, idx := 0, src := 9, dst := 8, base := none, since := 0, gen := 0#8 }] } }
    s.mapBusy 9 && s.distNext = s),
   (let s := applying 1 9 0 fun c => { c with distIn := wrBytes (setOf 1 9) 66 (leBytes 2 8) }
    !s.mapRouted 8 && !s.distNext.casc.distApply && s.distNext.fab.routes = []),
   (let s := applying 0 9 0
    (s.distNext.bank 3).state = .loading && (s.distNext.bank 3).remote && s.distNext.casc.distApply && rd s.distNext.sram (bankBase 3 + 1) = 2#8),
   (let s := { applying 0 9 0 with sched := { banks := [(3, { state := .pending })] } }
    !s.distNext.casc.distApply && s.distNext.sched = s.sched),
   (let s := { applying 0 9 0 with sched := { banks := [(3, { state := .loading })] } }
    decide (s.distNext = s)),
   (let s := { applying 0 9 0 fun c => { c with distOut := [{ slot := 2, bank := 1, set := [3#8] }] } with sched := { banks := [(3, { state := .pending })] } }
    s.distNext.casc.distApply && s.distNext.casc.distBank = 1 && s.distNext.casc.distIn = [(0, 3#8)] && s.distNext.casc.distOut = []),
   (let j : RouteJob := { ring := 0, idx := 0, src := 9, dst := 9, base := none, since := 0, gen := 0#8, remote := true }
    let s := { applying 1 9 0 with fab := { routes := [j], dirs := [(9, { state := .loaded })] } }
    (got (exec (.routeDone 5) s) fun t => t.casc.distStep = 1 && t.fab.routes = []) &&
      (let s := { s with casc := { s.casc with distApply := false } }
       got (exec (.routeDone 5) s) fun t => t.casc = s.casc && t.fab.routes = []) &&
      (let s := { s with fab := { s.fab with failGen := 4#8 } }
       ends (exec (.routeDone 5) s) ((s.pass 5).onFab fun x => { x with routes := [{ j with gen := 4#8, since := 5 }] }))),
   (let s := { applying 0 9 0 with sched := { banks := [(3, { state := .loading, remote := true })] } }
    (got (exec (.bankLoadChecked 5 3) s) fun t => !t.casc.distApply && (t.bank 3).state = (if (s.checkBank 3).status = 0 then .valid else .refused)) &&
      (let s := { s with casc := { s.casc with distApply := false } }
       got (exec (.bankLoadChecked 5 3) s) fun t => t.casc = s.casc)),
   (let s := orderS (fun c => { c with role := .worker }) 1 []
    !s.mayOrder && (s.readyHead 0 0x54).any fun e => ends (exec (.consistDistribute 0) s) (s.refuseRole 0 e 7)),
   (let s := orderS mgr 1 [(4, leBytes 4 2), (8, [3#8]), (24, leBytes 4 64)]
    s.mayOrder && 1 ∈ maskList (lef (rdBytes (cmdE 0x54 [] (((s.ring 0).entries.map (·.payload)).flatten)).payload 0 32) 4 4) 32 &&
      got (exec (.consistDistribute 0) s) fun t => t.casc.distOut.map (fun j => (j.slot, j.bank, j.resends)) = [(1, 3, 0)]),
   (let s := orderS (fun c => { c with role := .worker }) 2 []
    !s.mayOrder && ends (exec (.consistDistribute 0) s) s && (s.readyHead 0 0x54).any fun e => ends (exec (.consistSwap 0) s) (s.refuseRole 0 e 7)),
   (let s := orderS mgr 2 [(16, leBytes 8 19999999)]
    ends (exec (.consistSwap 0) s) (s.finishCmd 0 0 8 false)),
   (let s := orderS mgr 2 [(8, [1#8]), (16, leBytes 8 20000000)] bankPair
    (s.swapCheck 1 (some 20000000)).1 = 0 && got (exec (.consistSwap 0) s) fun t =>
      t.sched.swap = some { bank := 1, boundary := (s.swapCheck 1 (some 20000000)).2, issuer := none }),
   (let s := cascS fun c => { c with role := .worker, distAt := some 99999, distBank := 3, distLast := 1 }
    let f := biarnF (biarnO 6 5 21 1 3 9 1 ([2#8, 3#8, 0#8, 0#8, 0#8, 1#8, 0#8, 0#8] ++ List.replicate 16 7#8)) 0x588c96cbf81da34d8509ef28f95bfbe5
    got (exec (.distData 5 7 f) s) fun t => 0 ∈ t.casc.distGot && t.casc.distAt = some (5 + msC 50) &&
      rdBytes t.casc.distIn 0 16 = List.replicate 16 7#8),
   (let s := cascS fun c => { mgr c with distOut := [{ slot := 1, bank := 3, set := [] }] }
    let f := biarnF (biarnO 7 5 21 1 1 0 0 (zeros 6)) 0xd6de76f4a457dc3090bd7d2041e5cdb3
    got (exec (.distResult 5 7 f) s) fun t => t.casc.distOut = []),
   (let s := { (cascS fun c => { c with role := .worker }) with sram := bankPair.sram, sched := bankPair.sched }
    let f := biarnF (biarnO 8 5 21 1 3 9 1 ([0#8, 1#8] ++ zeros 6 ++ beBytes 8 20000000)) 0x4799d00a9f88d52929e07f1ecba4cd7f
    ((s.pass 5).swapCheck 1 (some 20000000)).1 = 0 && got (exec (.swap 5 7 f) s) fun t =>
      t.sched.swap = some { bank := 1, boundary := ((s.pass 5).swapCheck 1 (some 20000000)).2, issuer := none }),
   (let s := cascS fun c => { mgr c with cnt := [(0, 2 ^ 32 - 1)] }
    let f := biarnF (biarnO 9 5 21 1 1 0 0 (zeros 16)) 0xc4ac3b685dc2878cfef513a308f40b2b
    got (exec (.swapResult 5 7 f) s) fun t => t.sched = s.sched && t.casc.role = .trainMgr &&
      tget (fun _ => 0) t.casc.cnt 0 = 2 ^ 32 - 1),
   (let s := cascS fun c => { c with role := .worker, distAt := some 5, distAsked := 2 }
    got (exec (.distResendTimeout 5) s) fun t => t.casc.distAsked = 3 && t.casc.distAt = some (5 + msC 50)),
   (let s := cascS fun c => { c with role := .worker, distAt := some 5, distAsked := 4, distGot := [1], distIn := [(0, 1#8)] }
    got (exec (.distResendTimeout 5) s) fun t => t.casc.distGot = [] && t.casc.distAt = none && t.casc.distIn = [])]

theorem holds_FramesSentAndReceived_1 : (w_FramesSentAndReceived.take 15).all id = true := by decide +kernel

theorem holds_FramesSentAndReceived_2 : (w_FramesSentAndReceived.drop 15).all id = true := by decide +kernel

theorem holds_LinksShapersAndLaneSettings : w_LinksShapersAndLaneSettings.all id = true := by decide +kernel

theorem holds_WheelStreamsAndSlots_1 : (w_WheelStreamsAndSlots.take 15).all id = true := by decide +kernel

theorem holds_WheelStreamsAndSlots_2 : (w_WheelStreamsAndSlots.drop 15).all id = true := by decide +kernel

theorem holds_MembersAndManagers_1 : (w_MembersAndManagers.take 7).all id = true := by decide +kernel

theorem holds_MembersAndManagers_2 : ((w_MembersAndManagers.drop 7).take 10).all id = true := by decide +kernel

theorem holds_MembersAndManagers_3 : (w_MembersAndManagers.drop 17).all id = true := by decide +kernel

theorem holds_ElectionAndCoupling_1 : (w_ElectionAndCoupling.take 7).all id = true := by decide +kernel

theorem holds_ElectionAndCoupling_2 : ((w_ElectionAndCoupling.drop 7).take 1).all id = true := by decide +kernel

theorem holds_ElectionAndCoupling_3 : ((w_ElectionAndCoupling.drop 8).take 1).all id = true := by decide +kernel

theorem holds_ElectionAndCoupling_4 : (w_ElectionAndCoupling.drop 9).all id = true := by decide +kernel

theorem holds_DistributionAndSwaps_1 : (w_DistributionAndSwaps.take 5).all id = true := by decide +kernel

theorem holds_DistributionAndSwaps_2 : ((w_DistributionAndSwaps.drop 5).take 4).all id = true := by decide +kernel

theorem holds_DistributionAndSwaps_3 : ((w_DistributionAndSwaps.drop 9).take 11).all id = true := by decide +kernel

theorem holds_DistributionAndSwaps_4 : ((w_DistributionAndSwaps.drop 20).take 14).all id = true := by decide +kernel

theorem holds_DistributionAndSwaps_5 : (w_DistributionAndSwaps.drop 34).all id = true := by decide +kernel


/-! Hypotheses that a value of the module's calibration or trajectory decides (assumptions 11 and 12) are met whatever
that value is. -/

/-- Map 1 has one connection, whose light takes output 0 of cell 0 in BAR. -/
def oneWay (x : Cell) (ps : Memory := []) : State :=
  { up with fab := { chambers := [(0, { pstate := .on })], dirs := [(1, { state := .routed })], inForce := some 1 },
            sram := (onePort 0 1).map (fun p => (mapBase 1 + 256 + p.1, p.2)),
            loop := { cells := [(0, x)], profiles := ps } }

/-- An O profile of coefficient 1 at the check and TRIM_MAX step 0: any leakage error fails the check. -/
def profC : Memory := prof 1 2 1 [(12, leBytes 4 1)]

/-- Cell 0 in mode `m` with its check outstanding, in the period whose results are posted at cycle 1136. -/
def dim (m : Mode) : State := (oneWay { mode := m, o := { check := true } } profC).pass 1136

/-- The same with the taps written. -/
def tapped (m : Mode) (t0 t1 : Word) : State :=
  ((dim m).modCell 0 Cell.takeO).modCell 0 fun x =>
    { x with o := { x.o with tap0 := t0, tap1 := t1, period := some (convOf 0 (dim m).now) } }

theorem tapped_hops (m : Mode) : (tapped m 1#32 0#32).hopsAt 0 = [(⟨0, false, false⟩, none)] ∧
    (tapped m 0#32 1#32).hopsAt 0 = [(⟨0, false, false⟩, none)] := by
  cases m <;> decide +kernel

theorem tapped_taps (m : Mode) : (((tapped m 1#32 0#32).cell 0).o.tap0 = 1#32 ∧ ((tapped m 1#32 0#32).cell 0).o.tap1 = 0#32) ∧
    ((tapped m 0#32 1#32).cell 0).o.tap0 = 0#32 ∧ ((tapped m 0#32 1#32).cell 0).o.tap1 = 1#32 := by
  cases m <;> decide +kernel

theorem tapped_none (m : Mode) : (tapped m 1#32 0#32).estimate 0 = some (some 0) := by
  have h := (tapped_taps m).1
  simp [State.estimate, (tapped_hops m).1, State.hopPower, Hop.out, State.outPower, h.1, h.2, fraction, clampI, State.inputLit]
  omega

theorem tapped_all (m : Mode) : (tapped m 0#32 1#32).estimate 0 = some (some 1073741824) := by
  have h := (tapped_taps m).2
  have hd : (1 + ((Config.tapGain 0 true : Nat) : Int)) * 1073741824 / (1 + (Config.tapGain 0 true : Nat)) = 1073741824 :=
    Int.mul_ediv_cancel_left _ (by omega)
  simp [State.estimate, (tapped_hops m).2, State.hopPower, Hop.out, State.outPower, h.1, h.2, fraction, clampI, State.inputLit,
    Int.add_comm, hd]
  omega

/-- The reading of the taps with the estimate `l`. -/
def bright (m : Mode) (t0 t1 : Word) (l : Int) : State :=
  let s := tapped m t0 t1
  let dark := if s.isLit 0 then 0 else (s.cell 0).o.dark + 1
  s.modCell 0 fun x =>
    { x with o := { x.o with dark := dark, lam := l, holdSmp := false,
                             retry := if s.lossCount 0 ≤ dark then none else x.o.retry } }

theorem dim_reads (m : Mode) : (dim m).readTaps 0 1#32 0#32 = (some 0, bright m 1#32 0#32 0) ∧
    (dim m).readTaps 0 0#32 1#32 = (some 1073741824, bright m 0#32 1#32 1073741824) := by
  have h0 := tapped_none m
  have h1 := tapped_all m
  simp only [tapped] at h0 h1
  simp only [State.readTaps, h0, h1, bright, tapped, decide_eq_true_eq]
  exact ⟨rfl, rfl⟩

theorem dim_due (m : Mode) : (dim m).periodDue 0 = true := by cases m <;> decide +kernel

/-- What a check of the reading with light on one tap looks at. -/
def plain (u : State) : Bool :=
  u.mayCheck 0 && u.isLit 0 && u.coef 1 2 = 1 && u.shift 1 2 = 0 && u.param 1 2 = 0 && (u.cell 0).oidx = 1#8 && !(u.cell 0).state &&
    (u.cell 0).stitchRaw + (u.cell 0).settledIn < convOf 0 u.now

theorem bright_plain : plain (bright .holdPosition 1#32 0#32 0) = true ∧ plain (bright .holdPosition 0#32 1#32 1073741824) = true := by
  constructor <;> decide +kernel

theorem sat32_eq_zero {x : Int} : sat32 x = 0 ↔ x = 0 := by simp only [sat32, clampI]; omega

theorem fails_iff {u : State} (h : plain u = true) (l : Int) : u.checkPasses 0 (some l) = decide (l = relLeak 0 false) := by
  simp only [plain, Bool.and_eq_true, decide_eq_true_eq, Bool.not_eq_true'] at h
  obtain ⟨⟨⟨⟨⟨⟨⟨-, -⟩, hc⟩, hs⟩, hp⟩, ho⟩, hx⟩, -⟩ := h
  have hz : ∀ x, mag (sat32 x) ≤ 0 ↔ x = 0 := by
    intro x; rw [← sat32_eq_zero (x := x)]; simp [mag]
  simp only [State.checkPasses, State.term, ho, hx, leakError]
  simp only [show (BitVec.toNat 1#8) = 1 from rfl, hc, hs, hp, asr, hz]
  split <;> simp [sat32_eq_zero] <;> omega

/-- The hypotheses of HandOverAndOptics on a check that fails: the check of one of two readings does. -/
theorem holds_HandOverAndOptics_check : ∃ t0 t1 : Word, (dim .holdPosition).periodDue 0 = true ∧
    plain ((dim .holdPosition).readTaps 0 t0 t1).2 = true ∧
    ((dim .holdPosition).readTaps 0 t0 t1).2.checkPasses 0 ((dim .holdPosition).readTaps 0 t0 t1).1 = false := by
  by_cases h : relLeak 0 false = 0
  · refine ⟨0#32, 1#32, dim_due _, ?_, ?_⟩ <;> rw [(dim_reads _).2]
    · exact bright_plain.2
    · exact (fails_iff bright_plain.2 _).trans (by rw [h]; decide)
  · refine ⟨1#32, 0#32, dim_due _, ?_, ?_⟩ <;> rw [(dim_reads _).1]
    · exact bright_plain.1
    · exact (fails_iff bright_plain.1 _).trans (decide_eq_false (Ne.symm h))

/-- Of a cell in HOLD-OPTICAL an estimate is formed. -/
theorem holds_HandOverAndOptics_trim : ((bright .holdOptical 0#32 1#32 1073741824).cell 0).mode = .holdOptical ∧
    ((dim .holdOptical).readTaps 0 0#32 1#32).1 = some 1073741824 := ⟨by decide +kernel, by rw [(dim_reads _).2]⟩

/-- Cell 2047 on its trajectory as given, at raw count `dt`. -/
def nearly (x : Cell) (dt : Nat) : State := (cellS { x with mode := .trajectory } profM).pass dt

/-- What the settle test of a sample looks at. -/
def onTrack (u : State) : Bool :=
  (u.cell 2047).mode = .trajectory && u.calOf 2047 = {} && (u.cell 2047).m.resume.isNone && u.frameDue 2047 &&
    (u.cell 2047).stitchRaw + nsC 400 ≤ u.aperture 2047

theorem nearly_tracks :
    onTrack (nearly { stitching := true, m := { settle := 3 } } 623) = true ∧
    onTrack (nearly { stitching := true, m := { settle := 2 } } 623) = true ∧
    onTrack (nearly { stitching := true, m := { settle := 3 } } 1007) = true ∧
    onTrack (nearly { recovering := true, m := { settle := 3 } } 1007) = true := by
  refine ⟨?_, ?_, ?_, ?_⟩ <;> decide +kernel

/-- The first three lie in time, the last two late. -/
theorem nearly_times : (nearly { stitching := true } 623).aperture 2047 ≤ (nearly {} 623).settleNs * 1024 / 1000 ∧
    (nearly {} 1007).settleNs * 1024 / 1000 < (nearly { stitching := true } 1007).aperture 2047 := by decide +kernel

theorem sat32_sw (w : Word) : sat32 (sw w) = sw w := by
  have h1 := w.le_toInt; have h2 := w.toInt_lt
  simp only [sat32, clampI, sw]; omega

/-- The set-point of a trajectory is a 32-bit number, whichever it is. -/
theorem setPoint_word {v : State} (hm : (v.cell 2047).mode = .trajectory) (hc : v.calOf 2047 = {}) :
    ∃ w : Word, ∀ y, (v.setPoint 2047 y).1 = sw w := by
  by_cases ht : v.aperture 2047 + 12 - (v.cell 2047).stitchRaw < Config.trajLen 2047 (v.cell 2047).state
  · exact ⟨Config.trajPos 2047 (v.cell 2047).state (v.aperture 2047 + 12 - (v.cell 2047).stitchRaw),
      fun y => by simp only [State.setPoint, hm, if_pos ht]⟩
  · refine ⟨Config.calPos 2047 (v.cell 2047).state, fun y => ?_⟩
    simp only [State.setPoint, hm, if_neg ht, State.calHold, hc]
    have h0 : (if (v.cell 2047).state = true then ({} : CalOffset).posCross else ({} : CalOffset).posBar) = 0 := by split <;> rfl
    rw [h0, Int.add_zero, sat32_sw]

/-- On a trajectory there are a sample in the band and one out of it. -/
theorem onTrack_samples {v : State} (h : onTrack v = true) (hb : v.settleBand < 2147483647) :
    (∃ w : Word, mag (v.mStep 2047 (sat32 (sw w + (v.calOf 2047).lin))).e0 ≤ v.settleBand) ∧
      ∃ w : Word, v.settleBand < mag (v.mStep 2047 (sat32 (sw w + (v.calOf 2047).lin))).e0 := by
  simp only [onTrack, Bool.and_eq_true, decide_eq_true_eq] at h
  obtain ⟨⟨⟨⟨hm, hc⟩, -⟩, -⟩, -⟩ := h
  obtain ⟨w, hw⟩ := setPoint_word hm hc
  have hy : ∀ x : Word, sat32 (sw x + (v.calOf 2047).lin) = sw x := by
    intro x; rw [hc, show ({} : CalOffset).lin = 0 from rfl, Int.add_zero, sat32_sw]
  have he : ∀ x : Word, (v.mStep 2047 (sat32 (sw x + (v.calOf 2047).lin))).e0 = sat32 (sw w - sw x) := by
    intro x; rw [hy]; simp only [State.mStep, hm, hw]; rfl
  refine ⟨⟨w, by rw [he, Int.sub_self]; exact Nat.zero_le _⟩, ?_⟩
  by_cases hs : 0 ≤ sw w
  · refine ⟨0x80000000#32, ?_⟩
    rw [he, show sw 0x80000000#32 = -2147483648 from by decide]
    simp only [sat32, clampI, mag]; omega
  · refine ⟨0x7FFFFFFF#32, ?_⟩
    rw [he, show sw 0x7FFFFFFF#32 = 2147483647 from by decide]
    simp only [sat32, clampI, mag]; omega

/-- A sample with no analog hold behind it, on the profile now selected. -/
theorem takes_same {u : State} (h : u.modCell 2047 Cell.takeM = u) (hr : (u.cell 2047).m.resume = none) (y : Int) :
    (u.modCell 2047 Cell.takeM).resumeTrim 2047 y = u := by
  rw [h]; simp only [State.resumeTrim, hr]

theorem nearly_takes :
    (nearly { stitching := true, m := { settle := 3 } } 623).modCell 2047 Cell.takeM = nearly { stitching := true, m := { settle := 3 } } 623 ∧
    (nearly { stitching := true, m := { settle := 2 } } 623).modCell 2047 Cell.takeM = nearly { stitching := true, m := { settle := 2 } } 623 ∧
    (nearly { stitching := true, m := { settle := 3 } } 1007).modCell 2047 Cell.takeM = nearly { stitching := true, m := { settle := 3 } } 1007 ∧
    (nearly { recovering := true, m := { settle := 3 } } 1007).modCell 2047 Cell.takeM = nearly { recovering := true, m := { settle := 3 } } 1007 := by
  refine ⟨?_, ?_, ?_, ?_⟩ <;> decide +kernel

/-- What the samples of a trajectory need, in the band and out of it. -/
def Samples (u : State) : Prop :=
  onTrack u = true ∧ (∃ w : Word, mag (u.mStep 2047 (sat32 (sw w + (u.calOf 2047).lin))).e0 ≤ u.settleBand) ∧
    ∃ w : Word, u.settleBand < mag (u.mStep 2047 (sat32 (sw w + (u.calOf 2047).lin))).e0

theorem bands : (nearly { stitching := true, m := { settle := 3 } } 623).settleBand < 2147483647 ∧
    (nearly { stitching := true, m := { settle := 2 } } 623).settleBand < 2147483647 ∧
    (nearly { stitching := true, m := { settle := 3 } } 1007).settleBand < 2147483647 ∧
    (nearly { recovering := true, m := { settle := 3 } } 1007).settleBand < 2147483647 := by decide +kernel

/-- The hypotheses of SamplesOfTheMainLoop on the samples of a trajectory: the fourth in the band and an earlier one, in
time; the fourth late, of a stitch and of a dropped one. -/
theorem holds_SamplesOfTheMainLoop_settles : Samples (nearly { stitching := true, m := { settle := 3 } } 623) ∧
    Samples (nearly { stitching := true, m := { settle := 2 } } 623) ∧ Samples (nearly { stitching := true, m := { settle := 3 } } 1007) ∧
    Samples (nearly { recovering := true, m := { settle := 3 } } 1007) := by
  obtain ⟨h1, h2, h3, h4⟩ := nearly_tracks
  obtain ⟨b1, b2, b3, b4⟩ := bands
  exact ⟨⟨h1, onTrack_samples h1 b1⟩, ⟨h2, onTrack_samples h2 b2⟩, ⟨h3, onTrack_samples h3 b3⟩, ⟨h4, onTrack_samples h4 b4⟩⟩


/-! ### Ill-formed commands -/

theorem ill_powerUp : (Instr.powerUp ⟨false, 0#5, 0#2⟩ 899#16).wf = false := by decide
theorem ill_modrst : (Instr.modrst 0x7FFFFFFF#32).wf = false := by decide
theorem ill_makerPrivate : (Instr.makerPrivateInstruction 0xC0#8).wf = false := by decide
theorem ill_bypass : (Instr.bypass 0x80#8).wf = false ∧ (Instr.bypass 4#8).wf = false := by decide
theorem ill_smbRefused : (Instr.smbRefused false 6#8).wf = false := by decide
theorem ill_errRelease : (Instr.errRelease 1#32).wf = false := by decide
theorem ill_allClr : (Instr.allClr 0x80000000#32).wf = false := by decide
theorem ill_lowWordRead : (Instr.lowWordRead 0x20004).wf = false := by decide +kernel
theorem ill_registerWrite : (Instr.registerWrite 0x100 9 0#64).wf = false ∧ (Instr.registerWrite 0xFFFFC 8 0#64).wf = false ∧
    (Instr.registerWrite 0x8FFFFC 8 0#64).wf = false ∧ (Instr.registerWrite 0x100 0 0#64).wf = false := by decide
theorem ill_revoke : (Instr.revoke 0x80000000#32).wf = false := by decide
theorem ill_badAlignRead : (Instr.badAlignRead 0x1000 4).wf = false := by decide
theorem ill_fetchEntry : (Instr.entryFetch 0 3 [⟨some (zeros 63), none, none⟩] true).wf = false := by decide
theorem ill_fetchPayload : (Instr.entryFetch 0 3 [⟨none, some [(0, 0#8)], none⟩] true).wf = false := by decide
theorem ill_fetchAuth : (Instr.entryFetch 0 3 [⟨none, none, some []⟩] true).wf = false := by decide
theorem ill_frameReceive : (Instr.frameReceive 0 0 ⟨zeros 13, .none, none⟩).wf = false := by decide
theorem ill_announce : (Instr.announceTransmit 0 0 0 (zeros 45)).wf = false := by decide
theorem ill_biarn : (Instr.heartbeat 0 0 ⟨zeros 13, zeros 16, []⟩).wf = false ∧ (Instr.claim 0 0 ⟨zeros 14, zeros 15, []⟩).wf = false ∧
    (Instr.couple 0 0 ⟨zeros 14, zeros 15, []⟩).wf = false ∧ (Instr.ready 0 0 ⟨zeros 14, zeros 15, []⟩).wf = false ∧
    (Instr.release 0 0 ⟨zeros 14, zeros 15, []⟩).wf = false ∧ (Instr.distData 0 0 ⟨zeros 14, zeros 15, []⟩).wf = false ∧
    (Instr.distResult 0 0 ⟨zeros 14, zeros 15, []⟩).wf = false ∧ (Instr.swap 0 0 ⟨zeros 14, zeros 15, []⟩).wf = false ∧
    (Instr.swapResult 0 0 ⟨zeros 14, zeros 15, []⟩).wf = false ∧ (Instr.swapResult 0 0 ⟨zeros 14, zeros 16, [0#8]⟩).wf = false := by decide
theorem ill_chamberRegisters : (Instr.flowstoneClear 0 0x80000000#32).wf = false ∧ (Instr.traceArm 0 0x40000000#32).wf = false ∧
    (Instr.swtrig 0 0x80000000#32).wf = false ∧ (Instr.wearSummaryNow 1#32).wf = false := by decide
theorem ill_dma : (Instr.dmaStart ⟨0, []⟩ 0 0xC0000000#32).wf = false ∧ (Instr.dmaAbort ⟨0, []⟩ 0 0x80000000#32).wf = false ∧
    (Instr.dmaTrigger 6#6 false).wf = false := by decide
/-- A read of 4 bytes at 0 by a master, of a class. -/
def busR (m : Master) (c : TrafficClass) : BusReq :=
  { master := m, cls := c, id := 0, addr := 0, len := 4, write := false, data := [], first := false, rest := 0 }

theorem ill_busAccess : (Instr.remapWrite ⟨0, [busR 1 .bulk]⟩ 0#32).wf = false ∧ (Instr.remapWrite ⟨0, [busR 3 .control]⟩ 0#32).wf = false ∧
    (Instr.remapWrite ⟨0, [busR 2 .locked]⟩ 0#32).wf = false ∧ (Instr.remapWrite ⟨0, [{ busR 2 .bulk with addr := 2 }]⟩ 0#32).wf = false ∧
    (Instr.remapWrite ⟨0, [{ busR 2 .bulk with len := 6 }]⟩ 0#32).wf = false ∧ (Instr.remapWrite ⟨0, [{ busR 2 .bulk with len := 0 }]⟩ 0#32).wf = false ∧
    (Instr.remapWrite ⟨0, [{ busR 2 .bulk with addr := 0xFFFFFFFC, len := 8 }]⟩ 0#32).wf = false ∧
    (Instr.remapWrite ⟨0, [{ busR 2 .bulk with write := true }]⟩ 0#32).wf = false ∧ (Instr.remapWrite ⟨0, [{ busR 2 .bulk with rest := 1 }]⟩ 0#32).wf = false ∧
    (Instr.remapWrite ⟨0, [{ busR 2 .control with addr := 60, len := 8 }]⟩ 0#32).wf = false ∧
    (Instr.remapWrite ⟨0, [{ busR 0 .locked with first := true }]⟩ 0#32).wf = false ∧
    (Instr.remapWrite ⟨0, [{ busR 0 .locked with rest := 3 }]⟩ 0#32).wf = false ∧ (Instr.remapWrite ⟨0, [busR 2 .bulk]⟩ 0#32).wf = true := by decide
theorem ill_faultFire : (Instr.faultFire 0 32 0#16 true).wf = false := by decide
theorem ill_selfTest : (Instr.selfTestStart 0x40000000#32).wf = false ∧ (Instr.selfTestStop 0x80000000#32).wf = false := by decide
theorem ill_grantRequest : (Instr.secGrantRequest 0 0x40000000#32 true).wf = false := by decide

/-! ### Worked examples of the manual -/

/-- 02_fabric_and_ports.md, worked example "fabric input 77, all cells in BAR": cells within their galleries, and inputs. -/
theorem test_path77 : (tracePath (fun _ => false) 77).2 = 77 ∧
    (tracePath (fun _ => false) 77).1.map (fun h => (h.cell / 128, h.cell % 128, h.inp)) =
      [(0, 38, true), (1, 39, false), (2, 38, true), (3, 38, true), (4, 46, false), (5, 54, false), (6, 38, true), (7, 102, false),
       (8, 102, false), (9, 38, true), (10, 54, false), (11, 46, false), (12, 38, true), (13, 38, true), (14, 39, false),
       (15, 38, true)] := by decide +kernel

/-- 02_fabric_and_ports.md, "Two routes and failed cells": with cell 1,126 STUCK_BAR the connection from 77 to 204 takes
route A, and with cell 998 STUCK_BAR route B. -/
theorem test_routes77 :
    (match (route [⟨1126, .stuckBar, .installer⟩] none [(77, 204)]).1 with
     | some v => v.contains (998, true) && v.contains (1126, false)
     | none => false) = true ∧
    (match (route [⟨998, .stuckBar, .installer⟩] none [(77, 204)]).1 with
     | some v => v.contains (998, false) && v.contains (1126, true)
     | none => false) = true := by decide +kernel

/-- 04_element_loops.md, the ramp example: steps of 3,277 from 120 nm to 122 nm, a turn at 121 nm, and the target 119.5 nm
on the 30th sample after it, not on the 29th. -/
theorem test_ramp : (let up := (List.range 20).foldl (fun r _ => rampStep r (122 * 65536) 3277) (120 * 65536)
    up = 120 * 65536 + 20 * 3277 ∧ rampStep up (239 * 32768) 3277 = up - 3277 ∧
      (List.range 30).foldl (fun r _ => rampStep r (239 * 32768) 3277) up = 239 * 32768 ∧
      (List.range 29).foldl (fun r _ => rampStep r (239 * 32768) 3277) up ≠ 239 * 32768) := by decide +kernel

/-- 06_network_time.md, event compare across wrap: at T40 FF_FFFF_FF00h an event at 100h is 512 ns ahead, and one that lies
2^39 behind is due. -/
theorem test_wrap : (let s := { up with time := { running := true, aNt := 0xFFFFFFFF00 * 65536 } }
    s.isDue 0x100 = false ∧ s.isDue (0xFFFFFFFF00 - 2 ^ 39) = true) := by decide +kernel

/-- 08_scheduled_endpoint.md, the guard band: a 1,522-octet frame occupies 489.6 ns at 25 Gb/s. -/
theorem test_frameTime : (8 + 1522) * ({ rate := 1#2 } : Lane).oct25 * 10 = 25 * 4896 * 65536 := by decide +kernel

/-- 10_command_and_completion_formats.md, "a static change and its completion": the completed control words. -/
theorem test_completionWord :
    (match (withCmd up 0x03).finishCmd 0 0 0 true |>.out.getLast? with
     | some (.hostWrite 0 b) => lef b 0 4 == 0xD0000003
     | _ => false) = true ∧
    (match (withCmd up 0x03).finishCmd 0 0 0x17 true |>.out.getLast? with
     | some (.hostWrite 0 b) => lef b 0 4 == 0xD0001703
     | _ => false) = true := by decide +kernel

end Sys2Proof.Tests
end

section
/-! SUPPORT. The register map: an offset within a copy of a register belongs to that copy alone, so a write of one register
leaves every other, and what the marks of the present cycle hold. -/

namespace Sys2Proof.Machine

/-- Bytes from the start of one outer copy to the end of its last inner one. -/
def RegInfo.width (f : RegInfo) : Nat := (f.n2 - 1) * f.step2 + f.bytes

/-- The copies of a register do not overlap each other. -/
def RegInfo.spaced (f : RegInfo) : Bool := decide (0 < f.n2) && decide (f.bytes ≤ f.step2) && decide (f.n2 * f.step2 ≤ f.step1)

/-- No copy of `f` overlaps one of `g`: their whole ranges are apart, or they repeat at one distance and lie apart
within it. -/
def RegInfo.apart (f g : RegInfo) : Bool :=
  decide (f.base + (f.n1 - 1) * f.step1 + f.width ≤ g.base) || decide (g.base + (g.n1 - 1) * g.step1 + g.width ≤ f.base) ||
    (decide (f.step1 = g.step1) && decide (f.base % f.step1 + f.width ≤ f.step1) && decide (g.base % g.step1 + g.width ≤ g.step1) &&
      (decide (f.base % f.step1 + f.width ≤ g.base % g.step1) || decide (g.base % g.step1 + g.width ≤ f.base % f.step1)))

theorem mem_allRegs (r : Reg) : r ∈ allRegs := by cases r <;> decide

theorem spaced_allRegs : ∀ r ∈ allRegs, r.info.spaced = true := by decide +kernel

theorem apart_allRegs : ∀ r ∈ allRegs, ∀ q ∈ allRegs, r = q ∨ r.info.apart q.info = true := by decide +kernel

theorem Reg.spaced_info (r : Reg) : 0 < r.info.n2 ∧ r.info.bytes ≤ r.info.step2 ∧ r.info.n2 * r.info.step2 ≤ r.info.step1 := by
  have := spaced_allRegs r (mem_allRegs r)
  simpa only [RegInfo.spaced, Bool.and_eq_true, decide_eq_true_eq, and_assoc] using this

/-- An inner copy and a byte in it lie below the next outer copy. -/
theorem Reg.inner_lt (r : Reg) {j b : Nat} (hj : j < r.info.n2) (hb : b < r.info.bytes) :
    j * r.info.step2 + b < r.info.step1 := by
  obtain ⟨-, hs, hn⟩ := r.spaced_info
  have h : (j + 1) * r.info.step2 ≤ r.info.n2 * r.info.step2 := Nat.mul_le_mul_right _ hj
  rw [Nat.add_mul] at h
  omega

/-- The bytes of a copy are found there. -/
theorem Reg.find_addr (r : Reg) {i b : Nat} (hi : i < r.count) (hb : b < r.info.bytes) :
    r.find (r.addr i + b) = some (i, b) := by
  obtain ⟨hp, hs, -⟩ := r.spaced_info
  have hj : i % r.info.n2 < r.info.n2 := Nat.mod_lt _ hp
  have hlt := r.inner_lt hj hb
  have hq : i / r.info.n2 < r.info.n1 := Nat.div_lt_of_lt_mul (by rw [Nat.mul_comm]; exact hi)
  have ho : r.addr i + b - r.info.base = i / r.info.n2 * r.info.step1 + (i % r.info.n2 * r.info.step2 + b) := by
    unfold Reg.addr; omega
  have hn : ¬ r.addr i + b < r.info.base := by unfold Reg.addr; omega
  have h1 : (i / r.info.n2 * r.info.step1 + (i % r.info.n2 * r.info.step2 + b)) / r.info.step1 = i / r.info.n2 := by
    rw [Nat.mul_comm, Nat.mul_add_div (by omega), Nat.div_eq_of_lt hlt, Nat.add_zero]
  have h2 : (i / r.info.n2 * r.info.step1 + (i % r.info.n2 * r.info.step2 + b)) % r.info.step1 =
      i % r.info.n2 * r.info.step2 + b := by
    rw [Nat.mul_comm, Nat.mul_add_mod, Nat.mod_eq_of_lt hlt]
  have h3 : (i % r.info.n2 * r.info.step2 + b) / r.info.step2 = i % r.info.n2 := by
    rw [Nat.mul_comm, Nat.mul_add_div (by omega), Nat.div_eq_of_lt (by omega), Nat.add_zero]
  have h4 : (i % r.info.n2 * r.info.step2 + b) % r.info.step2 = b := by
    rw [Nat.mul_comm, Nat.mul_add_mod, Nat.mod_eq_of_lt (by omega)]
  simp only [Reg.find, hn, if_false, ho, h1, h2, h3, h4, hq, hj, hb, and_self, if_true, Nat.div_add_mod']

/-- What `find` takes lies in the range of the register, and within its width of the start of an outer copy. -/
theorem Reg.range_of_find {r : Reg} {off : Nat} (h : (r.find off).isSome = true) :
    r.info.base ≤ off ∧ (off - r.info.base) / r.info.step1 < r.info.n1 ∧
      (off - r.info.base) % r.info.step1 < r.info.width := by
  obtain ⟨hp, hs, -⟩ := r.spaced_info
  unfold Reg.find at h
  dsimp only at h
  split at h
  · simp at h
  · split at h
    · rename_i hb hc
      obtain ⟨h1, h2, h3⟩ := hc
      refine ⟨by omega, h1, ?_⟩
      unfold RegInfo.width
      have hm := Nat.div_add_mod' ((off - r.info.base) % r.info.step1) r.info.step2
      have hle : (off - r.info.base) % r.info.step1 / r.info.step2 * r.info.step2 ≤ (r.info.n2 - 1) * r.info.step2 :=
        Nat.mul_le_mul_right _ (by omega)
      omega
    · simp at h

/-- No offset lies in two registers. -/
theorem Reg.find_apart {r q : Reg} (h : r.info.apart q.info = true) {off : Nat} (hr : (r.find off).isSome = true)
    (hq : (q.find off).isSome = true) : False := by
  obtain ⟨r1, r2, r3⟩ := Reg.range_of_find hr
  obtain ⟨q1, q2, q3⟩ := Reg.range_of_find hq
  have er := Nat.div_add_mod' (off - r.info.base) r.info.step1
  have eq := Nat.div_add_mod' (off - q.info.base) q.info.step1
  have lr : (off - r.info.base) / r.info.step1 * r.info.step1 ≤ (r.info.n1 - 1) * r.info.step1 :=
    Nat.mul_le_mul_right _ (by omega)
  have lq : (off - q.info.base) / q.info.step1 * q.info.step1 ≤ (q.info.n1 - 1) * q.info.step1 :=
    Nat.mul_le_mul_right _ (by omega)
  simp only [RegInfo.apart, Bool.or_eq_true, Bool.and_eq_true, decide_eq_true_eq] at h
  rcases h with (h | h) | ⟨⟨⟨hs, hwr⟩, hwq⟩, h⟩
  · omega
  · omega
  · have place : ∀ p : Reg, p.info.base ≤ off → p.info.base % p.info.step1 + p.info.width ≤ p.info.step1 →
        (off - p.info.base) % p.info.step1 < p.info.width →
        off % p.info.step1 = p.info.base % p.info.step1 + (off - p.info.base) % p.info.step1 := by
      intro p h1 h2 h3
      conv_lhs => rw [← Nat.add_sub_of_le h1]
      rw [Nat.add_mod, Nat.mod_eq_of_lt (by omega)]
    have pr := place r r1 hwr r3
    have pq := place q q1 hwq q3
    rw [← hs] at pq h q3 hwq
    omega

/-- The register map reads an offset of a copy as that copy (R425, R433). -/
theorem regAt_addr (r : Reg) {i b : Nat} (hi : i < r.count) (hb : b < r.info.bytes) :
    regAt (r.addr i + b) = some (r, i, b) := by
  have hf := r.find_addr hi hb
  obtain ⟨p, hp⟩ : ∃ p, regAt (r.addr i + b) = some p := by
    have : (regAt (r.addr i + b)).isSome = true := by
      rw [regAt, List.findSome?_isSome_iff]
      exact ⟨r, mem_allRegs r, by simp [hf]⟩
    exact Option.isSome_iff_exists.mp this
  obtain ⟨q, hq, hqf⟩ := List.exists_of_findSome?_eq_some hp
  have hrq : r = q := by
    rcases apart_allRegs r (mem_allRegs r) q hq with h | h
    · exact h
    · refine (Reg.find_apart h (by rw [hf]; rfl) ?_).elim
      cases hqq : q.find (r.addr i + b) with
      | none => simp [hqq] at hqf
      | some _ => rfl
  subst hrq
  rw [hp, ← hqf, hf]
  rfl

end Sys2Proof.Machine
end

section
/-! SUPPORT. What a register and the marks of the present cycle read after a write, and what a host command does. -/

namespace Sys2Proof.Machine

/-! ### Bits and fields of words -/

@[simp] theorem bit_or (a b : Word) (i : Nat) : bit (a ||| b) i = (bit a i || bit b i) := BitVec.getLsbD_or
@[simp] theorem bit_and (a b : Word) (i : Nat) : bit (a &&& b) i = (bit a i && bit b i) := BitVec.getLsbD_and

theorem bit_not {i : Nat} (a : Word) (hi : i < 32) : bit (~~~a) i = !bit a i := by simp [bit, hi]

theorem bit_w32_two_pow {b : Nat} (hb : b < 32) (i : Nat) : bit (w32 (2 ^ b)) i = decide (b = i) := by
  simp only [bit, w32, BitVec.getLsbD_ofNat, Nat.testBit_two_pow]
  by_cases h : b = i
  · simp [← h, hb]
  · simp [h]

theorem bit_eq_testBit (a : Word) (i : Nat) : bit a i = a.toNat.testBit i := rfl

/-- Words with the same 32 bits are equal. -/
theorem Word.ext {a b : Word} (h : ∀ i < 32, bit a i = bit b i) : a = b := BitVec.eq_of_getLsbD_eq h

theorem testBit_bits (n hi lo j : Nat) : (bits n hi lo).testBit j = (decide (j < hi + 1 - lo) && n.testBit (lo + j)) := by
  simp [bits, Nat.testBit_mod_two_pow, Nat.testBit_div_two_pow, Nat.add_comm]

theorem testBit_fld (w : Word) (hi lo j : Nat) : (fld w hi lo).testBit j = (decide (j < hi + 1 - lo) && bit w (lo + j)) :=
  testBit_bits ..

theorem bits_lt (n hi lo : Nat) : bits n hi lo < 2 ^ (hi + 1 - lo) := Nat.mod_lt _ (Nat.two_pow_pos _)

theorem fld_lt (w : Word) (hi lo : Nat) : fld w hi lo < 2 ^ (hi + 1 - lo) := bits_lt ..

/-- Fields of words agree where their bits do. -/
theorem fld_congr {a b : Word} {hi lo : Nat} (h : ∀ j, lo ≤ j → j ≤ hi → bit a j = bit b j) : fld a hi lo = fld b hi lo := by
  refine Nat.eq_of_testBit_eq fun j => ?_
  rw [testBit_fld, testBit_fld]
  by_cases hj : j < hi + 1 - lo
  · rw [h (lo + j) (by omega) (by omega)]
  · simp [hj]

theorem mem_maskList {m n i : Nat} : i ∈ maskList m n ↔ i < n ∧ m.testBit i = true := by
  simp [maskList, List.mem_filter]

theorem nodup_maskList (m n : Nat) : (maskList m n).Nodup := List.Nodup.filter _ List.nodup_range

/-! ### Marks of the present cycle (R7) -/

theorem marked_congr {s t : State} (hm : s.marks = t.marks) (hr : s.time.raw = t.time.raw) (a : Nat) :
    s.marked a = t.marked a := by
  unfold State.marked; rw [hm, hr]

/-- A table of masks reads, after bits are added at one index, those bits there. -/
theorem tget_tmod_or (t : Tab Word) (a b : Nat) (m : Word) :
    tget (fun _ => 0#32) (tmod (fun _ => 0#32) t a fun w => w ||| m) b =
      tget (fun _ => 0#32) t b ||| (if b = a then m else 0#32) := by
  by_cases h : b = a
  · subst h; simp [tmod]
  · rw [tmod, tget_tset_other _ _ _ h]; simp [h]

/-- A mark adds its bits to those of the cycle at its offset. -/
theorem marked_mark (s : State) (a : Nat) (m : Word) (b : Nat) :
    (s.mark a m).marked b = s.marked b ||| (if b = a then m else 0#32) := by
  unfold State.mark
  split
  · simp [*]
  · simp only [State.marked, if_true, tget_tmod_or]
    split <;> simp [tget]

theorem marked_mark_other (s : State) {a b : Nat} (m : Word) (h : b ≠ a) : (s.mark a m).marked b = s.marked b := by
  simp [marked_mark, h]

/-! ### Reading a register after a write -/

theorem rg_congr {s t : State} (h : s.regs = t.regs) (r : Reg) (i w : Nat) : s.rg r i w = t.rg r i w := by
  unfold State.rg; rw [h]

@[simp] theorem rg_setRg_self (s : State) (r : Reg) (i w : Nat) (v : Word) : (s.setRg r i w v).rg r i w = v :=
  tget_tset_self _ _ _ _ rfl

theorem rg_setRg_of_ne (s : State) {r q : Reg} {i w j x : Nat} (v : Word) (h : q.addr j + 4 * x ≠ r.addr i + 4 * w) :
    (s.setRg r i w v).rg q j x = s.rg q j x := by
  unfold State.rg State.setRg; dsimp only; rw [tget_tset_other _ _ _ h]

@[simp] theorem rg_putReg_self (s : State) (r : Reg) (i w : Nat) (v : Word) :
    (s.putReg r i w v).rg r i w = s.written r i w v := rg_setRg_self ..

theorem rg_putReg_of_ne (s : State) {r q : Reg} {i w j x : Nat} (v : Word) (h : q.addr j + 4 * x ≠ r.addr i + 4 * w) :
    (s.putReg r i w v).rg q j x = s.rg q j x := rg_setRg_of_ne _ _ h

@[simp] theorem rg_mark (s : State) (a : Nat) (m : Word) (r : Reg) (i w : Nat) : (s.mark a m).rg r i w = s.rg r i w :=
  rg_congr (by simp) ..

@[simp] theorem rg_setBit_self (s : State) (r : Reg) (i b : Nat) : (s.setBit r i b).rg r i = s.rg r i ||| w32 (2 ^ b) := by
  simp [State.setBit]

theorem rg_setBit_of_ne (s : State) {r q : Reg} {i j x : Nat} (b : Nat) (h : q.addr j + 4 * x ≠ r.addr i) :
    (s.setBit r i b).rg q j x = s.rg q j x := by
  rw [State.setBit, rg_mark, rg_setRg_of_ne _ _ (by simpa using h)]

/-- Hardware's set of a status bit is read back. -/
theorem bit_rg_setBit (s : State) (r : Reg) (i : Nat) {b : Nat} (hb : b < 32) : bit ((s.setBit r i b).rg r i) b = true := by
  simp [bit_w32_two_pow hb]

/-- What a write makes of a word depends on the registers, the marks and the cycle alone. -/
theorem written_congr {s t : State} (hg : s.regs = t.regs) (hm : s.marks = t.marks) (hr : s.time.raw = t.time.raw)
    (r : Reg) (i w : Nat) (v : Word) : s.written r i w v = t.written r i w v := by
  unfold State.written; rw [rg_congr hg, marked_congr hm hr]

/-- A write bit by bit: RW bits take the value, W1C bits written 1 clear but for those set in this cycle (R6, R7). -/
theorem bit_written (s : State) (r : Reg) (i w : Nat) (v : Word) {j : Nat} (hj : j < 32) :
    bit (s.written r i w v) j = if bit (r.rwMask w) j then bit v j
      else bit (s.rg r i w) j && !(bit v j && bit (r.w1cMask w) j && !bit (s.marked (r.addr i + 4 * w)) j) := by
  unfold State.written
  simp only [bit_or, bit_and, bit_not _ hj]
  split <;> simp_all

/-- A register whose every bit is RW takes the value. -/
theorem written_of_rwMask (s : State) {r : Reg} (i : Nat) {w : Nat} (v : Word) (h : r.rwMask w = 0xFFFFFFFF#32) :
    s.written r i w v = v := by
  refine Word.ext fun j hj => ?_
  have : bit (0xFFFFFFFF#32) j = true := by
    have := hj; revert this; revert j; decide
  rw [bit_written _ _ _ _ _ hj, h, this, if_pos rfl]

theorem regs_putReg_of_ne (s : State) {r : Reg} {i w off : Nat} (v : Word) (h : off ≠ r.addr i + 4 * w) :
    tget (fun _ => 0#32) (s.putReg r i w v).regs off = tget (fun _ => 0#32) s.regs off := by
  unfold State.putReg State.setRg; dsimp only; rw [tget_tset_other _ _ _ h]

theorem putReg_regs_congr {s t : State} (hg : s.regs = t.regs) (hm : s.marks = t.marks) (hr : s.time.raw = t.time.raw)
    (r : Reg) (i w : Nat) (v : Word) : (s.putReg r i w v).regs = (t.putReg r i w v).regs := by
  unfold State.putReg State.setRg; dsimp only; rw [written_congr hg hm hr, hg]

/-! ### Host commands -/

theorem onHost_up {s : State} (h : s.hostUp = true) (f : State → State) : s.onHost f = (f s).finish := by
  rw [State.onHost, if_pos h]

theorem onHost_down {s : State} (h : s.hostUp = false) (f : State → State) : s.onHost f = s.finish := by
  rw [State.onHost, h]; rfl

end Sys2Proof.Machine
end

section
/-! SUPPORT. What a host write of a word of BAR0 does, by the kind of the register at its offset (R6, R327, R425 to R427). -/

namespace Sys2Proof.Machine

/-! ### From the offset to the register -/

/-- Every register lies in whole words of BAR0, and none in the MSI-X table. -/
def RegInfo.placed (f : RegInfo) : Bool :=
  decide (f.base % 4 = 0) && decide (f.step1 % 4 = 0) && decide (f.step2 % 4 = 0) &&
    (decide (f.base + (f.n1 - 1) * f.step1 + f.width ≤ 0x6000) || decide (0x6400 ≤ f.base)) &&
    decide (f.base + (f.n1 - 1) * f.step1 + f.width ≤ bar0Size)

theorem placed_allRegs : ∀ r ∈ allRegs, r.info.placed = true := by decide +kernel

theorem Reg.addr_placed (r : Reg) {i b : Nat} (hi : i < r.count) (hb : b < r.info.bytes) :
    r.addr i % 4 = 0 ∧ r.addr i + b < bar0Size ∧ ¬ (0x6000 ≤ r.addr i + b ∧ r.addr i + b < 0x6400) := by
  have h := placed_allRegs r (mem_allRegs r)
  simp only [RegInfo.placed, Bool.or_eq_true, Bool.and_eq_true, decide_eq_true_eq] at h
  obtain ⟨⟨⟨⟨h0, h1⟩, h2⟩, h3⟩, h4⟩ := h
  obtain ⟨hp, -, -⟩ := r.spaced_info
  have hj : i % r.info.n2 < r.info.n2 := Nat.mod_lt _ hp
  have hq : i / r.info.n2 < r.info.n1 := Nat.div_lt_of_lt_mul (by rw [Nat.mul_comm]; exact hi)
  have l1 : i / r.info.n2 * r.info.step1 ≤ (r.info.n1 - 1) * r.info.step1 := Nat.mul_le_mul_right _ (by omega)
  have l2 : i % r.info.n2 * r.info.step2 ≤ (r.info.n2 - 1) * r.info.step2 := Nat.mul_le_mul_right _ (by omega)
  have m1 : i / r.info.n2 * r.info.step1 % 4 = 0 := by rw [Nat.mul_mod, h1]; rfl
  have m2 : i % r.info.n2 * r.info.step2 % 4 = 0 := by rw [Nat.mul_mod, h2]; rfl
  unfold RegInfo.width at h3 h4
  unfold Reg.addr
  exact ⟨by omega, by omega, by omega⟩

/-- A 32-bit host write at a word of a register that is not 8 bytes wide writes that word. -/
theorem hostWrite_addr (s : State) {r : Reg} {i w : Nat} (v : Dword) (hi : i < r.count) (hw : 4 * w < r.info.bytes)
    (h8 : r.info.bytes ≠ 8) : s.hostWrite (r.addr i + 4 * w) 4 v = s.writeWord 2 r i w (loW v) := by
  obtain ⟨h0, h1, h2⟩ := r.addr_placed hi hw
  have hn : ¬ bar0Size ≤ r.addr i + 4 * w := by omega
  have hm : (r.addr i + 4 * w) % 4 = 0 := by omega
  have hq : 4 * w / 4 = w := by omega
  simp [State.hostWrite, hn, hm, State.writeBar0, h2, regAt_addr r hi hw, h8, hq]

theorem hostWrite_addr_zero (s : State) {r : Reg} {i : Nat} (v : Dword) (hi : i < r.count) (hb : 0 < r.info.bytes)
    (h8 : r.info.bytes ≠ 8) : s.hostWrite (r.addr i) 4 v = s.writeWord 2 r i 0 (loW v) :=
  hostWrite_addr s (w := 0) v hi hb h8

/-! ### Registers without a meaning of their own -/

/-- The registers whose write has a meaning of its own, besides those of the interrupt and DMA blocks. -/
def ownMeaning : List Reg :=
  [.sysBusmxCtrl, .sysCtrl, .sysChrst, .sysLanerst, .tstMode, .tstAdcRaw, .tstStCtrl, .secGrantCtrl, .fltSticky, .fltCtrl,
   .fltPark, .fltIsol, .fltSel, .timeCtrl, .timeDrift, .timeDomCfg, .timePpsCfg, .eptCfg, .eptPreempt, .eptStrSel,
   .ringCtrl, .ringCfg, .ringPoll, .fabChCtrl, .fabCellStatus, .fabPolCfg, .fabWearSumCfg, .fabDripSel, .fabHistCtrl,
   .loopProfileIdx, .loopSel, .loopFlowCfg, .loopTrcCtrl]

/-- A register whose words take a 32-bit write by their access codes alone. -/
def Reg.common (r : Reg) : Bool :=
  !decide (r ∈ ownMeaning) && !decide (blkOf r.info.base = .irq) && !decide (blkOf r.info.base = .dma) &&
    decide (r.info.bytes ≠ 8) && decide (0 < r.info.bytes)

section
variable (s : State) {r : Reg} (i w : Nat) (v : Word) (hr : r ∉ ownMeaning)
include hr

theorem writeSys_common (b : Nat) : s.writeSys b r i w v = s.plainWord r i w v := by
  unfold State.writeSys; split <;> simp_all [ownMeaning]
theorem writeSec_common : s.writeSec r i w v = s.plainWord r i w v := by
  unfold State.writeSec; split <;> simp_all [ownMeaning]
theorem writeFlt_common : s.writeFlt r i w v = s.plainWord r i w v := by
  unfold State.writeFlt; split <;> simp_all [ownMeaning]
theorem writeTime_common : s.writeTime r i w v = s.plainWord r i w v := by
  unfold State.writeTime; split <;> simp_all [ownMeaning]
theorem writeEpt_common : s.writeEpt r i w v = s.plainWord r i w v := by
  unfold State.writeEpt; split <;> simp_all [ownMeaning]
theorem writeRing_common : s.writeRing r i w v = s.plainWord r i w v := by
  unfold State.writeRing; split <;> simp_all [ownMeaning]
theorem writeFab_common : s.writeFab r i w v = s.plainWord r i w v := by
  unfold State.writeFab; split <;> simp_all [ownMeaning]
theorem writeLoop_common : s.writeLoop r i w v = s.plainWord r i w v := by
  unfold State.writeLoop; split <;> simp_all [ownMeaning]
end

theorem writeWord_common (s : State) (b : Nat) {r : Reg} (i w : Nat) (v : Word) (h : r.common = true) :
    s.writeWord b r i w v = s.plainWord r i w v := by
  simp only [Reg.common, Bool.and_eq_true, Bool.not_eq_true', decide_eq_false_iff_not, decide_eq_true_eq] at h
  obtain ⟨⟨⟨⟨hm, hirq⟩, hdma⟩, -⟩, -⟩ := h
  unfold State.writeWord
  split
  case h_1 => exact writeSys_common s i w v hm b
  case h_2 => exact writeSec_common s i w v hm
  case h_3 => exact writeFlt_common s i w v hm
  case h_4 => contradiction
  case h_5 => contradiction
  case h_6 => exact writeTime_common s i w v hm
  case h_7 => exact writeEpt_common s i w v hm
  case h_8 => exact writeRing_common s i w v hm
  case h_9 => exact writeFab_common s i w v hm
  case h_10 => exact writeLoop_common s i w v hm
  case h_11 => rfl

/-- A host write of a common register at word `w`, by its access codes. -/
theorem hostWrite_common (s : State) {r : Reg} {i w : Nat} (v : Dword) (h : r.common = true) (hi : i < r.count)
    (hw : 4 * w < r.info.bytes) : s.hostWrite (r.addr i + 4 * w) 4 v = s.plainWord r i w (loW v) := by
  rw [hostWrite_addr s v hi hw, writeWord_common s 2 i w _ h]
  simp only [Reg.common, Bool.and_eq_true, decide_eq_true_eq] at h
  exact h.1.2

theorem Reg.bytes_pos (r : Reg) : 0 < r.info.bytes := by
  cases r <;> decide

theorem plainWord_unprotected (s : State) {r : Reg} (i : Nat) {w : Nat} (v : Word) (hp : r.protected = false)
    (hm : r.rwMask w ||| r.w1cMask w ≠ 0#32) : s.plainWord r i w v = s.putReg r i w v := by
  simp [State.plainWord, hp, hm]

theorem plainWord_readOnly (s : State) {r : Reg} (i : Nat) {w : Nat} (v : Word) (hp : r.protected = false)
    (hm : r.rwMask w ||| r.w1cMask w = 0#32) : s.plainWord r i w v = s := by
  simp [State.plainWord, hp, hm]

theorem plainWord_protected (s : State) {r : Reg} (i w : Nat) (v : Word) (hp : r.protected = true) :
    s.plainWord r i w v = s.protReg r i v := by
  simp [State.plainWord, hp]

/-! ### Commands of register accesses -/

theorem exec_registerWrite_eq (s : State) (o n : Nat) (v : Dword) :
    exec (.registerWrite o n v) s = .next (s.onHost fun s => s.hostWrite o n v) := rfl

theorem exec_registerWrite {s : State} (h : s.hostUp = true) (o n : Nat) (v : Dword) :
    exec (.registerWrite o n v) s = .next (s.hostWrite o n v).finish := by
  rw [exec_registerWrite_eq, onHost_up h]

theorem exec_registerWrite_down {s : State} (h : s.hostUp = false) (o n : Nat) (v : Dword) :
    exec (.registerWrite o n v) s = .next s.finish := by
  rw [exec_registerWrite_eq, onHost_down h]

theorem exec_registerWrite_common {s : State} (h : s.hostUp = true) {r : Reg} {i : Nat} (v : Dword)
    (hr : r.common = true) (hi : i < r.count) :
    exec (.registerWrite (r.addr i) 4 v) s = .next (s.plainWord r i 0 (loW v)).finish := by
  have := hostWrite_common s (w := 0) v hr hi r.bytes_pos
  rw [Nat.mul_zero, Nat.add_zero] at this
  rw [exec_registerWrite h, this]

/-! ### Protected writes (R327) -/

theorem recordOrHold_frame (s : State) (e : AuditEntry) : (s.recordOrHold e true).frame = s.frame := frame_recordOrHold ..

theorem recordOrHold_rings (s : State) (e : AuditEntry) : (s.recordOrHold e true).rings = s.rings := by
  unfold State.recordOrHold State.writeAudit State.appendAudit State.storeCounters State.holdAudit
  dsimp only
  split
  · rfl
  · split <;> rfl

theorem recordOrHold_marks (s : State) (e : AuditEntry) : (s.recordOrHold e true).marks = s.marks := by
  unfold State.recordOrHold State.writeAudit State.appendAudit State.storeCounters State.holdAudit
  dsimp only
  split
  · rfl
  · split <;> rfl

theorem protWrite_granted {s : State} (h : s.grantOk = true) (off : Nat) (old new : Word) (act : State → State) :
    s.protWrite off old new act = (act (s.recordOrHold (s.writeEntry off old new) true)).irqPulse 87 := by
  rw [State.protWrite, if_pos h]

theorem protWrite_denied {s : State} (h : s.grantOk = false) (off : Nat) (old new : Word) (act : State → State) :
    s.protWrite off old new act = s.denyWrite := by
  rw [State.protWrite, h]; rfl

end Sys2Proof.Machine
end

section
/-! Settling O15: a register write takes effect by its access codes. -/

namespace Sys2Proof.Machine

/-- A register that the host writes without a grant, by its access codes, with copies 0 to `n - 1`. -/
def Reg.openTo (n : Nat) (r : Reg) : Bool :=
  r.common && !r.protected && decide (r.rwMask 0 ||| r.w1cMask 0 ≠ 0#32) && decide (n ≤ r.count)

/-- A register of which a host write changes nothing, with copies 0 to `n - 1`. -/
def Reg.readOnlyTo (n : Nat) (r : Reg) : Bool :=
  r.common && !r.protected && decide (r.rwMask 0 ||| r.w1cMask 0 = 0#32) && decide (n ≤ r.count)

/-- A register of the installer store without a meaning of its own, with copies 0 to `n - 1`. -/
def Reg.storedTo (n : Nat) (r : Reg) : Bool := r.common && r.protected && decide (n ≤ r.count)

theorem exec_registerWrite_open {s : State} (h : s.hostUp = true) {r : Reg} {n i : Nat} (v : Dword)
    (hr : r.openTo n = true) (hi : i < n) : exec (.registerWrite (r.addr i) 4 v) s = .next (s.putReg r i 0 (loW v)).finish := by
  simp only [Reg.openTo, Bool.and_eq_true, Bool.not_eq_true', decide_eq_true_eq] at hr
  obtain ⟨⟨⟨hc, hp⟩, hm⟩, hn⟩ := hr
  rw [exec_registerWrite_common h v hc (by omega), plainWord_unprotected s i _ hp hm]

theorem exec_registerWrite_readOnly {s : State} (h : s.hostUp = true) {r : Reg} {n i : Nat} (v : Dword)
    (hr : r.readOnlyTo n = true) (hi : i < n) : exec (.registerWrite (r.addr i) 4 v) s = .next s.finish := by
  simp only [Reg.readOnlyTo, Bool.and_eq_true, Bool.not_eq_true', decide_eq_true_eq] at hr
  obtain ⟨⟨⟨hc, hp⟩, hm⟩, hn⟩ := hr
  rw [exec_registerWrite_common h v hc (by omega), plainWord_readOnly s i _ hp hm]

theorem exec_registerWrite_stored {s : State} (h : s.hostUp = true) {r : Reg} {n i : Nat} (v : Dword)
    (hr : r.storedTo n = true) (hi : i < n) :
    exec (.registerWrite (r.addr i) 4 v) s = .next (s.protReg r i (loW v)).finish := by
  simp only [Reg.storedTo, Bool.and_eq_true, decide_eq_true_eq] at hr
  obtain ⟨⟨hc, hp⟩, hn⟩ := hr
  rw [exec_registerWrite_common h v hc (by omega), plainWord_protected s i 0 _ hp]

theorem frame_putReg (s : State) (r : Reg) (i w : Nat) (v : Word) :
    (s.putReg r i w v).frame = { s.frame with regs := (s.putReg r i w v).regs } := rfl

/-- Under a grant the register takes the value, and outside the roles, the fault collector, the interrupt sources, the
flash and the marks nothing else changes. -/
theorem protReg_granted {s : State} (h : s.grantOk = true) (r : Reg) (i : Nat) (v : Word) :
    (s.protReg r i v).rg r i = s.written r i 0 v ∧ (s.protReg r i v).rings = s.rings ∧
    (s.protReg r i v).frame = (s.putReg r i 0 v).frame := by
  rw [State.protReg, protWrite_granted h]
  generalize s.writeEntry _ _ _ = e
  have hm := recordOrHold_marks s e
  have hf := recordOrHold_frame s e
  have ht := of_frame_time hf
  have hg := putReg_regs_congr (of_frame_regs hf) hm (congrArg TimeUnit.raw ht) r i 0 v
  refine ⟨?_, by simp [recordOrHold_rings], ?_⟩
  · rw [rg_congr (t := s.putReg r i 0 v) (by simpa using hg), rg_putReg_self]
  · rw [frame_irqPulse]
    rw [id, frame_putReg, frame_putReg, hf, hg]

/-- A write of BAR2 above the working memory changes no byte. -/
theorem writeBar2_above (s : State) {x : Nat} (bs : List Byte) (hx : 0x400000 ≤ x) : s.writeBar2 x bs = s := by
  induction bs generalizing x with
  | nil => rfl
  | cons b bs ih =>
    have h : s.takesByte x = false := by simp [State.takesByte, Nat.not_lt.mpr hx]
    simp [State.writeBar2, h, ih (Nat.le_succ_of_le hx)]

theorem rg_hostAcc (s : State) (b o : Nat) : (s.hostAcc b o).rg .sysHostAcc =
    w32 (fld (s.rg .sysHostAcc) 31 30 * 2 ^ 30 ||| 2 ^ b ||| o % 0x100000) := by
  unfold State.hostAcc; rw [rg_mark, rg_setRg_self]

/-- Bit by bit: the two status bits stay, `b` is set, and OFFSET is that of the access (R427). -/
theorem bit_rg_hostAcc (s : State) (b o : Nat) {j : Nat} (hj : j < 32) : bit ((s.hostAcc b o).rg .sysHostAcc) j =
    ((decide (30 ≤ j) && bit (s.rg .sysHostAcc) j) || decide (b = j) || (decide (j < 20) && o.testBit j)) := by
  rw [rg_hostAcc, bit_eq_testBit, w32, BitVec.toNat_ofNat, Nat.testBit_mod_two_pow]
  rw [show 0x100000 = 2 ^ 20 from rfl]
  simp only [hj, decide_true, Bool.true_and, Nat.testBit_or, Nat.testBit_mul_two_pow, testBit_fld, Nat.testBit_two_pow,
    Nat.testBit_mod_two_pow]
  by_cases h : 30 ≤ j
  · simp [h, show 30 + (j - 30) = j by omega, show j - 30 < 2 by omega]
  · simp [h]

theorem hostAcc_fields (s : State) (o b : Nat) (hb : b = 30 ∨ b = 31) :
    bit ((s.hostAcc b o).rg .sysHostAcc) b = true ∧ fld ((s.hostAcc b o).rg .sysHostAcc) 19 0 = o % 2 ^ 20 := by
  refine ⟨by rw [bit_rg_hostAcc s b o (by omega)]; simp, Nat.eq_of_testBit_eq fun j => ?_⟩
  rw [testBit_fld, Nat.testBit_mod_two_pow]
  by_cases hj : j < 20
  · rw [bit_rg_hostAcc s b o (by omega)]
    simp [hj, show ¬ 30 ≤ j by omega, show b ≠ j by omega]
  · simp [hj]

/-- Settles O15: the offset names the register (`regAt_addr`), and a common register takes a write by its access
codes (`plainWord_unprotected`, `plainWord_readOnly`, `protReg_granted`). -/
theorem registerWrites : Obligations.RegisterWrites := by
  unfold Obligations.RegisterWrites
  refine ⟨fun s o n v h => exec_registerWrite_down h o n v,
    fun s r i w v => ⟨fun j hj => by rw [rg_putReg_self, bit_written s r i w v hj], rfl,
      fun off ho => regs_putReg_of_ne s v ho⟩, fun s h => ⟨?_, ?_, ?_, ?_, ?_, ?_, ?_, ?_, ?_⟩⟩
  · intro p hp
    have hl : p.1.openTo p.2 = true := by revert p; decide
    exact fun i hi v => exec_registerWrite_open h v hl hi
  · intro w hw v
    rw [exec_registerWrite h]
    have := hostWrite_common s (r := .secGrantBlock) (i := 0) (w := w) v (by decide) (by decide)
      (Nat.mul_lt_mul_of_pos_left hw (by decide))
    rw [show 0x2000 + 4 * w = Reg.secGrantBlock.addr 0 + 4 * w from rfl, this,
      plainWord_unprotected s 0 _ (by decide) (by simp [Reg.rwMask])]
  · intro hg p hp
    have hl : p.1.storedTo p.2 = true := by revert p; decide
    intro i hi v
    obtain ⟨hrg, hrings, hf⟩ := protReg_granted hg p.1 i (loW v)
    obtain ⟨-, -, -, -, htime, hsched, hfab, hloop, hept, -⟩ := of_frame hf
    refine ⟨_, exec_registerWrite_stored h v hl hi, fun j hj hb => ?_, htime, hfab, hloop, hsched, hept, hrings⟩
    rw [hrg, bit_written s _ _ _ _ hj, if_pos hb]
  · intro p hp
    have hl : p.1.readOnlyTo p.2 = true := by revert p; decide
    exact fun i hi v => exec_registerWrite_readOnly h v hl hi
  · intro o v ho h4 hr hz
    have hn : ¬ bar0Size ≤ o := Nat.not_le.mpr ho
    have hm : ¬ (0x6000 ≤ o ∧ o < 0x6400) := by omega
    have hi : ¬ (0x4000 ≤ o ∧ o < 0x6000) := by omega
    rw [exec_registerWrite h]
    simp [State.hostWrite, hn, h4, State.writeBar0, hm, hi, hr]
  · intro o n v ho hn
    rw [exec_registerWrite h, State.hostWrite, if_neg (show ¬ bar0Size ≤ o from Nat.not_le.mpr ho), if_pos hn]
  · intro o n v ho hn h4 h8
    rw [exec_registerWrite h]
    simp [State.hostWrite, show ¬ bar0Size ≤ o from Nat.not_le.mpr ho, Nat.not_lt.mpr hn, h4, h8]
  · exact fun o b hb => hostAcc_fields s o b hb
  · intro o n v ho
    rw [exec_registerWrite h, State.hostWrite, if_pos (by unfold bar0Size; omega), writeBar2_above s _ (by unfold bar0Size; omega)]

end Sys2Proof.Machine
end

section
/-! Settling O16: without a grant a protected register keeps its value. -/

namespace Sys2Proof.Machine

/-! ### The writes of protected registers, each refused -/

theorem protReg_denied {s : State} (h : s.grantOk = false) (r : Reg) (i : Nat) (v : Word) (act : State → State) :
    s.protReg r i v act = s.denyWrite := by
  rw [State.protReg, protWrite_denied h]

section
variable {s : State} (h : s.grantOk = false) (i : Nat) (v : Word)
include h

theorem writeSysCtrl_denied : s.writeSysCtrl v = s.denyWrite := by rw [State.writeSysCtrl, protWrite_denied h]
theorem writeChrst_denied : s.writeChrst v = s.denyWrite := by rw [State.writeChrst, protWrite_denied h]
theorem laneReset_denied : s.laneReset v = s.denyWrite := by rw [State.laneReset, protWrite_denied h]
theorem writeTimeCtrl_denied : s.writeTimeCtrl v = s.denyWrite := by rw [State.writeTimeCtrl, protReg_denied h]
theorem writeTimeDrift_denied : s.writeTimeDrift v = s.denyWrite := by rw [State.writeTimeDrift, protReg_denied h]
theorem writeTimeDom_denied : s.writeTimeDom i v = s.denyWrite := by
  rw [State.writeTimeDom, h, protWrite_denied h]; rfl
theorem writePpsCfg_denied : s.writePpsCfg v = s.denyWrite := by rw [State.writePpsCfg, protReg_denied h]
theorem writeEptCfg_denied : s.writeEptCfg i v = s.denyWrite := by rw [State.writeEptCfg, protReg_denied h]
theorem writeEptPreempt_denied : s.writeEptPreempt i v = s.denyWrite := by rw [State.writeEptPreempt, protReg_denied h]
theorem writeChCtrl_denied : s.writeChCtrl i v = s.denyWrite := by rw [State.writeChCtrl, protReg_denied h]
theorem writePolCfg_denied : s.writePolCfg v = s.denyWrite := by rw [State.writePolCfg, protReg_denied h]
theorem writeWearSumCfg_denied : s.writeWearSumCfg v = s.denyWrite := by rw [State.writeWearSumCfg, protReg_denied h]
theorem writeFlowCfg_denied : s.writeFlowCfg i v = s.denyWrite := by rw [State.writeFlowCfg, protReg_denied h]
theorem writeShape_denied (d : Dword) : s.writeShape i d = s.denyWrite := by
  rw [State.writeShape, State.protReg8, protWrite_denied h]
theorem writeProfileIdx_denied : s.writeProfileIdx i v = s.denyWrite.setBit .loopEvt i 0 := by
  simp [State.writeProfileIdx, h]

/-- A command that writes a protected register by a row of its own. -/
theorem exec_protected_denied (hu : s.hostUp = true) (k : Fin 12) (n : Fin 32) (l q : Fin 8) (j : Fin 2) (d : Dword) :
    ∀ c ∈ ([.severityWrite k v, .modrst v, .laneReset v, .chamberReset v, .driftLimWrite v, .timeCtrlWrite v,
      .timeDomCfgWrite j v, .fabChCtrlWrite n v, .fabPolCfgWrite v, .wearSummaryNow v, .flowstoneClear n v,
      .eptShapeWrite l q d] : List Instr), exec c s = .next s.denyWrite.finish := by
  have host : ∀ f : State → State, f s = s.denyWrite →
      (Host.Outcome.next (s.onHost f) : Host.Outcome State Fault Refusal) = .next s.denyWrite.finish :=
    fun f hf => by rw [onHost_up hu, hf]
  simp only [List.forall_mem_cons, List.not_mem_nil, false_imp_iff, implies_true, and_true]
  exact ⟨host _ (protReg_denied h ..), host _ (writeSysCtrl_denied h v), host _ (laneReset_denied h v),
    host _ (writeChrst_denied h v), host _ (writeTimeDrift_denied h v), host _ (writeTimeCtrl_denied h v),
    host _ (writeTimeDom_denied h j v), host _ (writeChCtrl_denied h n v), host _ (writePolCfg_denied h v),
    host _ (writeWearSumCfg_denied h v), host _ (writeFlowCfg_denied h n v), host _ (writeShape_denied h _ d)⟩

/-- The registers with a meaning of their own whose write is protected. -/
def ownProtected : List Reg :=
  [.sysCtrl, .sysChrst, .sysLanerst, .timeCtrl, .timeDrift, .timeDomCfg, .timePpsCfg, .eptCfg, .eptPreempt, .fabChCtrl,
   .fabPolCfg, .fabWearSumCfg, .loopFlowCfg]

theorem writeWord_ownProtected_denied (b : Nat) : ∀ r ∈ ownProtected, s.writeWord b r i 0 v = s.denyWrite := by
  simp only [ownProtected, List.forall_mem_cons, List.not_mem_nil, false_imp_iff, implies_true, and_true]
  exact ⟨writeSysCtrl_denied h v, writeChrst_denied h v, laneReset_denied h v, writeTimeCtrl_denied h v,
    writeTimeDrift_denied h v, writeTimeDom_denied h i v, writePpsCfg_denied h v, writeEptCfg_denied h i v,
    writeEptPreempt_denied h i v, writeChCtrl_denied h i v, writePolCfg_denied h v, writeWearSumCfg_denied h v,
    writeFlowCfg_denied h i v⟩

end

/-- A register whose 32-bit write needs a grant, with copies 0 to `n - 1`. -/
def Reg.guardedTo (n : Nat) (r : Reg) : Bool :=
  r.storedTo n || (decide (r ∈ ownProtected) && decide (r.info.bytes ≠ 8) && decide (n ≤ r.count))

theorem exec_registerWrite_denied {s : State} (hu : s.hostUp = true) (hg : s.grantOk = false) {r : Reg} {n i : Nat}
    (d : Dword) (hr : r.guardedTo n = true) (hi : i < n) :
    exec (.registerWrite (r.addr i) 4 d) s = .next s.denyWrite.finish := by
  simp only [Reg.guardedTo, Bool.or_eq_true, Bool.and_eq_true, decide_eq_true_eq] at hr
  rcases hr with hs | ⟨⟨hm, h8⟩, hn⟩
  · rw [exec_registerWrite_stored hu d hs hi, protReg_denied hg]
  · rw [exec_registerWrite hu, hostWrite_addr_zero s d (by omega) r.bytes_pos h8, writeWord_ownProtected_denied hg _ _ _ r hm]

/-! ### What a denied write leaves -/

theorem setRg_mark_only (s : State) (r : Reg) (i w : Nat) (v : Word) (a : Nat) (b : Word) :
    ∃ m, (s.setRg r i w v).mark a b = { s with regs := ((s.setRg r i w v).mark a b).regs, marks := m } := by
  obtain ⟨m, hm⟩ := mark_marks_only (s.setRg r i w v) a b
  exact ⟨m, by rw [hm]; rfl⟩

theorem setBit_only (s : State) (r : Reg) (i b : Nat) :
    ∃ m, s.setBit r i b = { s with regs := (s.setBit r i b).regs, marks := m } := setRg_mark_only ..

theorem irqPulse_only (s : State) (n : Nat) : ∃ q m, s.irqPulse n = { s with irq := q, marks := m } := by
  unfold State.irqPulse
  split
  · exact ⟨s.irq, s.marks, rfl⟩
  · obtain ⟨m, hm⟩ := mark_marks_only (s.modIrq n fun q => { q with pending := true }) (Reg.irqPend.addr (n / 32))
      (w32 (2 ^ (n % 32)))
    exact ⟨_, m, hm⟩

/-- What a denied write leaves: WR_DENIED, its mark, interrupt source 87, and the count (R327). -/
theorem denyWrite_only (s : State) : ∃ q m, s.denyWrite =
    { s with regs := (s.setBit .secGrantStatus 0 28).regs, marks := m, irq := q, sec := { s.sec with denied := s.sec.denied + 1 } } := by
  obtain ⟨m, hm⟩ := setBit_only s .secGrantStatus 0 28
  obtain ⟨q, m', hq⟩ := irqPulse_only (s.setBit .secGrantStatus 0 28) 87
  refine ⟨q, m', ?_⟩
  unfold State.denyWrite
  dsimp only
  rw [hq]
  generalize (s.setBit .secGrantStatus 0 28).regs = g at hm ⊢
  rw [hm]

@[simp] theorem denyWrite_regs (s : State) : s.denyWrite.regs = (s.setBit .secGrantStatus 0 28).regs := by
  obtain ⟨q, m, h⟩ := denyWrite_only s; rw [h]

/-- Settles O16: each of these writes is `denyWrite` (`exec_protected_denied`, `exec_registerWrite_denied`), and
`denyWrite_only` says what that changes. -/
theorem deniedWritesChangeNothing : Obligations.DeniedWritesChangeNothing := by
  unfold Obligations.DeniedWritesChangeNothing
  intro s hu hg
  obtain ⟨q, m, hd⟩ := denyWrite_only s
  refine ⟨fun v k n l qq i d c hc => ⟨s.denyWrite, ?_, by rw [hd]⟩, fun n v => ?_⟩
  · rcases hc with hc | ⟨p, hp, j, hj, rfl⟩
    · exact exec_protected_denied hg v hu k n l qq i d c hc
    · have hl : p.1.guardedTo p.2 = true := by clear hj; revert p; decide
      exact exec_registerWrite_denied hu hg d hl hj
  · obtain ⟨m', hm⟩ := setBit_only s.denyWrite .loopEvt n 0
    have hne : Reg.secGrantStatus.addr 0 + 4 * 0 ≠ Reg.loopEvt.addr n := by
      simp only [Reg.addr, Reg.info]; omega
    refine ⟨s.denyWrite.setBit .loopEvt n 0, ?_, ?_, ?_, bit_rg_setBit _ _ _ (by decide)⟩
    · show Host.Outcome.next (s.onHost fun s => s.writeProfileIdx n v) = _
      rw [onHost_up hu, writeProfileIdx_denied hg]
    · rw [hm, hd]
    · rw [rg_setBit_of_ne _ _ hne, rg_congr (denyWrite_regs s), bit_rg_setBit _ _ _ (by decide)]

end Sys2Proof.Machine
end

section
/-! Settling O14: the reads that change state, and only what they change. -/

namespace Sys2Proof.Machine

/-- What was kept at an offset is what is got there. -/
theorem keptGet_keptSet (t : Tab Word) (off : Nat) (v : Word) : keptGet (keptSet t off v) off = some v := by
  unfold keptGet keptSet
  rw [tget_tset_self _ _ _ _ rfl, if_neg (by decide), tget_tset_other _ _ _ (by omega), tget_tset_self _ _ _ _ rfl]

/-- The read of the low word of an 8-byte register latches its high word and nothing else (R428). -/
theorem latchRead_low (s : State) {o i : Nat} {r : Reg} (h : lowOf8 o = some (r, i)) (ho : o ≠ 0x8020) :
    s.latchRead o = { s with latch := keptSet s.latch o (s.readWord r i 1) } := by
  simp [State.latchRead, ho, h]

/-- The high word then reads as latched (R428). -/
theorem readHost_latched (s : State) {o i : Nat} {r : Reg} (h : lowOf8 o = some (r, i)) (ho : o ≠ 0x8020) :
    (s.latchRead o).readHost (o + 4) = s.readWord r i 1 := by
  have hc : (decide (4 ≤ o + 4) && (lowOf8 (o + 4 - 4)).isSome) = true := by
    rw [Nat.add_sub_cancel, h, decide_eq_true (Nat.le_add_left 4 o)]; rfl
  rw [latchRead_low s h ho, State.readHost, if_pos hc, Nat.add_sub_cancel, keptGet_keptSet, Option.getD_some]

theorem latchRead_out (s : State) (o : Nat) : (s.latchRead o).out = s.out := by
  unfold State.latchRead
  split
  · exact State.latchTime_out s
  · split <;> rfl

/-- A refused access leaves every part of the state but registers and marks. -/
theorem hostAcc_only (s : State) (b o : Nat) :
    ∃ m, s.hostAcc b o = { s with regs := (s.hostAcc b o).regs, marks := m } := setRg_mark_only ..

theorem regs_hostAcc_other (s : State) (b o : Nat) {off : Nat} (h : off ≠ Reg.sysHostAcc.addr 0) :
    tget (fun _ => 0#32) (s.hostAcc b o).regs off = tget (fun _ => 0#32) s.regs off := by
  unfold State.hostAcc
  rw [State.mark_regs]
  unfold State.setRg
  dsimp only
  rw [tget_tset_other _ _ _ (by simpa using h)]

theorem exec_timeSnap (s : State) (dt : Nat) :
    exec (.timeSnap dt) s = .next (s.onClock dt fun s => if s.hostUp then s.snapTime else s) := rfl
theorem exec_lowWordRead (s : State) (o : Nat) : exec (.lowWordRead o) s = .next (s.onHost fun s => s.readLow o) := rfl
theorem exec_badAlignRead (s : State) (o n : Nat) :
    exec (.badAlignRead o n) s = .next (s.onHost fun s => s.readBad o n) := rfl

/-- Settles O14: `latchRead_low` and `readHost_latched` for the 8-byte registers, `hostAcc_only` and `bit_rg_hostAcc` for
a refused read. -/
theorem hostReadsChangeNothingElse : Obligations.HostReadsChangeNothingElse := by
  unfold Obligations.HostReadsChangeNothingElse
  refine ⟨?_, ?_, ?_, ?_⟩
  · rintro s u dt rfl
    refine ⟨fun h => ?_, fun h => ?_⟩
    · rw [exec_timeSnap, State.onClock, if_pos h, State.snapTime, State.latchTime, State.onTime, State.emit]
    · rw [exec_timeSnap, State.onClock, h, if_neg Bool.false_ne_true]
  · intro s o hu
    refine ⟨?_, fun r i h ho => ⟨latchRead_low s h ho, readHost_latched s h ho⟩, ?_, fun ho h => ?_⟩
    · rw [exec_lowWordRead, onHost_up hu, State.readLow, State.emit, latchRead_out]
    · rw [State.latchRead, if_pos rfl, State.latchTime, State.onTime_time]
    · rw [State.latchRead, if_neg ho, h]
  · intro s o n hu
    refine ⟨fun hb => ?_, fun hb => by rw [exec_badAlignRead, onHost_up hu, State.readBad, hb, if_neg Bool.false_ne_true]⟩
    have ho : o < 2 ^ 20 := by
      simp only [badRead, Bool.and_eq_true, decide_eq_true_eq] at hb
      exact hb.1
    obtain ⟨m, hm⟩ := hostAcc_only s 30 o
    obtain ⟨h30, hoff⟩ := hostAcc_fields s o 30 (.inl rfl)
    have hg : ((s.hostAcc 30 o).emit (.readData o 0#64)).rg .sysHostAcc = (s.hostAcc 30 o).rg .sysHostAcc :=
      rg_congr (State.emit_regs ..) ..
    refine ⟨(s.hostAcc 30 o).emit (.readData o 0#64), by rw [exec_badAlignRead, onHost_up hu, State.readBad, if_pos hb], ?_, ?_,
      ?_, ?_, ?_, fun off h => ?_⟩
    · rw [hm]; rfl
    · rw [hm]; rfl
    · rw [hg, h30]
    · rw [hg, bit_rg_hostAcc s 30 o (by decide)]; simp
    · rw [hg, hoff, Nat.mod_eq_of_lt ho]
    · rw [State.emit_regs, regs_hostAcc_other s 30 o h]
  · intro s o n hd
    rw [exec_lowWordRead, exec_badAlignRead, onHost_down hd, onHost_down hd]
    exact ⟨rfl, rfl⟩

end Sys2Proof.Machine
end

section
/-! Settling O11: writes of the fault collector's registers. -/

namespace Sys2Proof.Machine

/-! ### Releases one by one -/

/-- A step of a release: it leaves what decides the next steps (`I`), takes the mark `on` from its unit but for one that
began in this cycle (`stay`) or whose condition holds (`no`), and shows a refusal in RELEASE_REF (R7, R342). -/
structure ReleaseStep (step : State → Nat → State) (on : State → Nat → Bool) (stay no : Nat → Bool) (I : State → Prop) :
    Prop where
  keeps : ∀ t h, I t → I (step t h)
  unit : ∀ t h k, I t → on (step t h) k = (on t k && !(decide (k = h) && !stay h && !no h))
  refuses : ∀ t h, I t → on t h = true → stay h = false → no h = true → bit ((step t h).rg .fltStatus) 28 = true
  shows : ∀ t h, bit (t.rg .fltStatus) 28 = true → bit ((step t h).rg .fltStatus) 28 = true

section
variable {step : State → Nat → State} {on : State → Nat → Bool} {stay no : Nat → Bool} {I : State → Prop}
  (hs : ReleaseStep step on stay no I)
include hs

theorem ReleaseStep.fold_keeps (l : List Nat) (t : State) (ht : I t) : I (l.foldl step t) := by
  induction l generalizing t with
  | nil => exact ht
  | cons h l ih => exact ih _ (hs.keeps t h ht)

/-- After the steps of a list, each unit of the list that may be released is. -/
theorem ReleaseStep.fold_unit (l : List Nat) (t : State) (ht : I t) (k : Nat) :
    on (l.foldl step t) k = (on t k && !(decide (k ∈ l) && !stay k && !no k)) := by
  induction l generalizing t with
  | nil => simp
  | cons h l ih =>
    rw [List.foldl_cons, ih _ (hs.keeps t h ht), hs.unit t h k ht]
    by_cases hk : k = h
    · subst hk; cases on t k <;> cases stay k <;> cases no k <;> simp
    · simp [hk]

theorem ReleaseStep.fold_shows (l : List Nat) (t : State) (ht : bit (t.rg .fltStatus) 28 = true) :
    bit ((l.foldl step t).rg .fltStatus) 28 = true := by
  induction l generalizing t with
  | nil => exact ht
  | cons h l ih => exact ih _ (hs.shows t h ht)

/-- A refusal among the steps is shown at their end. -/
theorem ReleaseStep.fold_refuses (l : List Nat) (t : State) (ht : I t) {k : Nat} (hk : k ∈ l) (hon : on t k = true)
    (hst : stay k = false) (hno : no k = true) : bit ((l.foldl step t).rg .fltStatus) 28 = true := by
  induction l generalizing t with
  | nil => simp at hk
  | cons h l ih =>
    rcases eq_or_ne k h with rfl | hne
    · exact hs.fold_shows l _ (hs.refuses t k ht hon hst hno)
    · exact ih _ (hs.keeps t h ht) (List.mem_of_ne_of_mem hne hk) (by rw [hs.unit t h k ht, hon]; simp [hne])
end

/-! ### What decides a release -/

/-- Conditions, PARK_ALL, the marks of FLT_PARK and FLT_ISOL, and FLT_CTRL are those of `s`. -/
def State.sameConds (s t : State) : Prop :=
  t.flt.src = s.flt.src ∧ t.flt.parkedAll = s.flt.parkedAll ∧ t.marked (Reg.fltPark.addr 0) = s.marked (Reg.fltPark.addr 0) ∧
    t.marked (Reg.fltIsol.addr 0) = s.marked (Reg.fltIsol.addr 0) ∧ t.rg .fltCtrl = s.rg .fltCtrl

theorem sameConds_refl (s : State) : s.sameConds s := ⟨rfl, rfl, rfl, rfl, rfl⟩

theorem State.sameConds.trans {s t u : State} (h : s.sameConds t) (k : t.sameConds u) : s.sameConds u := by
  obtain ⟨h1, h2, h3, h4, h5⟩ := h
  obtain ⟨k1, k2, k3, k4, k5⟩ := k
  exact ⟨k1.trans h1, k2.trans h2, k3.trans h3, k4.trans h4, k5.trans h5⟩

theorem sameConds_refuseRelease (s : State) : s.sameConds s.refuseRelease := by
  unfold State.refuseRelease
  refine ⟨by simp, by simp, ?_, ?_, rg_setBit_of_ne _ _ (by decide)⟩
  all_goals
    unfold State.setBit
    rw [marked_mark_other _ _ (by decide)]
    exact marked_congr rfl rfl _

theorem refuseRelease_flt (s : State) : s.refuseRelease.flt = s.flt := by simp [State.refuseRelease]

theorem bit_refuseRelease (s : State) : bit (s.refuseRelease.rg .fltStatus) 28 = true := bit_rg_setBit _ _ _ (by decide)

/-- Following the policy of a chamber changes the fabric alone (R88). -/
theorem followPolicy_fab_only (s : State) (h : Nat) : ∃ f, s.followPolicy h = { s with fab := f } := by
  have hc : ∃ f, s.castOn h = { s with fab := f } := by
    unfold State.castOn
    split
    · exact ⟨_, rfl⟩
    · exact ⟨s.fab, rfl⟩
  obtain ⟨f, hf⟩ := hc
  unfold State.followPolicy
  split
  · rw [hf]; exact ⟨_, rfl⟩
  · split
    · exact ⟨_, rfl⟩
    · exact ⟨s.fab, rfl⟩

theorem releasePark_only (s : State) (h : Nat) :
    ∃ f, s.releasePark h = { s with flt := { s.flt with park := s.flt.park &&& ~~~(BitVec.ofNat 32 (2 ^ h)) }, fab := f } := by
  obtain ⟨f, hf⟩ := followPolicy_fab_only { s with flt := { s.flt with park := s.flt.park &&& ~~~(BitVec.ofNat 32 (2 ^ h)) } } h
  exact ⟨f, hf⟩

/-- A bit is cleared in a word, and the others stay. -/
theorem getLsbD_and_not_two_pow {n : Nat} (x : BitVec n) (h k : Nat) :
    (x &&& ~~~(BitVec.ofNat n (2 ^ h))).getLsbD k = (x.getLsbD k && !decide (k = h)) := by
  rw [BitVec.getLsbD_and, BitVec.getLsbD_not, BitVec.getLsbD_ofNat, Nat.testBit_two_pow]
  by_cases hk : k < n
  · simp [hk, eq_comm]
  · simp [BitVec.getLsbD_of_ge x k (by omega)]

/-! ### Parks and isolations -/

/-- One chamber of a release: `no` says whether its condition holds. -/
def State.parkStep (no : State → Nat → Bool) (s : State) (h : Nat) : State :=
  if !s.parked h || s.newPark h then s else if no s h then s.refuseRelease else s.releasePark h

/-- The conditions that keep a park are the same in states with the same conditions. -/
theorem chamberHeld_congr {s t : State} (h : t.flt.src = s.flt.src) (n : Nat) : t.chamberHeld n = s.chamberHeld n := by
  unfold State.chamberHeld State.fsrc; rw [h]

theorem releaseStep_park (s : State) (no : State → Nat → Bool) (hno : ∀ t, s.sameConds t → ∀ h, no t h = no s h) :
    ReleaseStep (State.parkStep no) State.parked s.newPark (no s) s.sameConds := by
  have hnew : ∀ t, s.sameConds t → ∀ h, t.newPark h = s.newPark h := by
    rintro t ⟨-, -, hp, -⟩ h
    unfold State.newPark; rw [hp]
  refine ⟨fun t h ht => ?_, fun t h k ht => ?_, fun t h ht hon hst hn => ?_, fun t h ht => ?_⟩
  · obtain ⟨f, hf⟩ := releasePark_only t h
    unfold State.parkStep
    split
    · exact ht
    · split
      · exact ht.trans (sameConds_refuseRelease t)
      · rw [hf]; exact ht
  · obtain ⟨f, hf⟩ := releasePark_only t h
    have hr : (t.releasePark h).parked k = (t.parked k && !decide (k = h)) := by
      rw [hf]; exact getLsbD_and_not_two_pow ..
    have hq : t.refuseRelease.parked k = t.parked k := congrArg (fun f => f.park.getLsbD k) (refuseRelease_flt t)
    unfold State.parkStep
    rw [hnew t ht, hno t ht]
    by_cases hk : k = h
    · subst hk
      cases hp : t.parked k <;> cases s.newPark k <;> cases no s k <;> simp [hp, hr, hq]
    · split
      · simp [hk]
      · split
        · simp [hk, hq]
        · simp [hk, hr]
  · rw [← hnew t ht] at hst
    rw [← hno t ht] at hn
    simp only [State.parkStep, hon, hst, hn, Bool.not_true, Bool.or_self, Bool.false_eq_true, if_false, if_true]
    exact bit_refuseRelease t
  · obtain ⟨f, hf⟩ := releasePark_only t h
    unfold State.parkStep
    split
    · exact ht
    · split
      · exact bit_refuseRelease t
      · rw [hf]; exact ht

/-- The isolation of a lane is taken back. -/
def State.freeLane (s : State) (l : Nat) : State :=
  { s with flt.isol := s.flt.isol &&& ~~~(BitVec.ofNat 8 (2 ^ l)) }

/-- One lane of a release (R342). -/
def State.isolStep (s : State) (l : Nat) : State :=
  if !s.isolated l || s.newIsol l then s
  else if s.flt.parkedAll || s.activeSrc (32 + l) then s.refuseRelease
  else s.freeLane l

theorem activeSrc_congr {s t : State} (h : t.flt.src = s.flt.src) (n : Nat) : t.activeSrc n = s.activeSrc n := by
  unfold State.activeSrc State.fsrc; rw [h]

theorem releaseStep_isol (s : State) :
    ReleaseStep State.isolStep State.isolated s.newIsol (fun l => s.flt.parkedAll || s.activeSrc (32 + l))
      (fun t => s.sameConds t ∧ t.flt.park = s.flt.park) := by
  have hnew : ∀ t, s.sameConds t → ∀ l, t.newIsol l = s.newIsol l := by
    rintro t ⟨-, -, -, hi, -⟩ l
    unfold State.newIsol; rw [hi]
  have hno : ∀ t, s.sameConds t → ∀ l, (t.flt.parkedAll || t.activeSrc (32 + l)) = (s.flt.parkedAll || s.activeSrc (32 + l)) := by
    rintro t ⟨hs, hp, -⟩ l
    rw [hp, activeSrc_congr hs]
  refine ⟨fun t l ht => ?_, fun t l k ht => ?_, fun t l ht hon hst hn => ?_, fun t l ht => ?_⟩
  · unfold State.isolStep
    split
    · exact ht
    · split
      · exact ⟨ht.1.trans (sameConds_refuseRelease t), by rw [refuseRelease_flt, ht.2]⟩
      · exact ht
  · have hq : t.refuseRelease.isolated k = t.isolated k := congrArg (fun f => f.isol.getLsbD k) (refuseRelease_flt t)
    have hr : (t.freeLane l).isolated k = (t.isolated k && !decide (k = l)) := getLsbD_and_not_two_pow ..
    unfold State.isolStep
    rw [hnew t ht.1, hno t ht.1]
    by_cases hk : k = l
    · subst hk
      cases hp : t.isolated k <;> cases s.newIsol k <;> cases s.flt.parkedAll || s.activeSrc (32 + k) <;> simp [hp, hr, hq]
    · split
      · simp [hk]
      · split
        · simp [hk, hq]
        · simp [hk, hr]
  · rw [← hnew t ht.1] at hst
    rw [← hno t ht.1] at hn
    simp only [State.isolStep, hon, hst, hn, Bool.not_true, Bool.or_self, Bool.false_eq_true, if_false, if_true]
    exact bit_refuseRelease t
  · unfold State.isolStep
    split
    · exact ht
    · split
      · exact bit_refuseRelease t
      · exact ht

theorem mem_maskList_word {m : Word} {h : Nat} : h ∈ maskList m.toNat 32 ↔ bit m h = true := by
  rw [mem_maskList, bit_eq_testBit]
  exact ⟨fun h => h.2, fun hb => ⟨by
    by_contra hn
    rw [Nat.testBit_lt_two_pow (lt_of_lt_of_le m.isLt (Nat.pow_le_pow_right (by decide) (Nat.not_lt.mp hn)))] at hb
    exact Bool.false_ne_true hb, hb⟩⟩

/-- FLT_PARK releases the chambers named whose condition has ended (R342). -/
theorem writePark_fields (s : State) (m : Word) :
    (s.writePark m).flt.parkedAll = s.flt.parkedAll ∧
    (∀ h, (s.writePark m).parked h = (s.parked h && !(bit m h && !s.newPark h && !s.flt.parkedAll && !s.chamberHeld h))) ∧
    ((∃ h, bit m h = true ∧ s.parked h = true ∧ s.newPark h = false ∧ (s.flt.parkedAll = true ∨ s.chamberHeld h = true)) →
      bit ((s.writePark m).rg .fltStatus) 28 = true) := by
  have hs := releaseStep_park s (fun t h => t.flt.parkedAll || t.chamberHeld h)
    (fun t ht h => by rw [ht.2.1, chamberHeld_congr ht.1])
  refine ⟨(hs.fold_keeps (maskList m.toNat 32) s (sameConds_refl s)).2.1, fun h => ?_, ?_⟩
  · refine (hs.fold_unit (maskList m.toNat 32) s (sameConds_refl s) h).trans ?_
    simp only [mem_maskList_word, Bool.decide_eq_true, Bool.not_or, Bool.and_assoc]
  · rintro ⟨h, hm, hp, hn, hc⟩
    exact hs.fold_refuses _ s (sameConds_refl s) (mem_maskList_word.mpr hm) hp hn (by simpa using hc)

/-- FLT_ISOL releases the lanes named whose condition has ended (R342). -/
theorem writeIsol_fields (s : State) (m : Word) :
    (s.writeIsol m).flt.park = s.flt.park ∧
    (∀ l < 8, (s.writeIsol m).isolated l =
      (s.isolated l && !(bit m l && !s.newIsol l && !s.flt.parkedAll && !s.activeSrc (32 + l)))) ∧
    ((∃ l < 8, bit m l = true ∧ s.isolated l = true ∧ s.newIsol l = false ∧
      (s.flt.parkedAll = true ∨ s.activeSrc (32 + l) = true)) → bit ((s.writeIsol m).rg .fltStatus) 28 = true) := by
  have hs := releaseStep_isol s
  have hi : s.sameConds s ∧ s.flt.park = s.flt.park := ⟨sameConds_refl s, rfl⟩
  refine ⟨(hs.fold_keeps (maskList m.toNat 8) s hi).2, fun l hl => ?_, ?_⟩
  · refine (hs.fold_unit (maskList m.toNat 8) s hi l).trans ?_
    simp only [mem_maskList, hl, true_and, ← bit_eq_testBit, Bool.decide_eq_true, Bool.not_or, Bool.and_assoc]
  · rintro ⟨l, hl, hm, hp, hn, hc⟩
    exact hs.fold_refuses _ s hi (mem_maskList.mpr ⟨hl, hm⟩) hp hn (by simpa using hc)

/-! ### FLT_CTRL -/

theorem errRelease_only (s : State) :
    ∃ a b, s.errRelease = { s with flt := { s.flt with relWritten := a, errHeld := b } } := by
  unfold State.errRelease
  split
  · exact ⟨_, _, rfl⟩
  · split
    · exact ⟨_, _, rfl⟩
    · exact ⟨s.flt.relWritten, s.flt.errHeld, rfl⟩

/-- ALL_CLR while a source at severity 4 is active (R342). -/
theorem allClr_refused {s : State} (h : ∃ n < 96, s.activeSrc n = true ∧ s.severity n = 4) : s.allClr = s.refuseRelease := by
  obtain ⟨n, hn, ha, hv⟩ := h
  rw [State.allClr, if_pos]
  exact List.any_eq_true.mpr ⟨n, List.mem_range.mpr hn, by simp [ha, hv]⟩

/-- ALL_CLR otherwise releases every chamber but one held by its own source (R342). -/
theorem allClr_fields {s : State} (h : ∀ n < 96, s.activeSrc n = true → s.severity n ≠ 4) :
    s.allClr.rg .fltCtrl = s.rg .fltCtrl ∧ s.allClr.flt.parkedAll = (s.flt.parkedAll && s.newParkAll) ∧
    (∀ h < 32, s.allClr.parked h = (s.parked h && (s.newPark h || s.chamberHeld h))) ∧
    ((∃ h < 32, s.parked h = true ∧ s.newPark h = false ∧ s.chamberHeld h = true) →
      bit (s.allClr.rg .fltStatus) 28 = true) := by
  have ha : ¬ ((List.range 96).any fun n => s.activeSrc n && decide (s.severity n = 4)) = true := by
    rw [List.any_eq_true]
    rintro ⟨n, hn, hc⟩
    simp only [Bool.and_eq_true, decide_eq_true_eq] at hc
    exact h n (List.mem_range.mp hn) hc.1 hc.2
  let t : State := { s with flt := { s.flt with parkedAll := s.flt.parkedAll && s.newParkAll } }
  have he : s.allClr = (List.range 32).foldl (State.parkStep State.chamberHeld) t := by
    rw [State.allClr, if_neg ha]; rfl
  have hs := releaseStep_park t State.chamberHeld (fun u hu n => chamberHeld_congr hu.1 n)
  obtain ⟨-, hp, -, -, hc⟩ := hs.fold_keeps (List.range 32) t (sameConds_refl t)
  rw [he]
  refine ⟨hc, hp, fun k hk => ?_, ?_⟩
  · refine (hs.fold_unit (List.range 32) t (sameConds_refl t) k).trans ?_
    simp only [List.mem_range, hk, decide_true, Bool.true_and, Bool.not_and, Bool.not_not]
    rfl
  · rintro ⟨k, hk, hon, hn, hh⟩
    exact hs.fold_refuses _ t (sameConds_refl t) (List.mem_range.mpr hk) hon hn hh

/-- The state in which ALL_CLR of a write of FLT_CTRL acts. -/
def State.ctrlPut (s : State) (v : Word) : State :=
  if bit v 31 then (s.putReg .fltCtrl 0 0 v).errRelease else s.putReg .fltCtrl 0 0 v

theorem writeFltCtrl_eq (s : State) (v : Word) :
    s.writeFltCtrl v = if bit v 29 then (s.ctrlPut v).allClr else s.ctrlPut v := rfl

theorem ctrlPut_only (s : State) (v : Word) : ∃ a b,
    s.ctrlPut v = { s.putReg .fltCtrl 0 0 v with flt := { s.flt with relWritten := a, errHeld := b } } := by
  unfold State.ctrlPut
  split
  · exact errRelease_only _
  · exact ⟨s.flt.relWritten, s.flt.errHeld, rfl⟩

theorem ctrlPut_regs (s : State) (v : Word) : (s.ctrlPut v).regs = (s.putReg .fltCtrl 0 0 v).regs := by
  obtain ⟨a, b, h⟩ := ctrlPut_only s v
  rw [h]

theorem bit_ctrlPut (s : State) (v : Word) : bit ((s.ctrlPut v).rg .fltCtrl) 30 = bit v 30 := by
  rw [rg_congr (ctrlPut_regs s v), rg_putReg_self, bit_written _ _ _ _ _ (by decide), if_pos (by decide)]

/-- The severities do not depend on FLT_CTRL. -/
theorem severity_ctrlPut (s : State) (v : Word) {n : Nat} (hn : n < 96) : (s.ctrlPut v).severity n = s.severity n := by
  have hne : Reg.fltSev.addr (n / 8) + 4 * 0 ≠ Reg.fltCtrl.addr 0 + 4 * 0 := by
    simp only [Reg.addr, Reg.info]; omega
  unfold State.severity State.sevField
  rw [rg_congr (ctrlPut_regs s v), rg_putReg_of_ne _ _ hne]

theorem ctrlPut_marks (s : State) (v : Word) (a : Nat) : (s.ctrlPut v).marked a = s.marked a := by
  obtain ⟨p, q, h⟩ := ctrlPut_only s v
  exact marked_congr (by rw [h]; rfl) (by rw [h]; rfl) a

/-- FLT_CTRL changes neither the conditions nor the parks. -/
theorem ctrlPut_flt (s : State) (v : Word) : (s.ctrlPut v).flt.src = s.flt.src ∧ (s.ctrlPut v).flt.park = s.flt.park ∧
    (s.ctrlPut v).flt.parkedAll = s.flt.parkedAll := by
  obtain ⟨p, q, h⟩ := ctrlPut_only s v
  rw [h]
  exact ⟨rfl, rfl, rfl⟩

/-! ### FLT_SEL -/

theorem severity_le (s : State) (n : Nat) : s.severity n ≤ 4 := by
  have h : fltFloor n ≤ 4 := by
    unfold fltFloor
    repeat' split
    all_goals decide
  exact max_le (min_le_right _ _) h

theorem at_eq (b : Bool) (i : Nat) : at_ b i = b.toNat * 2 ^ i := by cases b <;> simp [at_]

theorem bit_of_bits {w : Word} {b : Bool} {i : Nat} (h : bits w.toNat i i = b.toNat) : bit w i = b := by
  rw [bit_eq_testBit, Nat.testBit_eq_decide_div_mod_eq]
  rw [bits, Nat.add_sub_cancel_left, pow_one] at h
  rw [h]
  cases b <;> rfl

/-- The fields of FLT_INFO as the number that FLT_SEL takes. -/
theorem fltInfo_fields (c d a b v : Nat) (hd : d < 2 ^ 16) (ha : a < 2) (hb : b < 2) (hv : v ≤ 4) :
    let n := c * 2 ^ 32 + d * 2 ^ 16 + a * 2 ^ 15 + b * 2 ^ 14 + v * 2 ^ 11
    n % 2 ^ 64 / 2 ^ 32 = c % 2 ^ 32 ∧ bits (n % 2 ^ 32) 31 16 = d ∧ bits (n % 2 ^ 32) 15 15 = a ∧
      bits (n % 2 ^ 32) 14 14 = b ∧ bits (n % 2 ^ 32) 13 11 = v := by
  simp only [bits]
  omega

/-- The snapshot of a source (R341). -/
theorem fltSnap_info (s : State) {n : Nat} (hn : n < 96) : (s.fltSnap n).flt.timeSnap = (s.fsrc n).time ∧
    ((s.fltSnap n).flt.infoSnap >>> 32).toNat = (s.fsrc n).count % 2 ^ 32 ∧
    fld ((s.fltSnap n).flt.infoSnap.setWidth 32) 31 16 = (s.fsrc n).detail.toNat ∧
    bit ((s.fltSnap n).flt.infoSnap.setWidth 32) 15 = (s.fsrc n).injected ∧
    bit ((s.fltSnap n).flt.infoSnap.setWidth 32) 14 = s.activeSrc n ∧
    fld ((s.fltSnap n).flt.infoSnap.setWidth 32) 13 11 = s.severity n := by
  have hi : (s.fltSnap n).flt.infoSnap = BitVec.ofNat 64 ((s.fsrc n).count * 2 ^ 32 + (s.fsrc n).detail.toNat * 2 ^ 16 +
      (s.fsrc n).injected.toNat * 2 ^ 15 + (s.activeSrc n).toNat * 2 ^ 14 + s.severity n * 2 ^ 11) := by
    simp only [State.fltSnap, if_neg (Nat.not_le.mpr hn), at_eq]
  have ht : (s.fltSnap n).flt.timeSnap = (s.fsrc n).time := by
    simp only [State.fltSnap, if_neg (Nat.not_le.mpr hn)]
  obtain ⟨h1, h2, h3, h4, h5⟩ := fltInfo_fields (s.fsrc n).count (s.fsrc n).detail.toNat (s.fsrc n).injected.toNat
    (s.activeSrc n).toNat (s.severity n) (s.fsrc n).detail.isLt (Bool.toNat_lt _) (Bool.toNat_lt _) (severity_le s n)
  have hw : ∀ m : Nat, ((BitVec.ofNat 64 m).setWidth 32).toNat = m % 2 ^ 32 := by
    intro m
    rw [BitVec.toNat_setWidth, BitVec.toNat_ofNat]
    omega
  rw [hi]
  refine ⟨ht, ?_, ?_, bit_of_bits ?_, bit_of_bits ?_, ?_⟩
  · rw [BitVec.toNat_ushiftRight, BitVec.toNat_ofNat, Nat.shiftRight_eq_div_pow, h1]
  · rw [fld, hw, h2]
  · rw [hw, h3]
  · rw [hw, h4]
  · rw [fld, hw, h5]

theorem fltSnap_zeros (s : State) {n : Nat} (hn : 96 ≤ n) :
    (s.fltSnap n).flt.timeSnap = 0#64 ∧ (s.fltSnap n).flt.infoSnap = 0#64 := by
  simp [State.fltSnap, hn]

/-- A write of FLT_SEL leaves what FLT_INFO is taken from. -/
theorem severity_putReg_fltSel (s : State) (v : Word) {n : Nat} (hn : n < 96) :
    (s.putReg .fltSel 0 0 v).severity n = s.severity n := by
  have hne : Reg.fltSev.addr (n / 8) + 4 * 0 ≠ Reg.fltSel.addr 0 + 4 * 0 := by
    simp only [Reg.addr, Reg.info]; omega
  unfold State.severity State.sevField
  rw [rg_putReg_of_ne _ _ hne]

/-! ### The rows -/

theorem exec_stickyClear (s : State) (k : Fin 3) (m : Word) :
    exec (.stickyClear k m) s = .next (s.onHost fun s => s.clearSticky k.val m) := rfl
theorem exec_severityWrite (s : State) (k : Fin 12) (v : Word) :
    exec (.severityWrite k v) s = .next (s.onHost fun s => s.protReg .fltSev k.val v) := rfl
theorem exec_parkRelease (s : State) (m : Word) : exec (.parkRelease m) s = .next (s.onHost fun s => s.writePark m) := rfl
theorem exec_isolationRelease (s : State) (m : Word) :
    exec (.isolationRelease m) s = .next (s.onHost fun s => s.writeIsol m) := rfl
theorem exec_fltSel (s : State) (v : Word) : exec (.fltSel v) s = .next (s.onHost fun s => s.writeFltSel v) := rfl

/-- The three rows that write FLT_CTRL are one write. -/
theorem exec_fltCtrl (s : State) (v : Word) :
    ∀ c ∈ [Instr.errForce v, .errRelease v, .allClr v], exec c s = .next (s.onHost fun s => s.writeFltCtrl v) := by
  simp only [List.forall_mem_cons, List.not_mem_nil, false_imp_iff, implies_true, and_true]
  exact ⟨rfl, rfl, rfl⟩

theorem exec_faultWrite_down {s : State} (h : s.hostUp = false) {c : Instr}
    (hc : (∃ k m, c = .stickyClear k m) ∨ (∃ k v, c = .severityWrite k v) ∨
      ∃ v, c ∈ [Instr.errForce v, .errRelease v, .allClr v, .parkRelease v, .isolationRelease v, .fltSel v]) :
    exec c s = .next s.finish := by
  have down : ∀ f : State → State, (Host.Outcome.next (s.onHost f) : Host.Outcome State Fault Refusal) = .next s.finish :=
    fun f => by rw [onHost_down h]
  rcases hc with ⟨k, m, rfl⟩ | ⟨k, v, rfl⟩ | ⟨v, hv⟩
  · exact down _
  · exact down _
  · revert c
    simp only [List.forall_mem_cons, List.not_mem_nil, false_imp_iff, implies_true, and_true]
    exact ⟨down _, down _, down _, down _, down _, down _⟩

/-- A write of a severity: it takes the value under a grant, and without one is denied (R327). -/
theorem protReg_fltSev_denied (s : State) (k : Fin 12) : s.denyWrite.rg .fltSev k.val = s.rg .fltSev k.val ∧
    s.denyWrite.sec.denied = s.sec.denied + 1 ∧ bit (s.denyWrite.rg .secGrantStatus) 28 = true := by
  obtain ⟨q, m, hd⟩ := denyWrite_only s
  have hne : Reg.fltSev.addr k.val + 4 * 0 ≠ Reg.secGrantStatus.addr 0 := by
    have := k.isLt
    simp only [Reg.addr, Reg.info]; omega
  refine ⟨?_, by rw [hd], ?_⟩
  · rw [rg_congr (denyWrite_regs s), rg_setBit_of_ne _ _ hne]
  · rw [rg_congr (denyWrite_regs s), bit_rg_setBit _ _ _ (by decide)]

/-- What a write of FLT_CTRL leaves, by RELEASE and ALL_CLR. -/
theorem writeFltCtrl_force (s : State) (v : Word) : bit ((s.writeFltCtrl v).rg .fltCtrl) 30 = bit v 30 := by
  rw [writeFltCtrl_eq]
  split
  · by_cases h : ∀ n < 96, (s.ctrlPut v).activeSrc n = true → (s.ctrlPut v).severity n ≠ 4
    · rw [(allClr_fields h).1, bit_ctrlPut]
    · push Not at h
      rw [allClr_refused h, (sameConds_refuseRelease _).2.2.2.2, bit_ctrlPut]
  · exact bit_ctrlPut s v

theorem writeFltCtrl_refused {s : State} {v : Word} (hv : bit v 29 = true)
    (h : ∃ n < 96, s.activeSrc n = true ∧ s.severity n = 4) :
    (s.writeFltCtrl v).flt.parkedAll = s.flt.parkedAll ∧ (s.writeFltCtrl v).flt.park = s.flt.park ∧
      bit ((s.writeFltCtrl v).rg .fltStatus) 28 = true := by
  obtain ⟨hsrc, hpark, hall⟩ := ctrlPut_flt s v
  obtain ⟨n, hn, ha, hs⟩ := h
  rw [writeFltCtrl_eq, if_pos hv, allClr_refused ⟨n, hn, by rw [activeSrc_congr hsrc, ha], by rw [severity_ctrlPut s v hn, hs]⟩,
    refuseRelease_flt]
  exact ⟨hall, hpark, bit_refuseRelease _⟩

theorem writeFltCtrl_cleared {s : State} {v : Word} (hv : bit v 29 = true)
    (h : ∀ n < 96, s.activeSrc n = true → s.severity n ≠ 4) :
    (s.writeFltCtrl v).flt.parkedAll = (s.flt.parkedAll && s.newParkAll) ∧
    (∀ h < 32, (s.writeFltCtrl v).parked h = (s.parked h && (s.newPark h || s.chamberHeld h))) ∧
    ((∃ h < 32, s.parked h = true ∧ s.newPark h = false ∧ s.chamberHeld h = true) →
      bit ((s.writeFltCtrl v).rg .fltStatus) 28 = true) := by
  obtain ⟨hsrc, hpark, hall⟩ := ctrlPut_flt s v
  have hnew : (s.ctrlPut v).newParkAll = s.newParkAll := congrArg (bit · 29) (ctrlPut_marks s v _)
  have hp : ∀ h, (s.ctrlPut v).parked h = s.parked h := fun h => congrArg (BitVec.getLsbD · h) hpark
  have hn : ∀ h, (s.ctrlPut v).newPark h = s.newPark h := fun h => congrArg (bit · h) (ctrlPut_marks s v _)
  have hc := chamberHeld_congr hsrc
  obtain ⟨-, h1, h2, h3⟩ := allClr_fields (s := s.ctrlPut v) fun n hn ha => by
    rw [severity_ctrlPut s v hn]; exact h n hn (by rw [← activeSrc_congr hsrc, ha])
  simp only [hall, hnew, hp, hn, hc] at h1 h2 h3
  rw [writeFltCtrl_eq, if_pos hv]
  exact ⟨h1, h2, h3⟩

/-- RELEASE alone: it acts in mode 10b, and a pulse in force remembers it (R340). -/
theorem writeFltCtrl_release {s : State} {v : Word} (hr : bit v 31 = true) (ha : bit v 29 = false) :
    s.writeFltCtrl v = (s.putReg .fltCtrl 0 0 v).errRelease := by
  rw [writeFltCtrl_eq, ha, State.ctrlPut, if_pos hr]; rfl

theorem errMode_putReg_fltCtrl (s : State) (v : Word) : (s.putReg .fltCtrl 0 0 v).errMode = s.errMode := by
  unfold State.errMode State.rf
  rw [rg_putReg_of_ne _ _ (by decide)]

/-- Settles O11: the releases by `ReleaseStep`, FLT_CTRL by the lemmas on `writeFltCtrl`, FLT_INFO by `fltSnap_info`. -/
theorem faultRegisterWrites : Obligations.FaultRegisterWrites := by
  unfold Obligations.FaultRegisterWrites
  refine ⟨fun s h c hc => exec_faultWrite_down h hc, fun s hu => ⟨?_, ?_, ?_, ?_, ?_, ?_⟩⟩
  · intro k m
    rw [exec_stickyClear, onHost_up hu]; rfl
  · intro k v
    rw [exec_severityWrite, onHost_up hu]
    refine ⟨fun hg => ⟨_, rfl, ?_⟩, fun hg => ⟨s.denyWrite, by rw [protReg_denied hg], protReg_fltSev_denied s k⟩⟩
    rw [(protReg_granted hg .fltSev k.val v).1, written_of_rwMask _ _ _ (by decide)]
  · intro v c hc
    rw [exec_fltCtrl s v c hc, onHost_up hu]
    refine ⟨⟨_, rfl, writeFltCtrl_force s v⟩, fun hr ha => ?_, fun hr ha => ?_, fun ha h => ?_, fun ha h => ?_⟩
    · rw [writeFltCtrl_eq, ha, State.ctrlPut, hr]; rfl
    · have hp : (s.putReg .fltCtrl 0 0 v).flt.pulseEnd = s.flt.pulseEnd := rfl
      rw [writeFltCtrl_release hr ha, State.errRelease, errMode_putReg_fltCtrl, hp]
      refine ⟨fun h => ?_, fun h hm => ?_, fun h hm => ?_⟩
      · rw [if_pos h]; rfl
      · rw [h, if_pos hm]; rfl
      · rw [h, if_neg hm]; rfl
    · exact ⟨_, rfl, writeFltCtrl_refused ha h⟩
    · exact ⟨_, rfl, writeFltCtrl_cleared ha h⟩
  · intro m
    obtain ⟨h1, h2, h3⟩ := writePark_fields s m
    rw [exec_parkRelease, onHost_up hu]
    exact ⟨_, rfl, h1, fun h _ => h2 h, fun ⟨h, _, hh⟩ => h3 ⟨h, hh⟩⟩
  · intro m
    rw [exec_isolationRelease, onHost_up hu]
    exact ⟨_, rfl, writeIsol_fields s m⟩
  · intro v
    rw [exec_fltSel, onHost_up hu]
    refine ⟨_, rfl, ?_, fun h => ?_, fun h => fltSnap_zeros _ h⟩
    · show fld ((s.putReg .fltSel 0 0 v).rg .fltSel) 6 0 = _
      rw [rg_putReg_self]
      refine fld_congr fun j _ hj => ?_
      rw [bit_written _ _ _ _ _ (by omega), if_pos (by revert j; decide)]
    · have := fltSnap_info (s.putReg .fltSel 0 0 v) h
      rw [severity_putReg_fltSel s v h] at this
      exact this

end Sys2Proof.Machine
end

section
/-! Settling O21: ports, the boot remap, a broken lock and the interrupt controller. -/

namespace Sys2Proof.Machine

/-! ### Grants of a port (R347, R348, R350) -/

theorem mem_of_minBy {α : Type} {key : α → Nat} {l : List α} {x : α} (h : minBy key l = some x) : x ∈ l := by
  induction l generalizing x with
  | nil => simp [minBy] at h
  | cons y l ih =>
    unfold minBy at h
    split at h
    · simp_all
    · rename_i z hz
      split at h
      · exact List.mem_cons_of_mem _ (ih (by rw [hz, ← h]))
      · simp_all

/-- A port grants one of the requests that it may grant from. -/
theorem mem_granted_of_pick {s : State} {p : Target} {i : Nat} (h : s.pick p = some i) : i ∈ (s.granted p).1 := by
  unfold State.pick at h
  dsimp only at h
  split at h
  · exact (List.mem_filter.mp (List.mem_of_getElem? h)).1
  · simp at h

theorem mem_candidates {s : State} {p : Target} {i : Nat} (h : i ∈ s.candidates p) : busReady s.bus.waiting i = true := by
  have := (List.mem_filter.mp h).2
  simp only [Bool.and_eq_true] at this
  exact this.1

theorem granted_of_lock {s : State} {p : Target} (h : (s.port p).lock.isSome = true) :
    (s.granted p).1 = (s.candidates p).filter (s.reqIs fun r => r.cls = .locked) := by
  simp [State.granted, h]

/-- CONTROL comes before BULK until 4 in a row with BULK waiting. -/
theorem granted_of_control {s : State} {p : Target} (h : (s.port p).lock = none)
    (hc : ∃ j ∈ s.candidates p, s.reqIs (fun r => r.cls ≠ .bulk) j = true) (hr : (s.port p).run < 4) :
    (s.granted p).1 = (s.candidates p).filter (s.reqIs fun r => r.cls ≠ .bulk) := by
  obtain ⟨j, hj, hjc⟩ := hc
  have hne : (s.candidates p).filter (s.reqIs fun r => r.cls ≠ .bulk) ≠ [] :=
    List.ne_nil_of_mem (List.mem_filter.mpr ⟨hj, hjc⟩)
  unfold State.granted
  dsimp only
  rw [h, if_neg (by decide), if_pos (by simp only [ne_eq, hne, hr]; simp)]

theorem granted_of_bulk {s : State} {p : Target} (h : (s.port p).lock = none)
    (hb : ∃ j ∈ s.candidates p, s.reqIs (fun r => r.cls = .bulk) j = true) (hr : 4 ≤ (s.port p).run) :
    (s.granted p).1 = (s.candidates p).filter (s.reqIs fun r => r.cls = .bulk) := by
  obtain ⟨j, hj, hjb⟩ := hb
  have hne : (s.candidates p).filter (s.reqIs fun r => r.cls = .bulk) ≠ [] :=
    List.ne_nil_of_mem (List.mem_filter.mpr ⟨hj, hjb⟩)
  unfold State.granted
  dsimp only
  rw [h, if_neg (by decide), if_neg (by simp [hne, Nat.not_lt.mpr hr])]

theorem granted_subset (s : State) (p : Target) {i : Nat} (h : i ∈ (s.granted p).1) : i ∈ s.candidates p := by
  unfold State.granted at h
  dsimp only at h
  split at h
  · exact (List.mem_filter.mp h).1
  · split at h
    · exact (List.mem_filter.mp h).1
    · exact (List.mem_filter.mp h).1

/-- The access after a sequence that the matrix ended gets an error response (R349). -/
theorem grant_broken {s : State} {p : Target} {i : Nat} {r : BusReq} (hi : s.bus.waiting[i]? = some r) (hl : r.cls = .locked)
    (hf : r.first = false) (hb : s.bus.broken = true) :
    s.grant p i = State.answer { s with bus := { s.bus with broken := false } } i r
      { master := r.master.val, id := r.id.val, error := true } := by
  simp [State.grant, hi, hl, hf, hb]

/-! ### Requests and the boot remap (R355) -/

/-- What masters have put to the matrix is outstanding, or held for the switch. -/
theorem mem_issue (s : State) {l : List BusReq} {r : BusReq} (h : r ∈ l) : r ∈ (s.issue l).bus.waiting ∨
    (r ∈ (s.issue l).bus.held ∧ s.bus.remapTo.isSome = true ∧ r.master = 0 ∧ r.addr < 0x200000) := by
  unfold State.issue
  simp only [List.mem_append, List.mem_filter]
  by_cases hz : (s.bus.remapTo.isSome && decide (r.master = 0) && decide (r.addr < 0x200000)) = true
  · simp only [Bool.and_eq_true, decide_eq_true_eq] at hz
    obtain ⟨⟨h1, h2⟩, h3⟩ := hz
    exact .inr ⟨.inr ⟨h, by simp [h1, h2, h3]⟩, h1, h2, h3⟩
  · exact .inl (.inr ⟨h, by rw [Bool.not_eq_true] at hz; rw [hz]; rfl⟩)

theorem meet_up {s : State} (h : s.core = true) (b : BusAccess) : s.meet b = s.issue b.others := by
  rw [State.meet, if_pos h]

theorem meet_down {s : State} (h : s.core = false) (b : BusAccess) : s.meet b = s := by
  rw [State.meet, h]; rfl

theorem meet_only (s : State) (b : BusAccess) :
    s.meet b = { s with bus := { s.bus with waiting := (s.meet b).bus.waiting, held := (s.meet b).bus.held } } := by
  unfold State.meet
  split <;> rfl

theorem exec_remapWrite (s : State) (b : BusAccess) (v : Word) :
    exec (.remapWrite b v) s = .next (s.onBus b fun s => s.writeRemap b.by_.val v) := rfl

theorem meet_core (s : State) (b : BusAccess) : (s.meet b).core = s.core := by
  rw [meet_only]; rfl

theorem drainBus_nil {s : State} (h : s.bus.waiting = []) : s.drainBus = s := by
  unfold State.drainBus
  rw [h]; rfl

theorem exec_remapSwitch (s : State) : exec .remapSwitch s = .next s.switchRemap.finish := rfl

/-- The switch, once no zero-window transaction is outstanding (R355). -/
theorem switchRemap_switches {s : State} {b : Bool} (hs : s.bus.remapTo.isSome = true)
    (hu : (State.drainBus { s with bus := { s.bus with answers := [] } }).bus.remapTo = some b)
    (hz : (State.drainBus { s with bus := { s.bus with answers := [] } }).zeroBusy = false) :
    s.switchRemap = State.drainBus { State.drainBus { s with bus := { s.bus with answers := [] } } with
      bus := { (State.drainBus { s with bus := { s.bus with answers := [] } }).bus with
        remap := b, remapTo := none, waiting := (State.drainBus { s with bus := { s.bus with answers := [] } }).bus.waiting ++
          (State.drainBus { s with bus := { s.bus with answers := [] } }).bus.held, held := [] } } := by
  have hn : s.bus.remapTo.isNone = false := by rw [Option.isNone_eq_false_iff, hs]
  unfold State.switchRemap
  rw [hn]
  dsimp only
  rw [hu, hz]
  rfl

theorem switchRemap_waits {s : State} (hs : s.bus.remapTo.isSome = true)
    (h : (State.drainBus { s with bus := { s.bus with answers := [] } }).bus.remapTo = none ∨
      (State.drainBus { s with bus := { s.bus with answers := [] } }).zeroBusy = true) :
    s.switchRemap = State.drainBus { s with bus := { s.bus with answers := [] } } := by
  have hn : s.bus.remapTo.isNone = false := by rw [Option.isNone_eq_false_iff, hs]
  unfold State.switchRemap
  rw [hn]
  dsimp only
  generalize State.drainBus { s with bus := { s.bus with answers := [] } } = t at h
  rw [if_neg Bool.false_ne_true]
  split
  · rename_i hb
    rcases h with h | h
    · rw [h] at hb; simp at hb
    · rw [if_pos h]
  · rfl

/-! ### Broken locks (R349) -/

theorem code_injective {p q : Target} (h : p.code = q.code) : p = q := by
  cases p <;> cases q <;> simp_all [Target.code]

theorem port_modPort_self (s : State) (p : Target) (f : Port → Port) : (s.modPort p f).port p = f (s.port p) :=
  tget_tset_self _ _ _ _ rfl

theorem port_modPort_other (s : State) {p q : Target} (f : Port → Port) (h : q ≠ p) : (s.modPort p f).port q = s.port q := by
  unfold State.port State.modPort tmod
  dsimp only
  rw [tget_tset_other _ _ _ fun hc => h (code_injective hc)]

/-- Every lock of a list is ended, and nothing but the ports changes. -/
theorem endLocks (l : List Target) (s : State) :
    (∃ t, l.foldl (fun s p => s.modPort p fun q => { q with lock := none }) s = { s with bus := { s.bus with ports := t } }) ∧
    ∀ p, ((l.foldl (fun s p => s.modPort p fun q => { q with lock := none }) s).port p).lock =
      if p ∈ l then none else (s.port p).lock := by
  induction l generalizing s with
  | nil => exact ⟨⟨s.bus.ports, rfl⟩, fun p => rfl⟩
  | cons q l ih =>
    obtain ⟨⟨t, ht⟩, hp⟩ := ih (s.modPort q fun q => { q with lock := none })
    refine ⟨⟨t, by rw [List.foldl_cons, ht]; rfl⟩, fun p => ?_⟩
    rw [List.foldl_cons, hp]
    rcases eq_or_ne p q with rfl | hne
    · simp [port_modPort_self]
    · simp [port_modPort_other s _ hne, hne]

theorem mem_allTargets (p : Target) : p ∈ allTargets := by cases p <;> decide

theorem exec_lockBrk (s : State) (dt : Nat) : exec (.lockBrk dt) s = .next (s.pass dt).breakLocks.finish := rfl

/-- A lock that lasts too long is ended, before the port serves the others. -/
theorem breakLocks_ends {s : State} (hc : s.core = true) (ho : ∃ p, s.overLocked p = true) :
    ∃ q : State, s.breakLocks = q.drainBus ∧ bit (q.rg .sysBusmxStatus) 29 = true ∧ q.bus.broken = true ∧
      q.bus.waiting = s.bus.waiting ∧ ∀ p, (q.port p).lock = if s.overLocked p then none else (s.port p).lock := by
  obtain ⟨p, hp⟩ := ho
  have hm : ∀ q, q ∈ allTargets.filter s.overLocked ↔ s.overLocked q = true := fun q => by
    simp [List.mem_filter, mem_allTargets]
  have hne : (allTargets.filter s.overLocked).isEmpty = false :=
    List.isEmpty_eq_false_iff.mpr (List.ne_nil_of_mem ((hm p).mpr hp))
  obtain ⟨⟨t, ht⟩, hl⟩ := endLocks (allTargets.filter s.overLocked) s
  refine ⟨_, by rw [State.breakLocks, hc, hne]; rfl, bit_rg_setBit _ _ _ (by decide), ?_, ?_, fun q => ?_⟩
  · rw [State.setBit_bus]
  · rw [State.setBit_bus, ht]
  · refine Eq.trans ?_ ((hl q).trans (by simp only [hm]))
    unfold State.port
    rw [State.setBit_bus]

theorem breakLocks_none {s : State} (h : s.core = false ∨ ∀ p, s.overLocked p = false) : s.breakLocks = s := by
  have : (!s.core || (allTargets.filter s.overLocked).isEmpty) = true := by
    rcases h with h | h
    · rw [h]; rfl
    · simp [h]
  rw [State.breakLocks, if_pos this]

/-! ### The interrupt controller (R367 to R372) -/

theorem irqs_modIrq_self (s : State) (n : Nat) (f : IrqSrc → IrqSrc) : (s.modIrq n f).irqs n = f (s.irqs n) :=
  tget_tset_self _ _ _ _ rfl

theorem irqs_modIrq_other (s : State) {n k : Nat} (f : IrqSrc → IrqSrc) (h : k ≠ n) : (s.modIrq n f).irqs k = s.irqs k := by
  unfold State.irqs State.modIrq tmod
  dsimp only
  rw [tget_tset_other _ _ _ h]

theorem claim_claimable {s : State} {n : Nat} (h : s.claim = some n) :
    (s.irqs n).en = true ∧ (s.irqs n).pending = true := by
  have := (List.mem_filter.mp (mem_of_minBy h)).2
  simp only [State.claimable, Bool.and_eq_true] at this
  exact this.1

/-- PENDING of the sources of a list takes one value, and the others keep theirs. -/
theorem pending_foldl_modIrq (k : Nat) (on : Bool) (l : List Nat) (s : State) (j : Nat) :
    ((l.foldl (fun s j => s.modIrq (32 * k + j) fun q => { q with pending := on }) s).irqs (32 * k + j)).pending =
      if j ∈ l then on else (s.irqs (32 * k + j)).pending := by
  induction l generalizing s with
  | nil => rfl
  | cons i l ih =>
    rw [List.foldl_cons, ih]
    rcases eq_or_ne j i with rfl | hne
    · simp [irqs_modIrq_self]
    · simp [irqs_modIrq_other s _ (show 32 * k + j ≠ 32 * k + i by omega), hne]

theorem pending_setPend_set (s : State) (k : Nat) (m : Word) {j : Nat} :
    ((s.setPend k m true).irqs (32 * k + j)).pending = ((s.irqs (32 * k + j)).pending || bit m j) := by
  refine (pending_foldl_modIrq k true (maskList m.toNat 32) s j).trans ?_
  simp only [mem_maskList_word]
  cases bit m j <;> simp

theorem pending_setPend_clear (s : State) (k : Nat) (m : Word) {j : Nat} (hj : j < 32) :
    ((s.setPend k m false).irqs (32 * k + j)).pending =
      ((s.irqs (32 * k + j)).pending && !(bit m j && !bit (s.marked (Reg.irqPend.addr k)) j)) := by
  refine (pending_foldl_modIrq k false (maskList (m &&& ~~~(s.marked (Reg.irqPend.addr k))).toNat 32) s j).trans ?_
  simp only [mem_maskList_word, bit_and, bit_not _ hj]
  cases bit m j <;> cases bit (s.marked (Reg.irqPend.addr k)) j <;> simp

/-- A master may write the block: the supervisor's side while it runs, the host under a maker grant (R372). -/
def State.mayWriteInternal (s : State) (b : Master) : Prop :=
  (b.val ≠ 2 ∧ s.core = true) ∨ (b.val = 2 ∧ s.hostUp = true ∧ s.makerOk = true)

theorem internalWrite_taken {s : State} {b : Master} (h : s.mayWriteInternal b) (f : State → State) :
    s.internalWrite b.val f = f s := by
  unfold State.internalWrite
  rcases h with ⟨hb, hc⟩ | ⟨hb, hu, hm⟩
  · rw [if_neg hb, if_pos hc]
  · rw [if_pos hb, hu, hm]; rfl

theorem internalWrite_ignored {s : State} {b : Master} (hb : b.val = 2) (hu : s.hostUp = true) (hm : s.makerOk = false)
    (f : State → State) : s.internalWrite b.val f = s.setBit .sysBusmxStatus 0 31 := by
  rw [State.internalWrite, if_pos hb, hu, hm]; rfl

theorem internalWrite_down {s : State} {b : Master} (h : (b.val = 2 ∧ s.hostUp = false) ∨ (b.val ≠ 2 ∧ s.core = false))
    (f : State → State) : s.internalWrite b.val f = s := by
  unfold State.internalWrite
  rcases h with ⟨hb, hu⟩ | ⟨hb, hc⟩
  · rw [if_pos hb, hu]; rfl
  · rw [if_neg hb, hc]; rfl

theorem exec_irqComplete (s : State) (b : Master) (v : Word) :
    exec (.irqComplete b v) s = .next (s.internalWrite b.val fun s => s.completeIrq (fld v 6 0)).finish := rfl
theorem exec_irqSetpend (s : State) (b : Master) (k : Fin 4) (m : Word) :
    exec (.irqSetpend b k m) s = .next (s.internalWrite b.val fun s => s.setPend k.val m true).finish := rfl
theorem exec_irqPendClear (s : State) (b : Master) (k : Fin 4) (m : Word) :
    exec (.irqPendClear b k m) s = .next (s.internalWrite b.val fun s => s.setPend k.val m false).finish := rfl
theorem exec_irqSrcCfgWrite (s : State) (b : Master) (n : Fin 128) (v : Word) :
    exec (.irqSrcCfgWrite b n v) s = .next (s.internalWrite b.val fun s => s.writeIrqCfg n.val v).finish := rfl
theorem exec_irqClaim (s : State) (b : Master) : exec (.irqClaim b) s = .next (s.readClaim b.val).finish := rfl

theorem completeIrq_active {s : State} {n : Nat} (h : (s.irqs n).active = true) : ((s.completeIrq n).irqs n).active = false ∧
    ((s.completeIrq n).irqs n).pending = (if (s.irqs n).sense = 0#2 then s.irqInput n else (s.irqs n).pending) := by
  rw [State.completeIrq, if_pos h, irqs_modIrq_self]
  exact ⟨rfl, rfl⟩

theorem completeIrq_idle {s : State} {n : Nat} (h : (s.irqs n).active = false) : s.completeIrq n = s := by
  rw [State.completeIrq, h]; rfl

theorem writeIrqCfg_fields (s : State) (n : Nat) (v : Word) :
    ((s.writeIrqCfg n v).irqs n).en = bit v 31 ∧ ((s.writeIrqCfg n v).irqs n).sense.toNat = fld v 30 29 ∧
    ((s.writeIrqCfg n v).irqs n).prio.toNat = fld v 27 24 ∧ ((s.writeIrqCfg n v).irqs n).pending =
      ((s.irqs n).pending && bit (s.marked (Reg.irqPend.addr (n / 32))) (n % 32)) := by
  rw [State.writeIrqCfg, irqs_modIrq_self]
  exact ⟨rfl, Nat.mod_eq_of_lt (fld_lt v 30 29), Nat.mod_eq_of_lt (fld_lt v 27 24), rfl⟩

/-- A read of IRQ_CLAIM reaches the block. -/
theorem readClaim_up {s : State} {b : Master} (hc : s.core = true) (hb : b.val = 2 → s.hostUp = true) :
    (!s.core || (decide (b.val = 2) && !s.hostUp)) = false := by
  by_cases h : b.val = 2
  · simp [hc, h, hb h]
  · simp [hc, h]

/-- Settles O21: what is granted is among the candidates (`mem_granted_of_pick`), the requests met by `mem_issue`, the switch
by `switchRemap_switches`, a broken lock by `breakLocks_ends`, the controller's writes by `internalWrite_taken`. -/
theorem matrixAndInterrupts : Obligations.MatrixAndInterrupts := by
  unfold Obligations.MatrixAndInterrupts
  refine ⟨fun s p i h => ⟨?_, fun hl => ?_, fun hl hc hr => ?_, fun hl hb hr => ?_⟩, ?broken, ?remap, ?switch, ?lock,
    ?claim, ?writes⟩
  · exact mem_candidates (granted_subset s p (mem_granted_of_pick h))
  · have := mem_granted_of_pick h
    rw [granted_of_lock hl] at this
    exact (List.mem_filter.mp this).2
  · have := mem_granted_of_pick h
    rw [granted_of_control hl hc hr] at this
    exact (List.mem_filter.mp this).2
  · have := mem_granted_of_pick h
    rw [granted_of_bulk hl hb hr] at this
    exact (List.mem_filter.mp this).2
  case broken =>
    intro s p i r hi hl hf hb
    rw [grant_broken hi hl hf hb]
    exact ⟨rfl, rfl⟩
  case remap =>
    rintro s u b v rfl
    refine ⟨fun r hr hc => ?_, fun hc => meet_down hc b, meet_only s b, fun hb hc => ?_, fun h => ?_⟩
    · rw [meet_up hc]
      exact mem_issue s hr
    · have : (decide (b.by_.val = 0) && (s.meet b).core) = true := by rw [meet_core, hb, hc]; rfl
      rw [exec_remapWrite, State.onBus, State.onPin, State.writeRemap, if_pos this]
    · have : (decide (b.by_.val = 0) && (s.meet b).core) = false := by
        rw [meet_core]
        rcases h with h | h
        · rw [decide_eq_false h]; rfl
        · rw [h, Bool.and_false]
      rw [exec_remapWrite, State.onBus, State.onPin, State.writeRemap, this]
      rfl
  case switch =>
    rintro s u rfl
    refine ⟨fun b hs hu hz => ?_, fun hs h => ?_, drainBus_nil, fun h => ?_⟩
    · rw [exec_remapSwitch, switchRemap_switches hs hu hz]
    · rw [exec_remapSwitch, switchRemap_waits hs h]
    · rw [exec_remapSwitch, State.switchRemap, h]; rfl
  case lock =>
    rintro s u dt rfl
    refine ⟨fun hc ho => ?_, fun h => ?_⟩
    · obtain ⟨q, he, hq⟩ := breakLocks_ends hc ho
      exact ⟨q, by rw [exec_lockBrk, he], hq⟩
    · rw [exec_lockBrk, breakLocks_none h]
  case claim =>
    intro s b
    refine ⟨fun hc hb => ⟨fun n hn => ?_, fun hn => ?_⟩, fun h => ?_⟩
    · obtain ⟨he, hp⟩ := claim_claimable hn
      refine ⟨he, hp, fun h0 => ?_, fun h0 => ?_⟩
      · rw [exec_irqClaim, State.readClaim, readClaim_up hc hb, hn, if_neg Bool.false_ne_true]
        exact congrArg (fun t => Host.Outcome.next (State.finish (State.emit t _))) (if_pos h0)
      · rw [exec_irqClaim, State.readClaim, readClaim_up hc hb, hn, if_neg Bool.false_ne_true]
        exact congrArg (fun t => Host.Outcome.next (State.finish (State.emit t _))) (if_neg h0)
    · rw [exec_irqClaim, State.readClaim, readClaim_up hc hb, hn]; rfl
    · have : (!s.core || (decide (b.val = 2) && !s.hostUp)) = true := by
        rcases h with h | ⟨hb, hu⟩
        · rw [h]; rfl
        · rw [hu, decide_eq_true hb, Bool.not_false, Bool.and_true, Bool.or_true]
      rw [exec_irqClaim, State.readClaim, if_pos this]
  case writes =>
    intro s b v m k n
    refine ⟨fun h => ?_, fun c hc => ⟨fun hb hu hm => ?_, fun h => ?_⟩⟩
    · have ht := internalWrite_taken h
      rw [exec_irqComplete, exec_irqSetpend, exec_irqPendClear, exec_irqSrcCfgWrite, ht, ht, ht, ht]
      exact ⟨fun ha => ⟨_, rfl, completeIrq_active ha⟩, fun ha => by rw [completeIrq_idle ha],
        ⟨_, rfl, fun j _ => pending_setPend_set s k m⟩, ⟨_, rfl, fun j hj => pending_setPend_clear s k m hj⟩,
        ⟨_, rfl, writeIrqCfg_fields s n v⟩⟩
    · have ht := internalWrite_ignored (b := b) hb hu hm
      revert c
      simp only [List.forall_mem_cons, List.not_mem_nil, false_imp_iff, implies_true, and_true]
      rw [exec_irqComplete, exec_irqSetpend, exec_irqPendClear, exec_irqSrcCfgWrite, ht, ht, ht, ht]
      exact ⟨rfl, rfl, rfl, rfl⟩
    · have ht := internalWrite_down (b := b) h
      revert c
      simp only [List.forall_mem_cons, List.not_mem_nil, false_imp_iff, implies_true, and_true]
      rw [exec_irqComplete, exec_irqSetpend, exec_irqPendClear, exec_irqSrcCfgWrite, ht, ht, ht, ht]
      exact ⟨rfl, rfl, rfl, rfl⟩

end Sys2Proof.Machine
end

section
/-! Settling O46: traces, the spool and the history store. -/

namespace Sys2Proof.Machine

/-! ### Words in memory -/

@[simp] theorem length_leBytes (n v : Nat) : (leBytes n v).length = n := by
  induction n generalizing v with
  | zero => rfl
  | succ n ih => simp [leBytes, ih]

theorem wrBytes_append (m : Memory) (a : Nat) (x y : List Byte) :
    wrBytes m a (x ++ y) = wrBytes (wrBytes m a x) (a + x.length) y := by
  induction x generalizing m a with
  | nil => rfl
  | cons b x ih => simp only [List.cons_append, wrBytes, ih, List.length_cons]; congr 1; omega

theorem rdBytes_congr {m n : Memory} {a k : Nat} (h : ∀ x, a ≤ x → x < a + k → rd m x = rd n x) :
    rdBytes m a k = rdBytes n a k := by
  induction k generalizing a with
  | zero => rfl
  | succ k ih =>
    rw [rdBytes, rdBytes, h a (Nat.le_refl a) (by omega), ih fun x h1 h2 => h x (by omega) (by omega)]

/-- Words written in a row are read back one by one. -/
theorem rdBytes_words (ws : List Word) (m : Memory) (a k : Nat) (hk : k < ws.length) :
    rdBytes (wrBytes m a (ws.flatMap fun w => leBytes 4 w.toNat)) (a + 4 * k) 4 = leBytes 4 ws[k].toNat := by
  induction ws generalizing m a k with
  | nil => simp at hk
  | cons w ws ih =>
    rw [List.flatMap_cons, wrBytes_append, length_leBytes]
    cases k with
    | zero =>
      rw [rdBytes_congr (n := wrBytes m a (leBytes 4 w.toNat)) fun x h1 h2 => rd_wrBytes_outside _ (.inl (by omega))]
      have := rdBytes_wrBytes m a (leBytes 4 w.toNat)
      rwa [length_leBytes] at this
    | succ k =>
      have := ih (wrBytes m a (leBytes 4 w.toNat)) (a + 4) k (by simpa using hk)
      rwa [show a + 4 + 4 * k = a + 4 * (k + 1) by omega] at this

/-! ### Triggers (R159) -/

theorem chan_modChan_self (s : State) (h : Nat) (f : ChLoop → ChLoop) : (s.modChan h f).chan h = f (s.chan h) :=
  tget_tset_self _ _ _ _ rfl

theorem chan_modChan_other (s : State) {h k : Nat} (f : ChLoop → ChLoop) (hk : k ≠ h) : (s.modChan h f).chan k = s.chan k := by
  unfold State.chan State.modChan tmod
  dsimp only
  rw [tget_tset_other _ _ _ hk]

/-- `t` is `s` but for triggers of traces. -/
structure State.Triggers (s t : State) : Prop where
  chans_only : ∃ c, t = { s with loop := { s.loop with chans := c } }
  trace : ∀ k, (t.chan k).trace = { (s.chan k).trace with
    triggered := (t.chan k).trace.triggered, trigIdx := (t.chan k).trace.trigIdx, post := (t.chan k).trace.post }

theorem triggers_refl (s : State) : s.Triggers s := ⟨⟨_, rfl⟩, fun _ => rfl⟩

theorem State.Triggers.trans {s t u : State} (h : s.Triggers t) (k : t.Triggers u) : s.Triggers u := by
  obtain ⟨⟨c, hc⟩, ht⟩ := h
  obtain ⟨⟨d, hd⟩, hu⟩ := k
  exact ⟨⟨d, by rw [hd, hc]⟩, fun k => by rw [hu k, ht k]⟩

theorem triggers_fireNow (s : State) (h : Nat) : s.Triggers (s.modChan h fun k => { k with trace := k.trace.fireNow }) := by
  refine ⟨⟨_, rfl⟩, fun k => ?_⟩
  rcases eq_or_ne k h with rfl | hk
  · rw [chan_modChan_self]; rfl
  · rw [chan_modChan_other s _ hk]

/-- A chamber whose source is another chamber's trigger follows it. -/
def State.followTrigger (s : State) (k : Nat) : State :=
  let q := (s.chan k).trace
  if q.armed && !q.triggered && fld q.ctrl 29 27 = 5 then s.modChan k fun c => { c with trace := c.trace.fireNow } else s

theorem traceTrigger_eq (s : State) (h : Nat) : s.traceTrigger h =
    if (s.chan h).trace.armed && !(s.chan h).trace.triggered then
      (List.range 32).foldl State.followTrigger (s.modChan h fun k => { k with trace := k.trace.fireNow })
    else s := rfl

theorem triggers_followTrigger (s : State) (k : Nat) : s.Triggers (s.followTrigger k) := by
  unfold State.followTrigger
  dsimp only
  split
  · exact triggers_fireNow s k
  · exact triggers_refl s

/-- A trace that has triggered is left as it is. -/
theorem followTrigger_triggered {s : State} {h : Nat} (ht : (s.chan h).trace.triggered = true) (k : Nat) :
    ((s.followTrigger k).chan h).trace = (s.chan h).trace := by
  unfold State.followTrigger
  dsimp only
  split
  · rename_i hc
    have hk : h ≠ k := by rintro rfl; simp [ht] at hc
    rw [chan_modChan_other s _ hk]
  · rfl

theorem foldl_followTrigger (l : List Nat) (s : State) : s.Triggers (l.foldl State.followTrigger s) ∧
    ∀ h, (s.chan h).trace.triggered = true → ((l.foldl State.followTrigger s).chan h).trace = (s.chan h).trace := by
  induction l generalizing s with
  | nil => exact ⟨triggers_refl s, fun _ _ => rfl⟩
  | cons k l ih =>
    obtain ⟨h1, h2⟩ := ih (s.followTrigger k)
    refine ⟨(triggers_followTrigger s k).trans h1, fun h ht => ?_⟩
    have hk := followTrigger_triggered ht k
    rw [List.foldl_cons, h2 h (by rw [hk, ht]), hk]

theorem triggers_traceTrigger (s : State) (h : Nat) : s.Triggers (s.traceTrigger h) := by
  rw [traceTrigger_eq]
  split
  · exact (triggers_fireNow s h).trans (foldl_followTrigger _ _).1
  · exact triggers_refl s

/-- An armed trace that has not triggered triggers at the word that comes next. -/
theorem traceTrigger_fires {s : State} {h : Nat} (ha : (s.chan h).trace.armed = true)
    (ht : (s.chan h).trace.triggered = false) : ((s.traceTrigger h).chan h).trace = (s.chan h).trace.fireNow := by
  rw [traceTrigger_eq, ha, ht, Bool.not_false, Bool.and_self, if_pos rfl,
    (foldl_followTrigger _ _).2 h (by rw [chan_modChan_self]; rfl), chan_modChan_self]

theorem triggers_levelTrigger (s : State) (h : Nat) (v : Int) : s.Triggers (s.levelTrigger h v) := by
  unfold State.levelTrigger
  dsimp only
  split
  · exact triggers_traceTrigger s h
  · exact triggers_refl s

/-! ### Ticks (R157, R158, R160) -/

theorem capture_idle {s : State} {h : Nat} (d : List Byte) (v : Int)
    (hi : (s.chan h).trace.armed = false ∨ (s.chan h).trace.doneDue = true) : s.capture h d v = s := by
  rw [State.capture, if_pos (by rcases hi with hi | hi <;> simp [hi])]

/-- An armed capture writes the words at WR_IDX and goes on by one tick. -/
theorem capture_armed {s : State} {h : Nat} (d : List Byte) (v : Int) (ha : (s.chan h).trace.armed = true)
    (hd : (s.chan h).trace.doneDue = false) :
    (s.capture h d v).sram = wrBytes s.sram (trcBase h + 4 * (s.chan h).trace.wrIdx) d ∧
    ((s.capture h d v).chan h).trace.wrIdx = ((s.chan h).trace.wrIdx + 4) % trcWords ∧
    ((s.capture h d v).chan h).trace.tickAt = (s.chan h).trace.tickAt := by
  rw [State.capture, if_neg (by simp [ha, hd])]
  refine ⟨rfl, ?_, ?_⟩
  all_goals
    rw [chan_modChan_self]
    rfl

theorem capture_only (s : State) (h : Nat) (d : List Byte) (v : Int) :
    ∃ m c, s.capture h d v = { s with sram := m, loop := { s.loop with chans := c } } := by
  unfold State.capture
  dsimp only
  split
  · exact ⟨s.sram, s.loop.chans, rfl⟩
  · exact ⟨_, _, rfl⟩

/-- The four words of a tick. -/
def State.tickWords (s : State) (h : Nat) : List Word := [0, 1, 2, 3].map (s.traceWord h)

/-- The state in which a tick may trigger the capture: it has noted the sample, and taken its free values. -/
def State.tickStart (s : State) (h : Nat) : State :=
  let c := (s.selector h 0).1
  let t := s.modChan h fun k => { k with trace := { k.trace with tickAt := some (c, (s.cell c).m.count) } }
  if (t.rg .tstAdcRaw) ≠ 0#32 then { t with free := t.free + 4 } else t

/-- The state after a tick has triggered and filled the buffer. -/
def State.tickTaken (s : State) (h : Nat) : State :=
  ((s.tickStart h).levelTrigger h (sw ((s.tickWords h).getD 0 0#32))).capture h
    ((s.tickWords h).flatMap fun w => leBytes 4 w.toNat) (sw ((s.tickWords h).getD 0 0#32))

theorem tickWork_eq (s : State) (h : Nat) : s.tickWork h =
    if bit ((s.tickTaken h).rg .loopTrcCtrl h) 20 then
      (s.tickTaken h).spool 1 h 0 (s.tickTaken h).nt ((s.tickWords h).flatMap fun w => leBytes 4 w.toNat)
    else s.tickTaken h := rfl

theorem tickStart_only (s : State) (h : Nat) :
    ∃ c n, s.tickStart h = { s with loop := { s.loop with chans := c }, free := n } := by
  unfold State.tickStart
  dsimp only
  split
  · exact ⟨_, _, rfl⟩
  · exact ⟨_, s.free, rfl⟩

theorem tickStart_trace (s : State) (h : Nat) : ((s.tickStart h).chan h).trace = { (s.chan h).trace with
    tickAt := some ((s.selector h 0).1, (s.cell (s.selector h 0).1).m.count) } := by
  have hm := chan_modChan_self s h fun k => { k with trace := { k.trace with
    tickAt := some ((s.selector h 0).1, (s.cell (s.selector h 0).1).m.count) } }
  unfold State.tickStart
  dsimp only
  split
  · exact congrArg ChLoop.trace hm
  · exact congrArg ChLoop.trace hm

/-- A tick changes memory, the state of the trace units and the free values alone. -/
theorem tickTaken_only (s : State) (h : Nat) :
    ∃ m c n, s.tickTaken h = { s with sram := m, loop := { s.loop with chans := c }, free := n } := by
  obtain ⟨c, n, hs⟩ := tickStart_only s h
  obtain ⟨d, hl⟩ := (triggers_levelTrigger (s.tickStart h) h (sw ((s.tickWords h).getD 0 0#32))).chans_only
  obtain ⟨m, e, ht⟩ := capture_only ((s.tickStart h).levelTrigger h (sw ((s.tickWords h).getD 0 0#32))) h
    ((s.tickWords h).flatMap fun w => leBytes 4 w.toNat) (sw ((s.tickWords h).getD 0 0#32))
  exact ⟨m, e, n, by rw [State.tickTaken, ht, hl, hs]⟩

/-- What a tick does to the buffer and to the place in it. -/
theorem tickTaken_buffer (s : State) (h : Nat) :
    ((s.tickTaken h).chan h).trace.tickAt = some ((s.selector h 0).1, (s.cell (s.selector h 0).1).m.count) ∧
    ((s.chan h).trace.armed = true → (s.chan h).trace.doneDue = false →
      (s.tickTaken h).sram = wrBytes s.sram (trcBase h + 4 * (s.chan h).trace.wrIdx)
        ((s.tickWords h).flatMap fun w => leBytes 4 w.toNat) ∧
      ((s.tickTaken h).chan h).trace.wrIdx = ((s.chan h).trace.wrIdx + 4) % trcWords) ∧
    ((s.chan h).trace.armed = false ∨ (s.chan h).trace.doneDue = true →
      (s.tickTaken h).sram = s.sram ∧ ((s.tickTaken h).chan h).trace.wrIdx = (s.chan h).trace.wrIdx) := by
  unfold State.tickTaken
  generalize (s.tickWords h).flatMap (fun w => leBytes 4 w.toNat) = d
  generalize sw ((s.tickWords h).getD 0 0#32) = v
  have hl := triggers_levelTrigger (s.tickStart h) h v
  have ht := hl.trace h
  obtain ⟨c, hc⟩ := hl.chans_only
  obtain ⟨e, n, he⟩ := tickStart_only s h
  have hm : ((s.tickStart h).levelTrigger h v).sram = s.sram := by rw [hc, he]
  generalize (s.tickStart h).levelTrigger h v = x at ht hm
  rw [tickStart_trace] at ht
  have harm : (x.chan h).trace.armed = (s.chan h).trace.armed := by rw [ht]
  have hdone : (x.chan h).trace.doneDue = (s.chan h).trace.doneDue := by rw [ht]
  have hwr : (x.chan h).trace.wrIdx = (s.chan h).trace.wrIdx := by rw [ht]
  have htick : (x.chan h).trace.tickAt = some ((s.selector h 0).1, (s.cell (s.selector h 0).1).m.count) := by rw [ht]
  by_cases hi : (s.chan h).trace.armed = true ∧ (s.chan h).trace.doneDue = false
  · obtain ⟨h1, h2, h3⟩ := capture_armed (s := x) d v (harm.trans hi.1) (hdone.trans hi.2)
    rw [h1, h2, h3, hm, hwr, htick]
    exact ⟨rfl, fun _ _ => ⟨rfl, rfl⟩, fun h => absurd h (by rw [hi.1, hi.2]; decide)⟩
  · have hi' : (s.chan h).trace.armed = false ∨ (s.chan h).trace.doneDue = true := by
      revert hi; cases (s.chan h).trace.armed <;> cases (s.chan h).trace.doneDue <;> simp
    rw [capture_idle d v (by rw [harm, hdone]; exact hi'), hm, hwr, htick]
    exact ⟨rfl, fun h1 h2 => absurd ⟨h1, h2⟩ hi, fun _ => ⟨rfl, rfl⟩⟩

/-- A record goes to a spool with room (R160). -/
theorem spool_room {s : State} (y h i n : Nat) (d : List Byte) (hr : s.fab.spool.length < 65536) :
    ∃ r : SpoolRec, (s.spool y h i n d).fab = { s.fab with spool := s.fab.spool ++ [r], spoolSeq := s.fab.spoolSeq + 1 } ∧
      r.type = BitVec.ofNat 8 y ∧ r.ch = BitVec.ofNat 8 h ∧ r.nt = n :=
  ⟨{ type := BitVec.ofNat 8 y, ch := BitVec.ofNat 8 h, info := BitVec.ofNat 16 i, nt := n, seq := s.fab.spoolSeq,
     payload := d }, if_pos hr, rfl, rfl, rfl⟩

theorem exec_traceTick (s : State) (dt : Nat) (h : Fin 32) :
    exec (.traceTick dt h) s = .next ((s.pass dt).traceTick h.val).finish := rfl

theorem traceTick_idle {s : State} {h : Nat} (hd : s.tickDue h = false) : s.traceTick h = s := by
  rw [State.traceTick, hd]; rfl

theorem traceTick_due {s : State} {h : Nat} (hd : s.tickDue h = true) : s.traceTick h = s.tickWork h := by
  rw [State.traceTick, if_pos hd]

/-- A tick's spool record changes the fabric's part alone. -/
theorem tickWork_fab_only (s : State) (h : Nat) : ∃ f, s.tickWork h = { s.tickTaken h with fab := f } := by
  rw [tickWork_eq]
  split
  · exact ⟨_, rfl⟩
  · exact ⟨(s.tickTaken h).fab, rfl⟩

theorem tickTaken_rg (s : State) (h : Nat) (r : Reg) (i : Nat) : (s.tickTaken h).rg r i = s.rg r i := by
  obtain ⟨m, c, n, ht⟩ := tickTaken_only s h
  exact rg_congr (by rw [ht]) r i 0

/-- The spool takes a record of a tick where SPOOL is set, and else nothing (R160). -/
theorem tickWork_fab (s : State) (h : Nat) :
    (bit (s.rg .loopTrcCtrl h) 20 = false → (s.tickWork h).fab = s.fab) ∧
    (bit (s.rg .loopTrcCtrl h) 20 = true → s.fab.spool.length < 65536 →
      ∃ r, (s.tickWork h).fab.spool = s.fab.spool ++ [r] ∧ r.type = 1#8 ∧ r.ch = BitVec.ofNat 8 h ∧ r.nt = s.nt) := by
  obtain ⟨m, c, n, ht⟩ := tickTaken_only s h
  have hf : (s.tickTaken h).fab = s.fab := by rw [ht]
  have hn : (s.tickTaken h).nt = s.nt := by rw [ht]; rfl
  rw [tickWork_eq, tickTaken_rg]
  refine ⟨fun hb => ?_, fun hb hr => ?_⟩
  · rw [hb]; exact hf
  · rw [if_pos hb]
    obtain ⟨r, h1, h2, h3, h4⟩ := spool_room (s := s.tickTaken h) 1 h 0 (s.tickTaken h).nt
      ((s.tickWords h).flatMap fun w => leBytes 4 w.toNat) (by rw [hf]; exact hr)
    exact ⟨r, by rw [h1, hf], h2, h3, by rw [h4, hn]⟩

/-- The buffer after a tick holds its four words and is otherwise unchanged. -/
theorem tickWords_written (s : State) {t : State} {h a : Nat}
    (ht : t.sram = wrBytes s.sram a ((s.tickWords h).flatMap fun w => leBytes 4 w.toNat)) :
    s.sramKept t a 16 ∧ ∀ k < 4, rdBytes t.sram (a + 4 * k) 4 = leBytes 4 (s.traceWord h k).toNat := by
  have hl : ((s.tickWords h).flatMap fun w => leBytes 4 w.toNat).length = 16 := by simp [State.tickWords]
  refine ⟨fun x hx => ?_, fun k hk => ?_⟩
  · rw [ht, rd_wrBytes_outside _ (by rw [hl]; exact hx)]
  · rw [ht, rdBytes_words _ _ _ k (by simpa [State.tickWords] using hk)]
    match k, hk with
    | 0, _ => rfl
    | 1, _ => rfl
    | 2, _ => rfl
    | 3, _ => rfl

/-! ### A write of TRC_CTRL (R158, R159) -/

theorem exec_trcCtrl (s : State) (h : Fin 32) (v : Word) {c : Instr} (hc : c = .traceArm h v ∨ c = .swtrig h v) :
    exec c s = .next (s.onHost fun s => s.writeTrcCtrl h.val v) := by
  rcases hc with rfl | rfl <;> rfl

/-- The state after the register write and ARM, before SWTRIG. -/
def State.trcArmed (s : State) (h : Nat) (v : Word) : State :=
  let s := s.putReg .loopTrcCtrl h 0 v
  if bit v 31 then
    let done := 0x20000000#32 &&& ~~~s.marked (Reg.loopTrcStatus.addr h)
    (s.setRg .loopTrcStatus h 0 (s.rg .loopTrcStatus h &&& ~~~done)).modChan h fun k =>
      { k with trace := { k.trace with armed := true, triggered := false, doneDue := false, seen := false, tickAt := none,
                                       post := 0, ctrl := s.rg .loopTrcCtrl h } }
  else s

theorem loopTrc_addr_ne (h : Nat) : Reg.loopTrcCtrl.addr h + 4 * 0 ≠ Reg.loopTrcStatus.addr h + 4 * 0 := by
  simp only [Reg.addr, Reg.info]; omega

theorem trcArmed_keeps (s : State) (h : Nat) (v : Word) :
    (s.trcArmed h v).sram = s.sram ∧ (s.trcArmed h v).rg .loopTrcCtrl h = s.written .loopTrcCtrl h 0 v ∧
    ((s.trcArmed h v).chan h).trace.wrIdx = (s.chan h).trace.wrIdx := by
  unfold State.trcArmed
  dsimp only
  split
  · refine ⟨rfl, ?_, ?_⟩
    · rw [rg_congr (State.modChan_regs ..), rg_setRg_of_ne _ _ (loopTrc_addr_ne h), rg_putReg_self]
    · rw [chan_modChan_self]; rfl
  · exact ⟨rfl, rg_putReg_self .., rfl⟩

/-- ARM begins a capture, with DONE clear but where it was set in this cycle (R7, R158). -/
theorem trcArmed_arm (s : State) (h : Nat) {v : Word} (hv : bit v 31 = true) :
    ((s.trcArmed h v).chan h).trace.armed = true ∧ ((s.trcArmed h v).chan h).trace.triggered = false ∧
    ((s.trcArmed h v).chan h).trace.doneDue = false ∧
    (bit (s.marked (Reg.loopTrcStatus.addr h)) 29 = false → bit ((s.trcArmed h v).rg .loopTrcStatus h) 29 = false) := by
  unfold State.trcArmed
  dsimp only
  rw [if_pos hv, chan_modChan_self, rg_congr (State.modChan_regs ..), rg_setRg_self]
  refine ⟨rfl, rfl, rfl, fun hm => ?_⟩
  have hm' : bit ((s.putReg .loopTrcCtrl h 0 v).marked (Reg.loopTrcStatus.addr h)) 29 = false := hm
  rw [bit_and, bit_not _ (by decide), bit_and, bit_not _ (by decide), hm', show bit 0x20000000#32 29 = true by decide]
  simp

theorem trcArmed_noArm (s : State) (h : Nat) {v : Word} (hv : bit v 31 = false) :
    s.trcArmed h v = s.putReg .loopTrcCtrl h 0 v := by
  unfold State.trcArmed
  rw [hv]; rfl

theorem writeTrcCtrl_eq (s : State) (h : Nat) (v : Word) :
    s.writeTrcCtrl h v = if bit v 30 then (s.trcArmed h v).traceTrigger h else s.trcArmed h v := rfl

theorem triggers_writeTrcCtrl (s : State) (h : Nat) (v : Word) : (s.trcArmed h v).Triggers (s.writeTrcCtrl h v) := by
  rw [writeTrcCtrl_eq]
  split
  · exact triggers_traceTrigger ..
  · exact triggers_refl _

/-- What a write of TRC_CTRL leaves, by ARM and SWTRIG. -/
theorem writeTrcCtrl_fields (s : State) (h : Nat) (v : Word) :
    (s.writeTrcCtrl h v).rg .loopTrcCtrl h = s.written .loopTrcCtrl h 0 v ∧ (s.writeTrcCtrl h v).sram = s.sram ∧
    (bit v 31 = true → ((s.writeTrcCtrl h v).chan h).trace.armed = true ∧
      ((s.writeTrcCtrl h v).chan h).trace.doneDue = false ∧
      (bit (s.marked (Reg.loopTrcStatus.addr h)) 29 = false → bit ((s.writeTrcCtrl h v).rg .loopTrcStatus h) 29 = false) ∧
      (bit v 30 = false → ((s.writeTrcCtrl h v).chan h).trace.triggered = false)) ∧
    (bit v 31 = false → (s.writeTrcCtrl h v).rg .loopTrcStatus h = s.rg .loopTrcStatus h ∧
      ((s.writeTrcCtrl h v).chan h).trace.armed = (s.chan h).trace.armed) ∧
    (bit v 30 = true → (bit v 31 = true ∨ ((s.chan h).trace.armed = true ∧ (s.chan h).trace.triggered = false)) →
      ((s.writeTrcCtrl h v).chan h).trace.triggered = true ∧
      ((s.writeTrcCtrl h v).chan h).trace.trigIdx = (s.chan h).trace.wrIdx) ∧
    (bit v 31 = false → bit v 30 = false → (s.writeTrcCtrl h v).loop = s.loop) := by
  have ht := (triggers_writeTrcCtrl s h v).trace h
  obtain ⟨c, hc⟩ := (triggers_writeTrcCtrl s h v).chans_only
  have hg : ∀ r i, (s.writeTrcCtrl h v).rg r i = (s.trcArmed h v).rg r i := fun r i => rg_congr (by rw [hc]) r i 0
  have harmed : ((s.writeTrcCtrl h v).chan h).trace.armed = ((s.trcArmed h v).chan h).trace.armed := by rw [ht]
  have hdone : ((s.writeTrcCtrl h v).chan h).trace.doneDue = ((s.trcArmed h v).chan h).trace.doneDue := by rw [ht]
  obtain ⟨hm, hr, hw⟩ := trcArmed_keeps s h v
  refine ⟨by rw [hg, hr], by rw [hc]; exact hm, fun hv => ?_, fun hv => ?_, fun hv hor => ?_, fun h1 h2 => ?_⟩
  · obtain ⟨h1, h2, h3, h4⟩ := trcArmed_arm s h hv
    exact ⟨by rw [harmed, h1], by rw [hdone, h3], by rw [hg]; exact h4, fun h0 => by rw [writeTrcCtrl_eq, h0]; exact h2⟩
  · rw [hg, harmed, trcArmed_noArm s h hv, rg_putReg_of_ne _ _ (loopTrc_addr_ne h).symm]
    exact ⟨rfl, rfl⟩
  · have harm : ((s.trcArmed h v).chan h).trace.armed = true ∧ ((s.trcArmed h v).chan h).trace.triggered = false := by
      by_cases h31 : bit v 31 = true
      · obtain ⟨h1, h2, -⟩ := trcArmed_arm s h h31
        exact ⟨h1, h2⟩
      · rw [trcArmed_noArm s h (by simpa using h31)]
        exact hor.resolve_left h31
    rw [writeTrcCtrl_eq, if_pos hv, traceTrigger_fires harm.1 harm.2]
    exact ⟨rfl, hw⟩
  · rw [writeTrcCtrl_eq, h2, trcArmed_noArm s h h1]
    rfl

/-! ### The end of a capture (R158) -/

theorem exec_traceDone (s : State) (h : Fin 32) : exec (.traceDone h) s = .next (s.traceDone h.val).finish := rfl

theorem chan_congr {s t : State} (h : s.loop = t.loop) (k : Nat) : s.chan k = t.chan k := by
  unfold State.chan; rw [h]

theorem traceDone_idle {s : State} {h : Nat} (hd : (s.chan h).trace.doneDue = false) : s.traceDone h = s := by
  simp [State.traceDone, hd]

theorem traceDone_due {s : State} {h : Nat} (hd : (s.chan h).trace.doneDue = true) :
    ((s.traceDone h).chan h).trace.armed = false ∧ ((s.traceDone h).chan h).trace.doneDue = false ∧
    bit ((s.traceDone h).rg .loopTrcStatus h) 29 = true ∧ (s.traceDone h).sram = s.sram := by
  unfold State.traceDone
  dsimp only
  rw [if_pos hd]
  refine ⟨?_, ?_, ?_, by simp⟩
  · rw [chan_congr (event_keeps_loop ..), chan_congr (State.setBit_loop ..), chan_modChan_self]
  · rw [chan_congr (event_keeps_loop ..), chan_congr (State.setBit_loop ..), chan_modChan_self]
  · rw [rg_congr (event_keeps_regs ..), bit_rg_setBit _ _ _ (by decide)]

/-! ### The history store (R162, R163) -/

theorem exec_historyCopy (s : State) : exec .historyCopy s = .next s.historyCopy.finish := rfl

theorem exec_fabHistCtrlWrite (s : State) (v : Word) :
    exec (.fabHistCtrlWrite v) s = .next (s.onHost fun s => s.writeHistCtrl v) := rfl

/-- The spool and the history store after the oldest record has left. -/
def Fabric.copied (f : Fabric) (qs : List SpoolRec) (n : Nat) : Fabric :=
  { f with spool := qs, spoolAt := (f.spoolAt + 1) % spoolSize, histOff := (f.histOff + 32) % n,
           histLap := (f.histLap + (f.histOff + 32) / n) % 65536 }

theorem historyCopy_moves {s : State} {q : SpoolRec} {qs : List SpoolRec} (hb : s.bmeUp = true)
    (he : bit (s.rg .fabHistCtrl) 31 = true) (hr : s.ringsBusy = false) (hq : s.fab.spool = q :: qs) :
    s.historyCopy = State.markDrops { s with
      out := s.out ++ [.hostWrite (s.rg8 .fabHistBase / s.histSize * s.histSize + s.fab.histOff) q.bytes],
      fab := s.fab.copied qs s.histSize } := by
  unfold State.historyCopy
  rw [hb, he, hr, hq]
  rfl

theorem historyCopy_waits {s : State}
    (h : s.bmeUp = false ∨ bit (s.rg .fabHistCtrl) 31 = false ∨ s.ringsBusy = true ∨ s.fab.spool = []) :
    s.historyCopy = s := by
  unfold State.historyCopy
  split
  · rfl
  · rename_i hc
    split
    · rfl
    · rename_i hq
      rcases h with h | h | h | h <;> simp_all

/-- A drop marker follows drops once two records have room again (R160). -/
theorem markDrops_none {s : State} (h : s.fab.dropsUnmarked = 0) : s.markDrops = s := by
  simp [State.markDrops, h]

theorem markDrops_marks {s : State} (h : 0 < s.fab.dropsUnmarked) (hr : s.fab.spool.length + 2 ≤ 65536) :
    ∃ r : SpoolRec, s.markDrops.fab.spool = s.fab.spool ++ [r] ∧ r.type = 3#8 := by
  obtain ⟨r, h1, h2, -⟩ := spool_room (s := s) 3 0xFF 0 s.nt (leBytes 4 s.fab.dropsUnmarked) (by omega)
  refine ⟨r, ?_, h2⟩
  rw [State.markDrops, if_pos (by simpa [h, spoolSize] using hr)]
  exact congrArg Fabric.spool h1

theorem markDrops_keeps (s : State) : s.markDrops.fab.histOff = s.fab.histOff ∧ s.markDrops.out = s.out := by
  unfold State.markDrops
  split
  · refine ⟨?_, rfl⟩
    show (State.spool s 3 0xFF 0 s.nt _).fab.histOff = _
    unfold State.spool State.onFab
    dsimp only
    split <;> rfl
  · exact ⟨rfl, rfl⟩

theorem writeHistCtrl_legal (s : State) {v : Word} (h1 : 12 ≤ fld v 5 0) (h2 : fld v 5 0 ≤ 42) :
    (s.writeHistCtrl v).rg .fabHistCtrl = s.written .fabHistCtrl 0 0 v ∧
    (bit v 31 = true → bit (s.rg .fabHistCtrl) 31 = false →
      (s.writeHistCtrl v).fab = { s.fab with histOff := 0, histLap := 0 }) ∧
    (bit v 31 = false ∨ bit (s.rg .fabHistCtrl) 31 = true → (s.writeHistCtrl v).fab = s.fab) := by
  have hok : (decide (12 ≤ fld v 5 0) && decide (fld v 5 0 ≤ 42)) = true := by simp [h1, h2]
  unfold State.writeHistCtrl
  dsimp only
  rw [hok, Bool.true_and, if_pos rfl]
  refine ⟨?_, fun hv hs => by rw [hv, hs]; rfl, fun h => ?_⟩
  · split
    · rw [rg_congr (State.onFab_regs ..), rg_putReg_self]
    · rw [rg_putReg_self]
  · rw [if_neg (by rcases h with h | h <;> simp [h])]
    rfl

theorem writeHistCtrl_illegal (s : State) {v : Word} (h : fld v 5 0 < 12 ∨ 42 < fld v 5 0) :
    (s.writeHistCtrl v).fab = s.fab ∧ bit ((s.writeHistCtrl v).rg .fabHistCtrl) 31 = false := by
  have hok : (decide (12 ≤ fld v 5 0) && decide (fld v 5 0 ≤ 42)) = false := by
    simp only [Bool.and_eq_false_iff, decide_eq_false_iff_not]; omega
  unfold State.writeHistCtrl
  dsimp only
  rw [hok, Bool.false_and, Bool.false_and, if_neg Bool.false_ne_true, if_neg Bool.false_ne_true, rg_putReg_self,
    bit_written _ _ _ _ _ (by decide), if_pos (by decide), bit_and, show bit 0x7FFFFFFF#32 31 = false by decide, Bool.and_false]
  exact ⟨rfl, rfl⟩

/-- Settles O46: ticks by `tickTaken_buffer` and `tickWork_fab`, TRC_CTRL by `writeTrcCtrl_fields`, the history store by
`historyCopy_moves` and `writeHistCtrl_legal`. -/
theorem tracesAndTheHistoryStore : Obligations.TracesAndTheHistoryStore := by
  unfold Obligations.TracesAndTheHistoryStore
  refine ⟨?_, ?_, fun s h => ⟨fun hd => ⟨_, exec_traceDone s h, traceDone_due hd⟩, fun hd => ?_⟩, fun s => ⟨?_, ?_⟩, ?_⟩
  · rintro s u dt h rfl
    refine ⟨fun hd => by rw [exec_traceTick, traceTick_idle hd], fun hd => ?_⟩
    obtain ⟨f, hf⟩ := tickWork_fab_only (s.pass dt) h
    obtain ⟨m, c, n, ht⟩ := tickTaken_only (s.pass dt) h
    obtain ⟨htick, htaken, hkept⟩ := tickTaken_buffer (s.pass dt) h
    obtain ⟨hfab, hspool⟩ := tickWork_fab (s.pass dt) h
    have hsram : ((s.pass dt).tickWork h).sram = ((s.pass dt).tickTaken h).sram := by rw [hf]
    have hchan : ((s.pass dt).tickWork h).chan h = ((s.pass dt).tickTaken h).chan h := chan_congr (by rw [hf]) h
    have hcells : ((s.pass dt).tickWork h).loop.cells = (s.pass dt).loop.cells := by rw [hf, ht]
    refine ⟨_, by rw [exec_traceTick, traceTick_due hd], by rw [hchan, htick], hcells, fun ha hn => ?_, fun hi => ?_,
      hfab, hspool⟩
    · obtain ⟨h1, h2⟩ := htaken ha hn
      obtain ⟨hk, hw⟩ := tickWords_written (s.pass dt) (hsram.trans h1)
      exact ⟨hk, by rw [hchan, h2]; rfl, hw⟩
    · obtain ⟨h1, h2⟩ := hkept hi
      exact ⟨by rw [hsram, h1], by rw [hchan, h2]⟩
  · intro s h v c hc
    rw [exec_trcCtrl s h v hc]
    exact ⟨fun hd => by rw [onHost_down hd], fun hu => ⟨_, by rw [onHost_up hu], writeTrcCtrl_fields s h v⟩⟩
  · rw [exec_traceDone, traceDone_idle hd]
  · intro q qs hb he hr hq
    refine ⟨_, by rw [exec_historyCopy, historyCopy_moves hb he hr hq], ?_, ?_, fun hd => ?_, fun hd hl => ?_⟩
    · rw [(markDrops_keeps _).1]; rfl
    · rw [(markDrops_keeps _).2]
    · rw [markDrops_none (by exact hd)]; rfl
    · exact markDrops_marks (by exact hd) (by exact hl)
  · exact fun h => by rw [exec_historyCopy, historyCopy_waits h]
  · intro s v
    rw [exec_fabHistCtrlWrite]
    refine ⟨fun hd => by rw [onHost_down hd], fun hu => ?_⟩
    rw [onHost_up hu]
    exact ⟨fun h1 h2 => ⟨_, rfl, writeHistCtrl_legal s h1 h2⟩, fun h => ⟨_, rfl, writeHistCtrl_illegal s h⟩⟩

end Sys2Proof.Machine
end

section
/-! Settling O56: lock, link, verify, shapers, lane reset and lane settings. -/

namespace Sys2Proof.Machine

/-! ### Lanes and link delays -/

@[simp] theorem lane_modLane_self (s : State) (l : Nat) (f : Lane → Lane) : (s.modLane l f).lane l = f (s.lane l) :=
  tget_tset_self _ _ _ _ rfl

theorem lane_modLane_other (s : State) {l k : Nat} (f : Lane → Lane) (h : k ≠ l) : (s.modLane l f).lane k = s.lane k := by
  unfold State.lane State.modLane tmod
  dsimp only
  rw [tget_tset_other _ _ _ h]

@[simp] theorem delayOf_modDelay_self (s : State) (l : Nat) (f : LinkDelay → LinkDelay) :
    (s.modDelay l f).delayOf l = f (s.delayOf l) := tget_tset_self _ _ _ _ rfl

theorem delayOf_modDelay_other (s : State) {l k : Nat} (f : LinkDelay → LinkDelay) (h : k ≠ l) :
    (s.modDelay l f).delayOf k = s.delayOf k := by
  unfold State.delayOf State.modDelay tmod
  dsimp only
  rw [tget_tset_other _ _ _ h]

@[simp] theorem lane_modDelay (s : State) (l k : Nat) (f : LinkDelay → LinkDelay) : (s.modDelay l f).lane k = s.lane k := rfl
@[simp] theorem delayOf_modLane (s : State) (l k : Nat) (f : Lane → Lane) : (s.modLane l f).delayOf k = s.delayOf k := rfl

theorem lane_congr {s t : State} (h : t.ept = s.ept) (l : Nat) : t.lane l = s.lane l := by unfold State.lane; rw [h]
theorem delayOf_congr {s t : State} (h : t.time = s.time) (l : Nat) : t.delayOf l = s.delayOf l := by
  unfold State.delayOf; rw [h]

@[simp] theorem lane_event (s : State) (c b a l : Nat) (d : List Byte) (t : Option Nat) (q : Bool) :
    (s.event c b a d t q).lane l = s.lane l := lane_congr (event_keeps_ept ..) l

/-- `t` has lane `l`, its link delay, the registers and the clock of `s`. -/
structure State.SameLane (s t : State) (l : Nat) : Prop where
  lane : t.lane l = s.lane l
  delay : t.delayOf l = s.delayOf l
  regs : t.regs = s.regs
  raw : t.time.raw = s.time.raw

namespace State.SameLane
variable {s t u : State} {l k : Nat}

theorem refl (s : State) (l : Nat) : s.SameLane s l := ⟨rfl, rfl, rfl, rfl⟩

theorem trans (h : s.SameLane t l) (g : t.SameLane u l) : s.SameLane u l :=
  ⟨g.lane.trans h.lane, g.delay.trans h.delay, g.regs.trans h.regs, g.raw.trans h.raw⟩

theorem of_units (he : t.ept = s.ept) (ht : t.time = s.time) (hg : t.regs = s.regs) : s.SameLane t l :=
  ⟨lane_congr he l, delayOf_congr ht l, hg, congrArg TimeUnit.raw ht⟩

theorem now (h : s.SameLane t l) : t.now = s.now := congrArg BitVec.toNat h.raw

theorem resetting (h : s.SameLane t l) : t.laneResetting l = s.laneResetting l := by
  unfold State.laneResetting; rw [h.lane, h.now]

theorem modLane (s : State) (f : Lane → Lane) (h : k ≠ l) : s.SameLane (s.modLane l f) k :=
  ⟨lane_modLane_other s f h, rfl, rfl, rfl⟩

theorem modDelay (s : State) (f : LinkDelay → LinkDelay) (h : k ≠ l) : s.SameLane (s.modDelay l f) k :=
  ⟨rfl, delayOf_modDelay_other s f h, rfl, rfl⟩

end State.SameLane

/-! ### Lock, link delay, verify: the lane they name, and the others -/

/-- The lane after its receiver gains or loses block lock at `now`. -/
def Lane.withLock (x : Lane) (now : Nat) (lock : Bool) : Lane :=
  if x.blockLock = lock then x
  else { x with blockLock := lock, lockTimer := if lock = x.linkUp then none else some (now + msC 1) }

theorem lane_setLock (s : State) (l : Nat) (b : Bool) : (s.setLock l b).lane l = (s.lane l).withLock s.now b :=
  lane_modLane_self ..

theorem Lane.withLock_fields (x : Lane) (n : Nat) (b : Bool) : x.withLock n b = { x with
    blockLock := b, lockTimer := if x.blockLock = b then x.lockTimer else if b = x.linkUp then none else some (n + msC 1) } := by
  unfold Lane.withLock
  split
  · subst b; rfl
  · rfl

theorem lane_loseLock (s : State) (l : Nat) :
    (s.loseLock l).lane l = { (s.lane l).withLock s.now false with fecLock := false } := by
  rw [State.loseLock, lane_modLane_self, lane_setLock]

@[simp] theorem loseLock_regs (s : State) (l : Nat) : (s.loseLock l).regs = s.regs := by simp [State.loseLock, State.setLock]
@[simp] theorem dropDelay_regs (s : State) (l : Nat) : (s.dropDelay l).regs = s.regs := by simp [State.dropDelay]

theorem delay_dropDelay (s : State) (l : Nat) : ((s.dropDelay l).delayOf l).valid = false := by
  rw [State.dropDelay, delayOf_modDelay_self]

/-- The verify procedure runs on a lane with PREEMPT_EN, VERIFY and LINK_UP (R229). -/
def State.verifies (s : State) (l : Nat) : Bool :=
  (s.lane l).preempt && bit (s.rg .eptPreempt l) 31 && (s.lane l).linkUp

/-- The lane when the verify procedure starts, to try until `till`, or does not run. -/
def Lane.verifyFrom (x : Lane) (on : Bool) (till : Nat) : Lane :=
  { x with verify := if on then 1#2 else 0#2, verifyTries := 0, verifyTimer := if on then some till else none }

theorem lane_startVerify (s : State) (l : Nat) :
    (s.startVerify l).lane l = (s.lane l).verifyFrom (s.verifies l) (s.now + msC (s.verifyMs l)) := lane_modLane_self ..

theorem verifies_congr {s t : State} {l : Nat} (hp : (t.lane l).preempt = (s.lane l).preempt)
    (hl : (t.lane l).linkUp = (s.lane l).linkUp) (hr : t.regs = s.regs) : t.verifies l = s.verifies l := by
  unfold State.verifies; rw [hp, hl, rg_congr hr]

section
variable (s : State) {l k : Nat} (h : k ≠ l)
include h

theorem sameLane_loseLock : s.SameLane (s.loseLock l) k := (State.SameLane.modLane s _ h).trans (.modLane _ _ h)
theorem sameLane_dropDelay : s.SameLane (s.dropDelay l) k := .modDelay s _ h
theorem sameLane_startVerify : s.SameLane (s.startVerify l) k := .modLane s _ h

theorem sameLane_resetLane : s.SameLane (s.resetLane l) k :=
  (((sameLane_loseLock s h).trans (sameLane_dropDelay _ h)).trans (.modLane _ _ h)).trans (sameLane_startVerify _ h)
end

/-- The lane after a reset that begins at `now`, but for the verify procedure. -/
def Lane.afterReset (x : Lane) (now : Nat) : Lane :=
  { x.withLock now false with fecLock := false, resetWait := false, resetTill := some (now + msC 2) }

theorem Lane.afterReset_fields (x : Lane) (n : Nat) : (x.afterReset n).blockLock = false ∧
    (x.afterReset n).preempt = x.preempt ∧ (x.afterReset n).linkUp = x.linkUp ∧ (x.afterReset n).queues = x.queues := by
  unfold Lane.afterReset
  rw [Lane.withLock_fields]
  exact ⟨rfl, rfl, rfl, rfl⟩

/-- The state of a lane reset before the verify procedure starts. -/
def State.resetPcs (s : State) (l : Nat) : State :=
  ((s.loseLock l).dropDelay l).modLane l fun x => { x with resetWait := false, resetTill := some (s.now + msC 2) }

theorem resetLane_eq (s : State) (l : Nat) : s.resetLane l = (s.resetPcs l).startVerify l := rfl

theorem lane_resetPcs (s : State) (l : Nat) : (s.resetPcs l).lane l = (s.lane l).afterReset s.now := by
  rw [State.resetPcs, lane_modLane_self, State.dropDelay, lane_modDelay, lane_loseLock]
  rfl

/-- What a lane reset leaves (R398). -/
theorem resetLane_fields (s : State) (l : Nat) :
    ((s.resetLane l).lane l).blockLock = false ∧ ((s.resetLane l).lane l).fecLock = false ∧
    ((s.resetLane l).lane l).resetWait = false ∧ ((s.resetLane l).lane l).resetTill = some (s.now + msC 2) ∧
    ((s.resetLane l).delayOf l).valid = false ∧
    ((s.resetLane l).lane l).verify = (if s.verifies l then 1#2 else 0#2) ∧
    ((s.resetLane l).lane l).queues = (s.lane l).queues := by
  obtain ⟨hb, hp, hl, hq⟩ := (s.lane l).afterReset_fields s.now
  have hv : (s.resetPcs l).verifies l = s.verifies l :=
    verifies_congr (by rw [lane_resetPcs, hp]) (by rw [lane_resetPcs, hl]) (by simp [State.resetPcs])
  have hd : ((s.resetPcs l).startVerify l).delayOf l = ((s.loseLock l).dropDelay l).delayOf l := by
    rw [State.startVerify, delayOf_modLane, State.resetPcs, delayOf_modLane]
  rw [resetLane_eq, lane_startVerify, lane_resetPcs, hv, hd]
  exact ⟨hb, rfl, rfl, rfl, delay_dropDelay .., rfl, hq⟩

/-! ### SYS_LANERST (R398) -/

/-- A lane that the mask names begins its reset, or waits for its frame. -/
def State.resetStep (s : State) (l : Nat) : State :=
  if s.laneResetting l then s else (s.modLane l fun x => { x with resetWait := true }).laneIdle l

theorem sameLane_resetStep (s : State) {l k : Nat} (h : k ≠ l) : s.SameLane (s.resetStep l) k := by
  unfold State.resetStep State.laneIdle
  split
  · exact .refl s k
  · split
    · exact (State.SameLane.modLane s _ h).trans (sameLane_resetLane _ h)
    · exact .modLane s _ h

theorem sameLane_foldl_resetStep {k : Nat} (ls : List Nat) (h : k ∉ ls) (s : State) :
    s.SameLane (ls.foldl State.resetStep s) k := by
  induction ls generalizing s with
  | nil => exact .refl s k
  | cons l ls ih =>
    rw [List.mem_cons, not_or] at h
    exact (sameLane_resetStep s h.1).trans (ih h.2 _)

/-- A lane named once takes the step once, in a state where it is as before. -/
theorem foldl_resetStep {k : Nat} {ls : List Nat} (hk : k ∈ ls) (hn : ls.Nodup) (s : State) :
    ∃ u, s.SameLane u k ∧ (u.resetStep k).SameLane (ls.foldl State.resetStep s) k := by
  obtain ⟨a, b, rfl⟩ := List.append_of_mem hk
  have hb : k ∉ b := (List.nodup_cons.1 (List.nodup_append.1 hn).2.1).1
  have ha : k ∉ a := fun h => (List.nodup_append.1 hn).2.2 k h k (List.mem_cons_self ..) rfl
  refine ⟨a.foldl State.resetStep s, sameLane_foldl_resetStep a ha s, ?_⟩
  rw [List.foldl_append, List.foldl_cons]
  exact sameLane_foldl_resetStep b hb _

theorem resetStep_resetting {s : State} {l : Nat} (h : s.laneResetting l = true) : s.resetStep l = s := by
  rw [State.resetStep, if_pos h]

theorem resetStep_sending {s : State} {l : Nat} (h : s.laneResetting l = false) (hc : (s.lane l).cur.isSome = true) :
    (s.resetStep l).lane l = { s.lane l with resetWait := true } := by
  have hi : (s.lane l).cur.isNone = false := by rw [← Option.not_isSome, hc]; rfl
  rw [State.resetStep, h, State.laneIdle, lane_modLane_self]
  dsimp only
  rw [hi]
  exact lane_modLane_self ..

theorem resetStep_idle {s : State} {l : Nat} (h : s.laneResetting l = false) (hc : (s.lane l).cur = none) :
    s.resetStep l = (s.modLane l fun x => { x with resetWait := true }).resetLane l := by
  have hi : (s.lane l).cur.isNone = true := by rw [hc]; rfl
  rw [State.resetStep, h, State.laneIdle, lane_modLane_self]
  dsimp only
  rw [hi]
  rfl

/-- A granted write of SYS_LANERST takes the step of each lane that the mask names, and leaves the others. -/
theorem laneReset_granted {s : State} (h : s.grantOk = true) (m : Word) (l : Fin 8) :
    (m.getLsbD l.val = false → s.SameLane (s.laneReset m) l.val) ∧
    (m.getLsbD l.val = true → ∃ u, s.SameLane u l.val ∧ (u.resetStep l.val).SameLane (s.laneReset m) l.val) := by
  have hm : l.val ∈ maskList m.toNat 8 ↔ m.getLsbD l.val = true := by rw [mem_maskList]; exact and_iff_right l.isLt
  obtain ⟨e, he⟩ : ∃ e, s.laneReset m =
      ((maskList m.toNat 8).foldl State.resetStep (s.recordOrHold e true)).irqPulse 87 := ⟨_, protWrite_granted h ..⟩
  rw [he]
  have hs : s.SameLane (s.recordOrHold e true) l.val :=
    .of_units (of_frame_ept (recordOrHold_frame s e)) (of_frame_time (recordOrHold_frame s e))
      (of_frame_regs (recordOrHold_frame s e))
  have hp (t : State) : t.SameLane (t.irqPulse 87) l.val :=
    .of_units (State.irqPulse_ept ..) (State.irqPulse_time ..) (State.irqPulse_regs ..)
  refine ⟨fun hl => ?_, fun hl => ?_⟩
  · have hn : l.val ∉ maskList m.toNat 8 := by rw [hm, hl]; decide
    exact (hs.trans (sameLane_foldl_resetStep _ hn _)).trans (hp _)
  · obtain ⟨u, hu, hf⟩ := foldl_resetStep (hm.2 hl) (nodup_maskList ..) (s.recordOrHold e true)
    exact ⟨u, hs.trans hu, hf.trans (hp _)⟩

/-- A lane that the mask does not name, or that is in reset, stays as it is. -/
theorem laneReset_others {s : State} (h : s.grantOk = true) (m : Word) {l : Fin 8}
    (hl : m.getLsbD l.val = false ∨ s.laneResetting l.val = true) : (s.laneReset m).lane l.val = s.lane l.val := by
  obtain ⟨h1, h2⟩ := laneReset_granted h m l
  cases hm : m.getLsbD l.val with
  | false => exact (h1 hm).lane
  | true =>
    obtain ⟨u, hu, hr⟩ := h2 hm
    have hx : s.laneResetting l.val = true := by simpa [hm] using hl
    rw [hr.lane, resetStep_resetting (hu.resetting.trans hx), hu.lane]

/-- A lane that sends waits for the end of its frame. -/
theorem laneReset_sending {s : State} (h : s.grantOk = true) {m : Word} {l : Fin 8} (hm : m.getLsbD l.val = true)
    (hr : s.laneResetting l.val = false) (hc : (s.lane l.val).cur.isSome = true) :
    (s.laneReset m).lane l.val = { s.lane l.val with resetWait := true } := by
  obtain ⟨u, hu, ht⟩ := (laneReset_granted h m l).2 hm
  rw [ht.lane, resetStep_sending (hu.resetting.trans hr) (by rw [hu.lane]; exact hc), hu.lane]

/-- A lane that sends nothing is reset. -/
theorem laneReset_idle {s : State} (h : s.grantOk = true) {m : Word} {l : Fin 8} (hm : m.getLsbD l.val = true)
    (hr : s.laneResetting l.val = false) (hc : (s.lane l.val).cur = none) : ∃ v : State,
    v.now = s.now ∧ v.verifies l.val = s.verifies l.val ∧ (v.lane l.val).queues = (s.lane l.val).queues ∧
    (v.resetLane l.val).SameLane (s.laneReset m) l.val := by
  obtain ⟨u, hu, ht⟩ := (laneReset_granted h m l).2 hm
  rw [resetStep_idle (hu.resetting.trans hr) (by rw [hu.lane, hc])] at ht
  refine ⟨u.modLane l.val fun x => { x with resetWait := true }, hu.now, verifies_congr ?_ ?_ ?_, ?_, ht⟩
  · rw [lane_modLane_self, hu.lane]
  · rw [lane_modLane_self, hu.lane]
  · rw [State.modLane_regs, hu.regs]
  · rw [lane_modLane_self, hu.lane]

/-! ### LANE_CONFIG (R219) -/

/-- RATE, FEC and PREEMPT_EN are set; a change of RATE or FEC loses lock and the link delay. -/
def State.setMode (s : State) (l : Nat) (rate : BitVec 2) (fec pre : Bool) : State :=
  let x := s.lane l
  let s := s.modLane l fun x => { x with rate := rate, fec := fec, preempt := pre }
  if x.rate ≠ rate || x.fec ≠ fec then (s.loseLock l).dropDelay l else s

/-- A change of PREEMPT_EN starts the verify procedure anew. -/
def State.applyConfig (s : State) (l : Nat) (rate : BitVec 2) (fec pre : Bool) : State :=
  if (s.lane l).preempt ≠ pre then (s.setMode l rate fec pre).startVerify l else s.setMode l rate fec pre

theorem laneConfig_none {s : State} {r : Nat} (h : s.readyHead r 0x40 = none) : s.laneConfig r = s := by
  rw [State.laneConfig, h]

theorem laneConfig_running {s : State} {r : Nat} {e : Entry} (h : s.readyHead r 0x40 = some e)
    (hr : s.sched.run.isSome = true) : s.laneConfig r = s.finishCmd r e.idx 0x2C false := by
  rw [State.laneConfig, h]
  dsimp only
  rw [if_pos hr]

theorem laneConfig_applied {s : State} {r : Nat} {e : Entry} (h : s.readyHead r 0x40 = some e) (hr : s.sched.run = none) :
    s.laneConfig r = (s.applyConfig (byteAt e.bytes 24) (BitVec.ofNat 2 (bits (byteAt e.bytes 25) 1 0))
      ((byteAt e.bytes 25).testBit 2) ((byteAt e.bytes 25).testBit 3)).finishCmd r e.idx 0 true := by
  rw [State.laneConfig, h, hr]
  rfl

theorem sameLane_setMode (s : State) {l k : Nat} (rate : BitVec 2) (fec pre : Bool) (h : k ≠ l) :
    s.SameLane (s.setMode l rate fec pre) k := by
  unfold State.setMode
  dsimp only
  split
  · exact ((State.SameLane.modLane s _ h).trans (sameLane_loseLock _ h)).trans (sameLane_dropDelay _ h)
  · exact .modLane s _ h

theorem sameLane_applyConfig (s : State) {l k : Nat} (rate : BitVec 2) (fec pre : Bool) (h : k ≠ l) :
    s.SameLane (s.applyConfig l rate fec pre) k := by
  unfold State.applyConfig
  split
  · exact (sameLane_setMode s rate fec pre h).trans (sameLane_startVerify _ h)
  · exact sameLane_setMode s rate fec pre h

/-- What the new RATE, FEC and PREEMPT_EN leave of the lane. -/
theorem setMode_fields (s : State) (l : Nat) (rate : BitVec 2) (fec pre : Bool) : let t := s.setMode l rate fec pre
    (t.lane l).rate = rate ∧ (t.lane l).fec = fec ∧ (t.lane l).preempt = pre ∧
    (t.lane l).verify = (s.lane l).verify ∧ (t.lane l).linkUp = (s.lane l).linkUp ∧ t.regs = s.regs ∧
    ((s.lane l).rate ≠ rate ∨ (s.lane l).fec ≠ fec →
      (t.lane l).blockLock = false ∧ (t.lane l).fecLock = false ∧ (t.delayOf l).valid = false) ∧
    ((s.lane l).rate = rate → (s.lane l).fec = fec →
      (t.lane l).blockLock = (s.lane l).blockLock ∧ (t.lane l).fecLock = (s.lane l).fecLock ∧ t.delayOf l = s.delayOf l) := by
  dsimp only
  have hu := lane_modLane_self s l fun x => { x with rate := rate, fec := fec, preempt := pre }
  have hd := delayOf_modLane s l l fun x => { x with rate := rate, fec := fec, preempt := pre }
  have hg := State.modLane_regs s l fun x => { x with rate := rate, fec := fec, preempt := pre }
  unfold State.setMode
  dsimp only
  generalize s.modLane l _ = u at hu hd hg ⊢
  by_cases hc : (s.lane l).rate ≠ rate ∨ (s.lane l).fec ≠ fec
  · have hl : ((u.loseLock l).dropDelay l).lane l = _ := lane_loseLock u l
    rw [Lane.withLock_fields, hu] at hl
    rw [if_pos (by simpa using hc), hl]
    exact ⟨rfl, rfl, rfl, rfl, rfl, by simp [hg], fun _ => ⟨rfl, rfl, delay_dropDelay ..⟩,
      fun h1 h2 => absurd hc (by simp [h1, h2])⟩
  · rw [if_neg (by simpa using hc), hu]
    exact ⟨rfl, rfl, rfl, rfl, rfl, hg, fun h => absurd h hc, fun _ _ => ⟨rfl, rfl, hd⟩⟩

/-- A change of PREEMPT_EN changes the verify procedure alone. -/
theorem applyConfig_fields (s : State) (l : Nat) (rate : BitVec 2) (fec pre : Bool) : let t := s.applyConfig l rate fec pre
    let u := s.setMode l rate fec pre
    (t.lane l).rate = (u.lane l).rate ∧ (t.lane l).fec = (u.lane l).fec ∧ (t.lane l).preempt = (u.lane l).preempt ∧
    (t.lane l).blockLock = (u.lane l).blockLock ∧ (t.lane l).fecLock = (u.lane l).fecLock ∧ t.delayOf l = u.delayOf l ∧
    (t.lane l).verify = (if (s.lane l).preempt = pre then (u.lane l).verify else if u.verifies l then 1#2 else 0#2) := by
  dsimp only
  unfold State.applyConfig
  by_cases hp : (s.lane l).preempt = pre
  · simp [hp]
  · rw [if_pos hp, if_neg hp, lane_startVerify]
    exact ⟨rfl, rfl, rfl, rfl, rfl, rfl, rfl⟩

/-! ### Lock and link (R220) -/

theorem blockLockChange_idle {s : State} {l : Nat}
    (h : s.lanePowered l = false ∨ s.rxEn l = false ∨ s.laneResetting l = true) (a b : Bool) :
    s.blockLockChange l a b = s := by
  rw [State.blockLockChange, if_pos (by rcases h with h | h | h <;> simp [h])]

theorem blockLockChange_fields {s : State} {l : Nat} (hp : s.lanePowered l = true) (hr : s.rxEn l = true)
    (hl : s.laneResetting l = false) (a b : Bool) : let t := s.blockLockChange l a b
    t.lane l = { (s.lane l).withLock s.now a with fecLock := b } ∧
    t.tst.lockLost = (if a = false ∧ s.inSelfTest l = true then s.tst.lockLost ||| BitVec.ofNat 8 (2 ^ l)
      else s.tst.lockLost) := by
  let u := (s.setLock l a).modLane l fun x => { x with fecLock := b }
  have hu : u.lane l = { (s.lane l).withLock s.now a with fecLock := b } := by rw [lane_modLane_self, lane_setLock]
  dsimp only
  rw [State.blockLockChange, if_neg (by simp [hp, hr, hl])]
  dsimp only
  have hi : u.inSelfTest l = s.inSelfTest l := rfl
  rw [hi]
  by_cases hc : a = false ∧ s.inSelfTest l = true
  · rw [if_pos (by simp [hc]), if_pos hc]
    exact ⟨hu, rfl⟩
  · rw [if_neg (by simpa using hc), if_neg hc]
    exact ⟨hu, rfl⟩

/-- The state of a change of LINK_UP before the verify procedure starts. -/
def State.linkSet (s : State) (l : Nat) (up : Bool) : State :=
  ((s.modLane l fun x => { x with linkUp := up, lockTimer := none }).setBit .eptStatus l 28).event 14 (if up then 1 else 0) l

theorem setLink_eq (s : State) (l : Nat) (up : Bool) : s.setLink l up = (s.linkSet l up).startVerify l := rfl

theorem lane_linkSet (s : State) (l : Nat) (up : Bool) :
    (s.linkSet l up).lane l = { s.lane l with linkUp := up, lockTimer := none } := by
  rw [State.linkSet, lane_event, lane_congr (State.setBit_ept ..), lane_modLane_self]

theorem bit_linkSet (s : State) (l : Nat) (up : Bool) : bit ((s.linkSet l up).rg .eptStatus l) 28 = true := by
  rw [State.linkSet, rg_congr (event_keeps_regs ..)]
  exact bit_rg_setBit _ _ _ (by decide)

/-- LINK_UP after the 1 ms, with LINK_CHG (R220). -/
theorem setLink_fields (s : State) (l : Nat) (up : Bool) : ((s.setLink l up).lane l).linkUp = up ∧
    ((s.setLink l up).lane l).lockTimer = none ∧ ((s.setLink l up).lane l).cnt = (s.lane l).cnt ∧
    bit ((s.setLink l up).rg .eptStatus l) 28 = true := by
  rw [setLink_eq, lane_startVerify, lane_linkSet]
  exact ⟨rfl, rfl, rfl, bit_linkSet s l up⟩

theorem linkRises_up {s : State} {l : Nat}
    (h : (s.expired (s.lane l).lockTimer && (s.lane l).blockLock && !(s.lane l).linkUp) = true) :
    s.linkRises l = s.setLink l true := if_pos h

theorem linkRises_waits {s : State} {l : Nat}
    (h : (s.expired (s.lane l).lockTimer && (s.lane l).blockLock && !(s.lane l).linkUp) = false) : s.linkRises l = s :=
  if_neg (by rw [h]; decide)

/-- LINK_UP has fallen and is counted. -/
def State.linkLost (s : State) (l : Nat) : State := (s.setLink l false).laneCnt l 15 1

theorem lane_linkLost (s : State) (l : Nat) : (s.linkLost l).lane l = { (s.setLink l false).lane l with
    cnt := tmod (fun _ => 0) ((s.setLink l false).lane l).cnt 15 fun c => (c + 1) % 2 ^ 64 } := lane_modLane_self ..

/-- What the fall of LINK_UP leaves of the lane: LINK_CHG is set and the fall is counted (R220, R248). -/
theorem linkLost_fields (s : State) (l : Nat) : ((s.linkLost l).lane l).linkUp = false ∧
    ((s.linkLost l).lane l).lockTimer = none ∧ bit ((s.linkLost l).rg .eptStatus l) 28 = true ∧
    tget (fun _ => 0) ((s.linkLost l).lane l).cnt 15 = (tget (fun _ => 0) (s.lane l).cnt 15 + 1) % 2 ^ 64 := by
  obtain ⟨h1, h2, h3, h4⟩ := setLink_fields s l false
  have hr : (s.linkLost l).regs = (s.setLink l false).regs := State.modLane_regs ..
  rw [lane_linkLost, rg_congr hr, ← h3]
  refine ⟨h1, h2, h4, ?_⟩
  dsimp only [tmod]
  rw [tget_tset_self _ _ _ _ rfl]

theorem linkFalls_down {s : State} {l : Nat}
    (h : (s.expired (s.lane l).lockTimer && !(s.lane l).blockLock && (s.lane l).linkUp) = true) :
    s.linkFalls l = if (s.lane l).connBusy then s.linkLost l else (s.linkLost l).fire (40 + l) 0 (some l) := if_pos h

theorem linkFalls_waits {s : State} {l : Nat}
    (h : (s.expired (s.lane l).lockTimer && !(s.lane l).blockLock && (s.lane l).linkUp) = false) : s.linkFalls l = s :=
  if_neg (by rw [h]; decide)

theorem linkFalls_fields {s : State} {l : Nat}
    (h : (s.expired (s.lane l).lockTimer && !(s.lane l).blockLock && (s.lane l).linkUp) = true) :
    ((s.linkFalls l).lane l).linkUp = false ∧ ((s.linkFalls l).lane l).lockTimer = none ∧
    bit ((s.linkFalls l).rg .eptStatus l) 28 = true ∧
    tget (fun _ => 0) ((s.linkFalls l).lane l).cnt 15 = (tget (fun _ => 0) (s.lane l).cnt 15 + 1) % 2 ^ 64 ∧
    ((s.lane l).connBusy = false → ∃ q ∈ (s.linkFalls l).flt.fireQ, q.src = 40 + l ∧ q.owner = some l) := by
  obtain ⟨h1, h2, h3, h4⟩ := linkLost_fields s l
  rw [linkFalls_down h]
  by_cases hb : (s.lane l).connBusy = true
  · rw [if_pos hb]
    exact ⟨h1, h2, h3, h4, fun h => absurd h (by rw [hb]; decide)⟩
  · rw [if_neg hb, lane_congr (State.fire_ept ..), rg_congr (State.fire_regs ..)]
    exact ⟨h1, h2, h3, h4, fun _ => ⟨_, List.mem_append_right _ (List.mem_singleton_self _), rfl, rfl⟩⟩

/-! ### The verify procedure (R229) -/

theorem verifyTick_idle {s : State} {l : Nat} (h : (s.lane l).verify ≠ 1#2) (b : Bool) : s.verifyTick l b = s := if_pos h

theorem verifyTick_waits {s : State} {l : Nat} (h : (s.lane l).verify = 1#2)
    (ht : s.expired (s.lane l).verifyTimer = false) : s.verifyTick l false = s := by
  simp [State.verifyTick, h, ht]

theorem lane_verifyTick_response {s : State} {l : Nat} (h : (s.lane l).verify = 1#2) :
    (s.verifyTick l true).lane l = { s.lane l with verify := 2#2, verifyTimer := none } := by
  rw [State.verifyTick, if_neg (not_not_intro h), if_pos rfl, lane_event, lane_modLane_self]

theorem lane_verifyTick_retry {s : State} {l : Nat} (h : (s.lane l).verify = 1#2)
    (ht : s.expired (s.lane l).verifyTimer = true) (hn : (s.lane l).verifyTries < 2) :
    (s.verifyTick l false).lane l = { s.lane l with
      verifyTries := (s.lane l).verifyTries + 1, verifyTimer := some (s.now + msC (s.verifyMs l)) } := by
  rw [State.verifyTick, if_neg (not_not_intro h), if_neg (by decide), if_neg (by rw [ht]; decide), if_pos (by omega),
    lane_modLane_self]

theorem lane_verifyTick_failed {s : State} {l : Nat} (h : (s.lane l).verify = 1#2)
    (ht : s.expired (s.lane l).verifyTimer = true) (hn : 2 ≤ (s.lane l).verifyTries) :
    (s.verifyTick l false).lane l = { s.lane l with verify := 3#2, verifyTimer := none } := by
  rw [State.verifyTick, if_neg (not_not_intro h), if_neg (by decide), if_neg (by rw [ht]; decide), if_neg (by omega),
    lane_event, lane_modLane_self]

/-! ### Shapers (R230, R231) -/

/-- The shaper after `n` refills at the settings that the register now holds. -/
def State.refilled (s : State) (l q n : Nat) : Shaper :=
  { en := bit (s.rg .eptShape (8 * l + q) 1) 31, rate := fld (s.rg .eptShape (8 * l + q) 1) 19 0,
    burst := burstOf (s.rg .eptShape (8 * l + q)).toNat,
    level := min ((s.shaper l q).level + n * fld (s.rg .eptShape (8 * l + q) 1) 19 0)
      (burstOf (s.rg .eptShape (8 * l + q)).toNat * 256),
    last := s.now }

theorem refill_idle {s : State} {l q : Nat} (h : s.core = false ∨ s.now / 1024 - (s.shaper l q).last / 1024 = 0) :
    s.refill l q = s := by
  unfold State.refill
  exact if_pos (by simpa using h)

theorem lane_refill {s : State} {l q : Nat} (hc : s.core = true) (hn : 0 < s.now / 1024 - (s.shaper l q).last / 1024) :
    (s.refill l q).lane l = { s.lane l with
      shapers := tset (fun _ => {}) (s.lane l).shapers q (s.refilled l q (s.now / 1024 - (s.shaper l q).last / 1024)) } := by
  unfold State.refill
  dsimp only
  rw [if_neg (by simp [hc]; omega), lane_modLane_self]
  rfl

theorem shaper_refill_self {s : State} {l q : Nat} (hc : s.core = true)
    (hn : 0 < s.now / 1024 - (s.shaper l q).last / 1024) :
    (s.refill l q).shaper l q = s.refilled l q (s.now / 1024 - (s.shaper l q).last / 1024) := by
  rw [State.shaper, lane_refill hc hn]
  dsimp only
  rw [tget_tset_self _ _ _ _ rfl]

theorem shaper_refill_other {s : State} {l q p : Nat} (hc : s.core = true)
    (hn : 0 < s.now / 1024 - (s.shaper l q).last / 1024) (hp : p ≠ q) : (s.refill l q).shaper l p = s.shaper l p := by
  unfold State.shaper
  rw [lane_refill hc hn]
  dsimp only
  rw [tget_tset_other _ _ _ hp]

/-- Both words of an 8-byte protected register take the value under a grant, and the endpoint's state is kept. -/
theorem protReg8_granted {s : State} (h : s.grantOk = true) (r : Reg) (i : Nat) (v : Dword) :
    (s.protReg8 r i v).ept = s.ept ∧ (s.protReg8 r i v).rg r i 0 = s.written r i 0 (loW v) ∧
    (s.protReg8 r i v).rg r i 1 = s.written r i 1 (hiW v) := by
  rw [State.protReg8, protWrite_granted h]
  generalize s.writeEntry _ _ _ = e
  have hm := recordOrHold_marks s e
  have hf := recordOrHold_frame s e
  have ht := congrArg TimeUnit.raw (of_frame_time hf)
  have hg := of_frame_regs hf
  have he := of_frame_ept hf
  generalize s.recordOrHold e true = u at hm ht hg he ⊢
  have hn : r.addr i + 4 * 0 ≠ r.addr i + 4 * 1 := by omega
  refine ⟨by rw [State.irqPulse_ept]; exact he, ?_, ?_⟩
  · rw [rg_congr (State.irqPulse_regs ..), id, rg_putReg_of_ne _ _ hn, rg_putReg_self]
    exact written_congr hg hm ht ..
  · rw [rg_congr (State.irqPulse_regs ..), id, rg_putReg_self]
    unfold State.written
    rw [rg_putReg_of_ne _ _ hn.symm, marked_congr (s := u.putReg ..) (t := s) hm ht, rg_congr hg]

/-! ### The rows -/

theorem exec_blockLockChange (s : State) (dt : Nat) (l : Fin 8) (a b : Bool) :
    exec (.blockLockChange dt l a b) s = .next ((s.pass dt).blockLockChange l.val a b).finish := rfl
theorem exec_linkUp (s : State) (dt : Nat) (l : Fin 8) :
    exec (.linkUp dt l) s = .next ((s.pass dt).linkRises l.val).finish := rfl
theorem exec_linkDown (s : State) (dt : Nat) (l : Fin 8) :
    exec (.linkDown dt l) s = .next ((s.pass dt).linkFalls l.val).finish := rfl
theorem exec_preemptVerify (s : State) (dt : Nat) (l : Fin 8) (b : Bool) :
    exec (.preemptVerify dt l b) s = .next ((s.pass dt).verifyTick l.val b).finish := rfl
theorem exec_shaperRefill (s : State) (dt : Nat) (l q : Fin 8) :
    exec (.shaperRefill dt l q) s = .next ((s.pass dt).refill l.val q.val).finish := rfl
theorem exec_eptShapeWrite (s : State) (l q : Fin 8) (v : Dword) :
    exec (.eptShapeWrite l q v) s = .next (s.onHost fun s => s.protReg8 .eptShape (8 * l.val + q.val) v) := rfl
theorem exec_laneReset (s : State) (m : Word) : exec (.laneReset m) s = .next (s.onHost fun s => s.laneReset m) := rfl
theorem exec_laneConfig (s : State) (r : Fin 16) : exec (.laneConfig r) s = .next (s.laneConfig r.val).finish := rfl
theorem exec_eptStrSel (s : State) (v : Word) : exec (.eptStrSel v) s = .next (s.onHost fun s => s.writeStrSel v) := rfl

theorem writeStrSel_fields (s : State) (v : Word) :
    (s.writeStrSel v).rg .eptStrSel = s.written .eptStrSel 0 0 v ∧
    tget (fun _ => 0) (s.writeStrSel v).ept.strSnap 1 = (s.stream (fld v 11 0)).gen.toNat ∧
    ∀ k, k ≠ 1 → tget (fun _ => 0) (s.writeStrSel v).ept.strSnap k = tget (fun _ => 0) (s.stream (fld v 11 0)).cnt k := by
  refine ⟨?_, tget_tset_self _ _ _ _ rfl, fun k hk => ?_⟩
  · exact rg_putReg_self s .eptStrSel 0 0 v
  · unfold State.writeStrSel State.strSnapshot
    dsimp only
    rw [tget_tset_other _ _ _ hk]
    rfl

/-- Settles O56: a lane's own state by the `lane_…` and `…_fields` lemmas of each command, SYS_LANERST by `laneReset_granted`
(each lane named takes one step that no other lane's step touches), LANE_CONFIG by `setMode_fields`. -/
theorem linksShapersAndLaneSettings : Obligations.LinksShapersAndLaneSettings := by
  unfold Obligations.LinksShapersAndLaneSettings
  refine ⟨?lock, ?link, ?verify, ?refill, ?shape, ?reset, ?noCmd, ?config, ?sel⟩
  case lock =>
    rintro s _ dt l a b rfl
    rw [exec_blockLockChange]
    refine ⟨fun h => by rw [blockLockChange_idle h], fun hp hr hl => ?_⟩
    obtain ⟨hx, ht⟩ := blockLockChange_fields hp hr hl a b
    rw [Lane.withLock_fields] at hx
    exact ⟨_, rfl, by rw [hx], by rw [hx], by rw [hx], by rw [hx], ht⟩
  case link =>
    rintro s _ dt l rfl
    rw [exec_linkUp, exec_linkDown]
    refine ⟨fun h => ?_, fun h => by rw [linkRises_waits h], fun h => ⟨_, rfl, linkFalls_fields h⟩,
      fun h => by rw [linkFalls_waits h]⟩
    obtain ⟨h1, h2, -, h4⟩ := setLink_fields (s.pass dt) l.val true
    exact ⟨_, by rw [linkRises_up h], h1, h2, h4⟩
  case verify =>
    rintro s _ dt l b rfl
    rw [exec_preemptVerify]
    refine ⟨fun h => by rw [verifyTick_idle h], ?_, ?_, ?_⟩
    · rintro h rfl ht
      rw [verifyTick_waits h ht]
    · rintro h rfl
      exact ⟨_, rfl, by rw [lane_verifyTick_response h], by rw [lane_verifyTick_response h]⟩
    · rintro h rfl ht
      refine ⟨fun hn => ⟨_, rfl, ?_, ?_⟩, fun hn => ⟨_, rfl, ?_, ?_, ?_⟩⟩
      · rw [lane_verifyTick_failed h ht hn]
      · rw [lane_verifyTick_failed h ht hn]
      · rw [lane_verifyTick_retry h ht hn, h]
      · rw [lane_verifyTick_retry h ht hn]
      · rw [lane_verifyTick_retry h ht hn]
  case refill =>
    rintro s _ dt l q rfl
    rw [exec_shaperRefill]
    refine ⟨fun h => by rw [refill_idle h], fun hc hn => ?_⟩
    have hq := shaper_refill_self hc hn
    exact ⟨_, rfl, by rw [hq]; rfl, by rw [hq]; rfl, by rw [hq]; rfl,
      fun p hp => shaper_refill_other hc hn (Fin.val_ne_of_ne hp)⟩
  case shape =>
    intro s l q v hu hg
    rw [exec_eptShapeWrite, onHost_up hu]
    exact ⟨_, rfl, protReg8_granted hg ..⟩
  case reset =>
    intro s m hu hg
    rw [exec_laneReset, onHost_up hu]
    refine ⟨_, rfl, fun l => ⟨laneReset_others hg m, laneReset_sending hg, fun hm hr hc => ?_⟩⟩
    obtain ⟨v, hn, hv, hq, ht⟩ := laneReset_idle hg hm hr hc
    obtain ⟨h1, h2, h3, h4, h5, h6, h7⟩ := resetLane_fields v l.val
    rw [ht.lane, ht.delay]
    exact ⟨h1, h2, h3, by rw [h4, hn], h5, by rw [h6, hv]; rfl, h7.trans hq⟩
  case noCmd =>
    intro s r h
    rw [exec_laneConfig, laneConfig_none h]
  case config =>
    intro s r e h
    dsimp only
    rw [exec_laneConfig]
    refine ⟨fun hr => by rw [laneConfig_running h hr], fun hr => ?_⟩
    rw [laneConfig_applied h hr]
    generalize byteAt e.bytes 24 = l
    generalize BitVec.ofNat 2 (bits (byteAt e.bytes 25) 1 0) = rate
    generalize (byteAt e.bytes 25).testBit 2 = fec
    generalize (byteAt e.bytes 25).testBit 3 = pre
    obtain ⟨a1, a2, a3, a4, a5, a6, a7⟩ := applyConfig_fields s l rate fec pre
    obtain ⟨m1, m2, m3, m4, m5, m6, m7, m8⟩ := setMode_fields s l rate fec pre
    refine ⟨_, rfl, a1.trans m1, a2.trans m2, a3.trans m3, ?_, ?_, ?_, fun k hk => (sameLane_applyConfig s rate fec pre hk).lane⟩
    · rw [a4, a5, a6]; exact m7
    · rw [a4, a5, a6]; exact m8
    · rw [a7, m4, State.verifies, m3, m5, rg_congr m6]
  case sel =>
    intro s v hu
    rw [exec_eptStrSel, onHost_up hu]
    exact ⟨_, rfl, writeStrSel_fields s v⟩

end Sys2Proof.Machine
end

section
/-! What completions, events, messages and audit entries can do besides `State.frame`: the flash keeps all but the counters of
the keys, a key keeps what it holds, and no firing that waits is lost. -/

namespace Sys2Proof.Machine

/-- The state `t` comes from `s` by reports alone: completions, events, messages, firings and audit entries. -/
structure State.Reports (s t : State) : Prop where
  frame : t.frame = s.frame
  flash : ∃ l o, t.flash = { s.flash with lasts := l, lastsOld := o }
  fired : s.flt.fireQ <+: t.flt.fireQ
  held : ∀ k, (t.key k).held = (s.key k).held ∧ (t.key k).material = (s.key k).material

namespace State.Reports

variable {s t u : State}

theorem refl (s : State) : s.Reports s := ⟨rfl, ⟨_, _, rfl⟩, List.prefix_rfl, fun _ => ⟨rfl, rfl⟩⟩

theorem trans (h : s.Reports t) (g : t.Reports u) : s.Reports u := by
  obtain ⟨hf, ⟨l, o, hl⟩, hq, hk⟩ := h
  obtain ⟨gf, ⟨l', o', gl⟩, gq, gk⟩ := g
  exact ⟨gf.trans hf, ⟨l', o', by rw [gl, hl]⟩, hq.trans gq, fun k => ⟨(gk k).1.trans (hk k).1, (gk k).2.trans (hk k).2⟩⟩

/-- A change outside the flash, the firings and the keys that `State.frame` leaves out. -/
theorem of_same (hf : t.frame = s.frame) (hl : t.flash = s.flash) (hq : t.flt.fireQ = s.flt.fireQ)
    (hk : t.sec.keys = s.sec.keys) : s.Reports t :=
  ⟨hf, ⟨s.flash.lasts, s.flash.lastsOld, hl⟩, hq ▸ List.prefix_rfl, fun k => by unfold State.key; rw [hk]; exact ⟨rfl, rfl⟩⟩

theorem foldl {α : Type} (l : List α) {f : State → α → State} (h : ∀ (s : State) a, s.Reports (f s a)) (s : State) :
    s.Reports (l.foldl f s) := by
  induction l generalizing s with
  | nil => exact refl s
  | cons a l ih => exact (h s a).trans (ih _)

/-! ### What follows of it -/

theorem img (h : s.Reports t) (k : Nat) : t.img k = s.img k := by
  obtain ⟨l, o, hl⟩ := h.flash
  unfold State.img; rw [hl]

theorem store (h : s.Reports t) : t.flash.store = s.flash.store := by
  obtain ⟨l, o, hl⟩ := h.flash; rw [hl]
theorem relpety (h : s.Reports t) : t.flash.relpety = s.flash.relpety := by
  obtain ⟨l, o, hl⟩ := h.flash; rw [hl]
theorem slots (h : s.Reports t) : t.flash.slots = s.flash.slots := by
  obtain ⟨l, o, hl⟩ := h.flash; rw [hl]
theorem jobs (h : s.Reports t) : t.flash.pending = s.flash.pending := by
  obtain ⟨l, o, hl⟩ := h.flash; rw [hl]
theorem epoch (h : s.Reports t) : t.flash.epoch = s.flash.epoch := by
  obtain ⟨l, o, hl⟩ := h.flash; rw [hl]

/-- A firing that waits for its reactions still does. -/
theorem waits {p : FireReq → Prop} (h : s.Reports t) (hq : ∃ q ∈ s.flt.fireQ, p q) : ∃ q ∈ t.flt.fireQ, p q :=
  let ⟨q, hm, hp⟩ := hq; ⟨q, h.fired.subset hm, hp⟩

end State.Reports

/-! ### The operations -/

theorem key_modKey_self (s : State) (k : Nat) (f : Key → Key) : (s.modKey k f).key k = f (s.key k) := tget_tset_self _ _ _ _ rfl

theorem key_modKey_other (s : State) {j k : Nat} (f : Key → Key) (h : j ≠ k) : (s.modKey k f).key j = s.key j := by
  unfold State.key State.modKey
  dsimp only
  rw [tmod, tget_tset_other _ _ _ h]

theorem reports_emit (s : State) (o : Output) : s.Reports (s.emit o) := .of_same rfl rfl rfl rfl
theorem reports_tick (s : State) : s.Reports s.tick := .of_same rfl rfl rfl rfl
theorem reports_modRing (s : State) (r : Nat) (f : Ring → Ring) : s.Reports (s.modRing r f) := .of_same rfl rfl rfl rfl
theorem reports_modEntry (s : State) (r i : Nat) (f : Entry → Entry) : s.Reports (s.modEntry r i f) := .of_same rfl rfl rfl rfl

theorem reports_mark (s : State) (a : Nat) (m : Word) : s.Reports (s.mark a m) :=
  .of_same (frame_mark ..) (by simp) (by simp) (by simp)

theorem reports_fire (s : State) (n d : Nat) (o : Option Nat) : s.Reports (s.fire n d o) :=
  ⟨rfl, ⟨_, _, rfl⟩, List.prefix_append _ _, fun _ => ⟨rfl, rfl⟩⟩

theorem reports_irqPulse (s : State) (n : Nat) : s.Reports (s.irqPulse n) :=
  .of_same (frame_irqPulse ..) (by simp) (by simp) (by simp)

theorem reports_sendMsix (s : State) (v : Nat) : s.Reports (s.sendMsix v) := by
  unfold State.sendMsix
  split
  · exact .of_same rfl rfl rfl rfl
  · exact reports_emit ..

theorem reports_ringMsg (s : State) (r : Nat) : s.Reports (s.ringMsg r) := by
  unfold State.ringMsg
  dsimp only
  split
  · split
    · exact reports_modRing ..
    · split
      · exact reports_sendMsix ..
      · exact (reports_sendMsix ..).trans (reports_modRing ..)
  · exact .refl s

theorem reports_writeEvent (s : State) (r : Nat) (e : EventRec) : s.Reports (s.writeEvent r e) :=
  (((reports_emit ..).trans (reports_emit ..)).trans (reports_modRing ..)).trans (reports_ringMsg ..)

theorem reports_dropEvent (s : State) (r : Nat) (q : Bool) : s.Reports (s.dropEvent r q) := by
  unfold State.dropEvent
  dsimp only
  split
  · exact reports_modRing ..
  · exact (reports_modRing ..).trans (reports_fire ..)

theorem reports_event (s : State) (c b a : Nat) (d : List Byte) (t : Option Nat) (q : Bool) :
    s.Reports (s.event c b a d t q) := by
  unfold State.event
  dsimp only
  split
  · split
    · exact (reports_modRing ..).trans (reports_writeEvent ..)
    · split
      · exact (reports_modRing ..).trans (reports_modRing ..)
      · exact ((reports_modRing ..).trans (reports_modRing ..)).trans (reports_dropEvent ..)
  · exact reports_dropEvent ..

theorem reports_appendAudit (s : State) (e : AuditEntry) (ok : Bool) : s.Reports (s.appendAudit e ok) := by
  unfold State.appendAudit
  dsimp only
  split
  · exact ⟨rfl, ⟨_, _, rfl⟩, List.prefix_rfl, fun _ => ⟨rfl, rfl⟩⟩
  · exact ⟨rfl, ⟨_, _, rfl⟩, List.prefix_append _ _, fun _ => ⟨rfl, rfl⟩⟩

theorem reports_writeAudit (s : State) (e : AuditEntry) (ok : Bool) : s.Reports (s.writeAudit e ok) := reports_appendAudit ..

theorem reports_setResult (s : State) (q : Nat) (b : Byte) : s.Reports (s.setResult q b) := by
  unfold State.setResult
  split
  · exact .of_same rfl rfl rfl rfl
  · exact .refl s

theorem reports_holdAudit (s : State) (e : AuditEntry) : s.Reports (s.holdAudit e) := by
  unfold State.holdAudit
  split <;> exact .of_same rfl rfl rfl rfl

theorem reports_noteRefusal (s : State) (k : Nat) : s.Reports (s.noteRefusal k) := .of_same rfl rfl rfl rfl

/-- A key's counter is no part of what the key holds. -/
theorem reports_modKey_last (s : State) (k : Nat) (f : Key → Dword) :
    s.Reports (s.modKey k fun q => { q with last := f q }) := by
  refine ⟨rfl, ⟨_, _, rfl⟩, List.prefix_rfl, fun j => ?_⟩
  by_cases h : j = k
  · subst h; rw [key_modKey_self]; exact ⟨rfl, rfl⟩
  · rw [key_modKey_other _ _ h]; exact ⟨rfl, rfl⟩

theorem reports_useCounter (s : State) (k : Nat) (c : Dword) : s.Reports (s.useCounter k c) := by
  unfold State.useCounter
  split
  · exact (reports_modKey_last s k fun q => if q.last.toNat < c.toNat then c else q.last).trans
      (.of_same rfl rfl rfl rfl)
  · exact reports_modKey_last ..

theorem reports_credCheck (s : State) (b m : List Byte) (may : Role → Bool) : s.Reports (s.credCheck b m may).2 := by
  unfold State.credCheck
  dsimp only
  split
  · exact .refl s
  · split
    · exact .refl s
    · split
      · exact .refl s
      · split <;> exact reports_useCounter ..

theorem reports_writeCompletion (s : State) (r : Nat) (e : Entry) (c : Completion) :
    s.Reports (s.writeCompletion r e c) := by
  unfold State.writeCompletion
  extract_lets data a cw sp w body control result
  have hdata : s.Reports data := by
    unfold data
    split
    · exact reports_emit ..
    · exact .refl s
  have hbody : data.Reports body := by
    unfold body
    split
    · exact .refl _
    · exact reports_emit ..
  have hresult : control.Reports result := by
    unfold result
    split
    · exact reports_setResult ..
    · exact .refl _
  exact ((((hdata.trans hbody).trans (reports_emit ..)).trans hresult).trans (reports_modRing ..)).trans (reports_ringMsg ..)

theorem reports_acceptHead (s : State) (r i : Nat) (f : Entry → Entry) : s.Reports (s.acceptHead r i f) :=
  .of_same rfl rfl rfl rfl

theorem reports_startHead (s : State) (r : Nat) (e : Entry) (ok : Bool) : s.Reports (s.startHead r e ok) := by
  unfold State.startHead
  dsimp only
  split
  · exact reports_acceptHead ..
  · split
    · exact (reports_modEntry ..).trans (reports_modRing ..)
    · split
      · exact (reports_holdAudit ..).trans (reports_modEntry ..)
      · generalize hp : (if e.auth.isEmpty = true then ((⟨5, none⟩ : Cred), s) else s.credCheck e.auth _ _) = p
        have hcred : s.Reports p.2 := by
          rw [← hp]
          split
          · exact .refl s
          · exact reports_credCheck ..
        have haudit := hcred.trans (reports_writeAudit p.2 (cmdAudit r e p.1.status) ok)
        generalize (if p.1.status = 0 && !ok then 0x50 else p.1.status) = st
        split
        · exact haudit.trans (reports_acceptHead ..)
        · exact ((haudit.trans (reports_noteRefusal ..)).trans (reports_event ..)).trans (reports_modEntry ..)

theorem reports_settle (n : Nat) (s : State) (r : Nat) (ok : Bool) : s.Reports (State.settle n s r ok) := by
  induction n generalizing s with
  | zero => exact .refl s
  | succ n ih =>
    unfold State.settle
    split
    · exact .refl s
    · split
      · exact .refl s
      · split
        · exact ((reports_writeCompletion ..).trans (reports_modRing ..)).trans (ih _)
        · split
          · exact (reports_startHead ..).trans (ih _)
          · exact .refl s

theorem reports_drain (s : State) (r : Nat) (ok : Bool) : s.Reports (s.drain r ok) := reports_settle ..

theorem reports_complete (s : State) (r i : Nat) (c : Completion) : s.Reports (s.complete r i c) :=
  (reports_modEntry ..).trans (reports_drain ..)

theorem reports_finishCmd (s : State) (r i st : Nat) (tk : Bool) (res : List Byte) (k : Nat)
    (pre : Option (Nat × List Byte)) : s.Reports (s.finishCmd r i st tk res k pre) := by
  unfold State.finishCmd
  split
  · exact .refl s
  · exact reports_complete ..

end Sys2Proof.Machine
end

section
/-! Settling O24, O25 and O26: loading, routing, reading and freeing maps. -/

namespace Sys2Proof.Machine

/-! ### Directory entries and map bytes -/

@[simp] theorem dir_modDir_self (s : State) (m : Nat) (f : MapDir → MapDir) : (s.modDir m f).dir m = f (s.dir m) :=
  tget_tset_self _ _ _ _ rfl

theorem dir_modDir_other (s : State) {m n : Nat} (f : MapDir → MapDir) (h : n ≠ m) : (s.modDir m f).dir n = s.dir n := by
  unfold State.dir State.modDir
  dsimp only
  rw [tmod, tget_tset_other _ _ _ h]

@[simp] theorem dir_setDir_self (s : State) (m : Nat) (d : MapDir) : (s.setDir m d).dir m = d := dir_modDir_self ..

theorem dir_setDir_other (s : State) {m n : Nat} (d : MapDir) (h : n ≠ m) : (s.setDir m d).dir n = s.dir n :=
  dir_modDir_other _ _ h

@[simp] theorem setDir_sram (s : State) (m : Nat) (d : MapDir) : (s.setDir m d).sram = s.sram := rfl

theorem sramKept_setDir (s t : State) (m : Nat) (d : MapDir) (a n : Nat) :
    s.sramKept (t.setDir m d) a n ↔ s.sramKept t a n := Iff.rfl

/-- The bytes put into a map are read back, and no other byte of SRAM changes. -/
theorem putMap_fields (s : State) (m o : Nat) (b : List Byte) :
    rdBytes (s.putMap m o b).sram (mapBase m + o) b.length = b ∧ s.sramKept (s.putMap m o b) (mapBase m + o) b.length :=
  ⟨rdBytes_wrBytes .., fun _ hx => rd_wrBytes_outside _ hx⟩

/-! ### MAP_LOAD (R64, R282) -/

/-- The directory entry of a port map that keeps R38. -/
theorem loadPorts_fields (s : State) (m : Nat) (b : List Byte) : let t := (s.loadPorts m b).2
    t.sram = (s.putMap m 256 b).sram ∧ (∀ n, n ≠ m → t.dir n = s.dir n) ∧
    ((s.putMap m 256 b).connsOk m = true → (s.loadPorts m b).1 = 0 ∧ (t.dir m).state = .loaded ∧ (t.dir m).host = false ∧
      (t.dir m).engine = false) ∧
    ((s.putMap m 256 b).connsOk m = false → (s.loadPorts m b).1 = 0x10 ∧ t.dir m = {}) := by
  dsimp only
  unfold State.loadPorts
  dsimp only
  split
  · rename_i h
    exact ⟨rfl, fun n hn => dir_setDir_other _ _ hn, fun _ => by rw [dir_setDir_self]; exact ⟨rfl, rfl, rfl, rfl⟩,
      fun hf => by simp [h] at hf⟩
  · rename_i h
    exact ⟨rfl, fun n hn => dir_setDir_other _ _ hn, fun ht => absurd ht h, fun _ => ⟨rfl, dir_setDir_self ..⟩⟩

theorem loadComplete_fields (s : State) (m : Nat) (b : List Byte) : let t := (s.loadComplete m b).2
    t.sram = (s.putMap m 0 b).sram ∧ (∀ n, n ≠ m → t.dir n = s.dir n) ∧
    ((s.putMap m 0 b).connsOk m = true → completeMapOk ((s.putMap m 0 b).mapByte m) s.fab.failed = true →
      (s.loadComplete m b).1 = 0 ∧ (t.dir m).state = .routed ∧ (t.dir m).host = true ∧ (t.dir m).failGen = s.fab.failGen) ∧
    ((s.putMap m 0 b).connsOk m = false ∨ completeMapOk ((s.putMap m 0 b).mapByte m) s.fab.failed = false →
      (s.loadComplete m b).1 = 0x10 ∧ t.dir m = {}) := by
  dsimp only
  unfold State.loadComplete
  dsimp only
  split
  · rename_i h
    obtain ⟨h1, h2⟩ := Bool.and_eq_true_iff.mp h
    refine ⟨rfl, fun n hn => dir_setDir_other _ _ hn, fun _ _ => by rw [dir_setDir_self]; exact ⟨rfl, rfl, rfl, rfl⟩, ?_⟩
    rintro (hf | hf)
    · simp [h1] at hf
    · exact absurd h2 (by rw [show s.fab.failed = (s.putMap m 0 b).fab.failed from rfl] at hf; simp [hf])
  · rename_i h
    exact ⟨rfl, fun n hn => dir_setDir_other _ _ hn, fun h1 h2 => absurd (Bool.and_eq_true_iff.mpr ⟨h1, h2⟩) h,
      fun _ => ⟨rfl, dir_setDir_self ..⟩⟩

section
variable {s : State} {r f : Nat} (load : State → Nat → List Byte → Nat × State)

theorem mapLoad_none (h : s.readyHead r 0x01 = none) : s.mapLoad r f load = s := by rw [State.mapLoad, h]

variable {e : Entry} (h : s.readyHead r 0x01 = some e)
include h

theorem mapLoad_waits (hw : byteAt e.bytes 26 ≠ f ∨ s.mapBusy (lef e.bytes 24 2) = true) : s.mapLoad r f load = s := by
  simp only [State.mapLoad, h]
  rw [if_pos (by simpa using hw)]

variable (hf : byteAt e.bytes 26 = f) (hb : s.mapBusy (lef e.bytes 24 2) = false)
include hf hb

theorem mapLoad_protected (hp : s.mapProtected (lef e.bytes 24 2) = true) :
    s.mapLoad r f load = s.finishCmd r e.idx 0x11 false (s.dirBytes (lef e.bytes 24 2)) := by
  simp [State.mapLoad, h, hf, hb, hp]

theorem mapLoad_loads (hp : s.mapProtected (lef e.bytes 24 2) = false) :
    let q := load s (lef e.bytes 24 2) (rdBytes e.payload 0 (payloadRead e.bytes))
    s.mapLoad r f load = q.2.finishCmd r e.idx q.1 (q.1 = 0) (q.2.dirBytes (lef e.bytes 24 2)) := by
  simp [State.mapLoad, h, hf, hb, hp]
end

theorem exec_mapLoad (s : State) (r : Fin 16) : exec (.mapLoad r) s = .next (s.mapLoad r.val 0 State.loadPorts).finish := rfl
theorem exec_mapLoadComplete (s : State) (r : Fin 16) :
    exec (.mapLoadComplete r) s = .next (s.mapLoad r.val 1 State.loadComplete).finish := rfl

/-- Settles O24: what a load does with its head by the `mapLoad_…` lemmas, what it leaves by `loadPorts_fields` and
`loadComplete_fields`, the bytes by `putMap_fields`. -/
theorem mapLoading : Obligations.MapLoading := by
  unfold Obligations.MapLoading
  refine ⟨fun s r e h => ?head, fun s r h => ⟨?_, ?_⟩⟩
  case head =>
    dsimp only
    refine ⟨?refuses, fun hb hp hf => ?ports, fun hb hp hf => ?complete⟩
    case refuses =>
      rintro f c (⟨rfl, rfl⟩ | ⟨rfl, rfl⟩)
      · rw [exec_mapLoad]
        exact ⟨fun hw => by rw [mapLoad_waits _ h hw], fun hf hb hp => by rw [mapLoad_protected _ h hf hb hp]⟩
      · rw [exec_mapLoadComplete]
        exact ⟨fun hw => by rw [mapLoad_waits _ h hw], fun hf hb hp => by rw [mapLoad_protected _ h hf hb hp]⟩
    case ports =>
      rw [exec_mapLoad, mapLoad_loads _ h hf hb hp]
      obtain ⟨hm, hd, hok, hbad⟩ := loadPorts_fields s (lef e.bytes 24 2) (rdBytes e.payload 0 (payloadRead e.bytes))
      obtain ⟨hr, hk⟩ := putMap_fields s (lef e.bytes 24 2) 256 (rdBytes e.payload 0 (payloadRead e.bytes))
      exact ⟨_, _, rfl, by rw [hm]; exact hr, fun x hx => by rw [hm]; exact hk x hx, hd, hok, hbad⟩
    case complete =>
      rw [exec_mapLoadComplete, mapLoad_loads _ h hf hb hp]
      obtain ⟨hm, hd, hok, hbad⟩ := loadComplete_fields s (lef e.bytes 24 2) (rdBytes e.payload 0 (payloadRead e.bytes))
      obtain ⟨hr, hk⟩ := putMap_fields s (lef e.bytes 24 2) 0 (rdBytes e.payload 0 (payloadRead e.bytes))
      exact ⟨_, _, rfl, by rw [hm]; exact hr, fun x hx => by rw [hm]; exact hk x hx, hd, hok, hbad⟩
  · rw [exec_mapLoad, mapLoad_none _ h]
  · rw [exec_mapLoadComplete, mapLoad_none _ h]

/-! ### NOP, MAP_READ and MAP_FREE -/

theorem exec_nop (s : State) (r : Fin 16) : exec (.nop r) s = .next (s.nop r.val).finish := rfl
theorem exec_mapRead (s : State) (r : Fin 16) : exec (.mapRead r) s = .next (s.mapRead r.val).finish := rfl
theorem exec_mapFree (s : State) (r : Fin 16) : exec (.mapFree r) s = .next (s.mapFree r.val).finish := rfl

section
variable {s : State} {r : Nat} {e : Entry}

theorem nop_none (h : s.readyHead r 0x00 = none) : s.nop r = s := by rw [State.nop, h]
theorem nop_ready (h : s.readyHead r 0x00 = some e) : s.nop r = s.finishCmd r e.idx 0 true := by rw [State.nop, h]

theorem mapRead_none (h : s.readyHead r 0x05 = none) : s.mapRead r = s := by rw [State.mapRead, h]
theorem mapRead_busy (h : s.readyHead r 0x05 = some e) (hb : s.mapBusy (lef e.bytes 24 2) = true) : s.mapRead r = s := by
  simp [State.mapRead, h, hb]
theorem mapRead_empty (h : s.readyHead r 0x05 = some e) (hb : s.mapBusy (lef e.bytes 24 2) = false)
    (hs : (s.dir (lef e.bytes 24 2)).state = .empty) : s.mapRead r = s.finishCmd r e.idx 0x12 false := by
  simp [State.mapRead, h, hb, hs]
theorem mapRead_held (h : s.readyHead r 0x05 = some e) (hb : s.mapBusy (lef e.bytes 24 2) = false)
    (hs : (s.dir (lef e.bytes 24 2)).state ≠ .empty) :
    s.mapRead r = s.finishCmd r e.idx 0 true (s.dirBytes (lef e.bytes 24 2)) 0
      (some (lef e.bytes 8 8, rdBytes s.sram (mapBase (lef e.bytes 24 2)) 544)) := by
  simp [State.mapRead, h, hb, hs]

theorem mapFree_none (h : s.readyHead r 0x06 = none) : s.mapFree r = s := by rw [State.mapFree, h]
theorem mapFree_busy (h : s.readyHead r 0x06 = some e) (hb : s.mapBusy (lef e.bytes 24 2) = true) : s.mapFree r = s := by
  simp [State.mapFree, h, hb]
theorem mapFree_protected (h : s.readyHead r 0x06 = some e) (hb : s.mapBusy (lef e.bytes 24 2) = false)
    (hp : s.mapProtected (lef e.bytes 24 2) = true) : s.mapFree r = s.finishCmd r e.idx 0x11 false := by
  simp [State.mapFree, h, hb, hp]
theorem mapFree_frees (h : s.readyHead r 0x06 = some e) (hb : s.mapBusy (lef e.bytes 24 2) = false)
    (hp : s.mapProtected (lef e.bytes 24 2) = false) :
    s.mapFree r = (s.setDir (lef e.bytes 24 2) {}).finishCmd r e.idx 0 true := by
  simp [State.mapFree, h, hb, hp]
end

/-- Settles O26, command by command from the lemmas on its head; `frame_finishCmd` says that a completion changes nothing
else. -/
theorem nopMapReadAndFree : Obligations.NopMapReadAndFree := by
  unfold Obligations.NopMapReadAndFree
  refine fun s r => ⟨?waits, fun e => ⟨fun h => ?nop, fun h => ?read, fun h => ?free⟩⟩
  case waits =>
    simp only [List.forall_mem_cons, List.not_mem_nil, false_implies, implies_true, and_true]
    exact ⟨fun h => by rw [exec_nop, nop_none h], fun h => by rw [exec_mapRead, mapRead_none h],
      fun h => by rw [exec_mapFree, mapFree_none h]⟩
  case nop =>
    exact ⟨_, by rw [exec_nop, nop_ready h], rfl, frame_finishCmd ..⟩
  case read =>
    refine ⟨fun hb => by rw [exec_mapRead, mapRead_busy h hb], fun hb hs => ?_, fun hb hs => ?_⟩
    · exact ⟨_, by rw [exec_mapRead, mapRead_empty h hb hs], frame_finishCmd .., rfl⟩
    · exact ⟨_, by rw [exec_mapRead, mapRead_held h hb hs], frame_finishCmd .., rfl⟩
  case free =>
    refine ⟨fun hb => by rw [exec_mapFree, mapFree_busy h hb], fun hb hp => by rw [exec_mapFree, mapFree_protected h hb hp],
      fun hb hp => ?_⟩
    exact ⟨_, by rw [exec_mapFree, mapFree_frees h hb hp], dir_setDir_self .., fun n hn => dir_setDir_other _ _ hn, rfl⟩

/-! ### MAP_ROUTE (R66 to R68, R282) -/

theorem exec_mapRoute (s : State) (r : Fin 16) : exec (.mapRoute r) s = .next (s.mapRoute r.val).finish := rfl
theorem exec_routeDone (s : State) (dt : Nat) : exec (.routeDone dt) s = .next (s.pass dt).routeDone.finish := rfl

/-- BASE of a MAP_ROUTE entry (R281). -/
def Entry.routeBase (e : Entry) : Option Nat :=
  if bits (lef e.bytes 28 2) 15 15 = 1 then none else some (bits (lef e.bytes 28 2) 9 0)

theorem mapRoute_none {s : State} {r : Nat} (h : s.readyHead r 0x02 = none) : s.mapRoute r = s := by rw [State.mapRoute, h]

section
variable {s : State} {r : Nat} {e : Entry} (h : s.readyHead r 0x02 = some e)
include h

theorem mapRoute_waits (hb : (s.mapBusy (lef e.bytes 24 2) || s.mapBusy (lef e.bytes 26 2) ||
    e.routeBase.any fun b => s.mapRouting b) = true) : s.mapRoute r = s := by
  unfold State.mapRoute
  rw [h]
  exact if_pos hb

variable (hb : (s.mapBusy (lef e.bytes 24 2) || s.mapBusy (lef e.bytes 26 2) ||
  e.routeBase.any fun b => s.mapRouting b) = false)
include hb

/-- The checks of MAP_ROUTE in their order (R282), and its computation. -/
theorem mapRoute_checked : s.mapRoute r =
    if (s.dir (lef e.bytes 24 2)).state = .empty then s.finishCmd r e.idx 0x12 false (s.dirBytes (lef e.bytes 26 2))
    else if e.routeBase.any fun b => !s.mapRouted b then s.finishCmd r e.idx 0x13 false (s.dirBytes (lef e.bytes 26 2))
    else if s.mapProtected (lef e.bytes 26 2) then s.finishCmd r e.idx 0x11 false (s.dirBytes (lef e.bytes 26 2))
    else (s.begin_ r e.idx).onFab fun f => { f with routes := f.routes ++
      [{ ring := r, idx := e.idx, src := lef e.bytes 24 2, dst := lef e.bytes 26 2, base := e.routeBase, since := s.now,
         gen := s.fab.failGen }] } := by
  unfold State.mapRoute
  rw [h]
  exact if_neg (Bool.eq_false_iff.mp hb)

theorem mapRoute_empty (hs : (s.dir (lef e.bytes 24 2)).state = .empty) :
    s.mapRoute r = s.finishCmd r e.idx 0x12 false (s.dirBytes (lef e.bytes 26 2)) := by
  rw [mapRoute_checked h hb, if_pos hs]

variable (hs : (s.dir (lef e.bytes 24 2)).state ≠ .empty)
include hs

theorem mapRoute_baseBad (hbad : (e.routeBase.any fun b => !s.mapRouted b) = true) :
    s.mapRoute r = s.finishCmd r e.idx 0x13 false (s.dirBytes (lef e.bytes 26 2)) := by
  rw [mapRoute_checked h hb, if_neg hs, if_pos hbad]

variable (hgood : (e.routeBase.any fun b => !s.mapRouted b) = false)
include hgood

theorem mapRoute_protected (hp : s.mapProtected (lef e.bytes 26 2) = true) :
    s.mapRoute r = s.finishCmd r e.idx 0x11 false (s.dirBytes (lef e.bytes 26 2)) := by
  rw [mapRoute_checked h hb, if_neg hs, if_neg (Bool.eq_false_iff.mp hgood), if_pos hp]

theorem mapRoute_begins (hp : s.mapProtected (lef e.bytes 26 2) = false) :
    s.mapRoute r = (s.begin_ r e.idx).onFab fun f => { f with routes := f.routes ++
      [{ ring := r, idx := e.idx, src := lef e.bytes 24 2, dst := lef e.bytes 26 2, base := e.routeBase, since := s.now,
         gen := s.fab.failGen }] } := by
  rw [mapRoute_checked h hb, if_neg hs, if_neg (Bool.eq_false_iff.mp hgood), if_neg (Bool.eq_false_iff.mp hp)]
end

theorem length_rdBytes (m : Memory) (a n : Nat) : (rdBytes m a n).length = n := by
  induction n generalizing a with
  | zero => rfl
  | succ n ih => rw [rdBytes, List.length_cons, ih]

/-- A port map and a cell vector put into a map: the port map is read back, and no byte outside the map changes. -/
theorem putMap_both (s : State) (m : Nat) {p v : List Byte} (hp : p.length = 288) (hv : v.length = 256) :
    rdBytes ((s.putMap m 256 p).putMap m 0 v).sram (mapBase m + 256) 288 = p ∧
      s.sramKept ((s.putMap m 256 p).putMap m 0 v) (mapBase m) 544 := by
  have hvec : ∀ x, (x < mapBase m ∨ mapBase m + 256 ≤ x) →
      rd ((s.putMap m 256 p).putMap m 0 v).sram x = rd (s.putMap m 256 p).sram x := fun x hx =>
    (putMap_fields (s.putMap m 256 p) m 0 v).2 x (by omega)
  obtain ⟨hr, hk⟩ := putMap_fields s m 256 p
  rw [hp] at hr hk
  exact ⟨(rdBytes_congr fun x h _ => hvec x (.inr h)).trans hr,
    fun x hx => (hvec x (by omega)).trans (hk x (by omega))⟩

/-- What the end of a computation leaves (R25, R66). -/
theorem commitRoute_fields (s : State) (j : RouteJob) :
    let found := route s.fab.failed (j.base.map fun b => s.mapVec b) (s.mapConns j.src)
    let st := (s.commitRoute j).1
    let t := (s.commitRoute j).2.2
    (s.commitRoute j).2.1 = found.2 ∧ t.fab.routes = s.fab.routes ∧ (∀ n, n ≠ j.dst → t.dir n = s.dir n) ∧
    (s.mapProtected j.dst = true → st = 0x11 ∧ t = s) ∧
    (s.mapProtected j.dst = false → found.1.isSome = true →
      st = 0 ∧ rdBytes t.sram (mapBase j.dst + 256) 288 = rdBytes s.sram (mapBase j.src + 256) 288 ∧
      (t.dir j.dst).state = .routed ∧ (t.dir j.dst).engine = true ∧ s.sramKept t (mapBase j.dst) 544) ∧
    (s.mapProtected j.dst = false → found.1 = none →
      st = 0x14 ∧ rdBytes t.sram (mapBase j.dst + 256) 288 = rdBytes s.sram (mapBase j.src + 256) 288 ∧
      (t.dir j.dst).state = .loaded ∧ s.sramKept t (mapBase j.dst + 256) 288) := by
  dsimp only
  unfold State.commitRoute
  dsimp only
  generalize route s.fab.failed (j.base.map fun b => s.mapVec b) (s.mapConns j.src) = found
  have hlen : (rdBytes s.sram (mapBase j.src + 256) 288).length = 288 := length_rdBytes ..
  generalize rdBytes s.sram (mapBase j.src + 256) 288 = ports at hlen
  by_cases hp : s.mapProtected j.dst = true
  · rw [if_pos hp]
    exact ⟨rfl, rfl, fun _ _ => rfl, fun _ => ⟨rfl, rfl⟩, fun hf => by simp [hp] at hf, fun hf => by simp [hp] at hf⟩
  · rw [if_neg hp]
    cases hl : found.1 with
    | some l =>
      obtain ⟨hr, hk⟩ := putMap_both s j.dst hlen
        (v := (List.range 256).map fun b => vecByte l ((j.base.map fun b => s.mapVec b).getD fun _ => false) b) (by simp)
      exact ⟨rfl, rfl, fun n hn => dir_setDir_other _ _ hn, fun ht => absurd ht hp,
        fun _ _ => ⟨rfl, by rw [setDir_sram]; exact hr, by rw [dir_setDir_self]; rfl,
          by rw [dir_setDir_self]; rfl, (sramKept_setDir ..).mpr hk⟩,
        fun _ hn => by simp at hn⟩
    | none =>
      obtain ⟨hr, hk⟩ := putMap_fields s j.dst 256 ports
      rw [hlen] at hr hk
      exact ⟨rfl, rfl, fun n hn => dir_setDir_other _ _ hn, fun ht => absurd ht hp, fun _ hn => by simp at hn,
        fun _ _ => ⟨rfl, hr, by rw [dir_setDir_self]; rfl, hk⟩⟩

theorem routeDone_none {s : State} (h : s.fab.routes = []) : s.routeDone = s := by
  unfold State.routeDone State.routeEnd
  rw [h]

section
variable {s : State} {j : RouteJob} {js : List RouteJob} (h : s.fab.routes = j :: js) (hr : j.remote = false)
include h

/-- A computation of an earlier failed-cell list starts again (R51). -/
theorem routeDone_again (hg : j.gen ≠ s.fab.failGen) :
    s.routeDone = s.onFab fun f => { f with routes := { j with gen := s.fab.failGen, since := s.now } :: js } := by
  unfold State.routeDone State.routeEnd
  rw [h]
  dsimp only
  rw [if_pos hg]
  rfl

include hr

theorem routeDone_commits (hg : j.gen = s.fab.failGen) :
    let q := (s.onFab fun f => { f with routes := js }).commitRoute j
    s.routeDone = q.2.2.finishCmd j.ring j.idx q.1 (q.1 = 0)
      (q.2.2.dirBytes j.dst ++ leBytes 4 ((s.now - j.since) * 1000 / 1024) ++ [BitVec.ofNat 8 q.2.1]) := by
  unfold State.routeDone State.routeEnd
  rw [h]
  dsimp only
  rw [if_neg (not_not.mpr hg)]
  dsimp only
  rw [hr]
  rfl
end

/-- Settles O25: the checks by the `mapRoute_…` lemmas, the end of a computation by `routeDone_again` and `commitRoute_fields`. -/
theorem routingAMap : Obligations.RoutingAMap := by
  unfold Obligations.RoutingAMap
  refine ⟨fun s r => ⟨fun h => by rw [exec_mapRoute, mapRoute_none h], fun e h => ⟨fun hb => ?_, fun hb => ?checks⟩⟩, ?done⟩
  · rw [exec_mapRoute, mapRoute_waits h hb]
  case checks =>
    exact ⟨fun he => by rw [exec_mapRoute, mapRoute_empty h hb he],
      fun he hbad => by rw [exec_mapRoute, mapRoute_baseBad h hb he hbad],
      fun he hbad hp => by rw [exec_mapRoute, mapRoute_protected h hb he hbad hp],
      fun he hbad hp => by rw [exec_mapRoute, mapRoute_begins h hb he hbad hp]; rfl⟩
  case done =>
    rintro s _ dt rfl
    rw [exec_routeDone]
    refine ⟨fun h => by rw [routeDone_none h], fun j js h hr => ⟨fun hg => by rw [routeDone_again h hg], fun hg => ?_⟩⟩
    rw [routeDone_commits h hr hg]
    obtain ⟨hpass, hroutes, hdir, hprot, hfound, hlost⟩ :=
      commitRoute_fields ((s.pass dt).onFab fun f => { f with routes := js }) j
    rw [hpass]
    exact ⟨_, _, rfl, hroutes, hdir, fun hp => by rw [(hprot hp).2]; exact ⟨(hprot hp).1, rfl, rfl⟩, hfound, hlost⟩

end Sys2Proof.Machine
end

section
/-! Settling O28: the failed-cell list. -/

namespace Sys2Proof.Machine

/-! ### What rest and the end of a calibration leave (R48) -/

/-- The map directory, the failed-cell list, SRAM and the Relpety record of `t` are those of `s`. -/
structure State.SameMaps (s t : State) : Prop where
  dirs : t.fab.dirs = s.fab.dirs
  failed : t.fab.failed = s.fab.failed
  failGen : t.fab.failGen = s.fab.failGen
  sram : t.sram = s.sram
  relpety : t.flash.relpety = s.flash.relpety

namespace State.SameMaps

variable {s t u : State}

theorem refl (s : State) : s.SameMaps s := ⟨rfl, rfl, rfl, rfl, rfl⟩

theorem trans (h : s.SameMaps t) (g : t.SameMaps u) : s.SameMaps u :=
  ⟨g.dirs.trans h.dirs, g.failed.trans h.failed, g.failGen.trans h.failGen, g.sram.trans h.sram, g.relpety.trans h.relpety⟩

theorem of_reports (h : s.Reports t) : s.SameMaps t := by
  have hf := of_frame_fab h.frame
  exact ⟨by rw [hf], by rw [hf], by rw [hf], of_frame_sram h.frame, h.relpety⟩

end State.SameMaps

theorem sameMaps_modCell (s : State) (c : Nat) (f : Cell → Cell) : s.SameMaps (s.modCell c f) := ⟨rfl, rfl, rfl, rfl, rfl⟩

theorem sameMaps_exitCal (s : State) (c : Nat) (b : Mode) : s.SameMaps (s.exitCal c b) := by
  unfold State.exitCal
  split
  · exact sameMaps_modCell ..
  · exact sameMaps_modCell ..

theorem sameMaps_leaveCal (s : State) (c st : Nat) (tk : Bool) : s.SameMaps (s.leaveCal c st tk) := by
  unfold State.leaveCal
  split
  · exact .refl s
  · dsimp only
    split
    · exact (sameMaps_exitCal ..).trans (.of_reports (reports_finishCmd ..))
    · exact sameMaps_exitCal ..

theorem sameMaps_drips (s : State) (v : Tab Nat) : s.SameMaps { s with fab.drips := v } := ⟨rfl, rfl, rfl, rfl, rfl⟩
theorem sameMaps_firsts (s : State) (v : Tab Nat) : s.SameMaps { s with fab.firsts := v } := ⟨rfl, rfl, rfl, rfl, rfl⟩

theorem sameMaps_addDrip (s : State) (e n : Nat) : s.SameMaps (s.addDrip e n) := by
  unfold State.addDrip
  dsimp only
  split
  · exact (sameMaps_firsts ..).trans (sameMaps_drips ..)
  · exact sameMaps_drips ..

theorem sameMaps_restCell (s : State) (c : Nat) : s.SameMaps (s.restCell c) := by
  unfold State.restCell
  extract_lets x u
  have hu : s.SameMaps u := by
    unfold u
    split
    · exact sameMaps_addDrip ..
    · exact .refl s
  exact hu.trans ((sameMaps_modCell ..).trans (sameMaps_modCell ..))

/-! ### Maps re-checked against an entry (R65) -/

theorem mapHops_congr {s t : State} (h : t.sram = s.sram) (m : Nat) : t.mapHops m = s.mapHops m := by
  unfold State.mapHops State.mapPath State.mapConns State.mapVec State.mapByte
  rw [h]

theorem dir_congr {s t : State} (h : t.fab.dirs = s.fab.dirs) (m : Nat) : t.dir m = s.dir m := by
  unfold State.dir; rw [h]

/-- One map re-checked against the entry `f`, with the count of those that became STALE. -/
def State.recheckMap (f : FailEntry) (p : Nat × State) (m : Nat) : Nat × State :=
  let s := p.2.modDir m fun d => { d with failGen := p.2.fab.failGen }
  if hopsConflict [f] (s.mapHops m) then
    (p.1 + 1, (s.modDir m fun d => { d with state := .stale }).event 3 0 m (leBytes 2 f.cell ++ [s.fab.failGen]))
  else (p.1, s)

theorem recheckMaps_eq (s : State) (f : FailEntry) : s.recheckMaps f =
    ((s.fab.dirs.filter fun d => d.2.state = .routed).map (·.1)).foldl (State.recheckMap f) (0, s) := rfl

/-- The maps `ms` of `s` have been re-checked against `f` in `t`. -/
structure State.Rechecked (f : FailEntry) (ms : List Nat) (s t : State) : Prop where
  failed : t.fab.failed = s.fab.failed
  failGen : t.fab.failGen = s.fab.failGen
  sram : t.sram = s.sram
  relpety : t.flash.relpety = s.flash.relpety
  other : ∀ m, m ∉ ms → t.dir m = s.dir m
  stale : ∀ m ∈ ms, hopsConflict [f] (s.mapHops m) = true → (t.dir m).state = .stale
  clear : ∀ m ∈ ms, hopsConflict [f] (s.mapHops m) = false →
    (t.dir m).state = (s.dir m).state ∧ (t.dir m).failGen = s.fab.failGen

theorem rechecked_recheckMap (f : FailEntry) (p : Nat × State) (a : Nat) :
    State.Rechecked f [a] p.2 (State.recheckMap f p a).2 := by
  unfold State.recheckMap
  extract_lets u
  have hu : u.mapHops a = p.2.mapHops a := mapHops_congr rfl a
  have hother : ∀ m, m ∉ [a] → u.dir m = p.2.dir m := fun m hm => dir_modDir_other _ _ (by simpa using hm)
  split
  · rename_i hc
    have he := State.SameMaps.of_reports (reports_event (u.modDir a fun d => { d with state := .stale }) 3 0 a
      (leBytes 2 f.cell ++ [u.fab.failGen]) none false)
    have hd := fun m => dir_congr he.dirs m
    refine ⟨he.failed, he.failGen, he.sram, he.relpety, fun m hm => ?_, ?_, ?_⟩
    · rw [hd, dir_modDir_other _ _ (by simpa using hm), hother m hm]
    · rintro m hm -
      rw [List.mem_singleton.mp hm, hd, dir_modDir_self]
    · rintro m hm hf
      rw [List.mem_singleton.mp hm, ← hu, hc] at hf
      simp at hf
  · rename_i hc
    refine ⟨rfl, rfl, rfl, rfl, hother, ?_, ?_⟩
    · rintro m hm hf
      rw [List.mem_singleton.mp hm, ← hu] at hf
      exact absurd hf hc
    · rintro m hm -
      rw [List.mem_singleton.mp hm, dir_modDir_self]
      exact ⟨rfl, rfl⟩

theorem rechecked_foldl (f : FailEntry) (ms : List Nat) (p : Nat × State) :
    State.Rechecked f ms p.2 (ms.foldl (State.recheckMap f) p).2 := by
  induction ms generalizing p with
  | nil => exact ⟨rfl, rfl, rfl, rfl, fun _ _ => rfl, by simp, by simp⟩
  | cons a ms ih =>
    have h := rechecked_recheckMap f p a
    have g := ih (State.recheckMap f p a)
    rw [List.foldl_cons]
    generalize (State.recheckMap f p a).2 = u at h g
    generalize (ms.foldl (State.recheckMap f) (State.recheckMap f p a)).2 = t at g
    have hops : ∀ m, u.mapHops m = p.2.mapHops m := mapHops_congr h.sram
    refine ⟨g.failed.trans h.failed, g.failGen.trans h.failGen, g.sram.trans h.sram, g.relpety.trans h.relpety,
      fun m hm => ?_, fun m hm hc => ?_, fun m hm hc => ?_⟩
    · rw [List.mem_cons, not_or] at hm
      rw [g.other m hm.2, h.other m (by simpa using hm.1)]
    · by_cases hl : m ∈ ms
      · exact g.stale m hl (by rw [hops, hc])
      · rw [g.other m hl]
        exact h.stale m (by simpa [hl] using hm) hc
    · by_cases hl : m ∈ ms
      · obtain ⟨hs, hg⟩ := g.clear m hl (by rw [hops, hc])
        refine ⟨hs.trans ?_, hg.trans h.failGen⟩
        by_cases ha : m = a
        · exact (h.clear m (by simpa using ha) hc).1
        · rw [h.other m (by simpa using ha)]
      · rw [g.other m hl]
        exact h.clear m (by simpa [hl] using hm) hc

/-- An index whose value is not the default is listed with it. -/
theorem mem_of_tget_ne {α : Type} {d : Nat → α} {t : Tab α} {k : Nat} (h : tget d t k ≠ d k) : (k, tget d t k) ∈ t := by
  induction t with
  | nil => exact absurd rfl h
  | cons p t ih =>
    obtain ⟨j, v⟩ := p
    unfold tget at h ⊢
    split
    · rename_i hj; simp [hj]
    · rename_i hj
      rw [if_neg hj] at h
      exact List.mem_cons_of_mem _ (ih h)

theorem mem_routed {s : State} {m : Nat} (h : (s.dir m).state = .routed) :
    m ∈ (s.fab.dirs.filter fun d => d.2.state = .routed).map (·.1) := by
  have hm : (m, s.dir m) ∈ s.fab.dirs := mem_of_tget_ne fun hd => by
    rw [show s.dir m = ({} : MapDir) from hd] at h
    simp at h
  exact List.mem_map.mpr ⟨_, List.mem_filter.mpr ⟨hm, by simp [h]⟩, rfl⟩

/-! ### An entry listed (R48, R65) -/

/-- The failed-cell list with the entry `f`: in the place of the one of its cell, or at the end. -/
def State.failList (s : State) (f : FailEntry) : List FailEntry :=
  if (s.failed f.cell).isSome then s.fab.failed.map fun g => if g.cell = f.cell then f else g else s.fab.failed ++ [f]

theorem failList_new {s : State} {f : FailEntry} (h : s.failed f.cell = none) : s.failList f = s.fab.failed ++ [f] :=
  if_neg (by simp [h])

theorem failList_listed {s : State} {f g : FailEntry} (h : s.failed f.cell = some g) :
    s.failList f = s.fab.failed.map fun g => if g.cell = f.cell then f else g := if_pos (by simp [h])

/-- The list takes the entry and GEN rises. -/
def State.listed (s : State) (f : FailEntry) : State :=
  s.onFab fun b => { b with failed := s.failList f, failGen := b.failGen + 1 }

theorem listFail_eq (s : State) (f : FailEntry) : s.listFail f =
    State.recheckMaps (if f.kind = .darkOnly then ((s.listed f).leaveCal f.cell 0x24 true).restCell f.cell else s.listed f) f :=
  rfl

theorem listFail_fields (s : State) (f : FailEntry) : let t := (s.listFail f).2
    t.fab.failed = s.failList f ∧ t.fab.failGen = s.fab.failGen + 1 ∧ t.sram = s.sram ∧ t.flash.relpety = s.flash.relpety ∧
    ∀ m, (s.dir m).state = .routed →
      (hopsConflict [f] (s.mapHops m) = true → (t.dir m).state = .stale) ∧
      (hopsConflict [f] (s.mapHops m) = false → (t.dir m).state = .routed ∧ (t.dir m).failGen = s.fab.failGen + 1) := by
  rw [listFail_eq]
  have hb : (s.listed f).SameMaps (if f.kind = .darkOnly then ((s.listed f).leaveCal f.cell 0x24 true).restCell f.cell
      else s.listed f) := by
    split
    · exact (sameMaps_leaveCal ..).trans (sameMaps_restCell ..)
    · exact .refl _
  generalize (if f.kind = .darkOnly then ((s.listed f).leaveCal f.cell 0x24 true).restCell f.cell else s.listed f) = b at hb
  have ht := rechecked_foldl f ((b.fab.dirs.filter fun d => d.2.state = .routed).map (·.1)) (0, b)
  rw [← recheckMaps_eq] at ht
  have hd : ∀ m, b.dir m = s.dir m := fun m => dir_congr hb.dirs m
  have hh : ∀ m, b.mapHops m = s.mapHops m := mapHops_congr hb.sram
  refine ⟨ht.failed.trans hb.failed, ht.failGen.trans hb.failGen, ht.sram.trans hb.sram, ht.relpety.trans hb.relpety,
    fun m hm => ⟨fun hc => ?_, fun hc => ?_⟩⟩
  · exact ht.stale m (mem_routed (by rw [hd, hm])) (by rw [hh, hc])
  · obtain ⟨hs, hg⟩ := ht.clear m (mem_routed (by rw [hd, hm])) (by rw [hh, hc])
    exact ⟨by rw [hs, hd, hm], hg.trans hb.failGen⟩

/-! ### FAIL_ADD and FAIL_REMOVE (R282) -/

theorem exec_failAdd (s : State) (r : Fin 16) : exec (.failAdd r) s = .next (s.failAdd r.val).finish := rfl
theorem exec_failRemove (s : State) (r : Fin 16) : exec (.failRemove r) s = .next (s.failRemove r.val).finish := rfl
theorem exec_cellFailed (s : State) (c : Fin 2048) : exec (.cellFailed c) s = .next (s.cellFailed c.val).finish := rfl

theorem cell_of_failed {s : State} {c : Nat} {f : FailEntry} (h : s.failed c = some f) : f.cell = c := by
  simpa using List.find?_some h

/-- The completion of a FAIL_ADD that listed an entry: COUNT, GEN and the maps that became STALE. -/
def State.addDone (p : Nat × State) (r : Nat) (e : Entry) : State :=
  p.2.finishCmd r e.idx 0 true ([BitVec.ofNat 8 p.2.fab.failed.length, p.2.fab.failGen] ++ leBytes 2 p.1)

/-- The Relpety record follows a change of a factory entry (R27). -/
def State.recordFail (s : State) (f : FailEntry) : State :=
  s.onRelpety fun q => { q with failed := q.failed.map fun h : FailEntry => if h.cell = f.cell then f else h }

theorem recordFail_fab (s : State) (f : FailEntry) : (s.recordFail f).fab = s.fab := by simp [State.recordFail]
theorem recordFail_sram (s : State) (f : FailEntry) : (s.recordFail f).sram = s.sram := by simp [State.recordFail]

theorem recordFail_test {s : State} (h : s.pwr.testEn = true) (f : FailEntry) : (s.recordFail f).flash.relpety.failed =
    s.flash.relpety.failed.map fun g : FailEntry => if g.cell = f.cell then f else g := by
  rw [State.recordFail, State.onRelpety, if_pos h]

theorem recordFail_kept {s : State} (h : s.pwr.testEn = false) (f : FailEntry) : s.recordFail f = s := by
  rw [State.recordFail, State.onRelpety, h]; rfl

/-- What `listFail` makes of the fabric and SRAM depends on them alone. -/
theorem listFail_recordFail_fields (s : State) (f g : FailEntry) : let t := ((s.recordFail g).listFail f).2
    t.fab.failed = s.failList f ∧ t.fab.failGen = s.fab.failGen + 1 ∧ t.sram = s.sram ∧
    t.flash.relpety = (s.recordFail g).flash.relpety ∧
    ∀ m, (s.dir m).state = .routed →
      (hopsConflict [f] (s.mapHops m) = true → (t.dir m).state = .stale) ∧
      (hopsConflict [f] (s.mapHops m) = false → (t.dir m).state = .routed ∧ (t.dir m).failGen = s.fab.failGen + 1) := by
  obtain ⟨hl, hg, hs, hr, hm⟩ := listFail_fields (s.recordFail g) f
  have hfab := recordFail_fab s g
  have hsram := recordFail_sram s g
  simp only [mapHops_congr hsram, dir_congr (congrArg Fabric.dirs hfab), hfab, hsram] at hl hg hs hm
  refine ⟨hl.trans ?_, hg, hs, hr, hm⟩
  unfold State.failList State.failed
  rw [hfab]

section
variable {s : State} {r : Nat}

theorem failAdd_none (h : s.readyHead r 0x07 = none) : s.failAdd r = s := by rw [State.failAdd, h]

variable {e : Entry} (h : s.readyHead r 0x07 = some e)
include h

theorem failAdd_full (hc : s.failed (lef e.bytes 24 2) = none) (hn : 16 ≤ s.fab.failed.length) :
    s.failAdd r = s.finishCmd r e.idx 0x18 false [BitVec.ofNat 8 s.fab.failed.length, s.fab.failGen] := by
  simp [State.failAdd, h, hc, hn]

theorem failAdd_new (hc : s.failed (lef e.bytes 24 2) = none) (hn : s.fab.failed.length < 16) : s.failAdd r =
    State.addDone (s.listFail { cell := lef e.bytes 24 2, kind := kindOfCode (byteAt e.bytes 26), src := .installer }) r e := by
  simp [State.failAdd, h, hc, hn, State.addDone]

theorem failAdd_factory {f : FailEntry} (hc : s.failed (lef e.bytes 24 2) = some f) (hf : f.src = .factory) :
    s.failAdd r = State.addDone ((s.recordFail { f with kind := kindOfCode (byteAt e.bytes 26) }).listFail
      { f with kind := kindOfCode (byteAt e.bytes 26) }) r e := by
  simp [State.failAdd, h, hc, hf, State.addDone, State.recordFail, cell_of_failed hc]

theorem failAdd_replaces {f : FailEntry} (hc : s.failed (lef e.bytes 24 2) = some f) (hf : f.src ≠ .factory) :
    s.failAdd r =
      State.addDone (s.listFail { cell := lef e.bytes 24 2, kind := kindOfCode (byteAt e.bytes 26), src := .installer }) r e := by
  simp [State.failAdd, h, hc, hf, State.addDone]
end

section
variable {s : State} {r : Nat}

theorem failRemove_none (h : s.readyHead r 0x08 = none) : s.failRemove r = s := by rw [State.failRemove, h]

variable {e : Entry} (h : s.readyHead r 0x08 = some e)
include h

theorem failRemove_unlisted (hc : s.failed (lef e.bytes 24 2) = none) :
    s.failRemove r = s.finishCmd r e.idx 0x19 false [BitVec.ofNat 8 s.fab.failed.length, s.fab.failGen] := by
  simp [State.failRemove, h, hc]

/-- FAIL_REMOVE of a listed cell, but for its completion: the gap closes in the list, and in the record for a factory
entry. -/
def State.unlisted (s : State) (f : FailEntry) : State :=
  State.onFab (if f.src = .factory then
      s.onRelpety fun q => { q with failed := q.failed.filter fun h : FailEntry => decide (h.cell ≠ f.cell) }
    else s) fun b => { b with failed := b.failed.filter (·.cell ≠ f.cell), failGen := b.failGen + 1 }

theorem failRemove_listed {f : FailEntry} (hc : s.failed (lef e.bytes 24 2) = some f) : s.failRemove r =
    (s.unlisted f).finishCmd r e.idx 0 true
      [BitVec.ofNat 8 (s.unlisted f).fab.failed.length, (s.unlisted f).fab.failGen] := by
  simp [State.failRemove, h, hc, State.unlisted, cell_of_failed hc, State.onFab]
end

theorem unlisted_fields (s : State) (f : FailEntry) : let t := s.unlisted f
    t.fab = { s.fab with failed := s.fab.failed.filter (·.cell ≠ f.cell), failGen := s.fab.failGen + 1 } ∧
    t.failed f.cell = none ∧
    (f.src = .factory → s.pwr.testEn = true → t.flash.relpety.failed =
      s.flash.relpety.failed.filter fun h : FailEntry => decide (h.cell ≠ f.cell)) ∧
    (f.src ≠ .factory ∨ s.pwr.testEn = false → t.flash = s.flash) := by
  have hfab : (s.unlisted f).fab =
      { s.fab with failed := s.fab.failed.filter (·.cell ≠ f.cell), failGen := s.fab.failGen + 1 } := by
    unfold State.unlisted State.onRelpety
    split
    · split <;> rfl
    · rfl
  refine ⟨hfab, ?_, fun hf ht => ?_, fun hn => ?_⟩
  · unfold State.failed
    rw [hfab]
    simp
  · rw [State.unlisted, if_pos hf, State.onRelpety, if_pos ht]; rfl
  · unfold State.unlisted State.onRelpety
    split
    · rename_i hf
      rw [hn.resolve_left (not_not.mpr hf)]; rfl
    · rfl

/-! ### A cell listed by the module (R52, R79) -/

section
variable {s : State} {c : Nat}

theorem cellFailed_idle (h : (s.cell c).failDue = false) : s.cellFailed c = s := by
  rw [State.cellFailed, h]; rfl

/-- The entry that the module lists for a cell. -/
def State.dropEntry (s : State) (c : Nat) : FailEntry := { cell := c, kind := dropKind (s.cell c).hist, src := .module }

/-- The cell's drops are taken. -/
def State.dropTaken (s : State) (c : Nat) : State := s.modCell c fun x => { x with failDue := false }

variable (h : (s.cell c).failDue = true)
include h

theorem cellFailed_new (hc : s.failed c = none) (hn : s.fab.failed.length < 16) :
    s.cellFailed c = (s.dropTaken c).reportFail (s.dropEntry c) := by
  have hc' : (s.modCell c fun x => { x with failDue := false }).failed c = none := hc
  unfold State.cellFailed
  dsimp only
  rw [hc', if_neg (by simp [h])]
  exact if_neg (Nat.not_le.mpr hn)

theorem cellFailed_full (hc : s.failed c = none) (hn : 16 ≤ s.fab.failed.length) :
    s.cellFailed c = (s.dropTaken c).failOverflow c := by
  have hc' : (s.modCell c fun x => { x with failDue := false }).failed c = none := hc
  unfold State.cellFailed
  dsimp only
  rw [hc', if_neg (by simp [h])]
  exact if_pos hn

theorem cellFailed_kept {g : FailEntry} (hc : s.failed c = some g)
    (hk : g.src ≠ .module ∨ g.kind = (s.dropEntry c).kind) : s.cellFailed c = s.dropTaken c := by
  have hc' : (s.modCell c fun x => { x with failDue := false }).failed c = some g := hc
  unfold State.cellFailed
  dsimp only
  rw [hc', if_neg (by simp [h])]
  refine if_pos ?_
  rw [Bool.or_eq_true, decide_eq_true_eq, decide_eq_true_eq]
  exact hk

theorem cellFailed_relisted {g : FailEntry} (hc : s.failed c = some g) (hm : g.src = .module)
    (hk : g.kind ≠ (s.dropEntry c).kind) : s.cellFailed c = (s.dropTaken c).reportFail (s.dropEntry c) := by
  have hc' : (s.modCell c fun x => { x with failDue := false }).failed c = some g := hc
  unfold State.cellFailed
  dsimp only
  rw [hc', if_neg (by simp [h])]
  refine if_neg ?_
  rw [Bool.or_eq_true, decide_eq_true_eq, decide_eq_true_eq]
  exact not_or.mpr ⟨not_not.mpr hm, hk⟩
end

theorem reportFail_fields (s : State) (f : FailEntry) : let t := s.reportFail f
    t.fab.failed = s.failList f ∧ t.fab.failGen = s.fab.failGen + 1 ∧ ∃ q ∈ t.flt.fireQ, q.src = 50 ∧ q.detail = f.cell := by
  obtain ⟨hl, hg, -⟩ := listFail_fields s f
  unfold State.reportFail
  dsimp only
  refine ⟨?_, ?_, _, List.mem_append_right _ (List.mem_singleton_self _), rfl, rfl⟩
  · simpa using hl
  · simpa using hg

theorem failOverflow_fields (s : State) (c : Nat) : let t := s.failOverflow c
    t.fab.failed = s.fab.failed ∧ bit (t.rg .fabFailStatus) 5 = true ∧ ∃ q ∈ t.flt.fireQ, q.src = 51 ∧ q.detail = c :=
  ⟨by simp [State.failOverflow], bit_rg_setBit s .fabFailStatus 0 (by decide), _,
    List.mem_append_right _ (List.mem_singleton_self _), rfl, rfl⟩

/-- Settles O28: an addition is one use of `listFail_fields`, a removal of `unlisted_fields`, a cell listed by the module
of `reportFail_fields`. -/
theorem failedCellList : Obligations.FailedCellList := by
  unfold Obligations.FailedCellList
  refine ⟨fun s r => ⟨fun h => by rw [exec_failAdd, failAdd_none h], fun e h => ?add⟩,
    fun s r => ⟨fun h => by rw [exec_failRemove, failRemove_none h], fun e h => ?remove⟩,
    fun s c => ⟨fun h => by rw [exec_cellFailed, cellFailed_idle h], fun h => ?module⟩⟩
  case add =>
    refine ⟨fun hc hn => by rw [exec_failAdd, failAdd_full h hc hn], fun hc hn => ?_, fun f hc hf => ?_, fun f hc hf => ?_⟩
    · obtain ⟨hl, hg, hs, hr, hm⟩ := listFail_fields s ⟨lef e.bytes 24 2, kindOfCode (byteAt e.bytes 26), .installer⟩
      exact ⟨_, _, by rw [exec_failAdd, failAdd_new h hc hn]; rfl, hl.trans (failList_new hc), hg, hs, by simp, fun _ => hr, hm⟩
    · obtain ⟨hl, hg, hs, hr, hm⟩ := listFail_recordFail_fields s { f with kind := kindOfCode (byteAt e.bytes 26) }
        { f with kind := kindOfCode (byteAt e.bytes 26) }
      have hcell := cell_of_failed hc
      refine ⟨_, _, by rw [exec_failAdd, failAdd_factory h hc hf]; rfl, hl.trans (failList_listed (g := f) (hcell ▸ hc)), hg,
        hs, fun _ ht => ?_, fun hn => ?_, hm⟩
      · rw [hr, recordFail_test ht, hcell]
      · rw [hr, recordFail_kept (hn.resolve_left (not_not.mpr hf))]
    · obtain ⟨hl, hg, hs, hr, hm⟩ := listFail_fields s ⟨lef e.bytes 24 2, kindOfCode (byteAt e.bytes 26), .installer⟩
      exact ⟨_, _, by rw [exec_failAdd, failAdd_replaces h hc hf]; rfl, hl.trans (failList_listed hc), hg, hs, by simp,
        fun _ => hr, hm⟩
  case remove =>
    refine ⟨fun hc => by rw [exec_failRemove, failRemove_unlisted h hc], fun f hc => ?_⟩
    obtain ⟨hfab, hnone, htest, hkept⟩ := unlisted_fields s f
    rw [← cell_of_failed hc]
    exact ⟨_, by rw [exec_failRemove, failRemove_listed h hc], hfab, hnone, htest, hkept⟩
  case module =>
    refine ⟨fun hc hn => ?_, fun g hc hm hk => ?_, fun g hc hm => ?_, fun hc hn => ?_⟩
    · obtain ⟨hl, hg, hq⟩ := reportFail_fields (s.dropTaken c.val) (s.dropEntry c.val)
      refine ⟨_, by rw [exec_cellFailed, cellFailed_new h hc hn], hl.trans ?_, hg, hq⟩
      exact if_neg (by simp [show (s.dropTaken c.val).failed c.val = none from hc, State.dropEntry])
    · obtain ⟨hl, hg, hq⟩ := reportFail_fields (s.dropTaken c.val) (s.dropEntry c.val)
      refine ⟨_, by rw [exec_cellFailed, cellFailed_relisted h hc hm hk], hl.trans ?_, hg, hq⟩
      exact if_pos (by simp [show (s.dropTaken c.val).failed c.val = some g from hc, State.dropEntry])
    · rw [exec_cellFailed, cellFailed_kept h hc hm]; rfl
    · exact ⟨_, by rw [exec_cellFailed, cellFailed_full h hc hn], failOverflow_fields (s.dropTaken c.val) c.val⟩

end Sys2Proof.Machine
end

section
/-! Settling O9: a restart of the supervisor, its return, and what waits for it. -/

namespace Sys2Proof.Machine

/-! ### The supervisor goes down (R17, R355, R399) -/

@[simp] theorem img_modImg_self (s : State) (k : Nat) (f : ImgSlot → ImgSlot) : (s.modImg k f).img k = f (s.img k) :=
  tget_tset_self _ _ _ _ rfl

theorem img_modImg_other (s : State) {j k : Nat} (f : ImgSlot → ImgSlot) (h : j ≠ k) : (s.modImg k f).img j = s.img j := by
  unfold State.img State.modImg
  dsimp only
  rw [tmod, tget_tset_other _ _ _ h]

theorem img_congr {s t : State} (h : t.flash.slots = s.flash.slots) (k : Nat) : t.img k = s.img k := by
  unfold State.img; rw [h]

/-- The flash operations under way but for image writes. -/
def State.otherJobs (s : State) : List (FlashJob × Nat × Nat) :=
  s.flash.pending.filter fun p => !(match p.1 with | .image _ _ => true | _ => false)

/-- Image writes are dropped and their commands complete. -/
theorem reports_abandonImages (s : State) :
    (s.onFlash fun f => { f with pending := s.otherJobs }).Reports s.abandonImages := by
  unfold State.abandonImages
  exact .foldl _ (fun s p => reports_finishCmd ..) _

/-- `t` is `s` with the supervisor stopped, and with no image write under way. -/
structure State.SupDown (s t : State) : Prop where
  sup : t.sup = { s.sup with available := false, trial := none }
  remap : t.bus.remap = false
  regs : t.regs = s.regs
  fired : s.flt.fireQ <+: t.flt.fireQ
  img : ∀ k, t.img k = s.img k

theorem supDown_supervisorDown (s : State) : s.SupDown s.supervisorDown := by
  unfold State.supervisorDown
  extract_lets a b
  have h := reports_abandonImages a.restartRegs
  have hb : s.SupDown b := by
    refine ⟨?_, ?_, ?_, h.fired, h.img⟩
    · exact of_frame_sup h.frame
    · exact congrArg BusMx.remap (of_frame_bus h.frame)
    · have hr := of_frame_regs h.frame
      exact hr
  split
  · exact ⟨hb.sup, hb.remap, hb.regs, hb.fired, hb.img⟩
  · exact hb

theorem State.SupDown.reports {s t u : State} (h : s.SupDown t) (g : t.Reports u) : s.SupDown u := by
  refine ⟨?_, ?_, ?_, h.fired.trans g.fired, fun k => (g.img k).trans (h.img k)⟩
  · rw [of_frame_sup g.frame, h.sup]
  · rw [of_frame_bus g.frame, h.remap]
  · rw [of_frame_regs g.frame, h.regs]

/-! ### Restarts are counted (R399, R403) -/

@[simp] theorem img_fire (s : State) (n d k : Nat) (o : Option Nat) : (s.fire n d o).img k = s.img k := rfl
@[simp] theorem img_setBit (s : State) (r : Reg) (i b k : Nat) : (s.setBit r i b).img k = s.img k := img_congr (by simp) k

/-- A restart counts by the image that runs; the recovery loader's under no rule. -/
def State.countFailure (s : State) : State :=
  if s.sup.recovery then s else if (s.img s.sup.slot.toNat).state = .trial then s.countTrial else s.countRestart

/-- A failure of the supervisor is marked and fires. -/
def State.failureMarked (s : State) (src b : Nat) : State := (s.setBit .sysResetCause 0 b).fire src

theorem supervisorFails_up {s : State} (h : s.sup.available = true) (src b : Nat) : ∃ v,
    s.supervisorFails src b = (s.failureMarked src b).countFailure.supervisorDown.event 17 v 0 := by
  unfold State.supervisorFails
  rw [if_neg (by simp [h])]
  simp only [State.countFailure, State.failureMarked, img_fire, img_setBit, State.fire_sup, State.setBit_sup]
  exact ⟨_, rfl⟩

/-- `t` is `s` with a restart counted: the image that runs, and the counts of the supervisor. -/
structure State.Counted (s t : State) : Prop where
  regs : t.regs = s.regs
  flt : t.flt = s.flt
  slot : t.sup.slot = s.sup.slot

theorem counted_countRestart (s : State) : s.Counted s.countRestart := ⟨rfl, rfl, rfl⟩

theorem counted_countTrial (s : State) : s.Counted s.countTrial := by
  unfold State.countTrial
  dsimp only
  split <;> exact ⟨rfl, rfl, rfl⟩

theorem counted_countFailure (s : State) : s.Counted s.countFailure := by
  unfold State.countFailure
  split
  · exact ⟨rfl, rfl, rfl⟩
  · split
    · exact counted_countTrial s
    · exact counted_countRestart s

/-- The third restart within 60 s stops the supervisor. -/
theorem countRestart_stopped (s : State) : s.countRestart.sup.stopped =
    decide (2 ≤ (s.sup.restarts.filter fun a => s.now < a + secC 60).length) := by
  unfold State.countRestart
  simp

theorem countTrial_few {s : State} (h : (s.img s.sup.slot.toNat).fails < 2) : s.countTrial =
    s.modImg s.sup.slot.toNat fun g => { g with fails := g.fails + 1 } := by
  unfold State.countTrial
  dsimp only
  rw [if_neg (by rw [img_modImg_self]; simp; omega)]

/-- The third restart of a trial fails its slot. -/
theorem countTrial_third {s : State} (h : 2 ≤ (s.img s.sup.slot.toNat).fails) : s.countTrial =
    ((s.modImg s.sup.slot.toNat fun g => { g with fails := g.fails + 1 }).modImg s.sup.slot.toNat fun g =>
      { g with state := .failed }).onSup fun c => { c with fallback := true, restarts := [] } := by
  unfold State.countTrial
  dsimp only
  rw [if_pos (by rw [img_modImg_self]; simp; omega)]

theorem countTrial_fields (s : State) : let t := s.countTrial
    (t.img s.sup.slot.toNat).fails = (s.img s.sup.slot.toNat).fails + 1 ∧
    (2 ≤ (s.img s.sup.slot.toNat).fails → (t.img s.sup.slot.toNat).state = .failed ∧ t.sup.fallback = true) ∧
    ((s.img s.sup.slot.toNat).fails < 2 → (t.img s.sup.slot.toNat).state = (s.img s.sup.slot.toNat).state) := by
  dsimp only
  by_cases h : 2 ≤ (s.img s.sup.slot.toNat).fails
  · rw [countTrial_third h]
    refine ⟨?_, fun _ => ⟨?_, rfl⟩, fun hn => absurd h (Nat.not_le.mpr hn)⟩
    · show (State.img (State.modImg _ _ _) _).fails = _
      rw [img_modImg_self, img_modImg_self]
    · show (State.img (State.modImg _ _ _) _).state = _
      rw [img_modImg_self]
  · rw [countTrial_few (Nat.not_le.mp h)]
    exact ⟨by rw [img_modImg_self], fun hn => absurd hn h, fun _ => by rw [img_modImg_self]⟩

/-! ### The watchdog expires, or the pair mismatches -/

theorem exec_supervisorWdt (s : State) (dt : Nat) :
    exec (.supervisorWdt dt) s = .next ((s.pass dt).supervisorFails 68 28).finish := rfl
theorem exec_lockstepMismatch (s : State) (dt : Nat) :
    exec (.lockstepMismatch dt) s = .next ((s.pass dt).supervisorFails 67 27).finish := rfl

theorem supervisorFails_away {s : State} (h : s.sup.available = false) (src b : Nat) :
    s.supervisorFails src b = if src = 67 && s.core then s.fire src else s := by
  rw [State.supervisorFails, h]; rfl

theorem supervisorFails_fields {s : State} (h : s.sup.available = true) (src : Nat) {b : Nat} (hb : b < 32) :
    let t := s.supervisorFails src b
    t.sup.available = false ∧ t.bus.remap = false ∧ bit (t.rg .sysResetCause) b = true ∧ ∃ q ∈ t.flt.fireQ, q.src = src := by
  obtain ⟨v, hv⟩ := supervisorFails_up h src b
  have hc := counted_countFailure (s.failureMarked src b)
  have hd := (supDown_supervisorDown (s.failureMarked src b).countFailure).reports (reports_event _ 17 v 0 [] none false)
  rw [← hv] at hd
  refine ⟨congrArg Sup.available hd.sup, hd.remap, ?_, ?_⟩
  · rw [rg_congr (hd.regs.trans hc.regs)]
    exact bit_rg_setBit s .sysResetCause 0 hb
  · refine ⟨{ src := src }, hd.fired.subset ?_, rfl⟩
    rw [hc.flt]
    exact List.mem_append_right _ (List.mem_singleton_self _)

/-- Of an image, a restart counts: of a GOOD one by R399, of a TRIAL one by R403. -/
theorem supervisorFails_counts {s : State} (h : s.sup.available = true) (hr : s.sup.recovery = false) (src b : Nat) :
    let k := s.sup.slot.toNat
    let t := s.supervisorFails src b
    ((s.img k).state = .good → t.sup.stopped = decide (2 ≤ (s.sup.restarts.filter fun a => s.now < a + secC 60).length)) ∧
    ((s.img k).state = .trial → (t.img k).fails = (s.img k).fails + 1 ∧
      (2 ≤ (s.img k).fails → (t.img k).state = .failed ∧ t.sup.fallback = true) ∧
      ((s.img k).fails < 2 → (t.img k).state = .trial)) := by
  obtain ⟨v, hv⟩ := supervisorFails_up h src b
  have hd := (supDown_supervisorDown (s.failureMarked src b).countFailure).reports (reports_event _ 17 v 0 [] none false)
  rw [← hv] at hd
  have hm : (s.failureMarked src b).sup = s.sup := by simp [State.failureMarked]
  have hi : ∀ k, (s.failureMarked src b).img k = s.img k := fun k => by simp [State.failureMarked]
  have hn : (s.failureMarked src b).now = s.now := by simp [State.failureMarked, State.now]
  refine ⟨fun hg => ?_, fun ht => ?_⟩
  · have hcount : (s.failureMarked src b).countFailure = (s.failureMarked src b).countRestart := by
      unfold State.countFailure
      rw [hm, hr, hi, hg]; rfl
    rw [hd.sup, hcount, ← hm, ← hn]
    exact countRestart_stopped _
  · have hcount : (s.failureMarked src b).countFailure = (s.failureMarked src b).countTrial := by
      unfold State.countFailure
      rw [hm, hr, hi, ht]; rfl
    have hf := countTrial_fields (s.failureMarked src b)
    dsimp only at hf
    rw [hm, hi, ht] at hf
    rw [hd.img, hd.sup, hcount]
    exact hf

/-! ### The supervisor returns (R300, R303, R332, R391) -/

theorem exec_supervisorReturn (s : State) (dt : Nat) :
    exec (.supervisorReturn dt) s = .next (s.pass dt).supervisorReturns.finish := rfl

/-- The supervisor runs again under the EPOCH `n`, with REMAP 1 and an empty sender table. -/
structure State.UpAgain (n : Word) (t : State) : Prop where
  available : t.sup.available = true
  remap : t.bus.remap = true
  senders : t.casc.senders = []
  epoch : t.flash.epoch = n

theorem State.UpAgain.reports {n : Word} {s t : State} (h : State.UpAgain n s) (g : s.Reports t) : State.UpAgain n t := by
  refine ⟨?_, ?_, ?_, g.epoch.trans h.epoch⟩
  · rw [of_frame_sup g.frame, h.available]
  · rw [of_frame_bus g.frame, h.remap]
  · rw [of_frame_casc g.frame, h.senders]

theorem State.UpAgain.reportImage {n : Word} {s : State} (h : State.UpAgain n s) : State.UpAgain n s.reportImage := by
  unfold State.reportImage
  extract_lets k a b
  have ha : s.Reports a := by
    unfold a
    split
    · exact reports_event ..
    · exact .refl s
  have hb : a.Reports b := by
    unfold b
    split
    · exact (reports_fire ..).trans (reports_event ..)
    · exact .refl a
  obtain ⟨h1, h2, h3, h4⟩ := h.reports (ha.trans hb)
  exact ⟨h1, h2, h3, h4⟩

theorem reports_writeHeldOne (s : State) (e : AuditEntry) : s.Reports (s.writeHeldOne e) := by
  unfold State.writeHeldOne
  dsimp only
  split
  · exact (reports_appendAudit ..).trans (reports_event ..)
  · exact reports_appendAudit ..

theorem reports_writeHeld (s : State) : s.Reports s.writeHeld := by
  unfold State.writeHeld
  extract_lets l n a b
  have hb : s.Reports b := State.Reports.trans (t := a) (.of_same rfl rfl rfl rfl) (.foldl l reports_writeHeldOne a)
  split
  · exact hb
  · exact (hb.trans (reports_writeAudit ..)).trans (reports_tick ..)

theorem reports_resumeWaits (s : State) : s.Reports s.resumeWaits := by
  unfold State.resumeWaits
  refine .foldl _ (fun s r => ?_) s
  split
  · exact ((reports_modEntry ..).trans (reports_modRing ..)).trans (reports_drain ..)
  · exact .refl s

theorem supervisorReturns_away {s : State} (h : s.sup.available = true ∨ s.sup.stopped = true ∨ s.core = false) :
    s.supervisorReturns = s := by
  unfold State.supervisorReturns
  exact if_pos (by rcases h with h | h | h <;> simp [h])

theorem upAgain_supervisorReturns {s : State} (ha : s.sup.available = false) (hs : s.sup.stopped = false) (hc : s.core = true) :
    State.UpAgain (s.flash.epoch + 1) s.supervisorReturns := by
  unfold State.supervisorReturns
  rw [if_neg (by simp [ha, hs, hc])]
  extract_lets a b c
  have h : State.UpAgain (s.flash.epoch + 1) c := ⟨rfl, rfl, rfl, rfl⟩
  exact ((h.reports (reports_event ..)).reportImage.reports (reports_writeHeld ..)).reports (reports_resumeWaits ..)

/-! ### The end of a trial, waits, and half the watchdog time -/

theorem exec_trialEnd (s : State) (dt : Nat) : exec (.trialEnd dt) s = .next (s.pass dt).trialEnds.finish := rfl
theorem exec_supervisorWaitExpiry (s : State) (dt : Nat) (r : Fin 16) :
    exec (.supervisorWaitExpiry dt r) s = .next ((s.pass dt).waitExpires r.val).finish := rfl
theorem exec_watchdogHalfTime (s : State) (dt : Nat) : exec (.watchdogHalfTime dt) s =
    .next (if (s.pass dt).sup.available then (s.pass dt).irqPulse 88 else s.pass dt).finish := rfl

theorem trialEnds_waits {s : State} (h : s.sup.available = false ∨ s.expired s.sup.trial = false) : s.trialEnds = s := by
  unfold State.trialEnds
  exact if_neg (by rcases h with h | h <;> simp [h])

theorem trialEnds_fields {s : State} (ha : s.sup.available = true) (he : s.expired s.sup.trial = true) :
    let t := s.trialEnds
    t.sup.trial = none ∧ (t.img s.sup.slot.toNat).state =
      if (s.img s.sup.slot.toNat).state = .trial then .good else (s.img s.sup.slot.toNat).state := by
  unfold State.trialEnds
  rw [if_pos (by rw [ha, he]; rfl)]
  refine ⟨rfl, ?_⟩
  show (State.img (State.modImg _ _ _) _).state = _
  rw [img_modImg_self]
  split <;> rfl

theorem waitExpires_expired {s : State} {r : Nat} {e : Entry} {es : List Entry} (h : (s.ring r).entries = e :: es)
    (hw : e.state = .waitSup) (hd : e.done = none) (hx : s.expired (s.ring r).supWait = true) :
    s.waitExpires r = (s.holdAudit { cmdAudit r e 4 with result := 4#8 }).finishCmd r e.idx 4 false := by
  simp [State.waitExpires, h, hw, hd, hx]

theorem waitExpires_waits {s : State} {r : Nat} (h : ∀ e es, (s.ring r).entries = e :: es →
    e.state ≠ .waitSup ∨ e.done.isSome = true ∨ s.expired (s.ring r).supWait = false) : s.waitExpires r = s := by
  unfold State.waitExpires
  split
  · rename_i e es he
    refine if_neg ?_
    rcases h e es he with h | h | h
    · simp [h]
    · simp [Option.isNone_eq_false_iff.mpr h]
    · simp [h]
  · rfl

/-- Settles O9: a failure by `supervisorFails_fields` and `supervisorFails_counts`, the return by
`upAgain_supervisorReturns`. -/
theorem supervisorRestartsAndReturns : Obligations.SupervisorRestartsAndReturns := by
  unfold Obligations.SupervisorRestartsAndReturns
  refine ⟨?fails, ?returns, ?trial, ?expires, ?waits, ?half⟩
  case fails =>
    rintro s _ dt rfl
    rw [exec_supervisorWdt, exec_lockstepMismatch]
    refine ⟨fun h => ⟨⟨_, rfl, supervisorFails_fields h 68 (by decide)⟩, ⟨_, rfl, supervisorFails_fields h 67 (by decide)⟩⟩,
      fun h hr => ⟨_, rfl, supervisorFails_counts h hr 68 28⟩, fun h => ⟨?_, fun hc => ?_⟩⟩
    · rw [supervisorFails_away h]; rfl
    · rw [supervisorFails_away h, hc]; rfl
  case returns =>
    rintro s _ dt rfl
    rw [exec_supervisorReturn]
    refine ⟨fun ha hs hc => ?_, fun h => by rw [supervisorReturns_away h]⟩
    obtain ⟨h1, h2, h3, h4⟩ := upAgain_supervisorReturns ha hs hc
    exact ⟨_, rfl, h1, h2, h3, h4⟩
  case trial =>
    rintro s _ dt rfl
    rw [exec_trialEnd]
    exact ⟨fun ha he => ⟨_, rfl, trialEnds_fields ha he⟩, fun h => by rw [trialEnds_waits h]⟩
  case expires =>
    rintro s _ dt r e es rfl h hw hd hx
    rw [exec_supervisorWaitExpiry, waitExpires_expired h hw hd hx]
  case waits =>
    rintro s _ dt r rfl h
    rw [exec_supervisorWaitExpiry, waitExpires_waits h]
  case half =>
    rintro s _ dt rfl
    rw [exec_watchdogHalfTime]
    exact ⟨fun h => by rw [if_pos h], fun h => by rw [if_neg (Bool.eq_false_iff.mp h)]⟩

end Sys2Proof.Machine
end

section
/-! Settling O13: the commands that the supervisor carries out, and the end of their flash operations. -/

namespace Sys2Proof.Machine

/-! ### Heads of rings, and the commands of each -/

theorem img_startFlash (s : State) (r i k : Nat) (j : FlashJob) : (s.startFlash r i j).img k = s.img k := rfl

theorem exec_auditRead (s : State) (r : Fin 16) : exec (.auditRead r) s = .next (s.auditRead r.val).finish := rfl
theorem exec_keySet (s : State) (r : Fin 16) :
    exec (.keySet r) s = .next (s.keyCommand r.val 0 fun s e => s.keySet r.val e).finish := rfl
theorem exec_keyClear (s : State) (r : Fin 16) :
    exec (.keyClear r) s = .next (s.keyCommand r.val 1 fun s e => s.keyClear r.val e).finish := rfl
theorem exec_cfgStore (s : State) (r : Fin 16) : exec (.cfgStore r) s = .next (s.cfgStore r.val).finish := rfl
theorem exec_imageWrite (s : State) (r : Fin 16) :
    exec (.imageWrite r) s = .next (s.imageCommand r.val 0 fun s e k => s.imageWrite r.val e k).finish := rfl
theorem exec_imageActivate (s : State) (r : Fin 16) :
    exec (.imageActivate r) s = .next (s.imageCommand r.val 1 fun s e k => s.imageActivate r.val e k).finish := rfl
theorem exec_imageQuery (s : State) (r : Fin 16) :
    exec (.imageQuery r) s = .next (s.imageCommand r.val 2 fun s e k => s.imageQuery r.val e k).finish := rfl

theorem supHead_none {s : State} {r op : Nat} (h : s.sup.available = false ∨ s.readyHead r op = none) :
    s.supHead r op = none := by
  unfold State.supHead
  split
  · rename_i ha
    exact h.resolve_left (by simp [ha])
  · rfl

theorem supHead_ready {s : State} (ha : s.sup.available = true) {r op : Nat} {e : Entry} (h : s.readyHead r op = some e) :
    s.supHead r op = some e := by
  rw [State.supHead, if_pos ha, h]

section
variable {s : State} {r op : Nat}

theorem auditRead_none (h : s.supHead r 0x51 = none) : s.auditRead r = s := by rw [State.auditRead, h]
theorem cfgStore_none (h : s.supHead r 0x50 = none) : s.cfgStore r = s := by rw [State.cfgStore, h]
theorem keyCommand_none (act) (h : s.supHead r 0x52 = none) : s.keyCommand r op act = s := by rw [State.keyCommand, h]
theorem imageCommand_none (act) (h : s.supHead r 0x53 = none) : s.imageCommand r op act = s := by rw [State.imageCommand, h]

variable {e : Entry}

theorem keyCommand_acts (act) (h : s.supHead r 0x52 = some e) (ho : (rd e.payload 1).toNat = op) :
    s.keyCommand r op act = act s e := by
  rw [State.keyCommand, h]
  exact if_pos ho

theorem imageCommand_acts (act) (h : s.supHead r 0x53 = some e) (ho : byteAt e.bytes 24 = op) :
    s.imageCommand r op act = act s e (byteAt e.bytes 25 % 2) := by
  rw [State.imageCommand, h]
  exact if_pos ho

theorem auditRead_reads (h : s.supHead r 0x51 = some e) :
    let out := (s.auditHeld.filter fun q => lef e.bytes 24 4 ≤ q.seq).take (lef e.bytes 28 2)
    s.auditRead r = s.finishCmd r e.idx 0 true
      (leBytes 4 out.length ++ leBytes 4 ((s.auditHeld.head?.map (·.seq)).getD s.sec.auditSeq)) 0
      (some (lef e.bytes 8 8, out.flatMap AuditEntry.bytes)) := by
  rw [State.auditRead, h]

theorem cfgStore_begins (h : s.supHead r 0x50 = some e) : s.cfgStore r = s.startFlash r e.idx (.store s.storeImage) := by
  rw [State.cfgStore, h]
end

section
variable {s : State} {r : Nat} {e : Entry}

theorem keySet_fits (h : keyCheckValue (s.unwrap e) = rdBytes e.payload 48 16) :
    s.keySet r e = s.startFlash r e.idx (.key (byteAt e.bytes 24) (some (s.unwrap e))) := if_pos h
theorem keySet_refused (h : keyCheckValue (s.unwrap e) ≠ rdBytes e.payload 48 16) :
    s.keySet r e = s.refuseRole r e 5 := if_neg h
theorem keyClear_begins (h : s.lastInstaller (byteAt e.bytes 24) = false) :
    s.keyClear r e = s.startFlash r e.idx (.key (byteAt e.bytes 24) none) := by rw [State.keyClear, h]; rfl
theorem keyClear_last (h : s.lastInstaller (byteAt e.bytes 24) = true) : s.keyClear r e = s.refuseRole r e 7 := by
  rw [State.keyClear, if_pos h]

variable {k : Nat}

theorem imageWrite_refused (h : s.runsSlot k = true ∨ imageOk e.payload (lef e.bytes 4 4) = false) :
    s.imageWrite r e k = s.finishCmd r e.idx 0x51 false := by
  unfold State.imageWrite
  exact if_pos (by rcases h with h | h <;> simp [h])

theorem imageWrite_begins (hr : s.runsSlot k = false) (ho : imageOk e.payload (lef e.bytes 4 4) = true) :
    s.imageWrite r e k = (s.modImg k fun _ => {}).startFlash r e.idx (.image k (imageSlot e.payload)) := by
  unfold State.imageWrite
  exact if_neg (by simp [hr, ho])

theorem imageActivate_refused (h : ((s.img k).state ≠ .valid ∧ (s.img k).state ≠ .good) ∨
    (s.rf .sysProfileReq 0 15 0 ≠ 0 ∧ (s.imageRev k).toNat ≠ s.rf .sysProfileReq 0 15 0)) :
    s.imageActivate r e k = s.finishCmd r e.idx 0x51 false := by
  unfold State.imageActivate
  refine if_pos ?_
  rcases h with ⟨h1, h2⟩ | ⟨h1, h2⟩ <;> simp [h1, h2]
end

/-- The slot is activated and the command completes; the supervisor is to stop. -/
def State.activated (s : State) (r : Nat) (e : Entry) (k : Nat) : State :=
  (((s.modImg k fun g => { g with actSeq := (s.img (1 - k)).actSeq + 1,
                                  state := if g.state = .valid then .trial else g.state }).finishCmd r e.idx 0 true).setBit
    .sysResetCause 0 26).onSup fun c => { c with activating := true }

theorem activated_img (s : State) (r : Nat) (e : Entry) (k : Nat) : (s.activated r e k).img k = { s.img k with
    actSeq := (s.img (1 - k)).actSeq + 1, state := if (s.img k).state = .valid then .trial else (s.img k).state } := by
  show (State.img (State.setBit _ _ _ _) k) = _
  rw [img_setBit, (reports_finishCmd ..).img, img_modImg_self]

section
variable {s : State} {k : Nat} (hs : (s.img k).state = .valid ∨ (s.img k).state = .good)
  (hp : s.rf .sysProfileReq 0 15 0 = 0 ∨ (s.imageRev k).toNat = s.rf .sysProfileReq 0 15 0)
include hs hp

theorem imageActivate_activates (r : Nat) (e : Entry) :
    s.imageActivate r e k = (s.activated r e k).supervisorDown.event 17 1 0 := by
  unfold State.imageActivate
  refine if_neg ?_
  rcases hs with hs | hs <;> rcases hp with hp | hp <;> simp [hs, hp]

theorem imageActivate_fields (r : Nat) (e : Entry) : let t := s.imageActivate r e k
    (t.img k).actSeq = (s.img (1 - k)).actSeq + 1 ∧
    (t.img k).state = (if (s.img k).state = .valid then .trial else .good) ∧
    t.sup.available = false ∧ t.sup.activating = true ∧ t.bus.remap = false := by
  have h := (supDown_supervisorDown (s.activated r e k)).reports (reports_event _ 17 1 0 [] none false)
  rw [imageActivate_activates hs hp r e]
  refine ⟨?_, ?_, congrArg Sup.available h.sup, congrArg Sup.activating h.sup, h.remap⟩
  · rw [h.img, activated_img]
  · rw [h.img, activated_img]
    rcases hs with hs | hs <;> simp [hs]
end

/-! ### The end of a command's flash operation (R287, R321, R401) -/

theorem exec_flashOperationDone (s : State) (dt : Nat) (op : FlashOp) (ok : Bool) :
    exec (.flashOperationDone dt op ok) s = .next ((s.pass dt).flashDone op ok State.stableFabric).finish := rfl

theorem flashDone_job (s : State) {op : FlashOp} (h : op = .cfgStore ∨ op = .imageWrite ∨ op = .keySet) (ok : Bool)
    (rest : State → State) : s.flashDone op ok rest = s.jobEnds op ok := by
  rcases h with rfl | rfl | rfl <;> rfl

theorem jobEnds_waits {s : State} {op : FlashOp}
    (h : s.flash.pending.find? (fun p => p.1.isOp op) = none ∨ s.sup.available = false) (ok : Bool) : s.jobEnds op ok = s := by
  unfold State.jobEnds
  split
  · rfl
  · rename_i hf
    refine if_pos ?_
    rw [h.resolve_left (by simp [hf])]; rfl

/-- A job leaves the list of those under way. -/
def State.jobTaken (s : State) (p : FlashJob × Nat × Nat) : State :=
  (s.irqPulse 85).onFlash fun f => { f with pending := f.pending.erase p }

theorem jobTaken_flash (s : State) (p : FlashJob × Nat × Nat) :
    (s.jobTaken p).flash = { s.flash with pending := s.flash.pending.erase p } := by
  simp [State.jobTaken]

@[simp] theorem jobTaken_pwr (s : State) (p : FlashJob × Nat × Nat) : (s.jobTaken p).pwr = s.pwr := by simp [State.jobTaken]

theorem jobTaken_key (s : State) (p : FlashJob × Nat × Nat) (k : Nat) : (s.jobTaken p).key k = s.key k := by
  simp [State.jobTaken, State.key]

theorem mayWrite_jobTaken (s : State) (p : FlashJob × Nat × Nat) (j : FlashJob) :
    (s.jobTaken p).mayWrite j = s.mayWrite j := by
  unfold State.mayWrite; rw [jobTaken_pwr]

section
variable {s : State} {op : FlashOp} {j : FlashJob} {r i : Nat}
  (hf : s.flash.pending.find? (fun p => p.1.isOp op) = some (j, r, i)) (ha : s.sup.available = true)
include hf ha

theorem jobEnds_taken (ok : Bool) : s.jobEnds op ok =
    if !ok then ((s.jobTaken (j, r, i)).fire 69 j.block).finishCmd r i 0x50 false
    else if !(s.jobTaken (j, r, i)).mayWrite j then (s.jobTaken (j, r, i)).finishCmd r i 0x50 false
    else ((s.jobTaken (j, r, i)).jobWritten j).1.finishCmd r i 0 true ((s.jobTaken (j, r, i)).jobWritten j).2 := by
  unfold State.jobEnds
  rw [hf]
  exact if_neg (by simp [ha])

theorem jobEnds_fails : s.jobEnds op false = ((s.jobTaken (j, r, i)).fire 69 j.block).finishCmd r i 0x50 false :=
  jobEnds_taken hf ha false

theorem jobEnds_locked (hw : s.mayWrite j = false) : s.jobEnds op true = (s.jobTaken (j, r, i)).finishCmd r i 0x50 false := by
  rw [jobEnds_taken hf ha, mayWrite_jobTaken, hw]; rfl

theorem jobEnds_written (hw : s.mayWrite j = true) : let q := (s.jobTaken (j, r, i)).jobWritten j
    s.jobEnds op true = q.1.finishCmd r i 0 true q.2 := by
  rw [jobEnds_taken hf ha, mayWrite_jobTaken, hw]; rfl

/-- A failed operation leaves the store, the slots and the keys (R323, R335). -/
theorem jobEnds_fails_fields : let t := s.jobEnds op false
    t.flash.pending = s.flash.pending.erase (j, r, i) ∧ t.flash.store = s.flash.store ∧ t.flash.slots = s.flash.slots ∧
    (∀ id, (t.key id).held = (s.key id).held ∧ (t.key id).material = (s.key id).material) ∧ ∃ q ∈ t.flt.fireQ, q.src = 69 := by
  have h := reports_finishCmd ((s.jobTaken (j, r, i)).fire 69 j.block) r i 0x50 false [] 0 none
  rw [← jobEnds_fails hf ha] at h
  have hflash := jobTaken_flash s (j, r, i)
  refine ⟨h.jobs.trans ?_, h.store.trans ?_, h.slots.trans ?_, fun id => ?_,
    h.waits ⟨_, List.mem_append_right _ (List.mem_singleton_self _), rfl⟩⟩
  · rw [State.fire_flash, hflash]
  · rw [State.fire_flash, hflash]
  · rw [State.fire_flash, hflash]
  · rw [(h.held id).1, (h.held id).2, show ((s.jobTaken (j, r, i)).fire 69 j.block).key id = s.key id from
      jobTaken_key s (j, r, i) id]
    exact ⟨rfl, rfl⟩
end

theorem onRelpety_jobs (s : State) (f : Relpety → Relpety) : (s.onRelpety f).flash.pending = s.flash.pending := by
  unfold State.onRelpety
  split <;> rfl

theorem onRelpety_key (s : State) (f : Relpety → Relpety) (k : Nat) : (s.onRelpety f).key k = s.key k := by
  simp [State.key]

theorem onFlash_key (s : State) (f : Flash → Flash) (k : Nat) : (s.onFlash f).key k = s.key k := rfl

theorem putKey_jobs (s : State) (id : Nat) (m : Option (List Byte)) : (s.putKey id m).flash.pending = s.flash.pending := by
  unfold State.putKey
  dsimp only
  by_cases h : id < 16
  · rw [if_pos h, onRelpety_jobs]; rfl
  · rw [if_neg h]; rfl

/-- A key set holds its material, and a cleared one nothing (R323). -/
theorem putKey_key (s : State) (id : Nat) (m : Option (List Byte)) :
    ((s.putKey id m).key id).held = m.isSome ∧ ((s.putKey id m).key id).material = m.getD [] := by
  have hkey : ∀ (q : Key) (f : Flash → Flash), (State.onFlash (s.modKey id fun _ => q) f).key id = q :=
    fun q _ => key_modKey_self s id fun _ => q
  unfold State.putKey
  dsimp only
  by_cases h : id < 16
  · rw [if_pos h, onRelpety_key, hkey]
    cases m <;> exact ⟨rfl, rfl⟩
  · rw [if_neg h, onFlash_key, hkey]
    cases m <;> exact ⟨rfl, rfl⟩

/-- What a flash operation leaves that has been written and read back: its command has left the list of those under way, and
its job is done (R27, R287, R321, R401). -/
theorem jobEnds_done_fields {s : State} {op : FlashOp} {j : FlashJob} {r i : Nat}
    (hf : s.flash.pending.find? (fun p => p.1.isOp op) = some (j, r, i)) (ha : s.sup.available = true) :
    let t := s.jobEnds op true
    t.flash.pending = s.flash.pending.erase (j, r, i) ∧
    (∀ c, j = .store c → t.flash.store = { c with gen := s.flash.store.gen + 1, keys := s.flash.store.keys }) ∧
    (∀ k g, j = .image k g → t.img k = g) ∧
    (∀ id m, j = .key id m → (16 ≤ id ∨ s.pwr.testEn = true) → (t.key id).held = m.isSome ∧ (t.key id).material = m.getD []) ∧
    (∀ id m, j = .key id m → id < 16 → s.pwr.testEn = false →
      (t.key id).held = (s.key id).held ∧ (t.key id).material = (s.key id).material) := by
  have hflash := jobTaken_flash s (j, r, i)
  cases j with
  | store c =>
    have hw := jobEnds_written hf ha rfl
    have h := reports_finishCmd ((s.jobTaken (.store c, r, i)).jobWritten (.store c)).1 r i 0 true
      ((s.jobTaken (.store c, r, i)).jobWritten (.store c)).2 0 none
    rw [← hw] at h
    refine ⟨h.jobs.trans (congrArg Flash.pending hflash), ?_, by simp, by simp, by simp⟩
    rintro _ ⟨⟩
    refine h.store.trans ?_
    show CfgStore.mk .. = _
    rw [hflash]
  | image k g =>
    have hw := jobEnds_written hf ha rfl
    have h := (reports_event ((s.jobTaken (.image k g, r, i)).modImg k fun _ => g) 20 0 k [] none false).trans
      (reports_finishCmd _ r i 0 true [] 0 none)
    rw [show s.jobEnds op true = _ from hw]
    refine ⟨h.jobs.trans (congrArg Flash.pending hflash), by simp, ?_, by simp, by simp⟩
    rintro _ _ ⟨⟩
    exact (h.img k).trans (img_modImg_self ..)
  | key id m =>
    by_cases hw : s.mayWrite (.key id m) = true
    · have h := reports_finishCmd ((s.jobTaken (.key id m, r, i)).putKey id m) r i 0 true [] 0 none
      rw [show s.jobEnds op true = _ from jobEnds_written hf ha hw]
      refine ⟨h.jobs.trans ((putKey_jobs ..).trans (congrArg Flash.pending hflash)), by simp, by simp, ?_, ?_⟩
      · rintro _ _ ⟨⟩ -
        obtain ⟨h1, h2⟩ := putKey_key (s.jobTaken (.key id m, r, i)) id m
        exact ⟨(h.held id).1.trans h1, (h.held id).2.trans h2⟩
      · rintro _ _ ⟨⟩ hn ht
        rw [State.mayWrite, ht, Bool.false_or, decide_eq_true_eq] at hw
        omega
    · rw [Bool.not_eq_true] at hw
      have h := reports_finishCmd (s.jobTaken (.key id m, r, i)) r i 0x50 false [] 0 none
      rw [jobEnds_locked hf ha hw]
      refine ⟨h.jobs.trans (congrArg Flash.pending hflash), by simp, by simp, ?_, ?_⟩
      · rintro _ _ ⟨⟩ hm
        rw [State.mayWrite, Bool.or_eq_false_iff, decide_eq_false_iff_not] at hw
        exact absurd hm (by simp [hw])
      · rintro _ _ ⟨⟩ - -
        rw [(h.held id).1, (h.held id).2, jobTaken_key]
        exact ⟨rfl, rfl⟩

/-! ### The end of an audit entry's write (R325, R326, R329) -/

/-- The newest entry `q` is no valid one any more, and LAST of every key is what it was before it. -/
def State.entryLost (s : State) (q : Nat) : State :=
  ((s.onSec fun c => { c with audit := tmod (fun _ => {}) c.audit (q % 65536) fun e => { e with stored := false } }).onFlash
    fun f => { f with lasts := f.lastsOld }).fire 69 ((0x2400000 + 256 * (q % 65536)) / 65536)

theorem entryLost_audit (s : State) (q : Nat) : ((s.entryLost q).audit q).stored = false := by
  have h : (s.entryLost q).audit q = { s.audit q with stored := false } := tget_tset_self _ _ _ _ rfl
  rw [h]

theorem foldl_id {α : Type} {l : List α} {f : State → α → State} {s : State} (h : ∀ a ∈ l, f s a = s) : l.foldl f s = s := by
  induction l with
  | nil => rfl
  | cons a l ih => rw [List.foldl_cons, h a (by simp), ih fun b hb => h b (by simp [hb])]

/-- No command at the head of a ring awaits the entry. -/
theorem refuseUnaudited_none {s : State} {q : Nat}
    (h : ∀ r < 16, ∀ e es, (s.ring r).entries = e :: es → e.audit ≠ some q) : s.refuseUnaudited q = s := by
  refine foldl_id fun r hr => ?_
  split
  · rename_i e es he
    exact if_neg (by simp [h r (List.mem_range.mp hr) e es he])
  · rfl

theorem refuseGrant_none {s : State} {q : Nat} (h : ∀ g, s.sec.grant = some g → g.audit ≠ q) : s.refuseGrant q = s := by
  unfold State.refuseGrant
  split
  · rename_i g hg
    exact if_neg (h g hg)
  · rfl

theorem auditFails_lost {s : State} {q : Nat} (hq : s.sec.auditSeq = q + 1) (hst : (s.audit q).stored = true)
    (hg : ∀ g, s.sec.grant = some g → g.audit ≠ q)
    (hr : ∀ r < 16, ∀ e es, (s.ring r).entries = e :: es → e.audit ≠ some q) : s.auditFails = s.entryLost q := by
  unfold State.auditFails
  rw [show s.sec.auditSeq - 1 = q by omega]
  dsimp only
  rw [if_neg (by simp [hq, hst])]
  show State.refuseGrant (State.refuseUnaudited (s.entryLost q) q) q = _
  rw [refuseUnaudited_none (s := s.entryLost q) hr, refuseGrant_none (s := s.entryLost q) hg]

/-- Interrupt source 85 pulses where an entry has been written. -/
def State.auditPulse (s : State) : State := if s.core && s.sec.auditSeq ≠ 0 then s.irqPulse 85 else s

theorem auditPulse_fields (s : State) :
    s.auditPulse.sec = s.sec ∧ s.auditPulse.rings = s.rings ∧ s.auditPulse.flash = s.flash := by
  unfold State.auditPulse
  split
  · simp
  · exact ⟨rfl, rfl, rfl⟩

theorem auditFails_fields {s : State} {q : Nat} (hq : s.sec.auditSeq = q + 1) (hst : (s.audit q).stored = true)
    (hg : ∀ g, s.sec.grant = some g → g.audit ≠ q)
    (hr : ∀ r < 16, ∀ e es, (s.ring r).entries = e :: es → e.audit ≠ some q) : let t := s.auditPulse.auditFails
    (t.audit q).stored = false ∧ t.flash.lasts = s.flash.lastsOld ∧ ∃ x ∈ t.flt.fireQ, x.src = 69 := by
  obtain ⟨hsec, hrings, hflash⟩ := auditPulse_fields s
  rw [auditFails_lost (q := q) (by rw [hsec, hq]) (by unfold State.audit; rw [hsec]; exact hst) (by rw [hsec]; exact hg)
    (by unfold State.ring; rw [hrings]; exact hr)]
  exact ⟨entryLost_audit .., congrArg Flash.lastsOld hflash, _, List.mem_append_right _ (List.mem_singleton_self _), rfl⟩

/-! ### The end of a wear summary's write (R153 to R155) -/

theorem flashDone_summary {s : State} (h : s.pwr.phase ≠ .stabling) (ok : Bool) (rest : State → State) :
    s.flashDone .wearSummary ok rest = s.summaryWritten ok := by
  unfold State.flashDone
  dsimp only
  rw [if_neg h]

theorem summaryWritten_waits {s : State} (h : s.fab.sumDue = none ∨ s.sup.available = false) (ok : Bool) :
    s.summaryWritten ok = s := by
  unfold State.summaryWritten
  split
  · rfl
  · rename_i c hc
    refine if_pos ?_
    rw [h.resolve_left (by simp [hc])]; rfl

/-- A summary is in its slot, or its slot holds no valid one; a CLOSING one lets the stabling go on. -/
def State.summaryPut (s : State) (c ok : Bool) : State :=
  let t := (s.irqPulse 85).onFab fun f =>
    { f with sumDue := none, sumNow := false, sumSeq := f.sumSeq + 1,
             summaries := if ok then tset (fun _ => {}) f.summaries (s.fab.sumSeq % 256) (s.summary c)
               else f.summaries.filter (·.1 ≠ s.fab.sumSeq % 256) }
  if c then t.onPwr fun p => { p with closingDone := true } else t

theorem summaryPut_fab (s : State) (c ok : Bool) : (s.summaryPut c ok).fab =
    { s.fab with
      sumDue := none, sumNow := false, sumSeq := s.fab.sumSeq + 1,
      summaries := if ok then tset (fun _ => {}) s.fab.summaries (s.fab.sumSeq % 256) (s.summary c)
        else s.fab.summaries.filter (·.1 ≠ s.fab.sumSeq % 256) } := by
  cases c <;> simp [State.summaryPut]

section
variable {s : State} {c : Bool} (hc : s.fab.sumDue = some c) (ha : s.sup.available = true)
include hc ha

theorem summaryWritten_puts (ok : Bool) : s.summaryWritten ok =
    if ok then s.summaryPut c ok else (s.summaryPut c ok).fire 69 (sumBlock (s.fab.sumSeq % 256)) := by
  unfold State.summaryWritten
  rw [hc]
  exact if_neg (by simp [ha])

theorem summaryWritten_fields (ok : Bool) : let t := s.summaryWritten ok
    t.fab.sumDue = none ∧ t.fab.sumSeq = s.fab.sumSeq + 1 ∧
    (ok = true → tget (fun _ => {}) t.fab.summaries (s.fab.sumSeq % 256) = s.summary c) ∧
    (ok = false → ∃ x ∈ t.flt.fireQ, x.src = 69) := by
  dsimp only
  rw [summaryWritten_puts hc ha]
  cases ok with
  | true =>
    simp only [if_true, summaryPut_fab]
    exact ⟨trivial, trivial, fun _ => tget_tset_self _ _ _ _ rfl, by simp⟩
  | false =>
    simp only [Bool.false_eq_true, if_false, State.fire_fab, summaryPut_fab]
    exact ⟨trivial, trivial, by simp, fun _ => ⟨_, List.mem_append_right _ (List.mem_singleton_self _), rfl⟩⟩
end

/-- Settles O13: the commands at their heads, then the ends of flash operations by `jobEnds_done_fields`,
`jobEnds_fails_fields`, `auditFails_fields` and `summaryWritten_fields`. -/
theorem supervisorCommands : Obligations.SupervisorCommands := by
  unfold Obligations.SupervisorCommands
  refine ⟨fun s r e ha => ⟨?read, ?key, ?store, ?image⟩, ?waits, ?job, ?audit, ?summary, ?none⟩
  case read =>
    intro h
    rw [exec_auditRead, auditRead_reads (supHead_ready ha h)]
  case key =>
    intro h
    have hh := supHead_ready ha h
    refine ⟨fun ho => ⟨fun hk => ?_, fun hk => ?_⟩, fun ho => ⟨fun hk => ?_, fun hk => ?_⟩⟩
    · rw [exec_keySet, keyCommand_acts _ hh ho, keySet_fits hk]; rfl
    · rw [exec_keySet, keyCommand_acts _ hh ho, keySet_refused hk]
    · rw [exec_keyClear, keyCommand_acts _ hh ho, keyClear_begins hk]; rfl
    · rw [exec_keyClear, keyCommand_acts _ hh ho, keyClear_last hk]
  case store =>
    intro h
    rw [exec_cfgStore, cfgStore_begins (supHead_ready ha h)]; rfl
  case image =>
    intro h
    have hh := supHead_ready ha h
    refine ⟨fun ho => ⟨fun hn => ?_, fun hr hi => ?_⟩, fun ho => ⟨fun hs hp => ?_, fun hn => ?_⟩, fun ho => ?_⟩
    · rw [exec_imageWrite, imageCommand_acts _ hh ho, imageWrite_refused hn]
    · rw [exec_imageWrite, imageCommand_acts _ hh ho, imageWrite_begins hr hi]
      exact ⟨_, rfl, (img_startFlash ..).trans (img_modImg_self ..), rfl⟩
    · exact ⟨_, by rw [exec_imageActivate, imageCommand_acts _ hh ho], imageActivate_fields hs hp r.val e⟩
    · rw [exec_imageActivate, imageCommand_acts _ hh ho, imageActivate_refused hn]
    · rw [exec_imageQuery, imageCommand_acts _ hh ho]; rfl
  case waits =>
    intro s r c op hm h
    have hn := supHead_none h
    simp only [List.mem_cons, Prod.mk.injEq, List.not_mem_nil, or_false] at hm
    rcases hm with ⟨rfl, rfl⟩ | ⟨rfl, rfl⟩ | ⟨rfl, rfl⟩ | ⟨rfl, rfl⟩ | ⟨rfl, rfl⟩ | ⟨rfl, rfl⟩ | ⟨rfl, rfl⟩
    · rw [exec_auditRead, auditRead_none hn]
    · rw [exec_keySet, keyCommand_none _ hn]
    · rw [exec_keyClear, keyCommand_none _ hn]
    · rw [exec_cfgStore, cfgStore_none hn]
    · rw [exec_imageWrite, imageCommand_none _ hn]
    · rw [exec_imageActivate, imageCommand_none _ hn]
    · rw [exec_imageQuery, imageCommand_none _ hn]
  case job =>
    rintro s _ dt op j r i rfl ho hf ha
    rw [exec_flashOperationDone, exec_flashOperationDone, flashDone_job _ ho, flashDone_job _ ho]
    refine ⟨⟨_, rfl, ?_⟩, ⟨_, rfl, jobEnds_fails_fields hf ha⟩⟩
    obtain ⟨hp, hs, himg, hkey, hlock⟩ := jobEnds_done_fields hf ha
    refine ⟨hp, fun c hc => ?_, himg, hkey, hlock⟩
    rw [hs c hc]
    exact ⟨rfl, rfl, rfl, rfl, rfl, rfl, rfl, rfl⟩
  case audit =>
    rintro s _ dt rfl
    rw [exec_flashOperationDone, exec_flashOperationDone]
    exact ⟨rfl, fun q hq hst hg hr => ⟨_, rfl, auditFails_fields hq hst hg hr⟩⟩
  case summary =>
    rintro s _ dt ok rfl hp
    rw [exec_flashOperationDone, flashDone_summary hp]
    exact ⟨fun c hc ha => ⟨_, rfl, summaryWritten_fields hc ha ok⟩, fun h => by rw [summaryWritten_waits h]⟩
  case none =>
    rintro s _ dt op ok rfl ho h
    rw [exec_flashOperationDone, flashDone_job _ ho, jobEnds_waits h]

end Sys2Proof.Machine
end

section
/-! Settling O50: the authorisation of a step, and the step cycle. What the step makes of patterns, circuit changes, the
calendar wheel, frames and the coupling leaves the clock as the step set it. -/

namespace Sys2Proof.Machine

/-! ### Operations that leave the clock alone -/

/-- The clock, authorised step and TIME_STATUS of `t` are those of `s`; the link delay service may differ. -/
structure State.SameClock (s t : State) : Prop where
  time : t.time.core = s.time.core
  status : t.rg .timeStatus = s.rg .timeStatus

namespace State.SameClock

variable {s t u : State}

theorem refl (s : State) : s.SameClock s := ⟨rfl, rfl⟩

theorem trans (h : s.SameClock t) (g : t.SameClock u) : s.SameClock u := ⟨g.time.trans h.time, g.status.trans h.status⟩

theorem of_fields (ht : t.time = s.time) (hr : t.regs = s.regs) : s.SameClock t := ⟨by rw [ht], rg_congr hr ..⟩

theorem of_frame (h : t.frame = s.frame) : s.SameClock t := by
  obtain ⟨_, hr, _, _, _, _, _, _, _, _, ht, _⟩ := frame_fields h
  exact of_fields ht hr

theorem foldl {α : Type} (l : List α) {f : State → α → State} (h : ∀ (s : State) a, s.SameClock (f s a)) (s : State) :
    s.SameClock (l.foldl f s) := by
  induction l generalizing s with
  | nil => exact refl s
  | cons a l ih => exact (h s a).trans (ih _)

theorem ite {p : Prop} [Decidable p] (ht : s.SameClock t) (hu : s.SameClock u) : s.SameClock (if p then t else u) := by
  split
  · exact ht
  · exact hu

theorem setBit (s : State) {r : Reg} {i : Nat} (b : Nat) (h : Reg.timeStatus.addr 0 ≠ r.addr i) : s.SameClock (s.setBit r i b) :=
  ⟨by simp, rg_setBit_of_ne _ _ h⟩

end State.SameClock

theorem clock_finishCmd (s : State) (r i st : Nat) (tk : Bool) (res : List Byte) (k : Nat) (pre : Option (Nat × List Byte)) :
    s.SameClock (s.finishCmd r i st tk res k pre) := .of_frame (frame_finishCmd ..)

theorem clock_event (s : State) (c b a : Nat) (d : List Byte) (t : Option Nat) (q : Bool) :
    s.SameClock (s.event c b a d t q) := .of_frame (frame_event ..)

theorem clock_irqPulse (s : State) (n : Nat) : s.SameClock (s.irqPulse n) := .of_frame (frame_irqPulse ..)

theorem clock_setLevel (s : State) (n : Nat) (on : Bool) (d : Nat) (u : Option Nat) : s.SameClock (s.setLevel n on d u) :=
  .of_frame (frame_setLevel ..)

theorem clock_modLane (s : State) (l : Nat) (f : Lane → Lane) : s.SameClock (s.modLane l f) := .of_fields rfl rfl
theorem clock_modStream (s : State) (x : Nat) (f : Stream → Stream) : s.SameClock (s.modStream x f) := .of_fields rfl rfl
theorem clock_modBank (s : State) (b : Nat) (f : Bank → Bank) : s.SameClock (s.modBank b f) := .of_fields rfl rfl
theorem clock_onSched (s : State) (f : Sched → Sched) : s.SameClock (s.onSched f) := .of_fields rfl rfl
theorem clock_onFab (s : State) (f : Fabric → Fabric) : s.SameClock (s.onFab f) := .of_fields rfl rfl
theorem clock_onEpt (s : State) (f : Endpoint → Endpoint) : s.SameClock (s.onEpt f) := .of_fields rfl rfl
theorem clock_onCasc (s : State) (f : Casc → Casc) : s.SameClock (s.onCasc f) := .of_fields rfl rfl

/-! ### Frames and the calendar wheel -/

theorem clock_partDone (s : State) (f : TxFrame) (p : TxPart) : s.SameClock (s.partDone f p) := by
  unfold State.partDone
  split
  · dsimp only
    split
    · split
      · exact .of_frame ((frame_complete ..).trans (frame_modEntry ..))
      · exact .of_frame (frame_modEntry ..)
    · exact .of_frame (frame_modEntry ..)
  · dsimp only
    split
    · exact .of_fields rfl rfl
    · exact .refl s
  · exact .refl s

theorem clock_dropCopy (s : State) (f : TxFrame) (l k st : Nat) : s.SameClock (s.dropCopy f l k st) :=
  (clock_modLane ..).trans (clock_partDone ..)

theorem clock_queueOrDrop (s : State) (l q : Nat) (f : TxFrame) :
    s.SameClock (if s.queueFull l q then s else s.putFrame l q f) := by
  split
  · exact .refl s
  · exact .of_fields rfl rfl

theorem clock_sendStream (s : State) (c : List Byte) (f : TxFrame) : s.SameClock (s.sendStream c f) := by
  unfold State.sendStream
  split
  next use out _ =>
  extract_lets n entered dropped given
  have he : s.SameClock entered := by
    unfold entered
    split
    · exact .of_frame (frame_modEntry ..)
    · exact .refl s
  have hd : entered.SameClock dropped := .foldl _ (fun _ _ => clock_dropCopy ..) _
  have hg : dropped.SameClock given := by
    unfold given
    split
    · exact clock_partDone ..
    · exact .refl _
  exact ((he.trans hd).trans hg).trans (.foldl _ (fun _ _ => clock_queueOrDrop ..) _)

theorem clock_acceptStream (s : State) (x : Nat) (c : List Byte) (f : TxFrame) : s.SameClock (s.acceptStream x c f).2 := by
  unfold State.acceptStream
  dsimp only
  split
  · exact .of_fields rfl rfl
  · exact .of_fields rfl rfl

theorem clock_addEvent (s : State) (t x : Nat) : s.SameClock (s.addEvent t x) := by
  unfold State.addEvent
  dsimp only
  split <;> exact .of_fields rfl rfl

theorem clock_releasePaced (s : State) (x t : Nat) : s.SameClock (s.releasePaced x t) := by
  unfold State.releasePaced
  dsimp only
  split
  · exact .refl s
  · split
    · exact clock_addEvent ..
    · split
      · exact (clock_modStream ..).trans (clock_sendStream ..)
      · exact ((clock_modStream ..).trans (clock_sendStream ..)).trans (clock_addEvent ..)

theorem clock_slotPut (s : State) (n o : Nat) (b : List Byte) : s.SameClock (s.slotPut n o b) := .of_fields rfl rfl

theorem clock_releaseSlot (s : State) (x : Nat) : s.SameClock (s.releaseSlot x) := by
  unfold State.releaseSlot
  extract_lets c n q seq len off
  split
  extract_lets torn fresh counted copied stamped aged a told
  have hc : s.SameClock counted := .ite (clock_modStream ..) (.refl s)
  have hk : s.SameClock copied := .ite (hc.trans (clock_modStream ..)) hc
  have h : s.SameClock stamped := hk.trans (clock_slotPut ..)
  have ha : s.SameClock aged := .ite h (h.trans (clock_modStream ..))
  have ht : s.SameClock told := .ite ha (ha.trans (clock_modStream ..))
  clear_value told aged stamped
  cases (stamped.stream x).goodCopy with
  | none => exact h.trans (clock_modStream ..)
  | some d =>
    exact .ite ((ha.trans (clock_sendStream ..)).trans (clock_modStream ..))
      (((ht.trans (clock_acceptStream ..)).trans (clock_slotPut ..)).trans (clock_sendStream ..))

theorem clock_handleEvent (s : State) (e : WheelEvent) : s.SameClock (s.handleEvent e) := by
  unfold State.handleEvent
  split
  · exact clock_releasePaced ..
  · split
    · exact clock_releaseSlot ..
    · exact .refl s

theorem clock_serveOne (s : State) (e : WheelEvent) : s.SameClock (s.serveOne e) := by
  unfold State.serveOne
  dsimp only
  generalize (if s.ept.slotAt = e.slot then s.ept.slotUsed else 0) = used
  split
  · exact (clock_onEpt ..).trans (clock_handleEvent ..)
  · exact (clock_onEpt ..).trans (.setBit _ _ (by decide))

theorem clock_serveWhile (n : Nat) (p : WheelEvent → Bool) (s : State) : s.SameClock (State.serveWhile n p s) := by
  induction n generalizing s with
  | zero => exact .refl s
  | succ n ih =>
    unfold State.serveWhile
    split
    · exact .refl s
    · split
      · exact (clock_serveOne ..).trans (ih _)
      · exact .refl s

theorem clock_stepWheel (s : State) : s.SameClock s.stepWheel := (clock_onEpt ..).trans (clock_serveWhile ..)

theorem clock_cut (s : State) (l : Nat) : s.SameClock (s.cut l) := by
  unfold State.cut
  split
  · exact .refl s
  · split
    · exact .refl s
    · exact .of_fields rfl rfl

theorem clock_cutIfClosed (s : State) (l : Nat) : s.SameClock (s.cutIfClosed l) := by
  unfold State.cutIfClosed
  split
  · split
    · exact clock_cut ..
    · exact .refl s
  · exact .refl s

theorem clock_shutGates (s : State) : s.SameClock s.shutGates := by
  refine .foldl _ (fun s l => ?_) s
  split
  · exact clock_cutIfClosed ..
  · exact .refl s

theorem clock_dropDelay (s : State) (l : Nat) : s.SameClock (s.dropDelay l) := ⟨rfl, rfl⟩

theorem clock_loseLock (s : State) (l : Nat) : s.SameClock (s.loseLock l) := (clock_modLane ..).trans (clock_modLane ..)

theorem clock_endTest (s : State) (a : Bool) : s.SameClock (s.endTest a) := by
  unfold State.endTest
  split
  · exact .refl s
  · extract_lets ls q e t tested counted done aborted
    have hc : s.SameClock counted := .of_fields rfl rfl
    have hd : counted.SameClock done := .setBit _ _ (by decide)
    have ha : done.SameClock aborted := by
      unfold aborted
      split
      · exact .setBit _ _ (by decide)
      · exact .refl _
    exact ((hc.trans hd).trans ha).trans (.foldl _ (fun s l => (clock_loseLock s l).trans (clock_dropDelay ..)) _)

/-! ### Patterns and circuit changes -/

theorem clock_setGates (s : State) (g : Img) (m : Int) (t : Nat) : s.SameClock (s.setGates g m t) :=
  .foldl _ (fun _ _ => clock_modLane ..) s

theorem clock_openAll (s : State) : s.SameClock s.openAll := .foldl _ (fun _ _ => clock_modLane ..) s

theorem clock_planSlots (s : State) (r : Nat) (t : Int) (n a : Nat) : s.SameClock (s.planSlots r t n a) := by
  refine .foldl _ (fun s x => ?_) s
  dsimp only
  split
  · exact clock_addEvent ..
  · exact .refl s

theorem clock_planRow (s : State) (t : Nat) : s.SameClock (s.planRow t) := by
  unfold State.planRow
  split
  · exact .refl s
  · exact clock_planSlots ..

theorem clock_enterBank (s : State) (b : Nat) (m : Int) (t : Nat) : s.SameClock (s.enterBank b m t) := by
  unfold State.enterBank
  extract_lets g taken running
  have h : s.SameClock running := .of_fields rfl rfl
  exact (h.trans (clock_setGates ..)).trans (clock_planRow ..)

theorem clock_startBank (s : State) (q : StartReq) (m : Int) (t b : Nat) : s.SameClock (s.startBank q m t b) := by
  unfold State.startBank
  extract_lets tested unasked entered counted asked held
  have h : s.SameClock entered := ((clock_endTest ..).trans (clock_onSched ..)).trans (clock_enterBank ..)
  exact ((((h.trans (clock_onSched ..)).trans (clock_onSched ..)).trans (clock_onSched ..)).trans (clock_irqPulse ..)).trans
    (clock_finishCmd ..)

theorem clock_cancelSwap (s : State) (t : Nat) : s.SameClock (s.cancelSwap t) := by
  unfold State.cancelSwap
  split
  · exact .refl s
  · next q _ =>
    have h : s.SameClock ({ s with sched.swap := none }.modBank q.bank fun b => { b with state := .valid }) := .of_fields rfl rfl
    dsimp only
    split
    · exact h.trans (clock_finishCmd ..)
    · exact h

theorem clock_dropSlotEvents (s : State) : s.SameClock s.dropSlotEvents := .of_fields rfl rfl

theorem clock_finishStops (s : State) (t : Nat) : s.SameClock (s.finishStops t) := by
  unfold State.finishStops
  refine .trans ?_ (.foldl _ (fun _ _ => clock_finishCmd ..) _)
  exact .of_fields rfl rfl

theorem clock_endFailQuiet (s : State) (b : Bool) : s.SameClock (s.endFailQuiet b) := by
  unfold State.endFailQuiet
  refine .trans (.trans ?_ (clock_setLevel ..)) (clock_event ..)
  exact .of_fields rfl rfl

theorem clock_endHold (s : State) : s.SameClock s.endHold := by
  unfold State.endHold
  split
  · exact .refl s
  · refine .trans ?_ (clock_event ..)
    exact .of_fields rfl rfl

theorem clock_endBank (s : State) (t : Nat) : s.SameClock (s.endBank t) := by
  unfold State.endBank
  split
  · exact .refl s
  · extract_lets old ended opened quieted released asked unasked _ aligned _ unarmed _ uncast
    have he : s.SameClock ended := .of_fields rfl rfl
    have ho : s.SameClock opened := (he.trans (clock_openAll _)).trans (clock_dropSlotEvents _)
    have hq : s.SameClock quieted := .ite (ho.trans (clock_endFailQuiet ..)) ho
    have hr : s.SameClock released := hq.trans (clock_endHold _)
    have hu : s.SameClock uncast := hr.trans (.of_fields rfl rfl)
    exact (hu.trans (clock_cancelSwap ..)).trans (clock_finishStops ..)

theorem clock_followPolicies (s : State) : s.SameClock s.followPolicies := by
  refine .foldl _ (fun s h => ?_) s
  obtain ⟨f, hf⟩ := followPolicy_fab_only s h
  rw [hf]
  exact .of_fields rfl rfl

theorem clock_cancelStaging (s : State) : s.SameClock s.cancelStaging := .of_fields rfl rfl

theorem clock_endUnstarted (s : State) (ch : Change) (st m : Nat) : s.SameClock (s.endUnstarted ch st m) := by
  unfold State.endUnstarted
  split
  · exact clock_finishCmd ..
  · split
    · refine .trans ?_ (clock_finishCmd ..)
      exact .of_fields rfl rfl
    · exact .refl s
  · exact .refl s

theorem clock_dropWaiting (s : State) (p : Change → Bool) (st : Nat) (m : Change → Nat) : s.SameClock (s.dropWaiting p st m) :=
  (clock_onFab ..).trans (.foldl _ (fun _ _ => clock_endUnstarted ..) _)

theorem clock_keepCast (s : State) (b : Nat) : s.SameClock (s.keepCast b) := .of_fields rfl rfl

theorem clock_swapNow (s : State) (r : Run) (q : SwapReq) (m : Int) (t b : Nat) : s.SameClock (s.swapNow r q m t b) := by
  unfold State.swapNow
  extract_lets unswapped entered followed told
  have hu : s.SameClock unswapped := .of_fields rfl rfl
  have he : s.SameClock entered :=
    ((hu.trans (clock_dropSlotEvents _)).trans (clock_enterBank ..)).trans (clock_keepCast ..)
  have hf : entered.SameClock followed := (clock_cancelStaging _).trans (clock_followPolicies _)
  have h : s.SameClock told := (he.trans hf).trans (clock_event ..)
  split
  · exact h.trans (clock_finishCmd ..)
  · exact h

/-! ### What a step makes of the schedule -/

theorem clock_stepApplies (s : State) (o : Nat) (n : Int) : s.SameClock (s.stepApplies o n) := by
  unfold State.stepApplies
  extract_lets late kept told lost dropped
  have h : s.SameClock dropped := ((clock_onFab ..).trans
    (.foldl _ (fun s _ => (clock_cancelStaging s).trans (clock_finishCmd ..)) _)).trans (clock_dropWaiting ..)
  split
  · exact h.trans (clock_cancelStaging _)
  · exact h

theorem clock_stepFar (s : State) (n : Int) : s.SameClock (s.stepFar n) := by
  unfold State.stepFar
  extract_lets started
  have hs : s.SameClock started := by
    unfold started
    split
    · refine .ite (.trans ?_ (clock_finishCmd ..)) (.refl s)
      exact .of_fields rfl rfl
    · exact .refl s
  clear_value started
  split
  · next q _ =>
    have hq : s.SameClock ((started.onSched fun c => { c with swap := none }).modBank q.bank fun b =>
        { b with state := .valid }) := hs.trans (.of_fields rfl rfl)
    refine .ite ?_ hs
    dsimp only
    split
    · exact hq.trans (clock_finishCmd ..)
    · exact hq
  · exact hs

theorem clock_stepStart (s : State) (t : Nat) (n : Int) : s.SameClock (s.stepStart t n) := by
  unfold State.stepStart
  split
  · split
    · exact (clock_startBank ..).trans (clock_onSched ..)
    · exact .refl s
  · exact .refl s

theorem clock_stepEnds (s : State) (t : Nat) (n : Int) : s.SameClock (s.stepEnds t n) := by
  unfold State.stepEnds
  split
  · exact .refl s
  · extract_lets stop swapped
    have hs : s.SameClock swapped := by
      unfold swapped
      split
      · split
        · exact clock_swapNow ..
        · exact .refl s
      · exact .refl s
    split
    · exact (hs.trans (clock_endBank ..)).trans (clock_followPolicies _)
    · exact hs

theorem clock_replaceRun (s : State) (t : Nat) : s.SameClock (s.replaceRun t) := by
  unfold State.replaceRun
  split
  · exact .refl s
  · extract_lets g
    split
    extract_lets running uncast
    have hu : s.SameClock uncast := .of_fields rfl rfl
    exact (hu.trans (clock_setGates ..)).trans (clock_planRow ..)

theorem clock_afterStep (s : State) (o : Nat) (n : Int) : s.SameClock (s.afterStep o n) := by
  unfold State.afterStep
  extract_lets far
  have h : s.SameClock far := (clock_stepApplies ..).trans (clock_stepFar ..)
  clear_value far
  exact ((((h.trans (clock_stepStart ..)).trans (clock_stepEnds ..)).trans (clock_replaceRun ..)).trans
    (clock_stepWheel _)).trans (clock_shutGates _)

/-! ### The coupling -/

theorem clock_sendOwn (s : State) (l : Nat) (f : TxFrame) : s.SameClock (s.sendOwn l f) := clock_queueOrDrop ..

theorem clock_sendBiarn (s : State) (k : Nat) (p : List Byte) : s.SameClock (s.sendBiarn k p) := by
  unfold State.sendBiarn
  split
  · exact .refl s
  · dsimp only
    refine .trans ?_ (.foldl _ (fun _ _ => clock_sendOwn ..) _)
    exact clock_onCasc ..

theorem clock_releaseCoupling (s : State) : s.SameClock s.releaseCoupling := .of_fields rfl rfl

theorem clock_checkRelease (s : State) : s.SameClock s.checkRelease := by
  unfold State.checkRelease
  split
  · unfold State.sendRelease State.consistEvent
    exact ((clock_sendBiarn ..).trans (clock_event ..)).trans (clock_releaseCoupling _)
  · exact .refl s

theorem clock_sendReady (s : State) (o : Nat) : s.SameClock (s.sendReady o) := by
  unfold State.sendReady
  dsimp only
  split
  · exact (clock_onCasc ..).trans (clock_sendBiarn ..)
  · exact ((clock_onCasc ..).trans (clock_onCasc ..)).trans (clock_checkRelease _)

theorem clock_coupleCheck (s : State) : s.SameClock s.coupleCheck := by
  unfold State.coupleCheck
  split
  · exact clock_sendReady ..
  · exact .refl s

/-! ### The authorisation of a step -/

theorem exec_timeStep (s : State) (r : Fin 16) : exec (.timeStep r) s =
    .next (s.timeStepCmd r.val 0 fun b => some (signed 64 (lef b 32 8))).finish := rfl

theorem exec_timeStepToSource (s : State) (r : Fin 16) : exec (.timeStepToSource r) s =
    .next (s.timeStepCmd r.val 1 fun _ => none).finish := rfl

section
variable {s : State} {r k : Nat} (delta : List Byte → Option Int)

theorem timeStepCmd_none (h : s.readyHead r 0x30 = none) : s.timeStepCmd r k delta = s := by
  rw [State.timeStepCmd, h]

variable {e : Entry} (h : s.readyHead r 0x30 = some e)
include h

theorem timeStepCmd_waits (hw : byteAt e.bytes 24 ≠ k ∨ s.sup.available = false) : s.timeStepCmd r k delta = s := by
  rw [State.timeStepCmd, h]
  exact if_pos (by simpa using hw)

variable (hk : byteAt e.bytes 24 = k) (ha : s.sup.available = true)
include hk ha

theorem timeStepCmd_second (hs : s.time.step.isSome = true) :
    s.timeStepCmd r k delta = s.finishCmd r e.idx 0x31 false := by
  rw [State.timeStepCmd, h]
  exact (if_neg (by simp [hk, ha])).trans (if_pos hs)

theorem timeStepCmd_authorises (hs : s.time.step = none) : s.timeStepCmd r k delta =
    (s.begin_ r e.idx).authStep .command (delta e.bytes) (some (r, e.idx)) := by
  rw [State.timeStepCmd, h]
  exact (if_neg (by simp [hk, ha])).trans (if_neg (by simp [hs]))
end

/-- Asking for a hold touches nothing but the schedule's request for one. -/
theorem askHold_keeps (s : State) (w : HoldWhy) : (s.askHold w).time = s.time ∧
    (s.askHold w).sched.run = s.sched.run ∧ (s.sched.run = none → (s.askHold w).sched = s.sched) := by
  unfold State.askHold
  split
  · exact ⟨rfl, rfl, fun _ => rfl⟩
  · next hr =>
    split
    · exact ⟨rfl, rfl, fun _ => rfl⟩
    · exact ⟨rfl, rfl, fun h => by simp [hr] at h⟩

theorem askHold_step_asks (s : State) (h : s.sched.run.isSome = true) :
    (s.askHold .step).sched.hold.isSome = true ∨ (s.askHold .step).sched.holdReq.isSome = true := by
  obtain ⟨r, hr⟩ := Option.isSome_iff_exists.mp h
  unfold State.askHold
  rw [hr]
  dsimp only
  split
  · next hc => exact by simpa [Sched.covers] using hc
  · exact .inr rfl

/-- A step that is authorised, with the hold it asks of a running pattern. -/
theorem authStep_fields (s : State) (w : StepCase) (d : Option Int) (o : Option (Nat × Nat)) :
    let t := s.authStep w d o
    t.time.step = some { why := w, delta := d, authAt := s.now, issuer := o } ∧
    t.nt = s.nt ∧ t.sched.run = s.sched.run ∧ (s.sched.run = none → t.sched = s.sched) ∧
    (s.sched.run.isSome = true → t.sched.hold.isSome = true ∨ t.sched.holdReq.isSome = true) := by
  unfold State.authStep
  extract_lets a t
  obtain ⟨_, _, _, _, _, _, _, _, _, _, htime, hsched, _⟩ := frame_fields (frame_irqPulse (a.askHold .step) 83)
  obtain ⟨hkt, hrun, hsame⟩ := askHold_keeps a .step
  have ht : t.time = a.time := htime.trans hkt
  have hs : t.sched = (a.askHold .step).sched := hsched
  refine ⟨by rw [ht]; rfl, ?_, by rw [hs, hrun]; rfl, fun h => by rw [hs, hsame h]; rfl, fun h => ?_⟩
  · unfold State.nt State.now; rw [ht]; rfl
  · rw [hs]; exact askHold_step_asks a h

/-! ### The step cycle -/

theorem exec_step (s : State) (dt : Nat) : exec (.step dt) s = .next (s.pass dt).doStep.finish := rfl

section
variable {s : State}

theorem doStep_none (h : s.time.step = none) : s.doStep = s := by rw [State.doStep, h]

variable {q : StepReq} (h : s.time.step = some q)
include h

theorem doStep_waits (hw : s.core = false ∨ s.sup.available = false ∨ s.stepReady = false) : s.doStep = s := by
  rw [State.doStep, h]
  exact if_pos (by simpa [or_assoc] using hw)

variable (hc : s.core = true) (ha : s.sup.available = true) (hr : s.stepReady = true)
include hc ha hr

theorem doStep_executes {d : Int} (hd : s.stepDelta q = some d) (ht : s.now < q.authAt + secC 1) :
    s.doStep = s.stepNow q d := by
  rw [State.doStep, h]
  dsimp only
  rw [if_neg (by simp [hc, ha, hr]), hd]
  exact if_neg (by simpa [State.stepTooLate] using ht)

theorem doStep_lapses (hl : s.stepDelta q = none ∨ q.authAt + secC 1 ≤ s.now) : s.doStep = s.lapseStep q := by
  rw [State.doStep, h]
  dsimp only
  rw [if_neg (by simp [hc, ha, hr])]
  split
  · rfl
  · next hd => exact if_pos (by simpa [State.stepTooLate, hd] using hl)
end

/-- What the clock shows depends on no more than `TimeUnit.core`. -/
theorem nt_of_core {s t : State} (h : t.time.core = s.time.core) : t.nt = s.nt := by
  have hn : t.time.core.ntAt t.time.core.raw.toNat = s.time.core.ntAt s.time.core.raw.toNat := by rw [h]
  exact hn

/-- An anchor of the present cycle shows its network time. -/
theorem ntAt_reanchor (t : TimeUnit) {n : Nat} (hn : n < ntMod) : (t.reanchor n).ntAt t.raw.toNat = n := by
  have h0 : (t.raw.toNat + 2 ^ 64 - t.raw.toNat) % 2 ^ 64 = 0 := by omega
  show (n + (t.raw.toNat + 2 ^ 64 - t.raw.toNat) % 2 ^ 64 * t.inc / 65536) % ntMod = n
  rw [h0, Nat.zero_mul, Nat.zero_div, Nat.add_zero, Nat.mod_eq_of_lt hn]

/-- The time unit after a step to `n`. -/
def TimeUnit.stepTo (t : TimeUnit) (n : Nat) : TimeUnit :=
  { t.reanchor n with refCnt := 0, refSince := 0, jumpFired := false, step := none, stepped := true }

/-- The clock stands as the step sets it, with STEPPED set. -/
def State.stepped (s : State) (n : Nat) : State := (s.onTime fun t => t.stepTo n).setBit .timeStatus 0 24

theorem stepped_time (s : State) (n : Nat) : (s.stepped n).time = s.time.stepTo n := by simp [State.stepped]

theorem stepNow_sameClock (s : State) (q : StepReq) (d : Int) :
    (s.stepped (((s.nt : Int) + d) % (ntMod : Int)).toNat).SameClock (s.stepNow q d) := by
  unfold State.stepNow
  extract_lets old new n raw moved told followed
  have ht : (s.stepped n.toNat).SameClock told := clock_event ..
  have hf : (s.stepped n.toNat).SameClock followed := (ht.trans (clock_afterStep ..)).trans (clock_coupleCheck _)
  clear_value followed
  split
  · exact hf.trans (clock_finishCmd ..)
  · exact hf

theorem stepped_nt (s : State) {n : Nat} (hn : n < ntMod) : (s.stepped n).nt = n := by
  unfold State.nt State.now
  rw [stepped_time]
  exact ntAt_reanchor s.time hn

theorem stepNow_fields (s : State) (q : StepReq) (d : Int) : let t := s.stepNow q d
    (t.nt : Int) = ((s.nt : Int) + d) % (ntMod : Int) ∧ t.time.raw = s.time.raw ∧ t.time.step = none ∧
    t.time.refCnt = 0 ∧ t.time.inc = s.time.inc ∧ bit (t.rg .timeStatus) 24 = true := by
  intro t
  have hpos : (0 : Int) < ntMod := by decide
  have h0 := Int.emod_nonneg ((s.nt : Int) + d) hpos.ne'
  have hlt := Int.emod_lt_of_pos ((s.nt : Int) + d) hpos
  have hclock := stepNow_sameClock s q d
  generalize hn : ((s.nt : Int) + d) % (ntMod : Int) = n at *
  have hnt : t.nt = n.toNat := (nt_of_core hclock.time).trans (stepped_nt s (by omega))
  have hcore := hclock.time
  rw [stepped_time] at hcore
  refine ⟨by omega, (congrArg TimeUnit.raw hcore :), (congrArg TimeUnit.step hcore :), (congrArg TimeUnit.refCnt hcore :),
    (congrArg TimeUnit.inc hcore :), ?_⟩
  rw [hclock.status]
  exact bit_rg_setBit _ _ _ (by decide)

/-- Settles O50: a step is authorised by `authStep_fields`, and executes by `stepNow_fields`. -/
theorem stepsOfTime : Obligations.StepsOfTime := by
  unfold Obligations.StepsOfTime
  refine ⟨fun s r c k hc => ?command, ?cycle, fun s u dt hu hs => ?idle⟩
  case command =>
    obtain ⟨delta, hexec, hdelta⟩ : ∃ delta : List Byte → Option Int,
        exec c s = .next (s.timeStepCmd r.val k delta).finish ∧
        ∀ b, delta b = if k = 0 then some (signed 64 (lef b 32 8)) else none := by
      rcases hc with ⟨rfl, rfl⟩ | ⟨rfl, rfl⟩
      · exact ⟨_, exec_timeStep s r, fun _ => rfl⟩
      · exact ⟨_, exec_timeStepToSource s r, fun _ => rfl⟩
    rw [hexec]
    refine ⟨fun h => by rw [timeStepCmd_none _ h], fun e h => ⟨fun hw => by rw [timeStepCmd_waits _ h hw],
      fun hk ha => ⟨fun hs => by rw [timeStepCmd_second _ h hk ha hs], fun hs => ?_⟩⟩⟩
    rw [timeStepCmd_authorises _ h hk ha hs, hdelta]
    exact ⟨_, rfl, authStep_fields (s.begin_ r.val e.idx) ..⟩
  case cycle =>
    rintro s u dt q rfl hq
    rw [exec_step]
    refine ⟨fun d hc ha hr hd ht => ?_, fun hw => by rw [doStep_waits hq hw],
      fun hc ha hr hl => by rw [doStep_lapses hq hc ha hr hl]⟩
    rw [doStep_executes hq hc ha hr hd ht]
    exact ⟨_, rfl, stepNow_fields ..⟩
  case idle =>
    subst hu
    rw [exec_step, doStep_none hs]

end Sys2Proof.Machine
end

section
/-! Settling O22 and O23: the wiring of the fabric by address bits, and a gallery as an involution of the addresses. -/

namespace Sys2Proof.Machine

/-! ### The exchange of two address bits (R33) -/

theorem testBit_tau (b w i : Nat) : (tau b w).testBit i = w.testBit (Equiv.swap 0 b i) := by
  unfold tau
  split
  next h => exact (Equiv.apply_swap_eq_self h i).symm
  next h =>
    have hb : b ≠ 0 := by rintro rfl; exact h rfl
    rw [Equiv.swap_apply_def, Nat.testBit_xor, Nat.testBit_or, Nat.testBit_two_pow]
    by_cases h0 : i = 0
    · subst h0; simp [hb, Bool.eq_not_of_ne h]
    by_cases hi : i = b
    · subst hi; simp [hb, Bool.eq_not_of_ne h]
    · have hone : Nat.testBit 1 i = false := Nat.testBit_lt_two_pow (Nat.one_lt_two_pow h0)
      simp [h0, hi, Ne.symm hi, hone]

theorem tau_zero (w : Nat) : tau 0 w = w := if_pos rfl

@[simp] theorem tau_tau (b w : Nat) : tau b (tau b w) = w :=
  Nat.eq_of_testBit_eq fun i => by rw [testBit_tau, testBit_tau, Equiv.swap_apply_self]

theorem tau_injective (b : Nat) : Function.Injective (tau b) := Function.LeftInverse.injective (tau_tau b)

theorem tau_lt {b w : Nat} (hb : b < 8) (hw : w < 256) : tau b w < 256 := by
  refine Nat.lt_pow_two_of_testBit (n := 8) _ fun i hi => ?_
  rw [testBit_tau, Equiv.swap_apply_of_ne_of_ne (by omega) (by omega)]
  exact Nat.testBit_lt_two_pow (hw.trans_le (Nat.pow_le_pow_right (n := 2) (by decide) hi))

/-- The two addresses of a cell differ in one bit (R34). -/
theorem tau_xor_two_pow (b w : Nat) : tau b (w ^^^ 2 ^ b) = tau b w ^^^ 1 := by
  refine Nat.eq_of_testBit_eq fun i => ?_
  have hbit : (2 ^ b).testBit (Equiv.swap 0 b i) = (2 ^ 0).testBit i := by
    rw [Nat.testBit_two_pow, Nat.testBit_two_pow, decide_eq_decide, eq_comm, Equiv.swap_apply_eq_iff,
      Equiv.swap_apply_right, eq_comm]
  rw [testBit_tau, Nat.testBit_xor, Nat.testBit_xor, testBit_tau, hbit, pow_zero]

/-! ### Addresses of one gallery (R32, R34) -/

theorem beta_lt (g : Nat) : beta g < 8 := by
  unfold beta
  split <;> omega

/-- The address that light of address `a` has behind gallery `g`. -/
def nextAddr (vec : Nat → Bool) (g a : Nat) : Nat := if vec (cellAt g a).1 then a ^^^ 2 ^ beta g else a

theorem traceFrom_succ (vec : Nat → Bool) (n g a : Nat) : traceFrom vec (n + 1) g a =
    (⟨(cellAt g a).1, (cellAt g a).2, vec (cellAt g a).1⟩ :: (traceFrom vec n (g + 1) (nextAddr vec g a)).1,
      (traceFrom vec n (g + 1) (nextAddr vec g a)).2) := rfl

theorem cellAt_tau (g w : Nat) : cellAt g (tau (beta g) w) = (128 * g + w / 2, decide (w % 2 = 1)) := by
  simp [cellAt, Nat.mul_comm]

theorem cellAt_gallery {a : Nat} (g : Nat) (ha : a < 256) : (cellAt g a).1 / 128 = g := by
  have := tau_lt (beta_lt g) ha
  simp only [cellAt]
  omega

theorem cellAt_injective (g : Nat) : Function.Injective (cellAt g) := by
  intro a a' h
  rw [cellAt, cellAt, Prod.mk.injEq, decide_eq_decide] at h
  exact tau_injective (beta g) (by omega)

/-- A cell's two inputs have addresses that differ in the gallery's bit. -/
theorem cellAt_xor_two_pow (g a : Nat) : (cellAt g (a ^^^ 2 ^ beta g)).1 = (cellAt g a).1 := by
  simp [cellAt, tau_xor_two_pow, Nat.xor_div_two]

theorem nextAddr_lt {vec : Nat → Bool} {g a : Nat} (ha : a < 256) : nextAddr vec g a < 256 := by
  unfold nextAddr
  split
  · exact Nat.xor_lt_two_pow (n := 8) ha (Nat.pow_lt_pow_right (by decide) (beta_lt g))
  · exact ha

/-- BAR leaves both addresses of a cell and CROSS exchanges them, so either way twice is the identity. -/
theorem nextAddr_nextAddr (vec : Nat → Bool) (g a : Nat) : nextAddr vec g (nextAddr vec g a) = a := by
  cases h : vec (cellAt g a).1 <;> simp [nextAddr, h, cellAt_xor_two_pow]

theorem nextAddr_injective (vec : Nat → Bool) (g : Nat) : Function.Injective (nextAddr vec g) :=
  Function.LeftInverse.injective (nextAddr_nextAddr vec g)

/-! ### Paths through several galleries -/

theorem traceFrom_end_lt (vec : Nat → Bool) (n g : Nat) {a : Nat} (ha : a < 256) : (traceFrom vec n g a).2 < 256 := by
  induction n generalizing g a with
  | zero => exact ha
  | succ n ih => exact ih (g + 1) (nextAddr_lt ha)

theorem traceFrom_end_injective (vec : Nat → Bool) (n g : Nat) :
    Function.Injective fun a => (traceFrom vec n g a).2 := by
  induction n generalizing g with
  | zero => exact Function.injective_id
  | succ n ih => exact (ih (g + 1)).comp (nextAddr_injective vec g)

theorem traceFrom_galleries (vec : Nat → Bool) (n g : Nat) {a : Nat} (ha : a < 256) :
    ((traceFrom vec n g a).1.map fun h => h.cell / 128) = List.range' g n := by
  induction n generalizing g a with
  | zero => rfl
  | succ n ih =>
    rw [traceFrom_succ, List.map_cons, ih (g + 1) (nextAddr_lt ha), cellAt_gallery g ha, List.range'_succ]

theorem traceFrom_gallery_ge {vec : Nat → Bool} {n g a : Nat} {h : Hop} (ha : a < 256)
    (hh : h ∈ (traceFrom vec n g a).1) : g ≤ h.cell / 128 := by
  have hmem := List.mem_map_of_mem (f := fun h : Hop => h.cell / 128) hh
  rw [traceFrom_galleries vec n g ha] at hmem
  exact (List.mem_range'_1.mp hmem).1

/-- Two paths never use one input of one cell: within a gallery their addresses differ, and cells of two galleries are
never the same. -/
theorem traceFrom_disjoint (vec : Nat → Bool) (n g : Nat) {a a' : Nat} (ha : a < 256) (ha' : a' < 256) (hne : a ≠ a') :
    ∀ h ∈ (traceFrom vec n g a).1, ∀ h' ∈ (traceFrom vec n g a').1, ¬ (h.cell = h'.cell ∧ h.inp = h'.inp) := by
  induction n generalizing g a a' with
  | zero => intro h hh; cases hh
  | succ n ih =>
    have hg := cellAt_gallery g ha
    have hg' := cellAt_gallery g ha'
    simp only [traceFrom_succ, List.forall_mem_cons]
    refine ⟨⟨fun hsame => ?_, fun h' hh' hsame => ?_⟩, fun h hh => ⟨fun hsame => ?_, ?_⟩⟩
    · exact hne (cellAt_injective g (Prod.ext hsame.1 hsame.2))
    · have := traceFrom_gallery_ge (nextAddr_lt ha') hh'
      rw [← hsame.1] at this
      omega
    · have := traceFrom_gallery_ge (nextAddr_lt ha) hh
      rw [hsame.1] at this
      omega
    · exact ih (g + 1) (nextAddr_lt ha) (nextAddr_lt ha') ((nextAddr_injective vec g).ne hne) h hh

/-- Settles O22: each gallery permutes the 256 addresses, and so do sixteen of them in a row. -/
theorem fabricIsAPermutation : Obligations.FabricIsAPermutation := by
  unfold Obligations.FabricIsAPermutation
  intro vec
  refine ⟨fun i hi => ⟨traceFrom_end_lt vec 16 0 hi, ?_⟩, fun i hi j hj hne => ⟨?_, ?_⟩⟩
  · rw [tracePath, traceFrom_galleries vec 16 0 hi, List.range_eq_range']
  · exact (traceFrom_end_injective vec 16 0).ne hne
  · exact traceFrom_disjoint vec 16 0 hi hj hne

/-! ### The wiring from one gallery to the next -/

theorem wire_xor_one (c : Nat) (k : Bool) :
    (2 * c + if k then 1 else 0) ^^^ 1 = 2 * c + if !k then 1 else 0 := by
  cases k
  · exact Nat.xor_one_of_even (even_two_mul c)
  · exact Nat.xor_one_of_odd (odd_two_mul_add_one c)

theorem cellAt_wire (g c : Nat) (k : Bool) :
    cellAt g (tau (beta g) (2 * c + if k then 1 else 0)) = (128 * g + c, k) := by
  rw [cellAt_tau]
  cases k <;> simp
  omega

/-- The cell and input of an address name its wire position. -/
theorem wire_of_cellAt (g a : Nat) :
    2 * ((cellAt g a).1 - 128 * g) + (if (cellAt g a).2 then 1 else 0) = tau (beta g) a := by
  simp only [cellAt, decide_eq_true_eq]
  split <;> omega

/-- Light on input `k` of cell `c` leaves on output `k` in BAR and on the other in CROSS, each at its own address. -/
theorem nextAddr_wire (vec : Nat → Bool) (g c : Nat) (k : Bool) :
    nextAddr vec g (tau (beta g) (2 * c + if k then 1 else 0)) =
      tau (beta g) (2 * c + if (k != vec (128 * g + c)) then 1 else 0) := by
  rw [nextAddr, cellAt_wire]
  cases hv : vec (128 * g + c) with
  | false => simp
  | true =>
    apply tau_injective (beta g)
    simp [tau_xor_two_pow, wire_xor_one]

theorem Hop.out_bar {h : Hop} (hx : h.cross = false) : h.out = h.inp := by rw [Hop.out, hx, Bool.bne_false]

theorem Hop.out_cross {h : Hop} (hx : h.cross = true) : h.out = !h.inp := by rw [Hop.out, hx, Bool.bne_true]

/-- Settles O23: the wiring follows from `testBit_tau`, `cellAt_tau` and `nextAddr_wire`. -/
theorem wiringOfTheFabric : Obligations.WiringOfTheFabric := by
  unfold Obligations.WiringOfTheFabric
  refine ⟨fun h => ⟨Hop.out_bar, Hop.out_cross⟩, fun g => ⟨fun hg => if_pos (by omega), fun hg _ => if_neg (by omega)⟩,
    fun b hb w hw => ?exchange, fun g _ w _ => cellAt_tau g w, fun vec g c k _ hc => ?joined⟩
  case exchange =>
    refine ⟨tau_lt hb hw, tau_tau b w, ?_, ?_, fun i h0 hi => ?_, tau_zero w⟩
    · rw [testBit_tau, Equiv.swap_apply_left]
    · rw [testBit_tau, Equiv.swap_apply_right]
    · rw [testBit_tau, Equiv.swap_apply_of_ne_of_ne h0 hi]
  case joined =>
    intro w out
    have hout : out < 256 := by unfold out; split <;> omega
    refine ⟨(traceFrom vec 1 (g + 1) (tau (beta g) out)).1, nextAddr vec (g + 1) (tau (beta g) out), ?_, _, rfl,
      wire_of_cellAt (g + 1) _, cellAt_gallery (g + 1) (tau_lt (beta_lt g) hout)⟩
    rw [traceFrom_succ, cellAt_wire, nextAddr_wire]
    rfl

end Sys2Proof.Machine
end

section
/-! What stays besides cells and chambers: `State.plan` is the state without what the operations on cells, chambers, lanes
and reports change, and each such operation leaves it as it is. -/

namespace Sys2Proof.Machine

/-! ### The parks under reports -/

/-- The parked chambers, and whether PARK_ALL is in force. -/
def State.parks (s : State) : BitVec 32 × Bool := (s.flt.park, s.flt.parkedAll)

@[simp] theorem parks_emit (s : State) (o : Output) : (s.emit o).parks = s.parks := rfl
@[simp] theorem parks_fire (s : State) (n d : Nat) (o : Option Nat) : (s.fire n d o).parks = s.parks := rfl
@[simp] theorem parks_onFab (s : State) (f : Fabric → Fabric) : (s.onFab f).parks = s.parks := rfl
@[simp] theorem parks_modRing (s : State) (r : Nat) (f : Ring → Ring) : (s.modRing r f).parks = s.parks := rfl
@[simp] theorem parks_modEntry (s : State) (r i : Nat) (f : Entry → Entry) : (s.modEntry r i f).parks = s.parks := rfl
@[simp] theorem parks_mark (s : State) (a : Nat) (m : Word) : (s.mark a m).parks = s.parks := by
  unfold State.mark; split <;> rfl

@[simp] theorem parks_sendMsix (s : State) (v : Nat) : (s.sendMsix v).parks = s.parks := by
  unfold State.sendMsix; split <;> rfl

@[simp] theorem parks_ringMsg (s : State) (r : Nat) : (s.ringMsg r).parks = s.parks := by
  unfold State.ringMsg
  dsimp only
  split
  · split
    · rfl
    · split <;> simp
  · rfl

@[simp] theorem parks_writeEvent (s : State) (r : Nat) (e : EventRec) : (s.writeEvent r e).parks = s.parks := by
  simp [State.writeEvent]

@[simp] theorem parks_dropEvent (s : State) (r : Nat) (q : Bool) : (s.dropEvent r q).parks = s.parks := by
  unfold State.dropEvent; dsimp only; split <;> rfl

@[simp] theorem parks_event (s : State) (c b a : Nat) (d : List Byte) (t : Option Nat) (q : Bool) :
    (s.event c b a d t q).parks = s.parks := by
  unfold State.event
  dsimp only
  split
  · split
    · simp
    · split <;> simp
  · simp

@[simp] theorem parks_appendAudit (s : State) (e : AuditEntry) (ok : Bool) : (s.appendAudit e ok).parks = s.parks := by
  unfold State.appendAudit; dsimp only; split <;> rfl

@[simp] theorem parks_writeAudit (s : State) (e : AuditEntry) (ok : Bool) : (s.writeAudit e ok).parks = s.parks := by
  simp [State.writeAudit]

@[simp] theorem parks_holdAudit (s : State) (e : AuditEntry) : (s.holdAudit e).parks = s.parks := by
  unfold State.holdAudit; split <;> rfl

@[simp] theorem parks_recordOrHold (s : State) (e : AuditEntry) (ok : Bool) : (s.recordOrHold e ok).parks = s.parks := by
  unfold State.recordOrHold; split <;> simp

@[simp] theorem parks_setResult (s : State) (q : Nat) (b : Byte) : (s.setResult q b).parks = s.parks := by
  unfold State.setResult; split <;> rfl

@[simp] theorem parks_noteRefusal (s : State) (k : Nat) : (s.noteRefusal k).parks = s.parks := rfl

@[simp] theorem parks_useCounter (s : State) (k : Nat) (c : Dword) : (s.useCounter k c).parks = s.parks := by
  unfold State.useCounter; split <;> rfl

@[simp] theorem parks_credCheck (s : State) (b m : List Byte) (f : Role → Bool) : (s.credCheck b m f).2.parks = s.parks := by
  unfold State.credCheck
  dsimp only
  split
  · rfl
  · split
    · rfl
    · split
      · rfl
      · split <;> simp

@[simp] theorem parks_writeCompletion (s : State) (r : Nat) (e : Entry) (c : Completion) :
    (s.writeCompletion r e c).parks = s.parks := by
  unfold State.writeCompletion
  dsimp only
  split <;> split <;> split <;> simp

@[simp] theorem parks_acceptHead (s : State) (r i : Nat) (f : Entry → Entry) : (s.acceptHead r i f).parks = s.parks := rfl

@[simp] theorem parks_startHead (s : State) (r : Nat) (e : Entry) (ok : Bool) : (s.startHead r e ok).parks = s.parks := by
  unfold State.startHead
  dsimp only
  split
  · simp
  · split
    · simp
    · split
      · simp
      · generalize hp : (if e.auth.isEmpty = true then ((⟨5, none⟩ : Cred), s) else s.credCheck e.auth _ _) = p
        have h : p.2.parks = s.parks := by rw [← hp]; split <;> simp
        generalize (if p.1.status = 0 && !ok then 0x50 else p.1.status) = st
        split <;> simp [h]

@[simp] theorem parks_settle (n : Nat) (s : State) (r : Nat) (ok : Bool) : (State.settle n s r ok).parks = s.parks := by
  induction n generalizing s with
  | zero => rfl
  | succ n ih =>
    unfold State.settle
    split
    · rfl
    · split
      · rfl
      · split
        · rw [ih]; simp
        · split
          · rw [ih]; simp
          · rfl

@[simp] theorem parks_complete (s : State) (r i : Nat) (c : Completion) : (s.complete r i c).parks = s.parks :=
  parks_settle ..

@[simp] theorem parks_finishCmd (s : State) (r i st : Nat) (tk : Bool) (res : List Byte) (k : Nat)
    (pre : Option (Nat × List Byte)) : (s.finishCmd r i st tk res k pre).parks = s.parks := by
  unfold State.finishCmd; split <;> simp

/-! ### The plan -/

/-- The state without its registers, cells, calibration offsets, chambers, actuation counts, drift report, lanes and link
delays, and without what reports change but for the parks and the Relpety record. -/
def State.plan (s : State) : State :=
  { s.frame with
    regs := [], ept := {}
    time := { s.time with delays := [] }
    flt := { park := s.flt.park, parkedAll := s.flt.parkedAll }
    flash := { relpety := s.flash.relpety }
    loop := { s.loop with cells := [], calOff := [], chans := [] }
    fab := { s.fab with chambers := [], drips := [], firsts := [], driftWhich := 0#2, driftCell := 0 } }

theorem plan_of_reports {s t : State} (h : s.Reports t) (hp : t.parks = s.parks) : t.plan = s.plan := by
  have hr := h.relpety
  simp only [State.parks, Prod.mk.injEq] at hp
  obtain ⟨hp, ha⟩ := hp
  unfold State.plan
  rw [h.frame, hr, hp, ha, of_frame_time h.frame, of_frame_loop h.frame, of_frame_fab h.frame]

theorem plan_foldl {α : Type} (l : List α) {f : State → α → State} (h : ∀ s a, (f s a).plan = s.plan) (s : State) :
    (l.foldl f s).plan = s.plan := foldl_keeps State.plan l f h s

@[simp] theorem plan_event (s : State) (c b a : Nat) (d : List Byte) (t : Option Nat) (q : Bool) :
    (s.event c b a d t q).plan = s.plan := plan_of_reports (reports_event ..) (parks_event ..)
@[simp] theorem plan_finishCmd (s : State) (r i st : Nat) (tk : Bool) (res : List Byte) (k : Nat)
    (pre : Option (Nat × List Byte)) : (s.finishCmd r i st tk res k pre).plan = s.plan :=
  plan_of_reports (reports_finishCmd ..) (parks_finishCmd ..)
@[simp] theorem plan_complete (s : State) (r i : Nat) (c : Completion) : (s.complete r i c).plan = s.plan :=
  plan_of_reports (reports_complete ..) (parks_complete ..)
@[simp] theorem plan_fire (s : State) (n d : Nat) (o : Option Nat) : (s.fire n d o).plan = s.plan := rfl
@[simp] theorem plan_mark (s : State) (a : Nat) (m : Word) : (s.mark a m).plan = s.plan :=
  plan_of_reports (reports_mark ..) (parks_mark ..)
@[simp] theorem plan_setRg (s : State) (r : Reg) (i w : Nat) (v : Word) : (s.setRg r i w v).plan = s.plan := rfl
@[simp] theorem plan_setBit (s : State) (r : Reg) (i b : Nat) : (s.setBit r i b).plan = s.plan := plan_mark ..
@[simp] theorem plan_modEntry (s : State) (r i : Nat) (f : Entry → Entry) : (s.modEntry r i f).plan = s.plan := rfl
@[simp] theorem plan_begin (s : State) (r i : Nat) : (s.begin_ r i).plan = s.plan := rfl
@[simp] theorem plan_modCell (s : State) (c : Nat) (f : Cell → Cell) : (s.modCell c f).plan = s.plan := rfl
@[simp] theorem plan_modCal (s : State) (c : Nat) (f : CalOffset → CalOffset) : (s.modCal c f).plan = s.plan := rfl
@[simp] theorem plan_modChan (s : State) (h : Nat) (f : ChLoop → ChLoop) : (s.modChan h f).plan = s.plan := rfl
@[simp] theorem plan_modChamber (s : State) (h : Nat) (f : Chamber → Chamber) : (s.modChamber h f).plan = s.plan := rfl
@[simp] theorem plan_modLane (s : State) (l : Nat) (f : Lane → Lane) : (s.modLane l f).plan = s.plan := rfl
@[simp] theorem plan_dropDelay (s : State) (l : Nat) : (s.dropDelay l).plan = s.plan := rfl
@[simp] theorem plan_startVerify (s : State) (l : Nat) : (s.startVerify l).plan = s.plan := plan_modLane ..
@[simp] theorem plan_loseLock (s : State) (l : Nat) : (s.loseLock l).plan = s.plan :=
  (plan_modLane ..).trans (plan_modLane ..)
@[simp] theorem plan_newConnection (s : State) (l : Nat) : (s.newConnection l).plan = s.plan := by
  simp [State.newConnection]

/-! ### Counts, drift, traces -/

theorem plan_drift (s : State) (w : BitVec 2) (c : Nat) :
    State.plan { s with fab.driftWhich := w, fab.driftCell := c } = s.plan := rfl

theorem countOn_once (s : State) (p : Prop) [Decidable p] (v : Tab Nat) (w : Tab Nat → Tab Nat) :
    (let t := if p then { s with fab.firsts := v } else s
     { t with fab.drips := w t.fab.drips }) =
      { s with fab.drips := w s.fab.drips, fab.firsts := if p then v else s.fab.firsts } := by
  by_cases hp : p
  · simp only [hp, if_true]
  · simp only [hp, if_false]

/-- The counts with `n` more for element `e` (R93). -/
def State.countOn (s : State) (e n : Nat) (d : Tab Nat) : Tab Nat :=
  tset (fun _ => 0) d e (satN (s.drip e + n) (2 ^ 48 - 1))

/-- A count changes the counts and the first-count times alone (R152, R155). -/
theorem addDrip_eq (s : State) (e n : Nat) : s.addDrip e n = { s with
    fab.drips := s.countOn e n s.fab.drips
    fab.firsts := if s.drip e = 0 ∧ n ≠ 0 then tset (fun _ => 0) s.fab.firsts e (s.ns / 1000000000 % 2 ^ 32) else s.fab.firsts } :=
  countOn_once s (s.drip e = 0 ∧ n ≠ 0) _ (s.countOn e n)

theorem addDrip_counts_only (s : State) (e n : Nat) : ∃ d l, s.addDrip e n = { s with fab.drips := d, fab.firsts := l } :=
  ⟨_, _, addDrip_eq s e n⟩

@[simp] theorem plan_addDrip (s : State) (e n : Nat) : (s.addDrip e n).plan = s.plan := by
  obtain ⟨d, l, hd⟩ := addDrip_counts_only s e n
  rw [hd]; rfl

@[simp] theorem plan_driftLimit (s : State) (w c : Nat) : (s.driftLimit w c).plan = s.plan := by
  unfold State.driftLimit
  rw [plan_fire, plan_event, plan_drift, plan_setBit]

@[simp] theorem plan_moveCalHold (s : State) (c : Nat) (x : Bool) (d : Int) : (s.moveCalHold c x d).plan = s.plan := by
  unfold State.moveCalHold
  extract_lets top v w u
  split
  · rfl
  · exact plan_driftLimit ..

/-- A trigger source changes the traces alone. -/
theorem traceEvent_only (s : State) (h n : Nat) : ∃ l, s.traceEvent h n = { s with loop.chans := l } := by
  unfold State.traceEvent
  split
  · exact (triggers_traceTrigger s h).chans_only
  · exact ⟨_, rfl⟩

theorem flt_traceEvent (s : State) (h n : Nat) : (s.traceEvent h n).flt = s.flt := by
  obtain ⟨l, hl⟩ := traceEvent_only s h n
  rw [hl]

theorem fab_traceEvent (s : State) (h n : Nat) : (s.traceEvent h n).fab = s.fab := by
  obtain ⟨l, hl⟩ := traceEvent_only s h n
  rw [hl]

@[simp] theorem plan_traceEvent (s : State) (h n : Nat) : (s.traceEvent h n).plan = s.plan := by
  obtain ⟨l, hl⟩ := traceEvent_only s h n
  rw [hl]; rfl

/-! ### Cells -/

@[simp] theorem plan_startStitch (s : State) (c : Nat) (x st : Bool) : (s.startStitch c x st).plan = s.plan := by
  unfold State.startStitch; dsimp only; split <;> simp

@[simp] theorem plan_parkLoop (s : State) (c : Nat) : (s.parkLoop c).plan = s.plan := rfl
@[simp] theorem plan_restCell (s : State) (c : Nat) : (s.restCell c).plan = s.plan := by
  unfold State.restCell; dsimp only; split <;> simp
@[simp] theorem plan_restChamber (s : State) (h : Nat) : (s.restChamber h).plan = s.plan := plan_foldl _ plan_restCell s

@[simp] theorem plan_exitCal (s : State) (c : Nat) (b : Mode) : (s.exitCal c b).plan = s.plan := by
  unfold State.exitCal; split <;> rfl
@[simp] theorem plan_leaveCal (s : State) (c st : Nat) (tk : Bool) : (s.leaveCal c st tk).plan = s.plan := by
  unfold State.leaveCal
  split
  · rfl
  · dsimp only; split <;> simp
@[simp] theorem plan_freeCells (s : State) (cs : List Nat) : (s.freeCells cs).plan = s.plan :=
  plan_foldl _ (fun _ _ => plan_leaveCal ..) s

@[simp] theorem plan_takeUp (s : State) (c : Nat) : (s.takeUp c).plan = s.plan := by
  unfold State.takeUp; split <;> rfl
@[simp] theorem plan_engineRuns (s : State) (h : Nat) : (s.engineRuns h).plan = s.plan := plan_foldl _ (fun _ _ => plan_modCell ..) s
@[simp] theorem plan_unstage (s : State) (m : Nat) : (s.unstage m).plan = s.plan :=
  plan_foldl _ (fun s d => by split <;> rfl) s
@[simp] theorem plan_takeUpMap (s : State) (m : Nat) (p : Nat → Bool) : (s.takeUpMap m p).plan = s.plan :=
  plan_foldl _ (fun s d => by split <;> simp) s

/-! ### Chambers -/

@[simp] theorem plan_setPstate (s : State) (h : Nat) (p : PState) : (s.setPstate h p).plan = s.plan := by
  unfold State.setPstate; dsimp only; split <;> simp
@[simp] theorem plan_stopTrace (s : State) (h : Nat) : (s.stopTrace h).plan = s.plan := rfl
@[simp] theorem plan_castOn (s : State) (h : Nat) : (s.castOn h).plan = s.plan := by
  unfold State.castOn; split <;> rfl
@[simp] theorem plan_followPolicy (s : State) (h : Nat) : (s.followPolicy h).plan = s.plan := by
  unfold State.followPolicy
  split
  · simp
  · split <;> rfl
@[simp] theorem plan_followPolicies (s : State) : s.followPolicies.plan = s.plan := plan_foldl _ plan_followPolicy s
@[simp] theorem plan_endInvolved (s : State) (h : Nat) : (s.endInvolved h).plan = s.plan := by
  unfold State.endInvolved; split <;> rfl

/-! ### Lanes -/

@[simp] theorem plan_cut (s : State) (l : Nat) : (s.cut l).plan = s.plan := by
  unfold State.cut
  split
  · rfl
  · split <;> rfl
@[simp] theorem plan_shutGates (s : State) : s.shutGates.plan = s.plan := by
  refine plan_foldl _ (fun s l => ?_) s
  split
  · unfold State.cutIfClosed
    split
    · split <;> simp
    · rfl
  · rfl

/-- A copy that is given up writes nothing to its slot. -/
@[simp] theorem plan_abortCopy (s : State) (l : Nat) (x : TxNow) : (s.abortCopy l x).plan = s.plan := by
  unfold State.abortCopy State.partDone
  split
  · dsimp only
    split
    · split
      · rw [plan_complete]; rfl
      · rfl
    · rfl
  · rfl
  · rfl
@[simp] theorem plan_cutConnection (s : State) (l : Nat) : (s.cutConnection l).plan = s.plan := by
  unfold State.cutConnection State.abortRests
  rw [plan_modLane]
  exact (plan_foldl _ (fun s (p : Nat × TxNow) => plan_abortCopy s l p.2) _).trans (plan_modLane ..)

/-- The end of the self-test changes the test alone, and its lanes. -/
theorem plan_endTest (s : State) (a : Bool) : (s.endTest a).plan = { s.plan with tst := (s.endTest a).tst } := by
  unfold State.endTest
  split
  · rfl
  · extract_lets ls q e t tested counted done aborted
    have ha : aborted.plan = { s.plan with tst := t } := by
      have hd : done.plan = { s.plan with tst := t } := plan_setBit ..
      unfold aborted
      split
      · exact (plan_setBit ..).trans hd
      · exact hd
    have hf : (ls.foldl (fun s l => (s.loseLock l).dropDelay l) aborted).plan = aborted.plan := plan_foldl _ (fun s l => by simp) _
    rw [hf, ha, show (ls.foldl (fun s l => (s.loseLock l).dropDelay l) aborted).tst = t from
      (congrArg State.tst hf).trans (congrArg State.tst ha)]

theorem loseLane_keeps (s : State) (l : Nat) :
    ((s.loseLock l).dropDelay l).tst = s.tst ∧ ((s.loseLock l).dropDelay l).loop = s.loop :=
  ⟨(State.modDelay_tst ..).trans ((State.modLane_tst ..).trans (State.modLane_tst ..)),
    (State.modDelay_loop ..).trans ((State.modLane_loop ..).trans (State.modLane_loop ..))⟩

theorem busy_endTest (s : State) (a : Bool) : (s.endTest a).tst.busy = false := by
  unfold State.endTest
  split
  next h => simpa using h
  next =>
    extract_lets ls q e t tested counted done aborted
    have ha : aborted.tst = t := by
      unfold aborted
      split <;> simp [done, counted, tested]
    have hf : ∀ (l : List Nat) (s : State), (l.foldl (fun s l => (s.loseLock l).dropDelay l) s).tst = s.tst :=
      fun l => foldl_keeps State.tst l (fun s l => (s.loseLock l).dropDelay l) fun s k => (loseLane_keeps s k).1
    rw [hf, ha]

/-! ### What the plan says -/

theorem of_plan {β : Type} (f : State → β) (hf : ∀ s : State, f s.plan = f s) {s t : State} (h : t.plan = s.plan) : f t = f s :=
  (hf t).symm.trans ((congrArg f h).trans (hf s))

section
variable {s t : State} (h : t.plan = s.plan)
include h

theorem now_of_plan : t.now = s.now := of_plan State.now (fun _ => rfl) h
theorem nt_of_plan : t.nt = s.nt := of_plan State.nt (fun _ => rfl) h
theorem sched_of_plan : t.sched = s.sched := of_plan State.sched (fun _ => rfl) h
theorem sram_of_plan : t.sram = s.sram := of_plan State.sram (fun _ => rfl) h
theorem caredCells_of_plan (m : Nat) : t.caredCells m = s.caredCells m := of_plan (·.caredCells m) (fun _ => rfl) h
theorem caredState_of_plan (m c : Nat) : t.caredState m c = s.caredState m c := of_plan (·.caredState m c) (fun _ => rfl) h
theorem bankImg_of_plan (b : Nat) : t.bankImg b = s.bankImg b := of_plan (·.bankImg b) (fun _ => rfl) h
theorem parks_of_plan : t.parks = s.parks := of_plan State.parks (fun _ => rfl) h
theorem darkOnly_of_plan (c : Nat) : t.darkOnly c = s.darkOnly c := of_plan (·.darkOnly c) (fun _ => rfl) h
theorem inForce_of_plan : t.fab.inForce = s.fab.inForce := of_plan (·.fab.inForce) (fun _ => rfl) h
theorem change_of_plan : t.fab.change = s.fab.change := of_plan (·.fab.change) (fun _ => rfl) h
theorem verify_of_plan : t.fab.verify = s.fab.verify := of_plan (·.fab.verify) (fun _ => rfl) h
theorem waiting_of_plan : t.fab.waiting = s.fab.waiting := of_plan (·.fab.waiting) (fun _ => rfl) h
theorem applies_of_plan : t.fab.applies = s.fab.applies := of_plan (·.fab.applies) (fun _ => rfl) h

/-- With the registers too, the policies decide the same. -/
theorem policies_of_plan (hr : t.regs = s.regs) (k : Nat) :
    t.policy k = s.policy k ∧ t.mayCast k = s.mayCast k ∧ t.needed k = s.needed k := by
  have hw : { t.plan with regs := t.regs } = { s.plan with regs := s.regs } := by rw [h, hr]
  exact ⟨congrArg (·.policy k) hw, congrArg (·.mayCast k) hw, congrArg (·.needed k) hw⟩
end

end Sys2Proof.Machine
end

section
/-! What the operations on cells and chambers make of a cell and of a chamber, and which of them leave both as they are. -/

namespace Sys2Proof.Machine

/-! ### A cell -/

@[simp] theorem cell_modCell_self (s : State) (c : Nat) (f : Cell → Cell) : (s.modCell c f).cell c = f (s.cell c) :=
  tget_tset_self _ _ _ _ rfl

theorem cell_modCell_other (s : State) {c d : Nat} (f : Cell → Cell) (h : d ≠ c) : (s.modCell c f).cell d = s.cell d := by
  unfold State.cell State.modCell
  dsimp only
  rw [tmod, tget_tset_other _ _ _ h]

theorem cell_congr {s t : State} (h : t.loop = s.loop) (d : Nat) : t.cell d = s.cell d := by unfold State.cell; rw [h]

section
variable (d : Nat)
@[simp] theorem cell_event (s : State) (c b a : Nat) (l : List Byte) (t : Option Nat) (q : Bool) :
    (s.event c b a l t q).cell d = s.cell d := cell_congr (by simp) d
@[simp] theorem cell_finishCmd (s : State) (r i st : Nat) (tk : Bool) (res : List Byte) (k : Nat)
    (pre : Option (Nat × List Byte)) : (s.finishCmd r i st tk res k pre).cell d = s.cell d := cell_congr (by simp) d
@[simp] theorem cell_fire (s : State) (n k : Nat) (o : Option Nat) : (s.fire n k o).cell d = s.cell d := rfl
@[simp] theorem cell_mark (s : State) (a : Nat) (m : Word) : (s.mark a m).cell d = s.cell d := cell_congr (by simp) d
@[simp] theorem cell_setBit (s : State) (r : Reg) (i b : Nat) : (s.setBit r i b).cell d = s.cell d := cell_mark d ..
@[simp] theorem cell_modCal (s : State) (c : Nat) (f : CalOffset → CalOffset) : (s.modCal c f).cell d = s.cell d := rfl
@[simp] theorem cell_modChan (s : State) (h : Nat) (f : ChLoop → ChLoop) : (s.modChan h f).cell d = s.cell d := rfl
@[simp] theorem cell_modChamber (s : State) (h : Nat) (f : Chamber → Chamber) : (s.modChamber h f).cell d = s.cell d := rfl
@[simp] theorem cell_onFab (s : State) (f : Fabric → Fabric) : (s.onFab f).cell d = s.cell d := rfl
@[simp] theorem cell_addDrip (s : State) (e n : Nat) : (s.addDrip e n).cell d = s.cell d := by
  obtain ⟨v, l, hv⟩ := addDrip_counts_only s e n
  rw [hv]; rfl
@[simp] theorem cell_driftLimit (s : State) (w c : Nat) : (s.driftLimit w c).cell d = s.cell d := by
  unfold State.driftLimit
  rw [cell_fire, cell_event]
  exact cell_setBit ..
@[simp] theorem cell_moveCalHold (s : State) (c : Nat) (x : Bool) (n : Int) : (s.moveCalHold c x n).cell d = s.cell d := by
  unfold State.moveCalHold
  extract_lets top v w u
  split
  · rfl
  · exact cell_driftLimit ..
@[simp] theorem cell_traceEvent (s : State) (h n : Nat) : (s.traceEvent h n).cell d = s.cell d := by
  obtain ⟨l, hl⟩ := traceEvent_only s h n
  rw [hl]; rfl
@[simp] theorem cell_setPstate (s : State) (h : Nat) (p : PState) : (s.setPstate h p).cell d = s.cell d := by
  unfold State.setPstate; dsimp only; split <;> simp
@[simp] theorem cell_stopTrace (s : State) (h : Nat) : (s.stopTrace h).cell d = s.cell d := rfl
@[simp] theorem cell_followPolicy (s : State) (h : Nat) : (s.followPolicy h).cell d = s.cell d := by
  obtain ⟨f, hf⟩ := followPolicy_fab_only s h
  rw [hf]; rfl
@[simp] theorem cell_endInvolved (s : State) (h : Nat) : (s.endInvolved h).cell d = s.cell d := by
  unfold State.endInvolved; split <;> rfl
end

/-! ### Folds over cells -/

/-- Cells that no turn of a fold touches. -/
theorem cell_foldl_other {α : Type} (l : List α) {f : State → α → State} {key : α → Nat} {d : Nat}
    (hf : ∀ s a, key a ≠ d → (f s a).cell d = s.cell d) (hd : ∀ a ∈ l, key a ≠ d) (s : State) :
    (l.foldl f s).cell d = s.cell d := by
  induction l generalizing s with
  | nil => rfl
  | cons a l ih =>
    rw [List.foldl_cons, ih fun b hb => hd b (List.mem_cons_of_mem _ hb)]
    exact hf s a (hd a List.mem_cons_self)

theorem foldl_holds {α : Type} (l : List α) {f : State → α → State} {P : State → Prop}
    (hk : ∀ s a, P s → P (f s a)) (s : State) (hs : P s) : P (l.foldl f s) := by
  induction l generalizing s with
  | nil => exact hs
  | cons a l ih => exact ih _ (hk s a hs)

/-- What one turn of a fold brings about and every turn keeps holds after it. `I` holds before every turn. -/
theorem foldl_reaches {α : Type} (l : List α) {f : State → α → State} {I P : State → Prop} {a : α} (ha : a ∈ l)
    (hI : ∀ s b, I s → I (f s b)) (hP : ∀ s, I s → P (f s a)) (hk : ∀ s b, I s → P s → P (f s b)) (s : State) (hs : I s) :
    P (l.foldl f s) := by
  induction l generalizing s with
  | nil => exact absurd ha List.not_mem_nil
  | cons b l ih =>
    rw [List.foldl_cons]
    by_cases hl : a ∈ l
    · exact ih hl _ (hI s b hs)
    · rcases List.mem_cons.mp ha with rfl | h
      · exact (foldl_holds l (P := fun s => I s ∧ P s) (fun s b h => ⟨hI s b h.1, hk s b h.1 h.2⟩) _ ⟨hI s a hs, hP s hs⟩).2
      · exact absurd h hl

theorem mem_cellsOf {c h : Nat} : c ∈ cellsOf h ↔ chamberOf c = h := by
  simp only [cellsOf, List.mem_map, List.mem_range, chamberOf]
  constructor
  · rintro ⟨k, hk, rfl⟩; omega
  · rintro rfl; exact ⟨c % 64, by omega, by omega⟩

/-! ### Stitches, calibrations, rest and take-up -/

/-- A cell whose stitch toward `x` starts (R76, R118 row 3). -/
def Cell.stitched (q : Cell) (now nt : Nat) (x st : Bool) : Cell :=
  { q.leave now .trajectory with
    pos := .moving, state := x, stitching := true, recovering := false,
    timedOut := false, stageMove := st, stitchRaw := now, stitchNt := nt, failDue := false,
    m := { q.m with e1 := 0, e2 := 0, v1 := 0, v2 := 0, integ := 0, settle := 0, rampStart := false, stayed := false },
    o := { q.o with trim := 0, prev := 0, osat := false, defer := false, deferCnt := 0, refused := false,
                    retry := none, check := false },
    b := { q.b with settled := false } }

/-- What a stitch takes over from the state that its cell held, before it starts: the trim, and the count (R93, R146). -/
def State.beforeStitch (s : State) (c : Nat) : State :=
  let x := s.cell c
  State.addDrip (if x.before s.now = .holdOptical && bit (s.rg .fabDriftCfg) 31 then s.moveCalHold c x.state (asr x.o.trim 2)
    else s) (2 * c) 1

theorem startStitch_eq (s : State) (c : Nat) (x st : Bool) : s.startStitch c x st =
    ((s.beforeStitch c).modCell c fun q => q.stitched (s.beforeStitch c).now (s.beforeStitch c).nt x st).traceEvent
      (chamberOf c) 2 := rfl

theorem plan_beforeStitch (s : State) (c : Nat) : (s.beforeStitch c).plan = s.plan := by
  unfold State.beforeStitch; dsimp only; split <;> simp

theorem cell_beforeStitch (s : State) (c d : Nat) : (s.beforeStitch c).cell d = s.cell d := by
  unfold State.beforeStitch; dsimp only; split <;> simp

theorem cell_startStitch_self (s : State) (c : Nat) (x st : Bool) :
    (s.startStitch c x st).cell c = (s.cell c).stitched s.now s.nt x st := by
  rw [startStitch_eq, cell_traceEvent, cell_modCell_self, cell_beforeStitch, now_of_plan (plan_beforeStitch s c),
    nt_of_plan (plan_beforeStitch s c)]

theorem cell_startStitch_other (s : State) {c d : Nat} (x st : Bool) (h : d ≠ c) :
    (s.startStitch c x st).cell d = s.cell d := by
  rw [startStitch_eq, cell_traceEvent, cell_modCell_other _ _ h, cell_beforeStitch]

theorem cell_parkLoop_other (s : State) {c d : Nat} (h : d ≠ c) : (s.parkLoop c).cell d = s.cell d :=
  cell_modCell_other s _ h

theorem mode_parkLoop (s : State) (c : Nat) : ((s.parkLoop c).cell c).mode = .park := by
  unfold State.parkLoop
  rw [cell_modCell_self]
  split
  next h => simp only [Bool.and_eq_true, decide_eq_true_eq] at h; exact h.1
  next => rfl

/-- Entering PARK leaves what a cell is staged to, and its state (R101). -/
theorem parkLoop_keeps (s : State) (c : Nat) : let t := (s.parkLoop c).cell c
    t.state = (s.cell c).state ∧ t.staged = (s.cell c).staged ∧ t.held = (s.cell c).held := by
  unfold State.parkLoop
  rw [cell_modCell_self]
  dsimp only
  split <;> exact ⟨rfl, rfl, rfl⟩

theorem cell_restCell_other (s : State) {c d : Nat} (h : d ≠ c) : (s.restCell c).cell d = s.cell d := by
  unfold State.restCell
  dsimp only
  rw [cell_modCell_other _ _ h, cell_parkLoop_other _ h]
  split <;> simp

/-- A cell at rest: in PARK, with no calibration (R118 row 1). -/
def Cell.rests (x : Cell) : Prop := x.pos = .rest ∧ x.mode = .park ∧ x.state = false ∧ x.cal = none

theorem rests_restCell (s : State) (c : Nat) : ((s.restCell c).cell c).rests := by
  unfold State.restCell
  dsimp only
  rw [cell_modCell_self]
  exact ⟨rfl, mode_parkLoop .., rfl, rfl⟩

theorem rests_restChamber {s : State} {c h : Nat} (hc : chamberOf c = h) : ((s.restChamber h).cell c).rests := by
  refine foldl_reaches _ (I := fun _ => True) (P := fun s => (s.cell c).rests) (mem_cellsOf.mpr hc) (fun _ _ _ => trivial)
    (fun s _ => rests_restCell s c) (fun s d _ hr => ?_) s trivial
  by_cases hd : c = d
  · exact hd ▸ rests_restCell s c
  · rw [cell_restCell_other s hd]; exact hr

theorem cell_restChamber_other {s : State} {c h : Nat} (hc : chamberOf c ≠ h) : (s.restChamber h).cell c = s.cell c :=
  cell_foldl_other _ (key := id) (fun s _ hd => cell_restCell_other s (Ne.symm hd))
    (fun _ hd he => hc ((congrArg chamberOf he).symm.trans (mem_cellsOf.mp hd))) s

theorem cell_exitCal_other (s : State) {c d : Nat} (b : Mode) (h : d ≠ c) : (s.exitCal c b).cell d = s.cell d := by
  unfold State.exitCal
  split
  · exact cell_parkLoop_other s h
  · exact cell_modCell_other s _ h

theorem cell_leaveCal_other (s : State) {c d : Nat} (st : Nat) (tk : Bool) (h : d ≠ c) :
    (s.leaveCal c st tk).cell d = s.cell d := by
  unfold State.leaveCal
  split
  · rfl
  · dsimp only
    split
    · rw [cell_finishCmd, cell_exitCal_other _ _ h]
    · exact cell_exitCal_other _ _ h

/-- The end of a calibration leaves what a cell is staged to, and its state (R124). -/
theorem leaveCal_keeps (s : State) (c st : Nat) (tk : Bool) : let t := (s.leaveCal c st tk).cell c
    t.state = (s.cell c).state ∧ t.staged = (s.cell c).staged ∧ t.held = (s.cell c).held := by
  have he : ∀ b, let t := (s.exitCal c b).cell c
      t.state = (s.cell c).state ∧ t.staged = (s.cell c).staged ∧ t.held = (s.cell c).held := fun b => by
    unfold State.exitCal
    split
    · exact parkLoop_keeps s c
    · rw [cell_modCell_self]; exact ⟨rfl, rfl, rfl⟩
  unfold State.leaveCal
  split
  · exact ⟨rfl, rfl, rfl⟩
  · dsimp only
    split
    · rw [cell_finishCmd]; exact he _
    · exact he _

theorem leaveCal_none {s : State} {c : Nat} (h : (s.cell c).cal = none) (st : Nat) (tk : Bool) : s.leaveCal c st tk = s := by
  unfold State.leaveCal; rw [h]

theorem cell_takeUp_other (s : State) {c d : Nat} (h : d ≠ c) : (s.takeUp c).cell d = s.cell d := by
  unfold State.takeUp
  split
  · rfl
  · exact cell_modCell_other s _ h

/-- A cell that is not in PARK is not taken up (R118 row 8). -/
theorem cell_takeUp_driven {s : State} {c : Nat} (h : (s.cell c).mode ≠ .park) (d : Nat) : (s.takeUp d).cell c = s.cell c := by
  by_cases hd : c = d
  · subst hd
    unfold State.takeUp
    split
    · rfl
    · rw [cell_modCell_self, if_neg h]
  · exact cell_takeUp_other s hd

theorem takeUp_held {s : State} {c : Nat} (hm : (s.cell c).mode = .park) (hd : s.darkOnly c = false) :
    ((s.takeUp c).cell c).mode = .holdPosition ∧ ((s.takeUp c).cell c).pos = .bar := by
  unfold State.takeUp
  rw [hd, if_neg Bool.false_ne_true, cell_modCell_self, if_pos hm]
  exact ⟨rfl, rfl⟩

/-! ### A chamber -/

@[simp] theorem chamber_modChamber_self (s : State) (h : Nat) (f : Chamber → Chamber) :
    (s.modChamber h f).chamber h = f (s.chamber h) := tget_tset_self _ _ _ _ rfl

theorem chamber_modChamber_other (s : State) {h k : Nat} (f : Chamber → Chamber) (hk : k ≠ h) :
    (s.modChamber h f).chamber k = s.chamber k := by
  unfold State.chamber State.modChamber
  dsimp only
  rw [tmod, tget_tset_other _ _ _ hk]

theorem chamber_congr {s t : State} (h : t.fab.chambers = s.fab.chambers) (k : Nat) : t.chamber k = s.chamber k := by
  unfold State.chamber; rw [h]

section
variable (k : Nat)
@[simp] theorem chamber_event (s : State) (c b a : Nat) (l : List Byte) (t : Option Nat) (q : Bool) :
    (s.event c b a l t q).chamber k = s.chamber k := chamber_congr (by simp) k
@[simp] theorem chamber_finishCmd (s : State) (r i st : Nat) (tk : Bool) (res : List Byte) (n : Nat)
    (pre : Option (Nat × List Byte)) : (s.finishCmd r i st tk res n pre).chamber k = s.chamber k := chamber_congr (by simp) k
@[simp] theorem chamber_fire (s : State) (n d : Nat) (o : Option Nat) : (s.fire n d o).chamber k = s.chamber k := rfl
@[simp] theorem chamber_modCell (s : State) (c : Nat) (f : Cell → Cell) : (s.modCell c f).chamber k = s.chamber k := rfl
@[simp] theorem chamber_addDrip (s : State) (e n : Nat) : (s.addDrip e n).chamber k = s.chamber k := by
  obtain ⟨v, l, hv⟩ := addDrip_counts_only s e n
  rw [hv]; rfl
@[simp] theorem chamber_parkLoop (s : State) (c : Nat) : (s.parkLoop c).chamber k = s.chamber k := rfl
@[simp] theorem chamber_restCell (s : State) (c : Nat) : (s.restCell c).chamber k = s.chamber k := by
  unfold State.restCell; dsimp only; split <;> simp
@[simp] theorem chamber_restChamber (s : State) (h : Nat) : (s.restChamber h).chamber k = s.chamber k :=
  foldl_keeps (·.chamber k) _ _ (fun s c => chamber_restCell k s c) s
@[simp] theorem chamber_leaveCal (s : State) (c st : Nat) (tk : Bool) : (s.leaveCal c st tk).chamber k = s.chamber k := by
  have he : ∀ b, (s.exitCal c b).chamber k = s.chamber k := fun b => by unfold State.exitCal; split <;> rfl
  unfold State.leaveCal
  split
  · rfl
  · dsimp only; split <;> simp [he]
@[simp] theorem chamber_takeUp (s : State) (c : Nat) : (s.takeUp c).chamber k = s.chamber k := by
  unfold State.takeUp; split <;> rfl
@[simp] theorem chamber_takeUpMap (s : State) (m : Nat) (p : Nat → Bool) : (s.takeUpMap m p).chamber k = s.chamber k :=
  foldl_keeps (·.chamber k) _ _ (fun s d => by split <;> simp) s
@[simp] theorem chamber_engineRuns (s : State) (h : Nat) : (s.engineRuns h).chamber k = s.chamber k :=
  foldl_keeps (·.chamber k) _ _ (fun s c => chamber_modCell k s c _) s
@[simp] theorem chamber_stopTrace (s : State) (h : Nat) : (s.stopTrace h).chamber k = s.chamber k := rfl
end

theorem chamber_setPstate_self (s : State) (h : Nat) (p : PState) :
    (s.setPstate h p).chamber h = { s.chamber h with pstate := p } := by
  unfold State.setPstate; dsimp only; split <;> simp

theorem chamber_setPstate_other (s : State) {h k : Nat} (p : PState) (hk : k ≠ h) :
    (s.setPstate h p).chamber k = s.chamber k := by
  unfold State.setPstate; dsimp only; split <;> simp [chamber_modChamber_other _ _ hk]

theorem regs_setPstate (s : State) (h : Nat) (p : PState) : (s.setPstate h p).regs = s.regs := by
  unfold State.setPstate; dsimp only; split <;> simp

theorem loop_setPstate (s : State) (h : Nat) (p : PState) : (s.setPstate h p).loop = s.loop := by
  unfold State.setPstate; dsimp only; split <;> simp

/-! ### Cast-on and the policy of a chamber (R87, R88) -/

/-- The chamber can be cast on now. -/
def State.castable (s : State) (h : Nat) : Bool := s.pstate h = .off && s.mayCast h && !(s.chamber h).resetting

theorem castable_eq_true {s : State} {h : Nat} :
    s.castable h = true ↔ s.pstate h = .off ∧ s.mayCast h = true ∧ (s.chamber h).resetting = false := by
  simp [State.castable, and_assoc]

theorem castable_eq_false {s : State} {h : Nat} :
    s.castable h = false ↔ s.pstate h ≠ .off ∨ s.mayCast h = false ∨ (s.chamber h).resetting = true := by
  rw [← Bool.not_eq_true, castable_eq_true]
  simp only [not_and_or, Bool.not_eq_true, Bool.not_eq_false, ne_eq]

theorem castOn_casts {s : State} {h : Nat} (hc : s.castable h = true) : s.castOn h =
    s.modChamber h fun k => { k with pstate := .castingOn, timer := some (s.now + usC 150), idle := none } := if_pos hc

theorem castOn_stays {s : State} {h : Nat} (hc : s.castable h = false) : s.castOn h = s := if_neg (ne_true_of_eq_false hc)

theorem chamber_castOn_other (s : State) {h k : Nat} (hk : k ≠ h) : (s.castOn h).chamber k = s.chamber k := by
  unfold State.castOn
  split
  · exact chamber_modChamber_other s _ hk
  · rfl

theorem chamber_followPolicy_other (s : State) {h k : Nat} (hk : k ≠ h) : (s.followPolicy h).chamber k = s.chamber k := by
  unfold State.followPolicy
  split
  · rw [chamber_modChamber_other _ _ hk, chamber_castOn_other s hk]
  · split
    · exact chamber_modChamber_other s _ hk
    · rfl

/-- A chamber that is needed and can be cast on is cast on; in any other its state and timer stay. -/
theorem followPolicy_casts {s : State} {h : Nat} (hn : s.needed h = true) (hc : s.castable h = true) :
    (s.followPolicy h).pstate h = .castingOn := by
  unfold State.followPolicy State.pstate
  rw [if_pos hn, chamber_modChamber_self, castOn_casts hc, chamber_modChamber_self]

theorem followPolicy_stays {s : State} {h : Nat} (hc : s.needed h = false ∨ s.castable h = false) :
    (s.followPolicy h).pstate h = s.pstate h ∧ ((s.followPolicy h).chamber h).timer = (s.chamber h).timer := by
  unfold State.followPolicy State.pstate
  split
  next hn =>
    have hn : s.castable h = false := hc.resolve_left (ne_false_of_eq_true hn)
    rw [chamber_modChamber_self, castOn_stays hn]
    exact ⟨rfl, rfl⟩
  next =>
    split
    · rw [chamber_modChamber_self]; exact ⟨rfl, rfl⟩
    · exact ⟨rfl, rfl⟩

theorem resetting_followPolicy (s : State) (h : Nat) : ((s.followPolicy h).chamber h).resetting = (s.chamber h).resetting := by
  have hr : ((s.castOn h).chamber h).resetting = (s.chamber h).resetting := by
    unfold State.castOn
    split
    · rw [chamber_modChamber_self]
    · rfl
  unfold State.followPolicy
  split
  · rw [chamber_modChamber_self]; exact hr
  · split
    · rw [chamber_modChamber_self]
    · rfl

theorem loop_followPolicy (s : State) (h : Nat) : (s.followPolicy h).loop = s.loop := by
  obtain ⟨f, hf⟩ := followPolicy_fab_only s h
  rw [hf]

end Sys2Proof.Machine
end

section
/-! Settling O37: stitches, staging stitches and reverts. -/

namespace Sys2Proof.Machine

/-! ### Counts of elements (R93) -/

theorem drips_addDrip (s : State) (e n : Nat) : (s.addDrip e n).fab.drips = s.countOn e n s.fab.drips := by rw [addDrip_eq]

theorem drip_addDrip_self (s : State) (e n : Nat) : (s.addDrip e n).drip e = min (s.drip e + n) (2 ^ 48 - 1) := by
  unfold State.drip
  rw [drips_addDrip]
  exact tget_tset_self _ _ _ _ rfl

theorem drip_addDrip_other (s : State) {d e : Nat} (n : Nat) (h : d ≠ e) : (s.addDrip e n).drip d = s.drip d := by
  unfold State.drip
  rw [drips_addDrip]
  exact tget_tset_other _ _ _ h

theorem drip_congr {s t : State} (h : t.fab.drips = s.fab.drips) (e : Nat) : t.drip e = s.drip e := by
  unfold State.drip; rw [h]

theorem drips_driftLimit (s : State) (w c : Nat) : (s.driftLimit w c).fab.drips = s.fab.drips := by
  unfold State.driftLimit
  rw [State.fire_fab, event_keeps_fab]
  simp

theorem drips_moveCalHold (s : State) (c : Nat) (x : Bool) (n : Int) : (s.moveCalHold c x n).fab.drips = s.fab.drips := by
  unfold State.moveCalHold
  extract_lets top v w u
  split
  · rfl
  · exact drips_driftLimit u 0 c

/-- The stitch of a cell counts its main element once, and no other. -/
theorem drip_startStitch (s : State) (c : Nat) (x st : Bool) :
    (s.startStitch c x st).drip (2 * c) = min (s.drip (2 * c) + 1) (2 ^ 48 - 1) ∧
    ∀ e, e ≠ 2 * c → (s.startStitch c x st).drip e = s.drip e := by
  have hd : ∀ e, (s.startStitch c x st).drip e = (s.beforeStitch c).drip e := fun e => by
    rw [startStitch_eq, State.drip, fab_traceEvent]; rfl
  have hb : ∃ u : State, s.beforeStitch c = u.addDrip (2 * c) 1 ∧ ∀ e, u.drip e = s.drip e := by
    unfold State.beforeStitch
    refine ⟨_, rfl, fun e => ?_⟩
    split
    · exact drip_congr (drips_moveCalHold ..) e
    · rfl
  obtain ⟨u, hu, hk⟩ := hb
  simp only [hd, hu]
  exact ⟨by rw [drip_addDrip_self, hk], fun e he => by rw [drip_addDrip_other _ _ he, hk]⟩

/-! ### Staging and reverting (R82 to R86) -/

theorem exec_stagingStitch (s : State) (dt : Nat) (c : Fin 2048) :
    exec (.stagingStitch dt c) s = .next ((s.pass dt).stage c.val).finish := rfl
theorem exec_revert (s : State) (dt : Nat) (c : Fin 2048) :
    exec (.revert dt c) s = .next ((s.pass dt).revert c.val).finish := rfl

/-- A cell that may be staged is asked a state by the map. -/
theorem caredState_of_stageable {s : State} {m c : Nat} (h : s.stageable m c = true) : ∃ v, s.caredState m c = some v := by
  cases hv : s.caredState m c with
  | some v => exact ⟨v, rfl⟩
  | none => simp [State.stageable, hv] at h

/-- A cell that is staged keeps the state that it held before (R83). -/
def Cell.stagedAway (x : Cell) : Cell := { x with held := if x.staged then x.held else x.state, staged := true }

/-- A cell that reverts is staged no longer (R85, R86). -/
def Cell.revertsNow (x : Cell) : Cell := { x with staged := false, revertDue := false, reverted := true }

/-- A move of a cell that has left CAL and bears a note of what the move is for touches no other cell. -/
theorem cell_startStitch_noted (s : State) {v : State} {c : Nat} {note : Cell → Cell} (hp : v.plan = s.plan)
    (hv : ∀ d, v.cell d = ((s.leaveCal c 0x24 true).modCell c note).cell d) (x : Bool) :
    (v.startStitch c x true).cell c = (note ((s.leaveCal c 0x24 true).cell c)).stitched s.now s.nt x true ∧
    ∀ d, d ≠ c → (v.startStitch c x true).cell d = s.cell d := by
  refine ⟨by rw [cell_startStitch_self, hv, cell_modCell_self, now_of_plan hp, nt_of_plan hp], fun d hd => ?_⟩
  rw [cell_startStitch_other _ _ _ hd, hv, cell_modCell_other _ _ hd, cell_leaveCal_other _ _ _ hd]

theorem stage_waits {s : State} {c : Nat} (h : ∀ m tc, s.nextChange = some (m, tc, true) → s.stageSpan tc = false ∨
    s.guardRuns = true ∨ s.stageable m c = false ∨ s.frameFree (chamberOf c) = false) : s.stage c = s := by
  unfold State.stage
  split
  next m tc hn =>
    refine if_neg fun hc => ?_
    rcases h m tc hn with h | h | h | h <;> simp [h] at hc
  next => rfl

theorem stage_moves {s : State} {m tc c : Nat} (hn : s.nextChange = some (m, tc, true)) (hs : s.stageSpan tc = true)
    (hg : s.guardRuns = false) (hm : s.stageable m c = true) (hf : s.frameFree (chamberOf c) = true) {v : Bool}
    (hv : s.caredState m c = some v) : s.stage c = ((s.leaveCal c 0x24 true).modCell c Cell.stagedAway).startStitch c v true := by
  unfold State.stage
  rw [hn]
  dsimp only
  rw [if_pos (by simp [hs, hg, hm, hf]), caredState_of_plan (plan_leaveCal ..), hv]
  rfl

theorem revert_waits {s : State} {c : Nat} (h : (s.cell c).revertDue = false ∨ s.pstate (chamberOf c) ≠ .on ∨
    (s.cell c).mode = .trajectory ∨ s.guardRuns = true ∨ s.frameFree (chamberOf c) = false) : s.revert c = s := by
  refine if_neg fun hc => ?_
  rcases h with h | h | h | h | h <;> simp [h] at hc

theorem revert_moves {s : State} {c : Nat} (hr : (s.cell c).revertDue = true) (ho : s.pstate (chamberOf c) = .on)
    (hm : (s.cell c).mode ≠ .trajectory) (hg : s.guardRuns = false) (hf : s.frameFree (chamberOf c) = true) :
    s.revert c = (((s.leaveCal c 0x24 true).modCell c Cell.revertsNow).mark (bar0Size + c) (w32 (2 ^ 19))).startStitch c
        (s.cell c).held true :=
  if_pos (by simp [hr, ho, hm, hg, hf])

/-- Settles O37: a stitch by `cell_startStitch_self` and `drip_startStitch`; a staging stitch and a revert are one too. -/
theorem stitchesStagingAndReverts : Obligations.StitchesStagingAndReverts := by
  unfold Obligations.StitchesStagingAndReverts
  refine ⟨fun s c x st => ?stitch, ?moves⟩
  case stitch =>
    obtain ⟨hd, he⟩ := drip_startStitch s c x st
    rw [cell_startStitch_self]
    exact ⟨rfl, rfl, rfl, rfl, rfl, rfl, hd, he, fun d => cell_startStitch_other s x st⟩
  case moves =>
    rintro s u dt c hu
    rw [exec_stagingStitch, exec_revert, ← hu]
    refine ⟨fun m tc hn hs hg hm hf => ?stages, fun h => by rw [stage_waits h], fun hr ho hm hg hf => ?reverts,
      fun h => by rw [revert_waits h]⟩
    all_goals obtain ⟨hstate, hstaged, hheld⟩ := leaveCal_keeps u c.val 0x24 true
    case stages =>
      obtain ⟨v, hv⟩ := caredState_of_stageable hm
      rw [stage_moves hn hs hg hm hf hv]
      obtain ⟨hc, hd⟩ := cell_startStitch_noted (note := Cell.stagedAway) u
        ((plan_modCell ..).trans (plan_leaveCal ..)) (fun _ => rfl) v
      rw [← hstaged, ← hheld, ← hstate]
      exact ⟨_, rfl, by rw [hc]; rfl, by rw [hc]; rfl, by rw [hc, hv]; rfl, by rw [hc]; rfl, by rw [hc]; rfl, hd⟩
    case reverts =>
      rw [revert_moves hr ho hm hg hf]
      obtain ⟨hc, hd⟩ := cell_startStitch_noted (note := Cell.revertsNow) u
        ((plan_mark ..).trans ((plan_modCell ..).trans (plan_leaveCal ..))) (fun d => cell_mark d ..) (u.cell c.val).held
      exact ⟨_, rfl, by rw [hc]; rfl, by rw [hc]; rfl, by rw [hc]; rfl, by rw [hc]; rfl, by rw [hc]; rfl, by rw [hc]; rfl, hd⟩

end Sys2Proof.Machine
end

section
/-! Settling O27: MAP_APPLY, its preparation and MAP_CANCEL. -/

namespace Sys2Proof.Machine

/-! ### A change in preparation (R70, R73) -/

/-- A change that begins waits with the gates of the lanes it affects held closed, and no map comes in force. -/
theorem beginChange_fields (s : State) (ch : Change) : (s.beginChange ch).plan = State.plan (s.onFab fun f =>
    { f with waiting := f.waiting ++ [{ ch with stage := .prep, gatesShut := BitVec.ofNat 8 (maskOf (s.changeLanes ch.map)) }] }) := by
  unfold State.beginChange
  dsimp only
  rw [plan_followPolicies, plan_freeCells]

/-! ### MAP_APPLY (R90, R209, R283) -/

theorem exec_mapApply (s : State) (r : Fin 16) : exec (.mapApply r) s = .next (s.mapApply r.val).shutGates.finish := rfl
theorem exec_mapApplyPreparation (s : State) (dt : Nat) (r : Fin 16) :
    exec (.mapApplyPreparation dt r) s = .next ((s.pass dt).applyPrep r.val).shutGates.finish := rfl
theorem exec_mapCancel (s : State) (r : Fin 16) : exec (.mapCancel r) s = .next (s.mapCancel r.val).finish := rfl

/-- The change that a MAP_APPLY at the head asks for. -/
def State.applyChange (s : State) (r : Nat) (e : Entry) : Change :=
  { map := lef e.bytes 24 2, prev := s.fab.inForce, src := .apply r e.idx, at_ := timeArg e.bytes 32,
    stale := (s.dir (lef e.bytes 24 2)).state = .stale }

section
variable {s : State} {r : Nat}

theorem mapApply_none (h : s.readyHead r 0x03 = none) : s.mapApply r = s := by rw [State.mapApply, h]

variable {e : Entry} (h : s.readyHead r 0x03 = some e)
include h

theorem mapApply_waits (hm : s.mapRouting (lef e.bytes 24 2) = true) : s.mapApply r = s := by
  rw [State.mapApply, h]; exact if_pos hm

variable (hm : s.mapRouting (lef e.bytes 24 2) = false)
include hm

theorem mapApply_unrouted (hr : s.mapRouted (lef e.bytes 24 2) = false) :
    s.mapApply r = s.finishCmd r e.idx 0x13 false := by
  rw [State.mapApply, h]; dsimp only; rw [hm, hr]; rfl

variable (hr : s.mapRouted (lef e.bytes 24 2) = true)
include hr

theorem mapApply_owned (ho : s.patternOwns = true) : s.mapApply r = s.finishCmd r e.idx 0x15 false := by
  rw [State.mapApply, h]; dsimp only; rw [hm, hr, ho]; rfl

variable (ho : s.patternOwns = false)
include ho

theorem mapApply_badTime (ht : (timeArg e.bytes 32).any s.timeBad = true) : s.mapApply r = s.finishCmd r e.idx 0x08 false := by
  rw [State.mapApply, h]; dsimp only; rw [hm, hr, ho, ht]; rfl

variable (ht : (timeArg e.bytes 32).any s.timeBad = false)
include ht

theorem mapApply_stopped (hs : s.applyMask (lef e.bytes 24 2) ≠ 0) : s.mapApply r =
    s.finishCmd r e.idx 0x17 false (applyRes 0 0 0 0 0 (s.applyMask (lef e.bytes 24 2)) 0) := by
  rw [State.mapApply, h]; dsimp only; rw [hm, hr, ho, ht, if_pos hs]; rfl

variable (hs : s.applyMask (lef e.bytes 24 2) = 0)
include hs

theorem mapApply_timed {t : Nat} (ha : timeArg e.bytes 32 = some t) (hd : s.prepDue t = false) : s.mapApply r =
    (s.begin_ r e.idx).onFab fun f =>
      { f with applies := f.applies ++ [{ ring := r, idx := e.idx, map := lef e.bytes 24 2, time := t }] } := by
  have hw : (s.begin_ r e.idx).prepDue t = false := hd
  rw [State.mapApply, h]; dsimp only; rw [hm, hr, ho, ht, if_neg (not_not.mpr hs), ha]; dsimp only; rw [hw]; rfl

theorem mapApply_begins (hd : ∀ t, timeArg e.bytes 32 = some t → s.prepDue t = true) :
    s.mapApply r = (s.begin_ r e.idx).beginChange (s.applyChange r e) := by
  rw [State.mapApply, h]; dsimp only; rw [hm, hr, ho, ht, if_neg (not_not.mpr hs)]
  unfold State.applyChange
  cases ha : timeArg e.bytes 32 with
  | none => rfl
  | some t =>
    have hw : (s.begin_ r e.idx).prepDue t = true := hd t ha
    dsimp only
    rw [hw]
    rfl
end

/-! ### The preparation of a timed MAP_APPLY (R283) -/

/-- The state without a timed MAP_APPLY. -/
def State.dropApply (s : State) (a : PendApply) : State := s.onFab fun f => { f with applies := f.applies.filter (· ≠ a) }

section
variable {s : State} {r : Nat}

theorem applyPrep_none (h : s.fab.applies.find? (fun a => a.ring = r && s.prepDue a.time) = none) : s.applyPrep r = s := by
  rw [State.applyPrep, h]

variable {a : PendApply} (h : s.fab.applies.find? (fun a => a.ring = r && s.prepDue a.time) = some a)
include h

theorem applyPrep_some : s.applyPrep r =
    if !s.mapRouted a.map then (s.dropApply a).finishCmd r a.idx 0x13 false
    else if (s.dropApply a).applyMask a.map ≠ 0 then
      (s.dropApply a).finishCmd r a.idx 0x17 false (applyRes 0 0 0 0 0 ((s.dropApply a).applyMask a.map) 0)
    else (s.dropApply a).beginChange { map := a.map, prev := s.fab.inForce, src := .apply r a.idx, at_ := some a.time,
                                       stale := (s.dir a.map).state = .stale } := by
  rw [State.applyPrep, h]; rfl

theorem applyPrep_unrouted (hr : s.mapRouted a.map = false) : s.applyPrep r = (s.dropApply a).finishCmd r a.idx 0x13 false := by
  rw [applyPrep_some h, hr]; rfl

variable (hr : s.mapRouted a.map = true)
include hr

theorem applyPrep_stopped (hs : (s.dropApply a).applyMask a.map ≠ 0) : s.applyPrep r =
    (s.dropApply a).finishCmd r a.idx 0x17 false (applyRes 0 0 0 0 0 ((s.dropApply a).applyMask a.map) 0) := by
  rw [applyPrep_some h, hr, if_pos hs]; rfl

theorem applyPrep_begins (hs : (s.dropApply a).applyMask a.map = 0) : s.applyPrep r =
    (s.dropApply a).beginChange { map := a.map, prev := s.fab.inForce, src := .apply r a.idx, at_ := some a.time,
                                  stale := (s.dir a.map).state = .stale } := by
  rw [applyPrep_some h, hr, if_neg (not_not.mpr hs)]; rfl
end

/-! ### MAP_CANCEL (R283) -/

section
variable {s : State} {r : Nat}

theorem mapCancel_none (h : s.readyHead r 0x04 = none) : s.mapCancel r = s := by rw [State.mapCancel, h]

variable {e : Entry} (h : s.readyHead r 0x04 = some e)
include h

theorem mapCancel_nothing (hn : (s.fab.applies.find? fun a =>
    a.ring = byteAt e.bytes 24 && a.idx = lef e.bytes 28 4 && !s.prepDue a.time) = none) :
    s.mapCancel r = s.finishCmd r e.idx 0x0B false := by
  rw [State.mapCancel, h]; dsimp only; rw [hn]

theorem mapCancel_cancels {a : PendApply} (hn : (s.fab.applies.find? fun a =>
    a.ring = byteAt e.bytes 24 && a.idx = lef e.bytes 28 4 && !s.prepDue a.time) = some a) :
    s.mapCancel r = ((s.dropApply a).cancelStaging.finishCmd (byteAt e.bytes 24) (lef e.bytes 28 4) 0x0A false).finishCmd
      r e.idx 0 true := by
  rw [State.mapCancel, h]; dsimp only; rw [hn]; rfl
end

/-- Settles O27, command by command from the lemmas on its head; a change that begins by `beginChange_fields`. -/
theorem applyingAMap : Obligations.ApplyingAMap := by
  unfold Obligations.ApplyingAMap
  refine ⟨fun s r => ⟨fun h => by rw [exec_mapApply, mapApply_none h], fun e h => ⟨fun hm => ?_, fun hm => ?apply⟩⟩,
    fun s u dt r hu => ⟨fun h => ?_, fun a h => ?prepare⟩,
    fun s r => ⟨fun h => by rw [exec_mapCancel, mapCancel_none h], fun e h => ⟨fun hn => ?_, fun a hn => ?_⟩⟩⟩
  · rw [exec_mapApply, mapApply_waits h hm]
  case apply =>
    rw [exec_mapApply]
    refine ⟨fun hr => by rw [mapApply_unrouted h hm hr], fun hr ho => by rw [mapApply_owned h hm hr ho], fun hr ho =>
      ⟨fun ht => by rw [mapApply_badTime h hm hr ho ht], fun ht hs => by rw [mapApply_stopped h hm hr ho ht hs],
       fun t ha ht hs hd => ?_, fun ht hs hd => ?begins⟩⟩
    · rw [mapApply_timed h hm hr ho (by rw [ha, Option.any_some, ht]) hs ha hd]
    case begins =>
      rw [mapApply_begins h hm hr ho ht hs hd]
      have hp := (plan_shutGates _).trans (beginChange_fields (s.begin_ r.val e.idx) (s.applyChange r.val e))
      exact ⟨_, rfl, (inForce_of_plan hp).trans rfl, (waiting_of_plan hp).trans rfl⟩
  · rw [exec_mapApplyPreparation, ← hu, applyPrep_none h]
  case prepare =>
    rw [exec_mapApplyPreparation, ← hu]
    refine ⟨fun hr => by rw [applyPrep_unrouted h hr]; rfl, fun hr hs => by rw [applyPrep_stopped h hr hs]; rfl,
      fun hr hs => ?_⟩
    rw [applyPrep_begins h hr hs]
    have hp := (plan_shutGates _).trans (beginChange_fields (u.dropApply a)
      { map := a.map, prev := u.fab.inForce, src := .apply r.val a.idx, at_ := some a.time,
        stale := (u.dir a.map).state = .stale })
    exact ⟨_, rfl, (inForce_of_plan hp).trans rfl, (applies_of_plan hp).trans rfl, (waiting_of_plan hp).trans rfl⟩
  · rw [exec_mapCancel, mapCancel_nothing h hn]
  · exact ⟨(s.dropApply a).cancelStaging, by rw [exec_mapCancel, mapCancel_cancels h hn], rfl⟩

end Sys2Proof.Machine
end

section
/-! The ends of commands that a stopped chamber holds up (R89, R90), and what they leave of cells and chambers. -/

namespace Sys2Proof.Machine

/-- The state `t` comes from `s` by ends of commands: completions, and a PATTERN_START that is given up with its bank. -/
structure State.Ends (s t : State) : Prop where
  frame : t.frame = { s.frame with sched := t.sched }
  parks : t.parks = s.parks
  relpety : t.flash.relpety = s.flash.relpety

namespace State.Ends

variable {s t u : State}

theorem refl (s : State) : s.Ends s := ⟨rfl, rfl, rfl⟩

theorem trans (h : s.Ends t) (g : t.Ends u) : s.Ends u :=
  ⟨by rw [g.frame, h.frame], g.parks.trans h.parks, g.relpety.trans h.relpety⟩

theorem foldl {α : Type} (l : List α) {f : State → α → State} (h : ∀ (s : State) a, s.Ends (f s a)) (s : State) :
    s.Ends (l.foldl f s) := by
  induction l generalizing s with
  | nil => exact refl s
  | cons a l ih => exact (h s a).trans (ih _)

theorem fab (h : s.Ends t) : t.fab = s.fab := by have := congrArg State.fab h.frame; exact this
theorem loop (h : s.Ends t) : t.loop = s.loop := by have := congrArg State.loop h.frame; exact this
theorem regs (h : s.Ends t) : t.regs = s.regs := by have := congrArg State.regs h.frame; exact this
theorem time (h : s.Ends t) : t.time = s.time := by have := congrArg State.time h.frame; exact this

/-- What is then set in the fabric alike stays alike. -/
theorem onFab (h : s.Ends t) (f : Fabric → Fabric) : (s.onFab f).Ends (t.onFab f) := by
  refine ⟨?_, h.parks, h.relpety⟩
  rw [show (t.onFab f).frame = { t.frame with fab := f t.fab } from rfl, h.frame, h.fab]
  rfl

theorem plan (h : s.Ends t) : t.plan = { s.plan with sched := t.sched } := by
  have hr := h.relpety
  have hp := h.parks
  simp only [State.parks, Prod.mk.injEq] at hp
  obtain ⟨hp, ha⟩ := hp
  unfold State.plan
  rw [h.frame, hr, hp, ha, h.time, h.loop, h.fab]

end State.Ends

theorem ends_finishCmd (s : State) (r i st : Nat) (tk : Bool) (res : List Byte) (k : Nat)
    (pre : Option (Nat × List Byte)) : s.Ends (s.finishCmd r i st tk res k pre) := by
  have hf := frame_finishCmd s r i st tk res k pre
  exact ⟨by rw [hf, of_frame_sched hf]; rfl, parks_finishCmd .., (reports_finishCmd ..).relpety⟩

theorem ends_endUnstarted (s : State) (ch : Change) (st mask : Nat) : s.Ends (s.endUnstarted ch st mask) := by
  unfold State.endUnstarted
  split
  · exact ends_finishCmd ..
  · split
    · refine .trans ?_ (ends_finishCmd ..)
      exact ⟨rfl, rfl, rfl⟩
    · exact .refl s
  · exact .refl s

theorem ends_dropWaiting (s : State) (p : Change → Bool) (st : Nat) (m : Change → Nat) :
    (s.onFab fun f => { f with waiting := f.waiting.filter fun ch => !p ch }).Ends (s.dropWaiting p st m) :=
  .foldl _ (fun _ _ => ends_endUnstarted ..) _

/-- The fabric without the changes of commands and the timed applies whose map `p` picks. -/
def Fabric.without (f : Fabric) (p : Nat → Bool) : Fabric :=
  { f with waiting := f.waiting.filter fun ch => !(ch.ofCommand && p ch.map), applies := f.applies.filter fun a => !p a.map }

theorem without_chambers (f : Fabric) (p : Nat → Bool) : (f.without p).chambers = f.chambers := rfl

theorem ends_dropUnstarted (s : State) (p : Nat → Bool) (st mask : Nat) :
    (s.onFab (·.without p)).Ends (s.dropUnstarted p st mask) := by
  have h := (ends_dropWaiting s (fun ch => ch.ofCommand && p ch.map) st fun _ => mask).onFab fun f =>
    { f with applies := f.applies.filter fun a => !p a.map }
  exact .trans h (.foldl _ (fun _ _ => ends_finishCmd ..) _)

theorem ends_stopHeads (s : State) (h : Nat) : s.Ends (s.stopHeads h) := by
  refine .foldl _ (fun s r => ?_) s
  split
  · exact ends_finishCmd ..
  · exact .refl s

/-- The calibrations of a chamber's cells end. -/
def State.endCals (s : State) (h : Nat) (tk : Bool) : State := (cellsOf h).foldl (fun s c => s.leaveCal c 0x17 tk) s

theorem ends_refuseCommands (s : State) (h : Nat) (tk : Bool) :
    ∃ p, ((s.endCals h tk).onFab (·.without p)).Ends (s.refuseCommands h tk) :=
  ⟨_, (ends_dropUnstarted ..).trans (ends_stopHeads ..)⟩

/-! ### What they leave -/

theorem endCals_none {s : State} {h : Nat} (hc : ∀ c, chamberOf c = h → (s.cell c).cal = none) (tk : Bool) :
    s.endCals h tk = s := by
  unfold State.endCals
  suffices ∀ l : List Nat, (∀ c ∈ l, chamberOf c = h) → l.foldl (fun s c => s.leaveCal c 0x17 tk) s = s from
    this _ fun c => mem_cellsOf.mp
  intro l hl
  induction l with
  | nil => rfl
  | cons c l ih =>
    rw [List.foldl_cons, leaveCal_none (hc c (hl c List.mem_cons_self))]
    exact ih fun d hd => hl d (List.mem_cons_of_mem _ hd)

theorem plan_endCals (s : State) (h : Nat) (tk : Bool) : (s.endCals h tk).plan = s.plan :=
  plan_foldl _ (fun _ _ => plan_leaveCal ..) s

theorem chamber_endCals (s : State) (h : Nat) (tk : Bool) (k : Nat) : (s.endCals h tk).chamber k = s.chamber k :=
  foldl_keeps (·.chamber k) _ _ (fun _ _ => chamber_leaveCal ..) s

theorem regs_leaveCal (s : State) (c st : Nat) (tk : Bool) : (s.leaveCal c st tk).regs = s.regs := by
  have he : ∀ b, (s.exitCal c b).regs = s.regs := fun b => by unfold State.exitCal; split <;> rfl
  unfold State.leaveCal
  split
  · rfl
  · dsimp only; split <;> simp [he]

theorem regs_endCals (s : State) (h : Nat) (tk : Bool) : (s.endCals h tk).regs = s.regs :=
  foldl_keeps State.regs _ _ (fun _ _ => regs_leaveCal ..) s

section
variable (s : State) (h : Nat) (tk : Bool)

theorem now_refuseCommands : (s.refuseCommands h tk).now = s.now := by
  obtain ⟨p, hp⟩ := ends_refuseCommands s h tk
  unfold State.now
  rw [hp.time, State.onFab_time]
  exact now_of_plan (plan_endCals s h tk)

theorem regs_refuseCommands : (s.refuseCommands h tk).regs = s.regs := by
  obtain ⟨p, hp⟩ := ends_refuseCommands s h tk
  rw [hp.regs, State.onFab_regs, regs_endCals]

theorem parks_refuseCommands : (s.refuseCommands h tk).parks = s.parks := by
  obtain ⟨p, hp⟩ := ends_refuseCommands s h tk
  rw [hp.parks, parks_onFab, parks_of_plan (plan_endCals s h tk)]

theorem chamber_refuseCommands (k : Nat) : (s.refuseCommands h tk).chamber k = s.chamber k := by
  obtain ⟨p, hp⟩ := ends_refuseCommands s h tk
  rw [← chamber_endCals s h tk k]
  exact chamber_congr (by rw [hp.fab, State.onFab_fab, without_chambers]) k

theorem loop_refuseCommands (hc : ∀ c, chamberOf c = h → (s.cell c).cal = none) : (s.refuseCommands h tk).loop = s.loop := by
  obtain ⟨p, hp⟩ := ends_refuseCommands s h tk
  rw [hp.loop, State.onFab_loop, endCals_none hc]
end

theorem onFab_change_self (s : State) : s.onFab (fun f => { f with change := s.fab.change }) = s := rfl

/-- A running change that a stopped chamber is part of reports it, and nothing else of the fabric changes with that. -/
theorem stopCommands_change (s : State) (h : Nat) : ∃ c, s.stopCommands h =
    (s.refuseCommands h true).onFab fun f => { f with change := c } := by
  unfold State.stopCommands
  dsimp only
  split
  next ch hc =>
    split
    · exact ⟨_, rfl⟩
    · exact ⟨_, (onFab_change_self _).symm⟩
  · exact ⟨_, (onFab_change_self _).symm⟩

end Sys2Proof.Machine
end

section
/-! Settling O38: loss, reset and return of a chamber's engine. -/

namespace Sys2Proof.Machine

/-! ### Analog hold (R91, R397) -/

theorem State.onFab_change_chambers (s : State) (c : Option Change) :
    (s.onFab fun f => { f with change := c }).fab.chambers = s.fab.chambers := rfl

theorem now_stopCommands (s : State) (h : Nat) : (s.stopCommands h).now = s.now := by
  obtain ⟨c, hc⟩ := stopCommands_change s h
  rw [hc]; unfold State.now; rw [State.onFab_time]; exact now_refuseCommands s h true

theorem parks_stopCommands (s : State) (h : Nat) : (s.stopCommands h).parks = s.parks := by
  obtain ⟨c, hc⟩ := stopCommands_change s h
  rw [hc, parks_onFab, parks_refuseCommands]

theorem chamber_stopCommands (s : State) (h k : Nat) : (s.stopCommands h).chamber k = s.chamber k := by
  obtain ⟨c, hc⟩ := stopCommands_change s h
  rw [hc, ← chamber_refuseCommands s h true k]
  exact chamber_congr (State.onFab_change_chambers ..) k

/-- The engine of the chamber is subject to a loss or a reset. -/
def State.holdable (s : State) (h : Nat) : Bool :=
  !(s.pstate h = .off || s.parked h || s.pstate h = .hold || s.pstate h = .reset || (s.chamber h).resetting)

theorem holdable_eq_true {s : State} {h : Nat} (hp : s.pstate h = .on ∨ s.pstate h = .castingOn ∨ s.pstate h = .bindingOff)
    (hk : s.parked h = false) (hr : (s.chamber h).resetting = false) : s.holdable h = true := by
  rcases hp with hp | hp | hp <;> simp [State.holdable, hp, hk, hr]

theorem holdable_eq_false {s : State} {h : Nat} (hn : s.pstate h = .off ∨ s.pstate h = .hold ∨ s.pstate h = .reset ∨
    s.parked h = true ∨ (s.chamber h).resetting = true) : s.holdable h = false := by
  rcases hn with hn | hn | hn | hn | hn <;> simp [State.holdable, hn]

theorem holdable_congr {s t : State} {h : Nat} (hc : t.chamber h = s.chamber h) (hp : t.parks = s.parks) :
    t.holdable h = s.holdable h := by
  have hk : t.parked h = s.parked h := congrArg (fun p => p.1.getLsbD h) hp
  unfold State.holdable State.pstate
  rw [hc, hk]

theorem engineHold_stays {s : State} {h : Nat} (hn : s.holdable h = false) : s.engineHold h = s := by
  refine if_pos ?_
  simpa only [State.holdable, Bool.not_eq_false'] using hn

/-- The chamber's commands end and its drivers keep their output. -/
def State.frozen (s : State) (h : Nat) : State := (cellsOf h).foldl State.freezeDrive (s.stopCommands h)

theorem engineHold_holds {s : State} {h : Nat} (hn : s.holdable h = true) : s.engineHold h =
    (((s.frozen h).modChamber h fun k => { k with timer := some ((s.frozen h).now + msC 2), resetting := true, idle := none,
                                                  casting := decide (k.pstate = .castingOn) }).setPstate h .hold).stopTrace h := by
  refine if_neg ?_
  simpa only [State.holdable, Bool.not_eq_true'] using ne_true_of_eq_false (Bool.not_eq_true' _ ▸ hn)

theorem plan_frozen (s : State) (h : Nat) : (s.frozen h).plan = (s.stopCommands h).plan :=
  plan_foldl _ (fun _ _ => plan_modCell ..) _

theorem chamber_frozen (s : State) (h k : Nat) : (s.frozen h).chamber k = s.chamber k :=
  (foldl_keeps (·.chamber k) _ _ (fun _ _ => chamber_modCell ..) _).trans (chamber_stopCommands ..)

theorem now_frozen (s : State) (h : Nat) : (s.frozen h).now = s.now :=
  (now_of_plan (plan_frozen s h)).trans (now_stopCommands s h)

theorem parks_frozen (s : State) (h : Nat) : (s.frozen h).parks = s.parks :=
  (parks_of_plan (plan_frozen s h)).trans (parks_stopCommands s h)

/-- The chamber is on analog hold until the raw count `n`, its reset incomplete. -/
def State.heldUntil (s : State) (h n : Nat) : Prop :=
  s.pstate h = .hold ∧ (s.chamber h).resetting = true ∧ (s.chamber h).timer = some n

theorem heldUntil_engineHold {s : State} {h : Nat} (hn : s.holdable h = true) : (s.engineHold h).heldUntil h (s.now + msC 2) := by
  have hc : (s.engineHold h).chamber h = { s.chamber h with
      pstate := .hold, timer := some (s.now + msC 2), resetting := true, idle := none,
      casting := decide ((s.chamber h).pstate = .castingOn) } := by
    rw [engineHold_holds hn, chamber_stopTrace, chamber_setPstate_self, chamber_modChamber_self, chamber_frozen, now_frozen]
  unfold State.heldUntil State.pstate
  rw [hc]
  exact ⟨rfl, rfl, rfl⟩

/-- A loss or reset of one engine leaves the other chambers, the parks and the time. -/
theorem engineHold_others (s : State) (h : Nat) : (∀ k, k ≠ h → (s.engineHold h).chamber k = s.chamber k) ∧
    (s.engineHold h).parks = s.parks ∧ (s.engineHold h).now = s.now := by
  cases hn : s.holdable h with
  | false => rw [engineHold_stays hn]; exact ⟨fun _ _ => rfl, rfl, rfl⟩
  | true =>
    rw [engineHold_holds hn]
    refine ⟨fun k hk => ?_, ?_, ?_⟩
    · rw [chamber_stopTrace, chamber_setPstate_other _ _ hk, chamber_modChamber_other _ _ hk, chamber_frozen]
    · exact (parks_of_plan ((plan_stopTrace ..).trans ((plan_setPstate ..).trans (plan_modChamber ..)))).trans (parks_frozen s h)
    · exact (now_of_plan ((plan_stopTrace ..).trans ((plan_setPstate ..).trans (plan_modChamber ..)))).trans (now_frozen s h)

/-! ### SYS_CHRST (R397) -/

/-- Between the chambers of a mask: those still to come are as they were. -/
structure State.Resets (s t : State) (h : Nat) : Prop where
  parks : t.parks = s.parks
  now : t.now = s.now
  chamber : t.chamber h = s.chamber h ∨ (s.holdable h = true ∧ t.heldUntil h (s.now + msC 2))

theorem State.Resets.engineHold {s t : State} {h : Nat} (hr : s.Resets t h) (k : Nat) : s.Resets (t.engineHold k) h := by
  obtain ⟨ho, hp, hn⟩ := engineHold_others t k
  refine ⟨hp.trans hr.parks, hn.trans hr.now, ?_⟩
  by_cases hk : h = k
  · subst hk
    cases hd : t.holdable h with
    | false => rw [engineHold_stays hd]; exact hr.chamber
    | true =>
      rcases hr.chamber with hc | ⟨hc, hh⟩
      · exact .inr ⟨(holdable_congr hc hr.parks).symm.trans hd, hr.now ▸ heldUntil_engineHold hd⟩
      · rw [holdable_eq_false (.inr (.inl hh.1))] at hd; exact absurd hd Bool.false_ne_true
  · rcases hr.chamber with hc | ⟨hc, hh⟩
    · exact .inl ((ho h hk).trans hc)
    · refine .inr ⟨hc, ?_⟩
      unfold State.heldUntil State.pstate at *
      rw [ho h hk]; exact hh

theorem resets_foldl (s : State) (h : Nat) (l : List Nat) : s.Resets (l.foldl State.engineHold s) h :=
  foldl_holds l (P := fun t => s.Resets t h) (fun _ k ht => ht.engineHold k) s ⟨rfl, rfl, .inl rfl⟩

theorem foldl_engineHold_holds {s : State} {h : Nat} {l : List Nat} (hl : h ∈ l) (hn : s.holdable h = true) :
    (l.foldl State.engineHold s).heldUntil h (s.now + msC 2) := by
  refine foldl_reaches l (I := fun t => s.Resets t h) (P := fun t => t.heldUntil h (s.now + msC 2)) hl
    (fun _ k ht => ht.engineHold k) (fun t ht => ?_) (fun t k _ hh => ?_) s ⟨rfl, rfl, .inl rfl⟩
  · rcases ht.chamber with hc | ⟨_, hh⟩
    · exact ht.now ▸ heldUntil_engineHold ((holdable_congr hc ht.parks).trans hn)
    · rw [engineHold_stays (holdable_eq_false (.inr (.inl hh.1)))]; exact hh
  · by_cases hk : h = k
    · subst hk
      rw [engineHold_stays (holdable_eq_false (.inr (.inl hh.1)))]; exact hh
    · unfold State.heldUntil State.pstate at *
      rw [(engineHold_others t k).1 h hk]; exact hh

theorem foldl_engineHold_stays {s : State} {h : Nat} {l : List Nat} (hn : h ∉ l ∨ s.holdable h = false) :
    (l.foldl State.engineHold s).chamber h = s.chamber h := by
  rcases hn with hl | hn
  · induction l generalizing s with
    | nil => rfl
    | cons k l ih =>
      rw [List.mem_cons, not_or] at hl
      rw [List.foldl_cons, ih hl.2, (engineHold_others s k).1 h hl.1]
  · rcases (resets_foldl s h l).chamber with hc | ⟨hc, _⟩
    · exact hc
    · rw [hn] at hc; exact absurd hc Bool.false_ne_true

theorem exec_chamberReset (s : State) (m : Word) : exec (.chamberReset m) s = .next (s.onHost fun s => s.writeChrst m) := rfl

/-- The state in which a granted write of SYS_CHRST finds the chambers. -/
def State.chrstNoted (s : State) (m : Word) : State :=
  s.recordOrHold (s.writeEntry (Reg.sysChrst.addr 0) (s.readWord .sysChrst 0 0) m) true

theorem writeChrst_granted {s : State} (h : s.grantOk = true) (m : Word) : s.writeChrst m =
    ((maskList m.toNat 32).foldl State.engineHold (s.chrstNoted m)).irqPulse 87 := by
  rw [State.writeChrst, protWrite_granted h]; rfl

theorem chrstNoted_same (s : State) (m : Word) (h : Nat) :
    (s.chrstNoted m).chamber h = s.chamber h ∧ (s.chrstNoted m).parks = s.parks ∧ (s.chrstNoted m).now = s.now := by
  unfold State.chrstNoted
  exact ⟨chamber_congr (by simp) h, parks_recordOrHold .., by simp [State.now]⟩

/-! ### The end of a hold, and the return of an engine (R91, R120) -/

theorem exec_engineLoss (s : State) (dt : Nat) (h : Fin 32) :
    exec (.engineLoss dt h) s = .next ((s.pass dt).engineHold h.val).finish := rfl
theorem exec_analogHoldExpiry (s : State) (dt : Nat) (h : Fin 32) :
    exec (.analogHoldExpiry dt h) s = .next ((s.pass dt).holdExpires h.val).finish := rfl
theorem exec_chamberResetComplete (s : State) (dt : Nat) (h : Fin 32) :
    exec (.chamberResetComplete dt h) s = .next ((s.pass dt).chamberBack h.val).finish := rfl

theorem holdExpires_waits {s : State} {h : Nat} (hn : s.pstate h ≠ .hold ∨ s.expired (s.chamber h).timer = false) :
    s.holdExpires h = s := by
  refine if_neg fun hc => ?_
  rcases hn with hn | hn <;> simp [hn] at hc

/-- The chamber at rest in reset. -/
def State.released (s : State) (h : Nat) : State :=
  ((s.restChamber h).setPstate h .reset).modChamber h fun k => { k with timer := none }

theorem rests_released {s : State} {h c : Nat} (hc : chamberOf c = h) : ((s.released h).cell c).rests := by
  unfold State.released
  rw [cell_modChamber, cell_setPstate]
  exact rests_restChamber hc

theorem holdExpires_fields {s : State} {h : Nat} (hp : s.pstate h = .hold) (ht : s.expired (s.chamber h).timer = true) :
    (s.holdExpires h).pstate h = .reset ∧ ((s.holdExpires h).chamber h).timer = none ∧
    (∃ q ∈ (s.holdExpires h).flt.fireQ, q.src = h) ∧ ∀ c, chamberOf c = h → ((s.holdExpires h).cell c).rests := by
  have he : s.holdExpires h = ((s.released h).refuseCommands h true).fire h 0 (some h) :=
    if_pos (by rw [hp, ht]; rfl)
  have hc : (s.holdExpires h).chamber h = { s.chamber h with pstate := .reset, timer := none } := by
    rw [he, chamber_fire, chamber_refuseCommands, State.released, chamber_modChamber_self, chamber_setPstate_self,
      chamber_restChamber]
  unfold State.pstate
  rw [hc, he]
  refine ⟨rfl, rfl, ⟨_, List.mem_append_right _ (List.mem_singleton_self _), rfl⟩, fun c hch => ?_⟩
  rw [cell_fire, cell_congr (loop_refuseCommands _ h true fun d hd => (rests_released hd).2.2.2)]
  exact rests_released hch

theorem chamberBack_idle {s : State} {h : Nat} (hr : (s.chamber h).resetting = false) : s.chamberBack h = s := by
  unfold State.chamberBack; rw [hr]; rfl

/-- The chamber after its reset, before its state follows. -/
def State.engineBack (s : State) (h : Nat) : State :=
  s.modChamber h fun k => { k with resetting := false, timer := none, casting := false }

/-- The chamber ON again, its cells resumed (R120). -/
def State.resumed (s : State) (h : Nat) : State :=
  (((cellsOf h).foldl State.resumeCell (s.engineBack h)).setPstate h .on).engineRuns h

theorem chamberBack_held {s : State} {h : Nat} (hr : (s.chamber h).resetting = true) (hp : s.pstate h = .hold) :
    ∃ t : State, s.chamberBack h = t.followPolicy h ∧ (t = s.resumed h ∨ ∃ m p, t = (s.resumed h).takeUpMap m p) := by
  refine ⟨match (s.resumed h).fab.inForce with
    | some m => if (s.chamber h).casting then (s.resumed h).takeUpMap m fun k => k = h else s.resumed h
    | none => s.resumed h, ?_, ?_⟩
  · unfold State.chamberBack; rw [hr, hp]; rfl
  · split
    · split
      · exact .inr ⟨_, _, rfl⟩
      · exact .inl rfl
    · exact .inl rfl

theorem chamberBack_reset {s : State} {h : Nat} (hr : (s.chamber h).resetting = true) (hp : s.pstate h = .reset) :
    s.chamberBack h = ((s.engineBack h).setPstate h .off).followPolicy h := by
  unfold State.chamberBack; rw [hr, hp]; rfl

theorem chamberBack_down {s : State} {h : Nat} (hr : (s.chamber h).resetting = true) (hh : s.pstate h ≠ .hold)
    (hs : s.pstate h ≠ .reset) :
    s.chamberBack h = s.modChamber h fun k => { k with resetting := false, casting := false } := by
  unfold State.chamberBack
  rw [hr, Bool.not_true, if_neg Bool.false_ne_true]
  dsimp only
  split
  next he => exact absurd he hh
  next he => exact absurd he hs
  next => rfl

/-- A cell resumed in HOLD-POSITION, its position to be measured. -/
def Cell.resumed (x : Cell) : Prop :=
  x.mode = .holdPosition ∧ x.cal = none ∧ x.o.trim = 0 ∧ x.m.resume.isSome = true

theorem Cell.resumed.takes {x : Cell} (hx : x.resumed) : x.takeM.takeO.takeB.resumed := by
  obtain ⟨hm, hc, ho, hr⟩ := hx
  refine ⟨hm, hc, ho, ?_⟩
  change (if x.mNext = x.midx then x.m else x.m.clearOd).resume.isSome = true
  split <;> exact hr

theorem resumed_resumeCell {s : State} {c : Nat} (hm : (s.cell c).mode ≠ .park) : ((s.resumeCell c).cell c).resumed := by
  unfold State.resumeCell
  rw [cell_modCell_self, if_neg hm]
  exact ⟨rfl, rfl, rfl, rfl⟩

theorem cell_resumeCell_other (s : State) {c d : Nat} (hd : d ≠ c) : (s.resumeCell c).cell d = s.cell d :=
  cell_modCell_other s _ hd

theorem driven_resumeCell {s : State} {c d : Nat} (hm : (s.cell c).mode ≠ .park) : ((s.resumeCell d).cell c).mode ≠ .park := by
  by_cases hd : c = d
  · subst hd
    rw [(resumed_resumeCell hm).1]; decide
  · rw [cell_resumeCell_other s hd]; exact hm

theorem resumed_foldl {s : State} {c h : Nat} (hc : chamberOf c = h) (hm : (s.cell c).mode ≠ .park) :
    (((cellsOf h).foldl State.resumeCell s).cell c).resumed := by
  have hk : ∀ (s : State) d, (s.cell c).mode ≠ .park → ((s.resumeCell d).cell c).mode ≠ .park := fun _ _ => driven_resumeCell
  refine foldl_reaches (cellsOf h) (I := fun s => (s.cell c).mode ≠ .park) (P := fun s => (s.cell c).resumed)
    (mem_cellsOf.mpr hc) hk (fun _ => resumed_resumeCell) (fun s d hm hr => ?_) s hm
  by_cases hd : c = d
  · subst hd; exact resumed_resumeCell hm
  · rw [cell_resumeCell_other s hd]; exact hr

theorem resumed_engineRuns {s : State} {c : Nat} (hr : (s.cell c).resumed) (h : Nat) : ((s.engineRuns h).cell c).resumed := by
  refine foldl_holds _ (P := fun s => (s.cell c).resumed) (fun s d hr => ?_) s hr
  by_cases hd : c = d
  · subst hd; rw [cell_modCell_self]; exact hr.takes
  · rw [cell_modCell_other _ _ hd]; exact hr

theorem resumed_takeUpMap {s : State} {c : Nat} (hr : (s.cell c).resumed) (m : Nat) (p : Nat → Bool) :
    ((s.takeUpMap m p).cell c).resumed := by
  refine foldl_holds _ (P := fun s => (s.cell c).resumed) (fun s d hr => ?_) s hr
  split
  · rw [cell_takeUp_driven (by rw [hr.1]; decide)]; exact hr
  · exact hr

theorem resumed_resumed {s : State} {c h : Nat} (hc : chamberOf c = h) (hm : (s.cell c).mode ≠ .park) :
    ((s.resumed h).cell c).resumed := by
  refine resumed_engineRuns ?_ h
  rw [cell_setPstate]
  exact resumed_foldl hc ((cell_modChamber c s h _).symm ▸ hm)

theorem chamber_foldl_resumeCell (s : State) (l : List Nat) (h : Nat) :
    (l.foldl State.resumeCell s).chamber h = s.chamber h :=
  foldl_keeps (·.chamber h) _ _ (fun _ _ => chamber_modCell ..) s

theorem chamber_resumed (s : State) (h : Nat) : (s.resumed h).chamber h =
    { s.chamber h with pstate := .on, resetting := false, timer := none, casting := false } := by
  rw [State.resumed, chamber_engineRuns, chamber_setPstate_self,
    chamber_foldl_resumeCell, State.engineBack, chamber_modChamber_self]

theorem chamberBack_held_fields {s : State} {h : Nat} (hr : (s.chamber h).resetting = true) (hp : s.pstate h = .hold) :
    (s.chamberBack h).pstate h = .on ∧ ((s.chamberBack h).chamber h).resetting = false ∧
    ((s.chamberBack h).chamber h).timer = none ∧
    ∀ c, chamberOf c = h → (s.cell c).mode ≠ .park → ((s.chamberBack h).cell c).resumed := by
  have hf : ∀ t : State, t.chamber h = (s.resumed h).chamber h → (t.followPolicy h).pstate h = .on ∧
      ((t.followPolicy h).chamber h).resetting = false ∧ ((t.followPolicy h).chamber h).timer = none := fun t ht => by
    rw [chamber_resumed] at ht
    have hp : t.pstate h = .on := congrArg Chamber.pstate ht
    have hk : t.castable h = false := castable_eq_false.mpr (.inl (by rw [hp]; decide))
    obtain ⟨hs, hi⟩ := followPolicy_stays (.inr hk)
    exact ⟨hs.trans hp, (resetting_followPolicy t h).trans (congrArg Chamber.resetting ht), hi.trans (congrArg Chamber.timer ht)⟩
  obtain ⟨t, he, rfl | ⟨m, p, rfl⟩⟩ := chamberBack_held hr hp <;> rw [he]
  · obtain ⟨h1, h2, h3⟩ := hf _ rfl
    exact ⟨h1, h2, h3, fun c hc hm => by rw [cell_followPolicy]; exact resumed_resumed hc hm⟩
  · obtain ⟨h1, h2, h3⟩ := hf _ (chamber_takeUpMap h _ m p)
    exact ⟨h1, h2, h3, fun c hc hm => by rw [cell_followPolicy]; exact resumed_takeUpMap (resumed_resumed hc hm) m p⟩

/-- A chamber that reads OFF follows its policy. -/
theorem followPolicy_off {s : State} {h : Nat} (hp : s.pstate h = .off) : (s.followPolicy h).pstate h =
    if s.needed h && s.mayCast h && !(s.chamber h).resetting then .castingOn else .off := by
  have hk : s.castable h = (s.mayCast h && !(s.chamber h).resetting) := by simp [State.castable, hp]
  split
  next hc =>
    rw [Bool.and_assoc, ← hk, Bool.and_eq_true] at hc
    exact followPolicy_casts hc.1 hc.2
  next hc =>
    rw [Bool.and_assoc, ← hk, Bool.and_eq_true, not_and_or, Bool.not_eq_true, Bool.not_eq_true] at hc
    exact (followPolicy_stays hc).1.trans hp

theorem chamberBack_reset_fields {s : State} {h : Nat} (hr : (s.chamber h).resetting = true) (hp : s.pstate h = .reset) :
    ((s.chamberBack h).chamber h).resetting = false ∧ (s.chamberBack h).loop = s.loop ∧
    (s.chamberBack h).pstate h = if s.needed h && s.mayCast h then .castingOn else .off := by
  rw [chamberBack_reset hr hp]
  set t := (s.engineBack h).setPstate h .off with ht
  have hc : t.chamber h = { s.chamber h with pstate := .off, resetting := false, timer := none, casting := false } := by
    rw [ht, chamber_setPstate_self, State.engineBack, chamber_modChamber_self]
  obtain ⟨_, hm, hn⟩ := policies_of_plan ((plan_setPstate ..).trans (plan_modChamber ..) : t.plan = s.plan) (regs_setPstate ..) h
  refine ⟨(resetting_followPolicy t h).trans (congrArg Chamber.resetting hc), ?_, ?_⟩
  · rw [loop_followPolicy, ht, loop_setPstate]; rfl
  · rw [followPolicy_off (congrArg Chamber.pstate hc), hm, hn, hc, Bool.not_false, Bool.and_true]

theorem chamberBack_down_fields {s : State} {h : Nat} (hr : (s.chamber h).resetting = true) (hh : s.pstate h ≠ .hold)
    (hs : s.pstate h ≠ .reset) :
    (s.chamberBack h).pstate h = s.pstate h ∧ ((s.chamberBack h).chamber h).resetting = false ∧
    (s.chamberBack h).loop = s.loop := by
  rw [chamberBack_down hr hh hs]
  unfold State.pstate
  rw [chamber_modChamber_self]
  exact ⟨rfl, rfl, rfl⟩

/-! ### The obligation -/

/-- The chambers after a granted write of SYS_CHRST. -/
theorem writeChrst_chambers {s : State} (hg : s.grantOk = true) (m : Word) (h : Nat) :
    (m.getLsbD h = true → s.holdable h = true → (s.writeChrst m).heldUntil h (s.now + msC 2)) ∧
    (m.getLsbD h = false ∨ s.holdable h = false → (s.writeChrst m).chamber h = s.chamber h) := by
  obtain ⟨hc, hp, hn⟩ := chrstNoted_same s m h
  have hd := holdable_congr hc hp
  have he : (s.writeChrst m).chamber h = ((maskList m.toNat 32).foldl State.engineHold (s.chrstNoted m)).chamber h := by
    rw [writeChrst_granted hg]; exact chamber_congr (by rw [State.irqPulse_fab]) h
  refine ⟨fun hm hs => ?_, fun hs => ?_⟩
  · unfold State.heldUntil State.pstate
    rw [he]
    exact hn ▸ foldl_engineHold_holds ((mem_maskList_word).mpr hm) (hd.trans hs)
  · rw [he, ← hc]
    refine foldl_engineHold_stays (hs.imp (fun hm hl => ?_) hd.trans)
    have := (mem_maskList_word).mp hl
    simp [bit, hm] at this

/-- Settles O38, by what the loss of one engine makes of its chamber and leaves of the others. -/
theorem engineLossAndReset : Obligations.EngineLossAndReset := by
  unfold Obligations.EngineLossAndReset
  refine ⟨fun s h => ⟨fun hp hk hr => heldUntil_engineHold (holdable_eq_true hp hk hr),
    fun hn => engineHold_stays (holdable_eq_false hn), (engineHold_others s h).1⟩, fun s m hu hg => ?_, fun s u dt h hu => ?_⟩
  · refine ⟨s.writeChrst m, by rw [exec_chamberReset, onHost_up hu], fun h _ => ?_⟩
    obtain ⟨hy, hn⟩ := writeChrst_chambers hg m h
    exact ⟨fun hm hp hk hr => hy hm (holdable_eq_true hp hk hr), fun hs => hn (hs.imp_right holdable_eq_false)⟩
  · subst hu
    refine ⟨exec_engineLoss .., fun hp ht => ?_, fun hn => ?_, fun hr => ?_, fun hr => ⟨fun hp => ?_, fun hp => ?_, fun hh hs => ?_⟩⟩
    · obtain ⟨h1, h2, h3, h4⟩ := holdExpires_fields hp ht
      exact ⟨_, exec_analogHoldExpiry .., h1, h2, h3, fun c _ hc => ⟨(h4 c hc).1, (h4 c hc).2.1⟩⟩
    · rw [exec_analogHoldExpiry, holdExpires_waits hn]
    · rw [exec_chamberResetComplete, chamberBack_idle hr]
    · obtain ⟨h1, h2, h3, h4⟩ := chamberBack_held_fields hr hp
      exact ⟨_, exec_chamberResetComplete .., h1, h2, h3, fun c _ hc hm => h4 c hc hm⟩
    · exact ⟨_, exec_chamberResetComplete .., chamberBack_reset_fields hr hp⟩
    · exact ⟨_, exec_chamberResetComplete .., chamberBack_down_fields hr hh hs⟩

end Sys2Proof.Machine
end

section
/-! Settling O35: cast-on, bind-off and the power policy. -/

namespace Sys2Proof.Machine

/-! ### A protected register written under a grant (R327) -/

/-- The state `u` in which the action of a granted write to a protected register finds the machine: the register holds
its new value, and else only reports changed. -/
structure State.Grants (s : State) (r : Reg) (i : Nat) (v : Word) (u : State) : Prop where
  rg : u.rg r i = s.written r i 0 v
  frame : u.frame = { s.frame with regs := u.regs }

namespace State.Grants

variable {s u : State} {r : Reg} {i : Nat} {v : Word} (h : s.Grants r i v u)
include h

theorem loop : u.loop = s.loop := by have := congrArg State.loop h.frame; exact this
theorem fab : u.fab = s.fab := by have := congrArg State.fab h.frame; exact this
theorem time : u.time = s.time := by have := congrArg State.time h.frame; exact this
theorem now : u.now = s.now := by unfold State.now; rw [h.time]
theorem cell (c : Nat) : u.cell c = s.cell c := cell_congr h.loop c
theorem chamber (k : Nat) : u.chamber k = s.chamber k := chamber_congr (congrArg Fabric.chambers h.fab) k
end State.Grants

theorem grants_putReg (s : State) (e : AuditEntry) (r : Reg) (i : Nat) (v : Word) :
    s.Grants r i v ((s.recordOrHold e true).putReg r i 0 v) where
  rg := by
    rw [rg_putReg_self]
    exact written_congr (recordOrHold_keeps_regs ..) (recordOrHold_marks ..)
      (congrArg TimeUnit.raw (recordOrHold_keeps_time ..)) ..
  frame := by rw [frame_putReg, recordOrHold_frame]

/-- Under a grant the action is performed on the written register, and then the source of R330 pulses. -/
theorem protReg_acts {s : State} (h : s.grantOk = true) (r : Reg) (i : Nat) (v : Word) (act : State → State) :
    ∃ u, s.Grants r i v u ∧ s.protReg r i v act = (act u).irqPulse 87 :=
  ⟨_, grants_putReg s _ r i v, by rw [State.protReg, protWrite_granted h]⟩

/-! ### Cast-on (R87, R118) -/

theorem exec_castOnOrder (s : State) (dt : Nat) : exec (.castOnOrder dt) s = .next (s.pass dt).castOrder.finish := rfl
theorem exec_castOnComplete (s : State) (dt : Nat) (h : Fin 32) :
    exec (.castOnComplete dt h) s = .next ((s.pass dt).castDone h.val).finish := rfl
theorem exec_bindOff (s : State) (dt : Nat) (h : Fin 32) :
    exec (.bindOff dt h) s = .next ((s.pass dt).bindOff h.val).finish := rfl
theorem exec_bindOffComplete (s : State) (dt : Nat) (h : Fin 32) :
    exec (.bindOffComplete dt h) s = .next ((s.pass dt).bindOffDone h.val).finish := rfl
theorem exec_fabChCtrlWrite (s : State) (h : Fin 32) (v : Word) :
    exec (.fabChCtrlWrite h v) s = .next (s.onHost fun s => s.writeChCtrl h.val v) := rfl

theorem loop_castOn (s : State) (h : Nat) : (s.castOn h).loop = s.loop := by
  unfold State.castOn; split <;> rfl

theorem castOn_castable {s : State} {h : Nat} (hc : s.castable h = true) :
    (s.castOn h).pstate h = .castingOn ∧ ((s.castOn h).chamber h).timer = some (s.now + usC 150) := by
  unfold State.pstate
  rw [castOn_casts hc, chamber_modChamber_self]
  exact ⟨rfl, rfl⟩

theorem castOrder_none {s : State} (hn : s.castNext = none) : s.castOrder = s := by unfold State.castOrder; rw [hn]

section
variable {s : State} {b k tc : Nat} (hn : s.castNext = some (b, k, tc))
include hn

theorem castOrder_waits (hw : s.quiet = true ∨ s.dueNt (tc - 200000 * 65536) = false) : s.castOrder = s := by
  unfold State.castOrder
  rw [hn]
  exact if_pos (by rcases hw with hw | hw <;> simp [hw])

theorem castOrder_orders (hq : s.quiet = false) (hd : s.dueNt (tc - 200000 * 65536) = true) : s.castOrder =
    (s.onFab fun f => { f with casts := f.casts ++ [(b, k, tc)] }).castFor (imgChg (s.bankImg b) k).map := by
  unfold State.castOrder
  rw [hn]
  exact if_neg (by simp [hq, hd])
end

/-- The chamber ON with its timer stopped and its engine running. -/
def State.castEnds (s : State) (h : Nat) : State :=
  ((s.setPstate h .on).modChamber h fun k => { k with timer := none }).engineRuns h

/-- What the take-up adds to the end of cast-on. -/
def State.castTaken (s : State) (h : Nat) : State :=
  match s.fab.inForce with
  | some m => s.takeUpMap m fun k => k = h
  | none => s

theorem castDone_waits {s : State} {h : Nat} (hw : s.pstate h ≠ .castingOn ∨ s.expired (s.chamber h).timer = false) :
    s.castDone h = s := by
  refine if_neg fun hc => ?_
  rcases hw with hw | hw <;> simp [hw] at hc

theorem castDone_ends {s : State} {h : Nat} (hp : s.pstate h = .castingOn) (ht : s.expired (s.chamber h).timer = true) :
    s.castDone h = ((s.castEnds h).castTaken h).followPolicy h := if_pos (by rw [hp, ht]; rfl)

theorem plan_castEnds (s : State) (h : Nat) : (s.castEnds h).plan = s.plan :=
  (plan_engineRuns ..).trans ((plan_modChamber ..).trans (plan_setPstate ..))

theorem plan_castTaken (s : State) (h : Nat) : (s.castTaken h).plan = s.plan := by
  unfold State.castTaken; split <;> simp

theorem chamber_castEnds_self (s : State) (h : Nat) :
    (s.castEnds h).chamber h = { s.chamber h with pstate := .on, timer := none } := by
  rw [State.castEnds, chamber_engineRuns, chamber_modChamber_self, chamber_setPstate_self]

theorem chamber_castEnds_other (s : State) {h k : Nat} (hk : k ≠ h) : (s.castEnds h).chamber k = s.chamber k := by
  rw [State.castEnds, chamber_engineRuns, chamber_modChamber_other _ _ hk, chamber_setPstate_other _ _ hk]

theorem chamber_castTaken (s : State) (h k : Nat) : (s.castTaken h).chamber k = s.chamber k := by
  unfold State.castTaken; split <;> simp

theorem mode_engineRuns (s : State) (h c : Nat) : ((s.engineRuns h).cell c).mode = (s.cell c).mode := by
  refine foldl_keeps (fun s => (s.cell c).mode) _ _ (fun s d => ?_) s
  by_cases hd : c = d
  · subst hd; rw [cell_modCell_self]; rfl
  · rw [cell_modCell_other _ _ hd]

theorem mode_castEnds (s : State) (h c : Nat) : ((s.castEnds h).cell c).mode = (s.cell c).mode := by
  rw [State.castEnds, mode_engineRuns, cell_modChamber, cell_setPstate]

/-- A cell in BAR that is held. -/
def Cell.takenUp (x : Cell) : Prop := x.mode = .holdPosition ∧ x.pos = .bar

/-- The take-up of a map reaches each of its BAR cells that is in PARK in an ON chamber it is to reach (R118 row 8). -/
theorem takenUp_takeUpMap {s : State} {m c : Nat} {p : Nat → Bool} (hc : (c, false) ∈ s.caredCells m)
    (hp : p (chamberOf c) = true) (hs : s.pstate (chamberOf c) = .on) (hd : s.darkOnly c = false) (hm : (s.cell c).mode = .park) :
    ((s.takeUpMap m p).cell c).takenUp := by
  have hi : ∀ (t : State) (d : Nat), (t.takeUp d).pstate (chamberOf c) = t.pstate (chamberOf c) := fun t d =>
    congrArg Chamber.pstate (chamber_takeUp _ t d)
  have ht : ∀ (t : State), (t.darkOnly c = false ∧ t.pstate (chamberOf c) = .on) → ∀ d,
      (t.takeUp d).darkOnly c = false ∧ (t.takeUp d).pstate (chamberOf c) = .on := fun t ht d =>
    ⟨(darkOnly_of_plan (plan_takeUp t d) c).trans ht.1, (hi t d).trans ht.2⟩
  have hk : ∀ (t : State) (d : Nat), (t.cell c).mode = .park ∨ (t.cell c).takenUp → t.darkOnly c = false →
      ((t.takeUp d).cell c).mode = .park ∨ ((t.takeUp d).cell c).takenUp := fun t d h hd => by
    by_cases he : c = d
    · subst he
      rcases h with h | h
      · exact .inr (takeUp_held h hd)
      · rw [cell_takeUp_driven (by rw [h.1]; decide)]; exact .inr h
    · rw [cell_takeUp_other t he]; exact h
  refine foldl_reaches (s.caredCells m)
    (I := fun t => (t.darkOnly c = false ∧ t.pstate (chamberOf c) = .on) ∧ ((t.cell c).mode = .park ∨ (t.cell c).takenUp))
    (P := fun t => (t.cell c).takenUp) hc (fun t d h => ?_) (fun t h => ?_) (fun t d _ h => ?_) s ⟨⟨hd, hs⟩, .inl hm⟩
  · split
    · exact ⟨ht t h.1 d.1, hk t d.1 h.2 h.1.1⟩
    · exact h
  · rw [if_pos (by simp [hp, h.1.2])]
    rcases h.2 with hp | hp
    · exact takeUp_held hp h.1.1
    · rw [cell_takeUp_driven (by rw [hp.1]; decide)]; exact hp
  · split
    · rw [cell_takeUp_driven (by rw [h.1]; decide)]; exact h
    · exact h

theorem castDone_fields {s : State} {h : Nat} (hp : s.pstate h = .castingOn) (ht : s.expired (s.chamber h).timer = true) :
    (s.castDone h).pstate h = .on ∧ ((s.castDone h).chamber h).timer = none ∧
    (∀ k, k ≠ h → (s.castDone h).chamber k = s.chamber k) ∧ (s.castDone h).plan = s.plan := by
  rw [castDone_ends hp ht]
  have hc : ((s.castEnds h).castTaken h).chamber h = { s.chamber h with pstate := .on, timer := none } :=
    (chamber_castTaken ..).trans (chamber_castEnds_self ..)
  have hs := congrArg Chamber.pstate hc
  obtain ⟨h1, h2⟩ := followPolicy_stays (s := (s.castEnds h).castTaken h) (h := h)
    (.inr (castable_eq_false.mpr (.inl fun ho => PState.noConfusion (hs.symm.trans ho))))
  refine ⟨h1.trans hs, h2.trans (congrArg Chamber.timer hc), fun k hk => ?_, ?_⟩
  · rw [chamber_followPolicy_other _ hk, chamber_castTaken, chamber_castEnds_other _ hk]
  · rw [plan_followPolicy, plan_castTaken, plan_castEnds]

theorem takenUp_castDone {s : State} {h m c : Nat} (hp : s.pstate h = .castingOn) (ht : s.expired (s.chamber h).timer = true)
    (hf : s.fab.inForce = some m) (hc : (c, false) ∈ s.caredCells m) (hh : chamberOf c = h) (hd : s.darkOnly c = false)
    (hm : (s.cell c).mode = .park) : ((s.castDone h).cell c).takenUp := by
  have hl := plan_castEnds s h
  rw [castDone_ends hp ht, cell_followPolicy, State.castTaken, inForce_of_plan hl, hf]
  refine takenUp_takeUpMap ((caredCells_of_plan hl m).symm ▸ hc) (decide_eq_true hh) ?_ ((darkOnly_of_plan hl c).trans hd)
    ((mode_castEnds ..).trans hm)
  rw [hh]
  exact congrArg Chamber.pstate (chamber_castEnds_self s h)

/-! ### Bind-off (R87 to R89, R119) -/

theorem bindOff_stays {s : State} {h : Nat} (hn : s.pstate h ≠ .on ∨ s.mayBindOff h = false ∨ s.involved h = true) :
    s.bindOff h = s := by
  refine if_neg fun hc => ?_
  rcases hn with hn | hn | hn <;> simp [hn] at hc

theorem bindOff_binds {s : State} {h : Nat} (hp : s.pstate h = .on) (hm : s.mayBindOff h = true) (hi : s.involved h = false) :
    s.bindOff h = s.bindOffChamber h 50 := if_pos (by rw [hp, hm, hi]; rfl)

theorem chamber_bindOffChamber_self (s : State) (h us : Nat) : (s.bindOffChamber h us).chamber h =
    { s.chamber h with pstate := .bindingOff, timer := some (s.now + usC us), idle := none } := by
  rw [State.bindOffChamber, chamber_stopTrace, chamber_modChamber_self, chamber_restChamber]

theorem chamber_bindOffChamber_other (s : State) {h k : Nat} (us : Nat) (hk : k ≠ h) :
    (s.bindOffChamber h us).chamber k = s.chamber k := by
  rw [State.bindOffChamber, chamber_stopTrace, chamber_modChamber_other _ _ hk, chamber_restChamber]

theorem cell_bindOffChamber (s : State) (h us c : Nat) : (s.bindOffChamber h us).cell c = (s.restChamber h).cell c := by
  rw [State.bindOffChamber, cell_stopTrace, cell_modChamber]

theorem bindOffDone_waits {s : State} {h : Nat} (hw : s.pstate h ≠ .bindingOff ∨ s.expired (s.chamber h).timer = false) :
    s.bindOffDone h = s := by
  refine if_neg fun hc => ?_
  rcases hw with hw | hw <;> simp [hw] at hc

/-- The chamber OFF with its timer stopped. -/
def State.boundOff (s : State) (h : Nat) : State := (s.setPstate h .off).modChamber h fun k => { k with timer := none }

theorem chamber_boundOff (s : State) (h : Nat) :
    (s.boundOff h).chamber h = { s.chamber h with pstate := .off, timer := none } := by
  rw [State.boundOff, chamber_modChamber_self, chamber_setPstate_self]

theorem policies_boundOff (s : State) (h k : Nat) : (s.boundOff h).policy k = s.policy k ∧
    (s.boundOff h).mayCast k = s.mayCast k ∧ (s.boundOff h).needed k = s.needed k :=
  policies_of_plan ((plan_modChamber ..).trans (plan_setPstate ..)) (regs_setPstate ..) k

theorem bindOffDone_fields {s : State} {h : Nat} (hp : s.pstate h = .bindingOff) (ht : s.expired (s.chamber h).timer = true) :
    (s.bindOffDone h).loop = s.loop ∧ (s.bindOffDone h).pstate h =
      if s.needed h && s.mayCast h && !(s.chamber h).resetting then .castingOn else .off := by
  have hc := chamber_boundOff s h
  obtain ⟨_, hm, hn⟩ := policies_boundOff s h h
  rw [show s.bindOffDone h = (s.boundOff h).followPolicy h from if_pos (by rw [hp, ht]; rfl),
    followPolicy_off (congrArg Chamber.pstate hc), hm, hn, hc, loop_followPolicy]
  exact ⟨loop_setPstate .., rfl⟩

/-! ### The policy (R88, R89) -/

theorem regs_followPolicy (s : State) (h : Nat) : (s.followPolicy h).regs = s.regs := by
  obtain ⟨f, hf⟩ := followPolicy_fab_only s h
  rw [hf]

theorem mayCast_followPolicy (s : State) (h k : Nat) : (s.followPolicy h).mayCast k = s.mayCast k :=
  (policies_of_plan (plan_followPolicy s h) (regs_followPolicy s h) k).2.1

theorem mayCast_irqPulse (s : State) (n k : Nat) : (s.irqPulse n).mayCast k = s.mayCast k := by
  unfold State.mayCast State.parked State.policy State.rf State.rg
  simp

/-- A new policy is followed in a state with the same registers and chambers, but for the hold of the old one. -/
theorem newPolicy_follows (s : State) (h : Nat) : ∃ u : State, s.newPolicy h = u.followPolicy h ∧ u.regs = s.regs ∧
    u.pstate h = s.pstate h ∧ (u.chamber h).resetting = (s.chamber h).resetting := by
  have hf : ∀ w : State, w.regs = s.regs → w.chamber h = s.chamber h →
      ∃ u : State, (w.modChamber h fun k => { k with idle := none }).followPolicy h = u.followPolicy h ∧ u.regs = s.regs ∧
        u.pstate h = s.pstate h ∧ (u.chamber h).resetting = (s.chamber h).resetting := fun w hr hc => by
    refine ⟨_, rfl, hr, ?_⟩
    unfold State.pstate
    rw [chamber_modChamber_self, hc]
    exact ⟨rfl, rfl⟩
  unfold State.newPolicy
  dsimp only
  split
  · exact hf _ (regs_refuseCommands ..) (chamber_refuseCommands ..)
  · exact hf s rfl rfl

theorem needed_forced {s : State} {h : Nat} (hp : s.policy h = 2) : s.needed h = true := by unfold State.needed; rw [hp]; rfl

theorem writeChCtrl_fields {s : State} (hg : s.grantOk = true) (h : Nat) (v : Word) :
    (s.writeChCtrl h v).rg .fabChCtrl h = s.written .fabChCtrl h 0 v ∧
    ((s.writeChCtrl h v).policy h = 2 → s.pstate h = .off → (s.chamber h).resetting = false →
      (s.writeChCtrl h v).mayCast h = true → (s.writeChCtrl h v).pstate h = .castingOn) := by
  obtain ⟨u, hu, he⟩ := protReg_acts hg .fabChCtrl h v fun s => s.newPolicy h
  obtain ⟨w, hw, hr, hp, hs⟩ := newPolicy_follows u h
  have hq : (s.writeChCtrl h v).regs = w.regs := by
    rw [State.writeChCtrl, he, State.irqPulse_regs, hw, regs_followPolicy]
  refine ⟨(rg_congr (hq.trans hr) ..).trans hu.rg, fun hf ho hz hm => ?_⟩
  rw [State.writeChCtrl, he, mayCast_irqPulse, hw, mayCast_followPolicy] at hm
  have hn : w.policy h = 2 := by rw [← hf]; unfold State.policy State.rf; rw [rg_congr hq]
  have hc : w.castable h = true := castable_eq_true.mpr ⟨?_, hm, hs.trans ((congrArg Chamber.resetting (hu.chamber h)).trans hz)⟩
  · have := followPolicy_casts (needed_forced hn) hc
    rw [← hw] at this
    rw [← this, State.writeChCtrl, he]
    exact congrArg Chamber.pstate (chamber_congr (by rw [State.irqPulse_fab]) h)
  · exact hp.trans ((congrArg Chamber.pstate (hu.chamber h)).trans ho)

/-! ### The obligation -/

/-- Settles O35, by the chamber that each of its operations leaves. -/
theorem chambersCastOnAndBindOff : Obligations.ChambersCastOnAndBindOff := by
  unfold Obligations.ChambersCastOnAndBindOff
  refine ⟨fun s h => ⟨loop_castOn s h, sched_of_plan (plan_castOn s h), fun k hk => chamber_castOn_other s hk,
    fun hp hm hr => castOn_castable (castable_eq_true.mpr ⟨hp, hm, hr⟩), fun hn => castOn_stays (castable_eq_false.mpr hn)⟩,
    fun s u dt hu => ?_, fun s h v hh hg => ?_⟩
  · subst hu
    refine ⟨fun hn => by rw [exec_castOnOrder, castOrder_none hn], fun b k tc hn => ⟨fun hw => ?_, fun hq hd => ?_⟩,
      fun h => ⟨fun hp ht => ?_, fun hn => ?_, fun hp hm hi => ?_, fun hn => ?_, fun hp ht => ?_, fun hn => ?_⟩⟩
    · rw [exec_castOnOrder, castOrder_waits hn hw]
    · rw [exec_castOnOrder, castOrder_orders hn hq hd]
    · obtain ⟨h1, h2, h3, h4⟩ := castDone_fields hp ht
      exact ⟨_, exec_castOnComplete .., h1, h2, h3, sched_of_plan h4, inForce_of_plan h4,
        fun m c hf hc hh hd hm => takenUp_castDone hp ht hf hc hh hd hm⟩
    · rw [exec_castOnComplete, castDone_waits hn]
    · have hc := chamber_bindOffChamber_self (s.pass dt) h.val 50
      refine ⟨_, by rw [exec_bindOff, bindOff_binds hp hm hi], congrArg Chamber.pstate hc, congrArg Chamber.timer hc,
        fun k hk => chamber_bindOffChamber_other _ 50 hk, fun c _ => ⟨fun hh => ?_, fun hh => ?_⟩⟩
      · rw [cell_bindOffChamber]
        obtain ⟨h1, h2, h3, _⟩ := rests_restChamber (s := s.pass dt) hh
        exact ⟨h1, h2, h3⟩
      · rw [cell_bindOffChamber, cell_restChamber_other hh]
    · rw [exec_bindOff, bindOff_stays hn]
    · exact ⟨_, exec_bindOffComplete .., bindOffDone_fields hp ht⟩
    · rw [exec_bindOffComplete, bindOffDone_waits hn]
  · exact ⟨_, by rw [exec_fabChCtrlWrite, onHost_up hh], writeChCtrl_fields hg h v⟩

end Sys2Proof.Machine
end

section
/-! Settling O40: dropped stitches and their recovery limit. -/

namespace Sys2Proof.Machine

theorem exec_droppedStitch (s : State) (dt : Nat) (c : Fin 2048) :
    exec (.droppedStitch dt c) s = .next ((s.pass dt).dropStitch c.val).finish := rfl
theorem exec_settleTimeout (s : State) (dt : Nat) (c : Fin 2048) :
    exec (.settleTimeout dt c) s = .next ((s.pass dt).settleTimeout c.val).finish := rfl

/-! ### Records of stitches (R160, R161) -/

theorem spool_only (s : State) (y h i n : Nat) (d : List Byte) : ∃ l q k m, s.spool y h i n d =
    s.onFab fun f => { f with spool := l, spoolSeq := q, spoolDrops := k, dropsUnmarked := m } := by
  unfold State.spool
  by_cases hr : s.fab.spool.length < spoolSize
  · exact ⟨_, _, s.fab.spoolDrops, s.fab.dropsUnmarked, congrArg (fun f => { s with fab := f }) (if_pos hr)⟩
  · exact ⟨s.fab.spool, _, _, _, congrArg (fun f => { s with fab := f }) (if_neg hr)⟩

/-- A stitch record changes the spool alone. -/
theorem stitchRec_only (s : State) (c o : Nat) : ∃ l q k m, s.stitchRec c o =
    s.onFab fun f => { f with spool := l, spoolSeq := q, spoolDrops := k, dropsUnmarked := m } := by
  unfold State.stitchRec
  split
  · exact ⟨_, _, _, _, rfl⟩
  · exact spool_only ..

theorem cell_stitchRec (s : State) (c o d : Nat) : (s.stitchRec c o).cell d = s.cell d := by
  obtain ⟨l, q, k, m, h⟩ := stitchRec_only s c o
  rw [h]; rfl

theorem flt_stitchRec (s : State) (c o : Nat) : (s.stitchRec c o).flt = s.flt := by
  obtain ⟨l, q, k, m, h⟩ := stitchRec_only s c o
  rw [h]; rfl

theorem change_stitchRec (s : State) (c o : Nat) : (s.stitchRec c o).fab.change = s.fab.change := by
  obtain ⟨l, q, k, m, h⟩ := stitchRec_only s c o
  rw [h]; rfl

/-! ### A drop (R78, R79) -/

/-- A change counts a dropped cell of its own once, a staging move never. -/
def Change.countDrop (ch : Change) (c : Nat) (staging : Bool) : Change :=
  if !staging && c ∈ ch.cells && !(c ∈ ch.dropped) then { ch with dropped := ch.dropped ++ [c] } else ch

theorem mem_countDrop {ch : Change} {c : Nat} (h : c ∈ ch.cells) : c ∈ (ch.countDrop c false).dropped := by
  unfold Change.countDrop
  split
  · exact List.mem_append_right _ (List.mem_singleton_self c)
  next hn => simpa [h] using hn

/-- The cell is marked DROPPED. -/
def State.markDrop (s : State) (c : Nat) : State :=
  (s.modCell c fun x =>
    { x with dropped := true, failDue := decide (4 ≤ (x.hist.filter (·.1)).length) }).mark (bar0Size + c) (w32 (2 ^ 20))

/-- The changes count the dropped cell. -/
def State.noteDrop (s : State) (c : Nat) : State :=
  s.onFab fun f =>
    { f with change := f.change.map fun ch => if ch.stage = .started then ch.countDrop c (s.cell c).stageMove else ch,
             verify := f.verify.map fun ch => ch.countDrop c (s.cell c).stageMove }

theorem drop_eq (s : State) (c o : Nat) : s.drop c o =
    ((((s.markDrop c).noteDrop c).fire 48 c (some (chamberOf c))).traceEvent (chamberOf c) 3).stitchRec c o := rfl

theorem cell_drop_self (s : State) (c o : Nat) : (s.drop c o).cell c =
    { s.cell c with dropped := true, failDue := decide (4 ≤ ((s.cell c).hist.filter (·.1)).length) } := by
  rw [drop_eq, cell_stitchRec, cell_traceEvent, cell_fire, State.noteDrop, cell_onFab, State.markDrop, cell_mark, cell_modCell_self]

theorem cell_drop_other (s : State) {c d : Nat} (o : Nat) (h : d ≠ c) : (s.drop c o).cell d = s.cell d := by
  rw [drop_eq, cell_stitchRec, cell_traceEvent, cell_fire, State.noteDrop, cell_onFab, State.markDrop, cell_mark,
    cell_modCell_other _ _ h]

theorem drop_fires (s : State) (c o : Nat) : ∃ q ∈ (s.drop c o).flt.fireQ, q.src = 48 ∧ q.detail = c := by
  rw [drop_eq, flt_stitchRec, flt_traceEvent]
  exact ⟨_, List.mem_append_right _ (List.mem_singleton_self _), rfl, rfl⟩

theorem fab_markDrop (s : State) (c : Nat) : (s.markDrop c).fab = s.fab := by simp [State.markDrop]

theorem change_drop {s : State} {c : Nat} {ch : Change} (o : Nat) (hc : s.fab.change = some ch) (hs : ch.stage = .started)
    (hm : (s.cell c).stageMove = false) : (s.drop c o).fab.change = some (ch.countDrop c false) := by
  have hn : ((s.markDrop c).cell c).stageMove = false := by
    rw [State.markDrop, cell_mark, cell_modCell_self]; exact hm
  rw [drop_eq, change_stitchRec, fab_traceEvent]
  change ((s.markDrop c).fab.change.map _) = _
  rw [fab_markDrop, hc, Option.map_some, if_pos hs, hn]

/-! ### The deadline, and a deferral that runs out (R78, R122, R123) -/

/-- A stitch that has not settled by its deadline. -/
def State.overdue (s : State) (c : Nat) : Bool :=
  (s.cell c).stitching && decide ((s.cell c).stitchRaw + nsC s.settleNs ≤ s.now)

/-- A deferral in which eight checks were refused. -/
def Cell.worn (x : Cell) : Bool := x.o.defer && decide (8 ≤ x.o.deferCnt)

theorem dropStitch_stays {s : State} {c : Nat}
    (h : s.pstate (chamberOf c) ≠ .on ∨ (s.overdue c = false ∧ (s.cell c).worn = false)) : s.dropStitch c = s := by
  by_cases hp : s.pstate (chamberOf c) = .on
  · obtain ⟨ho, hw⟩ := h.resolve_left (not_not_intro hp)
    exact (if_neg (not_not_intro hp)).trans
      ((if_neg (ne_true_of_eq_false ho)).trans (if_neg (ne_true_of_eq_false hw)))
  · exact if_pos hp

section
variable {s : State} {c : Nat} (hp : s.pstate (chamberOf c) = .on)
include hp

theorem dropStitch_late (ho : s.overdue c = true) : s.dropStitch c = (s.modCell c fun x =>
    { x with stitching := false, recovering := true, hist := addOutcome x.hist true x.state }).drop c 1 :=
  (if_neg (not_not_intro hp)).trans (if_pos ho)

theorem dropStitch_worn (ho : s.overdue c = false) (hw : (s.cell c).worn = true) : s.dropStitch c = (s.modCell c fun x =>
    { x with hist := addOutcome (x.hist.drop 1) true x.state,
             o := { x.o with defer := false, deferCnt := 0, retry := some 1024 } }).drop c 2 :=
  (if_neg (not_not_intro hp)).trans ((if_neg (ne_true_of_eq_false ho)).trans (if_pos hw))
end

/-! ### The end of a stitch (R78, R114, R118) -/

/-- A cell whose stitch ended, held at `r`. -/
def Cell.ended (x : Cell) (now c : Nat) (r : Int) : Cell :=
  { x.leave now .holdPosition with
    stitching := false, recovering := false,
    m := { x.m.clearOd with r := r, rampStart := false, settle := 0, stayed := false },
    b := { x.b with bal := relBal c x.state } }

theorem cell_endStitch_self (s : State) (c : Nat) :
    (s.endStitch c).cell c = (s.cell c).ended s.now c (s.calHold c (s.cell c).state) := by
  unfold State.endStitch
  rw [cell_endInvolved, cell_modCell_self]
  rfl

theorem cell_endStitch_other (s : State) {c d : Nat} (h : d ≠ c) : (s.endStitch c).cell d = s.cell d := by
  unfold State.endStitch
  rw [cell_endInvolved, cell_modCell_other _ _ h]

/-- 8 µs after its start a dropped stitch has not settled. -/
def State.outOfTime (s : State) (c : Nat) : Bool :=
  s.pstate (chamberOf c) = .on && (s.cell c).recovering && (s.cell c).mode = .trajectory &&
    (s.cell c).stitchRaw + nsC 8000 ≤ s.now

theorem settleTimeout_stays {s : State} {c : Nat} (h : s.outOfTime c = false) : s.settleTimeout c = s :=
  if_neg (ne_true_of_eq_false h)

theorem settleTimeout_ends {s : State} {c : Nat} (h : s.outOfTime c = true) : s.settleTimeout c =
    (s.endStitch c).modCell c fun y => { y with timedOut := true, m := { y.m with late := (s.cell c).m.settle } } := if_pos h

/-! ### The obligation -/

/-- Settles O40, by the cell that a drop and the end of a stitch leave. -/
theorem droppedStitches : Obligations.DroppedStitches := by
  unfold Obligations.DroppedStitches
  intro s u dt c hu
  subst hu
  refine ⟨fun hp => ⟨fun hs hl => ?_, fun ho hw => ?_, fun hr hm ht => ?_⟩, fun h => ?_, fun h => ?_⟩
  · have ho : (s.pass dt).overdue c.val = true := by unfold State.overdue; rw [hs, hl]; rfl
    refine ⟨_, by rw [exec_droppedStitch, dropStitch_late hp ho], ?_⟩
    rw [cell_drop_self, cell_modCell_self]
    refine ⟨rfl, rfl, rfl, rfl, rfl, drop_fires .., fun d hd => ?_, fun ch hc hst hin hsm => ?_⟩
    · rw [cell_drop_other _ _ hd, cell_modCell_other _ _ hd]
    · exact ⟨_, change_drop _ hc hst (by rw [cell_modCell_self]; exact hsm), mem_countDrop hin⟩
  · refine ⟨_, by rw [exec_droppedStitch, dropStitch_worn hp ho hw], ?_⟩
    rw [cell_drop_self, cell_modCell_self]
    refine ⟨rfl, rfl, rfl, rfl, drop_fires .., fun d hd => ?_⟩
    rw [cell_drop_other _ _ hd, cell_modCell_other _ _ hd]
  · have ho : (s.pass dt).outOfTime c.val = true := by simp [State.outOfTime, hp, hr, hm, ht]
    refine ⟨_, by rw [exec_settleTimeout, settleTimeout_ends ho], ?_⟩
    rw [cell_modCell_self, cell_endStitch_self]
    refine ⟨rfl, rfl, rfl, rfl, rfl, fun d hd => ?_⟩
    rw [cell_modCell_other _ _ hd, cell_endStitch_other _ hd]
  · rw [exec_droppedStitch, dropStitch_stays h]
  · refine congrArg (fun t => Host.Outcome.next t.finish) (settleTimeout_stays ?_)
    rcases h with h | h | h | h
    · simp [State.outOfTime, h]
    · simp [State.outOfTime, h]
    · simp [State.outOfTime, h]
    · simp [State.outOfTime, Nat.not_le.mpr h]

end Sys2Proof.Machine
end

section
/-! Settling O45: polarity reversal, wear levels and rates, and summaries. -/

namespace Sys2Proof.Machine

theorem exec_polarityReversal (s : State) (dt : Nat) (e : Fin 4096) :
    exec (.polarityReversal dt e) s = .next ((s.pass dt).reversePol e.val).finish := rfl
theorem exec_fabPolCfgWrite (s : State) (v : Word) :
    exec (.fabPolCfgWrite v) s = .next (s.onHost fun s => s.writePolCfg v) := rfl
theorem exec_wearLevel (s : State) (e : Fin 4096) : exec (.wearLevel e) s = .next (s.wearLevel e.val).finish := rfl
theorem exec_wearRate (s : State) (dt : Nat) (e : Fin 4096) :
    exec (.wearRate dt e) s = .next ((s.pass dt).wearRate e.val).finish := rfl
theorem exec_wearSummary (s : State) (dt : Nat) : exec (.wearSummary dt) s = .next (s.pass dt).summaryDue.finish := rfl
theorem exec_wearSummaryNow (s : State) (v : Word) :
    exec (.wearSummaryNow v) s = .next (s.onHost fun s => s.writeWearSumCfg v) := rfl
theorem exec_fabDripSel (s : State) (v : Word) :
    exec (.fabDripSel v) s = .next (s.onHost fun s => s.writeDripSel v) := rfl

/-! ### The fold at the end of a polarity interval (R145) -/

theorem cell_moveHoldDrive (s : State) (c : Nat) (x : Bool) (n : Int) (d : Nat) : (s.moveHoldDrive c x n).1.cell d = s.cell d := by
  unfold State.moveHoldDrive
  extract_lets top v w u
  split
  · rfl
  · exact cell_driftLimit ..

theorem drips_moveHoldDrive (s : State) (c : Nat) (x : Bool) (n : Int) : (s.moveHoldDrive c x n).1.fab.drips = s.fab.drips := by
  unfold State.moveHoldDrive
  extract_lets top v w u
  split
  · rfl
  · exact drips_driftLimit u 1 c

/-- Of the cell, a fold changes the integrator alone. It is unfolded as the function `F`: unfolded in place, the kernel
would compare it by evaluating the hold drive. -/
theorem fold_eq {F : State → Nat → State} (hF : F = State.fold) (s : State) (c : Nat) : ∃ (x : Bool) (n i : Int),
    F s c = (s.moveHoldDrive c x n).1.modCell c fun x => { x with m := { x.m with integ := i } } := by
  delta State.fold at hF
  subst hF
  beta_reduce
  extract_lets x p d
  refine ⟨x.state, d, ?_⟩
  generalize s.moveHoldDrive c x.state d = q
  obtain ⟨u, n⟩ := q
  exact ⟨_, rfl⟩

theorem fold_moves (s : State) (c : Nat) : ∃ (u : State) (i : Int),
    s.fold c = u.modCell c (fun x => { x with m := { x.m with integ := i } }) ∧ (∀ d, u.cell d = s.cell d) ∧
    u.fab.drips = s.fab.drips := by
  obtain ⟨x, n, i, h⟩ := fold_eq rfl s c
  exact ⟨_, i, h, fun d => cell_moveHoldDrive .., drips_moveHoldDrive ..⟩

/-- What the polarity interval's end leaves of a cell. -/
structure Cell.Folds (x y : Cell) : Prop where
  mpol : y.mpol = x.mpol
  bpol : y.bpol = x.bpol
  bpolAt : y.bpolAt = x.bpolAt

theorem foldInterval_folds (s : State) (c : Nat) : (s.cell c).Folds ((s.foldInterval c).cell c) ∧
    (∀ d, d ≠ c → (s.foldInterval c).cell d = s.cell d) ∧ (s.foldInterval c).fab.drips = s.fab.drips := by
  unfold State.foldInterval
  dsimp only
  split
  · obtain ⟨u, i, hf, hu, hd⟩ := fold_moves s c
    rw [hf, cell_modCell_self, cell_modCell_self, hu]
    refine ⟨⟨rfl, rfl, rfl⟩, fun d h => ?_, hd⟩
    rw [cell_modCell_other _ _ h, cell_modCell_other _ _ h, hu]
  · rw [cell_modCell_self]
    exact ⟨⟨rfl, rfl, rfl⟩, fun d h => cell_modCell_other _ _ h, rfl⟩

/-- Without tracking, or after a clipped sample or a change of mode, nothing is folded. -/
theorem foldInterval_skips {s : State} {c : Nat} (h : bit (s.rg .fabDriftCfg) 31 = false ∨ (s.cell c).m.stayed = false) :
    ((s.foldInterval c).cell c).m.integ = (s.cell c).m.integ ∧ (s.foldInterval c).loop.calOff = s.loop.calOff := by
  unfold State.foldInterval
  dsimp only
  rw [if_neg (by rcases h with h | h <;> simp [h]), cell_modCell_self]
  exact ⟨rfl, rfl⟩

/-! ### A reversal (R150) -/

/-- The instant up to which an element's reversals are dealt with. -/
def Cell.polDone (x : Cell) (e : Nat) : Timer := if e % 2 = 0 then x.mpolAt else x.bpolAt

/-- The drive polarity is enabled, and was at the raw count `a`. -/
def State.polOn (s : State) (a : Nat) : Bool := bit (s.rg .fabPolCfg) 31 && decide (s.loop.polOnAt ≤ a)

theorem reversePol_none {s : State} {e : Nat} (h : s.reversalAt e = none) : s.reversePol e = s := by
  unfold State.reversePol; rw [h]

section
variable {s : State} {e a : Nat} (ha : s.reversalAt e = some a)
include ha

theorem reversePol_waits (h : s.now < opportunity e a ∨ s.mayReverse (e / 2) = false ∨
    ∃ b, (s.cell (e / 2)).polDone e = some b ∧ a ≤ b) : s.reversePol e = s := by
  unfold State.reversePol
  rw [ha]
  refine if_pos ?_
  rcases h with h | h | ⟨b, hb, hab⟩
  · simp [h]
  · simp [h]
  · unfold Cell.polDone at hb
    rw [hb]
    simp [hab]

theorem reversePol_reverses (ho : opportunity e a ≤ s.now) (hm : s.mayReverse (e / 2) = true)
    (hl : ∀ b, (s.cell (e / 2)).polDone e = some b → b < a) : s.reversePol e = s.reverseAt e a := by
  unfold State.reversePol
  rw [ha]
  refine if_neg ?_
  rw [hm, decide_eq_false (Nat.not_lt.mpr ho), Bool.or_false, Bool.not_true, Bool.or_false]
  unfold Cell.polDone at hl
  split
  next b hb => rw [decide_eq_false (Nat.not_le.mpr (hl b hb))]; exact Bool.false_ne_true
  next => exact Bool.false_ne_true
end

theorem reverseAt_main {s : State} {e a : Nat} (h : e % 2 = 0) : s.reverseAt e a =
    (s.foldInterval (e / 2)).modCell (e / 2) fun x => { x with mpol := x.mpol != s.polOn a, mpolAt := some a } := if_pos h

theorem reverseAt_on {s : State} {e a : Nat} (h : e % 2 = 1) (ho : s.polOn a = true) : s.reverseAt e a =
    (s.addDrip e 1).modCell (e / 2) fun x => { x with bpol := !x.bpol, bpolAt := some a } :=
  (if_neg (by omega)).trans (if_pos ho)

theorem reverseAt_off {s : State} {e a : Nat} (h : e % 2 = 1) (ho : s.polOn a = false) : s.reverseAt e a =
    s.modCell (e / 2) fun x => { x with bpolAt := some a } :=
  (if_neg (by omega)).trans (if_neg (ne_true_of_eq_false ho))

theorem cell_reverseAt_other (s : State) (e a : Nat) {d : Nat} (h : d ≠ e / 2) : (s.reverseAt e a).cell d = s.cell d := by
  rcases Nat.mod_two_eq_zero_or_one e with he | he
  · rw [reverseAt_main he, cell_modCell_other _ _ h]
    exact (foldInterval_folds s (e / 2)).2.1 d h
  · cases ho : s.polOn a with
    | true => rw [reverseAt_on he ho, cell_modCell_other _ _ h, cell_addDrip]
    | false => rw [reverseAt_off he ho, cell_modCell_other _ _ h]

theorem reverseAt_main_fields {s : State} {e : Nat} (a : Nat) (h : e % 2 = 0) :
    ((s.reverseAt e a).cell (e / 2)).mpol = ((s.cell (e / 2)).mpol != s.polOn a) ∧
    ((s.reverseAt e a).cell (e / 2)).mpolAt = some a ∧ ((s.reverseAt e a).cell (e / 2)).bpol = (s.cell (e / 2)).bpol ∧
    ((s.reverseAt e a).cell (e / 2)).bpolAt = (s.cell (e / 2)).bpolAt ∧ (s.reverseAt e a).fab.drips = s.fab.drips ∧
    (bit (s.rg .fabDriftCfg) 31 = false ∨ (s.cell (e / 2)).m.stayed = false →
      ((s.reverseAt e a).cell (e / 2)).m.integ = (s.cell (e / 2)).m.integ ∧
      (s.reverseAt e a).calOf (e / 2) = s.calOf (e / 2)) := by
  obtain ⟨⟨hm, hb, ht⟩, _, hd⟩ := foldInterval_folds s (e / 2)
  rw [reverseAt_main h, cell_modCell_self]
  refine ⟨congrArg (· != s.polOn a) hm, rfl, hb, ht, hd, fun hs => ?_⟩
  obtain ⟨hi, hc⟩ := foldInterval_skips hs
  refine ⟨hi, ?_⟩
  change (s.foldInterval (e / 2)).calOf (e / 2) = s.calOf (e / 2)
  unfold State.calOf
  rw [hc]

theorem reverseAt_balance_fields {s : State} {e : Nat} (a : Nat) (h : e % 2 = 1) :
    ((s.reverseAt e a).cell (e / 2)).bpol = ((s.cell (e / 2)).bpol != s.polOn a) ∧
    ((s.reverseAt e a).cell (e / 2)).bpolAt = some a ∧ ((s.reverseAt e a).cell (e / 2)).mpol = (s.cell (e / 2)).mpol ∧
    ((s.reverseAt e a).cell (e / 2)).mpolAt = (s.cell (e / 2)).mpolAt ∧
    (s.reverseAt e a).drip e = if s.polOn a then min (s.drip e + 1) (2 ^ 48 - 1) else s.drip e := by
  cases ho : s.polOn a with
  | true =>
    rw [reverseAt_on h ho, cell_modCell_self, cell_addDrip, if_pos rfl, ← drip_addDrip_self, Bool.bne_true]
    exact ⟨rfl, rfl, rfl, rfl, rfl⟩
  | false =>
    rw [reverseAt_off h ho, cell_modCell_self, if_neg Bool.false_ne_true, Bool.bne_false]
    exact ⟨rfl, rfl, rfl, rfl, rfl⟩

/-! ### The polarity interval (R150) -/

theorem next_multiple (n p : Nat) (hp : 0 < p) : n < (n / p + 1) * p ∧ (n / p + 1) * p % p = 0 ∧ (n / p + 1) * p ≤ n + p := by
  have hd := Nat.div_add_mod' n p
  have hr := Nat.mod_lt n hp
  have he : (n / p + 1) * p = n / p * p + p := Nat.succ_mul ..
  exact ⟨by omega, Nat.mul_mod_left .., by omega⟩

/-- The polarity interval that a word asks for, in ms. -/
def polMsOf (v : Word) : Nat := min (max (fld v 15 0) 10) 60000

theorem writePolCfg_fields {s : State} (hg : s.grantOk = true) (v : Word) :
    (s.writePolCfg v).rg .fabPolCfg = s.written .fabPolCfg 0 0 v ∧
    (s.writePolCfg v).loop.polNew = some (polMsOf v, (s.now / (polMsOf v * 1024000) + 1) * (polMsOf v * 1024000)) := by
  obtain ⟨u, hu, he⟩ := protReg_acts hg .fabPolCfg 0 v fun t => t.onLoop fun l =>
      { l with polOnAt := if !bit (s.rg .fabPolCfg) 31 && bit v 31 then t.now else l.polOnAt, polNext := t.polMs,
               polNew := some (polMsOf v, (t.now / (polMsOf v * 1024000) + 1) * (polMsOf v * 1024000)) }
  have hw : s.writePolCfg v = _ := he
  rw [hw, State.irqPulse_loop, rg_congr (State.irqPulse_regs ..), ← hu.now]
  exact ⟨hu.rg, rfl⟩

/-! ### Wear levels and rates (R94, R96) -/

theorem fab_wearEvent (s : State) (sub src e : Nat) : (s.wearEvent sub src e).fab = s.fab := by
  simp [State.wearEvent]

theorem wearEvent_fires (s : State) (sub src e : Nat) :
    ∃ q ∈ (s.wearEvent sub src e).flt.fireQ, q.src = src ∧ q.detail = e :=
  ⟨_, List.mem_append_right _ (List.mem_singleton_self _), rfl, rfl⟩

/-- The wear levels of an element that have been reported. -/
def State.wearKnown (s : State) (e : Nat) : Nat := tget (fun _ => 0) s.fab.wearSeen e

theorem wearLevel_silent {s : State} {e : Nat} (h : min (wearLevelOf (s.drip e)) 3 ≤ s.wearKnown e) : s.wearLevel e = s :=
  if_neg (Nat.not_lt.mpr h)

theorem wearLevel_reports {s : State} {e : Nat} (h : s.wearKnown e < min (wearLevelOf (s.drip e)) 3) : s.wearLevel e =
    (s.onFab fun f => { f with wearSeen := tset (fun _ => 0) f.wearSeen e (s.wearKnown e + 1) }).wearEvent
      (s.wearKnown e + 1) 52 e := if_pos h

theorem wearLevel_fields {s : State} {e : Nat} (h : s.wearKnown e < min (wearLevelOf (s.drip e)) 3) :
    tget (fun _ => 0) (s.wearLevel e).fab.wearSeen e = s.wearKnown e + 1 ∧
    (∃ q ∈ (s.wearLevel e).flt.fireQ, q.src = 52 ∧ q.detail = e) ∧ (s.wearLevel e).fab.drips = s.fab.drips ∧
    ∀ d, d ≠ e → tget (fun _ => 0) (s.wearLevel e).fab.wearSeen d = s.wearKnown d := by
  rw [wearLevel_reports h, fab_wearEvent, State.onFab_fab]
  exact ⟨tget_tset_self (d := fun _ => 0) (fun _ => 0) s.fab.wearSeen e (s.wearKnown e + 1) rfl, wearEvent_fires .., rfl,
    fun d hd => tget_tset_other (d := fun _ => 0) (fun _ => 0) s.fab.wearSeen (s.wearKnown e + 1) hd⟩

/-- The average rate over a day or more is too high. -/
def State.worn (s : State) (e : Nat) : Bool :=
  decide (86400 ≤ s.wearSecs e) && decide (15800 * s.wearSecs e < s.drip e)

theorem worn_iff {s : State} {e : Nat} : s.worn e = true ↔ 86400 ≤ s.wearSecs e ∧ 15800 * s.wearSecs e < s.drip e := by
  simp only [State.worn, Bool.and_eq_true, decide_eq_true_eq]

/-- The high rate of an element is known, or no longer so. -/
def State.rateNoted (s : State) (e : Nat) : State :=
  s.onFab fun f => { f with rateSeen := tset (fun _ => 0) f.rateSeen e (if s.worn e then 1 else 0) }

theorem wearRate_eq (s : State) (e : Nat) : s.wearRate e =
    if s.worn e && decide (tget (fun _ => 0) s.fab.rateSeen e = 0) then (s.rateNoted e).wearEvent 4 53 e else s.rateNoted e := rfl

theorem rateSeen_wearRate (s : State) (e : Nat) :
    tget (fun _ => 0) (s.wearRate e).fab.rateSeen e = if s.worn e then 1 else 0 := by
  have hn : tget (fun _ => 0) (s.rateNoted e).fab.rateSeen e = if s.worn e then 1 else 0 := tget_tset_self _ _ _ _ rfl
  rw [wearRate_eq]
  split
  · rw [fab_wearEvent, hn]
  · exact hn

theorem wearRate_fires {s : State} {e : Nat} (h : s.worn e = true) (hr : tget (fun _ => 0) s.fab.rateSeen e = 0) :
    ∃ q ∈ (s.wearRate e).flt.fireQ, q.src = 53 ∧ q.detail = e := by
  rw [wearRate_eq, h, hr]
  exact wearEvent_fires ..

theorem wearRate_silent {s : State} {e : Nat} (h : s.worn e = false ∨ tget (fun _ => 0) s.fab.rateSeen e ≠ 0) :
    s.wearRate e = s.rateNoted e := by
  rw [wearRate_eq]
  exact if_neg (by rcases h with h | h <;> simp [h])

/-! ### Summaries and counters (R152 to R154) -/

theorem summaryDue_waits {s : State} (h : s.core = false ∨ s.expired s.fab.sumTimer = false) : s.summaryDue = s :=
  if_neg (by rcases h with h | h <;> simp [h])

theorem summaryDue_asks {s : State} (hc : s.core = true) (h : s.expired s.fab.sumTimer = true) : s.summaryDue =
    (s.onFab fun f => { f with sumTimer := some (s.now + s.sumCycles) }).askSummary false := if_pos (by rw [hc, h]; rfl)

theorem writeWearSumCfg_fields {s : State} (hg : s.grantOk = true) (v : Word) :
    (s.writeWearSumCfg v).rg .fabWearSumCfg = s.written .fabWearSumCfg 0 0 v ∧
    (bit v 31 = true → (s.writeWearSumCfg v).fab.sumNow = true ∧ (s.writeWearSumCfg v).fab.sumDue.isSome = true) ∧
    (bit v 31 = false → (s.writeWearSumCfg v).fab = s.fab) := by
  obtain ⟨u, hu, he⟩ := protReg_acts hg .fabWearSumCfg 0 v fun s =>
    if bit v 31 then (s.onFab fun f => { f with sumNow := true }).askSummary false else s
  rw [State.writeWearSumCfg, he, State.irqPulse_fab, rg_congr (State.irqPulse_regs ..)]
  cases bit v 31 with
  | true => exact ⟨hu.rg, fun _ => ⟨rfl, rfl⟩, fun h => absurd h.symm Bool.false_ne_true⟩
  | false => exact ⟨hu.rg, fun h => absurd h Bool.false_ne_true, fun _ => hu.fab⟩

theorem dripWord_putReg (s : State) (r : Reg) (i w e : Nat) (v : Word) : (s.putReg r i w v).dripWord e = s.dripWord e := by
  unfold State.dripWord State.drip State.putReg
  rw [State.setRg_fab]

theorem writeDripSel_fields (s : State) (v : Word) :
    (s.writeDripSel v).fab = { s.fab with dripSnap := s.dripWord (fld v 11 0) } ∧
    (s.writeDripSel v).rg .fabDripSel = s.written .fabDripSel 0 0 v := by
  have he : s.writeDripSel v = (s.putReg .fabDripSel 0 0 v).onFab fun f =>
      { f with dripSnap := (s.putReg .fabDripSel 0 0 v).dripWord (fld v 11 0) } := rfl
  rw [he, State.onFab_fab, dripWord_putReg, rg_congr (State.onFab_regs ..), rg_putReg_self, State.putReg, State.setRg_fab]
  exact ⟨rfl, rfl⟩

/-! ### The obligation -/

/-- Settles O45, clause by clause. -/
theorem polarityAndWear : Obligations.PolarityAndWear := by
  unfold Obligations.PolarityAndWear
  refine ⟨fun s u dt e hu => ?_, fun s v hh hg => ?_, fun s e => ⟨fun h => ?_, fun h => ?_⟩, fun s u dt e hu => ?_,
    fun s u dt hu => ?_, fun s v => ⟨fun hh => ?_, fun hh hg => ?_, fun hh => ?_⟩⟩
  · subst hu
    refine ⟨fun hn => by rw [exec_polarityReversal, reversePol_none hn], fun a ha => ⟨fun hw => ?_, fun ho hm hl => ?_⟩⟩
    · rw [exec_polarityReversal, reversePol_waits ha hw]
    · refine ⟨_, by rw [exec_polarityReversal, reversePol_reverses ha ho hm hl], fun d hd => cell_reverseAt_other _ _ a hd,
        fun he => reverseAt_main_fields a he, fun he => reverseAt_balance_fields a he⟩
  · obtain ⟨h1, h2⟩ := writePolCfg_fields hg v
    have hp : 0 < polMsOf v * 1024000 := Nat.mul_pos (by unfold polMsOf; omega) (by decide)
    exact ⟨_, by rw [exec_fabPolCfgWrite, onHost_up hh], h1, _, _, h2, rfl, next_multiple s.now _ hp⟩
  · exact ⟨_, exec_wearLevel .., wearLevel_fields h⟩
  · rw [exec_wearLevel, wearLevel_silent h]
  · subst hu
    have hw := worn_iff (s := s.pass dt) (e := e.val)
    have hs := rateSeen_wearRate (s.pass dt) e.val
    refine ⟨_, exec_wearRate .., fun h => ?_, fun h => ?_, fun h hr => wearRate_fires (hw.mpr h) hr, fun h => ?_⟩
    · rw [hs, hw.mpr h]; rfl
    · rw [hs, Bool.eq_false_iff.mpr (mt hw.mp h)]; rfl
    · rw [wearRate_silent (h.imp_left fun h => Bool.eq_false_iff.mpr (mt hw.mp h))]
      exact ⟨State.onFab_flt .., State.onFab_rings ..⟩
  · subst hu
    refine ⟨fun hc h => ⟨_, by rw [exec_wearSummary, summaryDue_asks hc h], rfl, rfl⟩, fun h => ?_⟩
    rw [exec_wearSummary, summaryDue_waits h]
  · intro c hc
    simp only [List.mem_cons, List.not_mem_nil, or_false] at hc
    rcases hc with rfl | rfl | rfl
    · rw [exec_fabPolCfgWrite, onHost_down hh]
    · rw [exec_wearSummaryNow, onHost_down hh]
    · rw [exec_fabDripSel, onHost_down hh]
  · exact ⟨_, by rw [exec_wearSummaryNow, onHost_up hh], writeWearSumCfg_fields hg v⟩
  · exact ⟨_, by rw [exec_fabDripSel, onHost_up hh], writeDripSel_fields s v⟩

end Sys2Proof.Machine
end

section
/-! Settling O42: profiles, their selection, and the selections for reading. -/

namespace Sys2Proof.Machine

theorem exec_profileWrite (s : State) (r : Fin 16) : exec (.profileWrite r) s =
    .next (s.profileWrite r.val 0 fun _ e => rdBytes e.payload 0 64).finish := rfl
theorem exec_profileWriteField (s : State) (r : Fin 16) : exec (.profileWriteField r) s =
    .next (s.profileWrite r.val 1 fun s e => putBytes (s.profileBytes (byteAt e.bytes 24)) (byteAt e.bytes 26)
      ((e.bytes.drop 28).take (byteAt e.bytes 27))).finish := rfl
theorem exec_profileRead (s : State) (r : Fin 16) : exec (.profileRead r) s = .next (s.profileRead r.val).finish := rfl
theorem exec_loopProfileIdx (s : State) (h : Fin 32) (v : Word) :
    exec (.loopProfileIdx h v) s = .next (s.onHost fun s => s.writeProfileIdx h.val v) := rfl
theorem exec_loopSel (s : State) (dt : Nat) (h : Fin 32) (v : Word) :
    exec (.loopSel dt h v) s = .next ((s.pass dt).onHost fun s => s.writeLoopSel h.val v) := rfl
theorem exec_fabCellSel (s : State) (v : Word) :
    exec (.fabCellSel v) s = .next (s.onHost fun s => s.putReg .fabCellSel 0 0 v) := rfl

/-! ### Bytes of a profile -/

theorem leNat_inj {x y : List Byte} (hl : x.length = y.length) (h : leNat x = leNat y) : x = y := by
  induction x generalizing y with
  | nil => exact (List.length_eq_zero_iff.mp hl.symm).symm
  | cons b x ih =>
    cases y with
    | nil => exact absurd hl (Nat.succ_ne_zero _)
    | cons c y =>
      rw [leNat, leNat] at h
      have hb := b.isLt
      have hc := c.isLt
      have hbc : b = c := BitVec.eq_of_toNat_eq (by omega)
      rw [hbc, ih (Nat.succ.inj hl) (by omega)]

theorem getD_rdBytes (m : Memory) (a : Nat) {n i : Nat} (hi : i < n) : (rdBytes m a n).getD i 0#8 = rd m (a + i) := by
  induction n generalizing a i with
  | zero => exact absurd hi (Nat.not_lt_zero i)
  | succ n ih =>
    cases i with
    | zero => rfl
    | succ i => rw [rdBytes, List.getD_cons_succ, ih (a + 1) (Nat.lt_of_succ_lt_succ hi), Nat.add_right_comm, Nat.add_assoc]

theorem rd_wrBytes_inside (m : Memory) (a : Nat) {bs : List Byte} {i : Nat} (hi : i < bs.length) :
    rd (wrBytes m a bs) (a + i) = bs.getD i 0#8 := by
  rw [← getD_rdBytes _ a hi, rdBytes_wrBytes]

theorem eq_of_getD {x y : List Byte} (hl : x.length = y.length) (h : ∀ i < x.length, x.getD i 0#8 = y.getD i 0#8) : x = y := by
  refine List.ext_getElem hl fun i hx hy => ?_
  have hi := h i hx
  rwa [List.getD_eq_getElem _ _ hx, List.getD_eq_getElem _ _ hy] at hi

/-- Word `k` of a profile, as bytes. -/
def wordOf (b : List Byte) (k : Nat) : List Byte := (b.drop (4 * k)).take 4

theorem length_wordOf {b : List Byte} {k : Nat} (hb : b.length = 64) (hk : k < 16) : (wordOf b k).length = 4 := by
  simp only [wordOf, List.length_take, List.length_drop, hb]; omega

theorem getD_wordOf (b : List Byte) (k : Nat) {j : Nat} (hj : j < 4) : (wordOf b k).getD j 0#8 = b.getD (4 * k + j) 0#8 := by
  simp only [wordOf, List.getD_eq_getElem?_getD, List.getElem?_take_of_lt hj, List.getElem?_drop]

/-! ### The words of a profile write (R142) -/

/-- The words `l` of `b` written over a profile. -/
def putWords (p : Nat) (b : List Byte) (l : List Nat) (m : Memory) : Memory :=
  l.foldl (fun m k => wrBytes m (64 * p + 4 * k) (wordOf b k)) m

/-- Words that are all due by `n` are all applied. -/
theorem applyWords_due (p n : Nat) (b : List Byte) (l : List Nat) {k : Nat} (m : Memory) (hk : k + 64 * l.length ≤ n) :
    applyWords p n (l.map fun i => (4 * i, wordOf b i)) k m = (putWords p b l m, [], k + 64 * l.length) := by
  induction l generalizing k m with
  | nil => rfl
  | cons i l ih =>
    rw [List.length_cons] at hk ⊢
    rw [List.map_cons, applyWords, if_pos (by omega), ih _ (by omega)]
    exact congrArg (fun t => (putWords p b (i :: l) m, [], t)) (by omega)

section
variable {b : List Byte} {l : List Nat} (hb : b.length = 64) (hl : ∀ k ∈ l, k < 16)
include hb hl

theorem rd_putWords_inside (m : Memory) (p : Nat) (i : Nat) :
    rd (putWords p b l m) (64 * p + i) = if i / 4 ∈ l then b.getD i 0#8 else rd m (64 * p + i) := by
  induction l generalizing m with
  | nil => rfl
  | cons k l ih =>
    have hk := length_wordOf hb (hl k List.mem_cons_self)
    refine (ih (fun j hj => hl j (List.mem_cons_of_mem _ hj)) _).trans ?_
    by_cases hi : i / 4 ∈ l
    · rw [if_pos hi, if_pos (List.mem_cons_of_mem _ hi)]
    · rw [if_neg hi]
      by_cases he : i / 4 = k
      · rw [if_pos (he ▸ List.mem_cons_self), show 64 * p + i = 64 * p + 4 * k + i % 4 by omega,
          rd_wrBytes_inside _ _ (by omega), getD_wordOf _ _ (by omega), show 4 * k + i % 4 = i by omega]
      · rw [if_neg (List.not_mem_cons_of_ne_of_not_mem he hi), rd_wrBytes_outside _ (by omega)]

theorem rd_putWords_outside (m : Memory) (p : Nat) {x : Nat} (hx : x < 64 * p ∨ 64 * p + 64 ≤ x) :
    rd (putWords p b l m) x = rd m x := by
  induction l generalizing m with
  | nil => rfl
  | cons k l ih =>
    have hk := length_wordOf hb (hl k List.mem_cons_self)
    have := hl k List.mem_cons_self
    exact (ih (fun j hj => hl j (List.mem_cons_of_mem _ hj)) _).trans (rd_wrBytes_outside _ (by omega))
end

/-- The numbers of the words in which two profiles differ. -/
def diffWords (a b : List Byte) : List Nat := (List.range 16).filter fun k => lef a (4 * k) 4 ≠ lef b (4 * k) 4

theorem wordsDiffer_eq (a b : List Byte) : wordsDiffer a b = (diffWords a b).map fun k => (4 * k, wordOf b k) := rfl

theorem diffWords_lt {a b : List Byte} : ∀ k ∈ diffWords a b, k < 16 := fun _ hk => List.mem_range.mp (List.mem_filter.mp hk).1

theorem length_diffWords_le (a b : List Byte) : (diffWords a b).length ≤ 16 := List.length_filter_le _ (List.range 16)

/-- A word that is not among them is the same in both. -/
theorem getD_eq_of_not_mem {a b : List Byte} (ha : a.length = 64) (hb : b.length = 64) {i : Nat} (hi : i < 64)
    (hn : i / 4 ∉ diffWords a b) : a.getD i 0#8 = b.getD i 0#8 := by
  have hk : i / 4 < 16 := by omega
  have he : leNat (wordOf a (i / 4)) = leNat (wordOf b (i / 4)) := by
    by_contra hc
    exact hn (List.mem_filter.mpr ⟨List.mem_range.mpr hk, decide_eq_true hc⟩)
  have hw := leNat_inj ((length_wordOf ha hk).trans (length_wordOf hb hk).symm) he
  have := getD_wordOf a (i / 4) (Nat.mod_lt i (by decide))
  rwa [hw, getD_wordOf _ _ (Nat.mod_lt i (by decide)), show 4 * (i / 4) + i % 4 = i by omega, eq_comm] at this

/-- With the words in which it differs from `b` replaced, a profile is `b`. -/
theorem rdBytes_putWords (m : Memory) (p : Nat) {b : List Byte} (hb : b.length = 64) :
    rdBytes (putWords p b (diffWords (rdBytes m (64 * p) 64) b) m) (64 * p) 64 = b := by
  refine eq_of_getD ((length_rdBytes ..).trans hb.symm) fun i hi => ?_
  rw [length_rdBytes] at hi
  rw [getD_rdBytes _ _ hi, rd_putWords_inside hb diffWords_lt]
  split
  · rfl
  next hn => rw [← getD_rdBytes _ _ hi, getD_eq_of_not_mem (length_rdBytes ..) hb hi hn]

theorem applyWords_all (m : Memory) (p n k : Nat) {b : List Byte} (hb : b.length = 64) (hk : k + 64 * 16 ≤ n) :
    let d := applyWords p n (wordsDiffer (rdBytes m (64 * p) 64) b) k m
    d.2.1 = [] ∧ rdBytes d.1 (64 * p) 64 = b ∧ ∀ q, q ≠ p → rdBytes d.1 (64 * q) 64 = rdBytes m (64 * q) 64 := by
  have hl := length_diffWords_le (rdBytes m (64 * p) 64) b
  rw [wordsDiffer_eq, applyWords_due _ _ _ _ _ (by omega)]
  refine ⟨rfl, rdBytes_putWords m p hb, fun q hq => rdBytes_congr fun x hx hy => ?_⟩
  exact rd_putWords_outside hb diffWords_lt m p (by omega)

/-! ### A profile write goes on (R142) -/

/-- With nothing due a profile write waits. -/
theorem profJob_waits {s : State} {j : ProfJob} {w : Nat × List Byte} {ws : List (Nat × List Byte)} (hw : j.words = w :: ws)
    (hn : s.now < j.next) : s.profJob j = s.onLoop fun l => { l with jobs := l.jobs ++ [j] } := by
  obtain ⟨ring, idx, prof, words, next, total⟩ := j
  obtain rfl : words = w :: ws := hw
  unfold State.profJob
  rw [applyWords, if_neg (Nat.not_le.mpr hn)]
  rfl

/-- With no word left it completes. -/
theorem profJob_ends {s : State} {j : ProfJob} (hw : j.words = []) : ∃ t : State,
    s.profJob j = t.finishCmd j.ring j.idx 0 true [BitVec.ofNat 8 j.total] ∧ t.loop = s.loop ∧ t.fab = s.fab := by
  unfold State.profJob
  rw [hw, applyWords]
  dsimp only [List.isEmpty_nil]
  rw [if_pos rfl]
  refine ⟨_, rfl, ?_⟩
  split
  · exact ⟨State.onRelpety_loop .., State.onRelpety_fab ..⟩
  · exact ⟨rfl, rfl⟩

/-- One word is due: it is applied. -/
theorem profJob_applies {s : State} {j : ProfJob} {o : Nat} {b : List Byte} {ws : List (Nat × List Byte)}
    (hw : j.words = (o, b) :: ws) (hd : j.next ≤ s.now) (hn : s.now < j.next + 64) :
    (s.profJob j).loop.profiles = wrBytes s.loop.profiles (64 * j.prof + o) b ∧
    (ws ≠ [] → (s.profJob j).loop.jobs = s.loop.jobs ++ [{ j with words := ws, next := j.next + 64 }]) := by
  unfold State.profJob
  rw [hw, applyWords, if_pos hd]
  cases ws with
  | nil =>
    rw [applyWords]
    dsimp only [List.isEmpty_nil]
    rw [if_pos rfl, finishCmd_keeps_loop]
    refine ⟨?_, fun h => absurd rfl h⟩
    split
    · rw [State.onRelpety_loop]; rfl
    · rfl
  | cons w ws =>
    obtain ⟨o', b'⟩ := w
    rw [applyWords, if_neg (Nat.not_le.mpr hn)]
    exact ⟨rfl, fun _ => rfl⟩

/-! ### PROFILE_WRITE and PROFILE_READ (R128, R142) -/

theorem profileRead_none {s : State} {r : Nat} (h : s.readyHead r 0x11 = none) : s.profileRead r = s := by
  unfold State.profileRead; rw [h]

theorem profileRead_some {s : State} {r : Nat} {e : Entry} (h : s.readyHead r 0x11 = some e) : s.profileRead r =
    s.finishCmd r e.idx 0 true [] 0 (some (lef e.bytes 8 8, s.profileBytes (byteAt e.bytes 24))) := by
  unfold State.profileRead; rw [h]

section
variable {s : State} {r form : Nat} (result : State → Entry → List Byte)

theorem profileWrite_none (h : s.readyHead r 0x10 = none) : s.profileWrite r form result = s := by
  unfold State.profileWrite; rw [h]

variable {e : Entry} (h : s.readyHead r 0x10 = some e)
include h

theorem profileWrite_other (hf : byteAt e.bytes 25 ≠ form) : s.profileWrite r form result = s := by
  unfold State.profileWrite; rw [h]; exact if_pos hf

/-- The job of the words `ws` of profile `p`, from the next frame on. -/
def State.jobOf (s : State) (r i p : Nat) (ws : List (Nat × List Byte)) : ProfJob :=
  { ring := r, idx := i, prof := p, words := ws, next := (s.now / 64 + 1) * 64, total := ws.length }

variable {b : List Byte} (hf : byteAt e.bytes 25 = form) (hb : b = cleanProfile (result s e))
include hf hb

theorem profileWrite_refused (hv : s.profVerdict (byteAt e.bytes 24) b ≠ 0) : s.profileWrite r form result =
    s.finishCmd r e.idx (s.profVerdict (byteAt e.bytes 24) b) false := by
  subst hb
  unfold State.profileWrite; rw [h]
  exact (if_neg (not_not_intro hf)).trans (if_pos hv)

theorem profileWrite_accepted (hv : s.profVerdict (byteAt e.bytes 24) b = 0) : s.profileWrite r form result =
    (s.begin_ r e.idx).profJob (s.jobOf r e.idx (byteAt e.bytes 24) (wordsDiffer (s.profileBytes (byteAt e.bytes 24)) b)) := by
  subst hb
  unfold State.profileWrite; rw [h]
  exact (if_neg (not_not_intro hf)).trans (if_neg (not_not_intro hv))

/-- A write with its result `b`: refused with the verdict, complete with nothing to apply, or taken up as a job. -/
theorem profileWrite_result :
    let p := byteAt e.bytes 24
    let ws := wordsDiffer (s.profileBytes p) b
    let u := s.profileWrite r form result
    (s.profVerdict p b ≠ 0 → u = s.finishCmd r e.idx (s.profVerdict p b) false) ∧
    (s.profVerdict p b = 0 → ws = [] → ∃ t : State, u = t.finishCmd r e.idx 0 true [0#8] ∧ t.loop = s.loop ∧ t.fab = s.fab) ∧
    (s.profVerdict p b = 0 → ws ≠ [] → ∃ j, u.loop.profiles = s.loop.profiles ∧ u.loop.jobs = s.loop.jobs ++ [j] ∧
      j.words = ws ∧ j.prof = p ∧ j.next = (s.now / 64 + 1) * 64 ∧ j.total = ws.length) := by
  refine ⟨profileWrite_refused result h hf hb, fun hv hw => ?_, fun hv hw => ?_⟩
  · rw [profileWrite_accepted result h hf hb hv, hw]
    exact profJob_ends (s := s.begin_ r e.idx) (j := s.jobOf r e.idx (byteAt e.bytes 24) []) rfl
  · obtain ⟨w, ws, hc⟩ := List.exists_cons_of_ne_nil hw
    rw [profileWrite_accepted result h hf hb hv, profJob_waits (w := w) (ws := ws) hc (show s.now < (s.now / 64 + 1) * 64 by omega)]
    exact ⟨_, rfl, rfl, rfl, rfl, rfl, rfl⟩
end

/-! ### LOOP_CHnn_PROFILE_IDX (R129) -/

/-- A cell for whose loop of a kind profile `idx` is selected. -/
def Cell.selects (x : Cell) (kind idx : Nat) : Cell :=
  let v := BitVec.ofNat 8 idx
  if kind = 1 then { x with mnew := some v } else if kind = 2 then { x with onew := some v } else { x with bnew := some v }

theorem cell_setIdx_self (s : State) (kind idx c : Nat) : (s.setIdx kind idx c).cell c = (s.cell c).selects kind idx :=
  cell_modCell_self ..

theorem cell_setIdx_other (s : State) (kind idx : Nat) {c d : Nat} (h : d ≠ c) : (s.setIdx kind idx c).cell d = s.cell d :=
  cell_modCell_other s _ h

theorem selects_selects (x : Cell) (kind idx : Nat) : (x.selects kind idx).selects kind idx = x.selects kind idx := by
  unfold Cell.selects
  dsimp only
  split
  · rfl
  · split <;> rfl

theorem cell_foldl_setIdx (s : State) (kind idx : Nat) (l : List Nat) (d : Nat) :
    (l.foldl (fun s c => s.setIdx kind idx c) s).cell d = if d ∈ l then (s.cell d).selects kind idx else s.cell d := by
  induction l generalizing s with
  | nil => rfl
  | cons c l ih =>
    rw [List.foldl_cons, ih]
    by_cases hd : d = c
    · subst hd
      rw [cell_setIdx_self, selects_selects, ite_self, if_pos List.mem_cons_self]
    · simp only [cell_setIdx_other s kind idx hd, List.mem_cons, hd, false_or]

/-- The cells for which a write of LOOP_CHnn_PROFILE_IDX selects. -/
def idxCells (h : Nat) (v : Word) : List Nat := if bit v 31 then cellsOf h else [64 * h + fld v 13 8]

theorem mem_idxCells {h d : Nat} {v : Word} :
    d ∈ idxCells h v ↔ (bit v 31 = true ∧ chamberOf d = h) ∨ d = 64 * h + fld v 13 8 := by
  have hf : fld v 13 8 < 64 := fld_lt v 13 8
  unfold idxCells
  cases bit v 31 with
  | true =>
    rw [if_pos rfl, mem_cellsOf]
    simp only [chamberOf, true_and]
    omega
  | false => simp

theorem writeProfileIdx_refused {s : State} (hg : s.grantOk = true) {h : Nat} {v : Word}
    (hk : fld v 15 14 = 0 ∨ s.profKind (fld v 7 0) ≠ fld v 15 14) : s.writeProfileIdx h v = s.setBit .loopEvt h 0 := by
  unfold State.writeProfileIdx
  dsimp only
  rw [hg]
  exact (if_neg Bool.false_ne_true).trans (if_pos (by simpa using hk))

theorem writeProfileIdx_cell {s : State} (hg : s.grantOk = true) (h : Nat) {v : Word} (hk : fld v 15 14 ≠ 0)
    (hp : s.profKind (fld v 7 0) = fld v 15 14) (d : Nat) : (s.writeProfileIdx h v).cell d =
      if d ∈ idxCells h v then (s.cell d).selects (fld v 15 14) (fld v 7 0) else s.cell d := by
  have hw : s.writeProfileIdx h v = s.protWrite (Reg.loopProfileIdx.addr h) (s.readWord .loopProfileIdx h 0)
      (s.written .loopProfileIdx h 0 v) fun s =>
        (idxCells h v).foldl (fun s c => s.setIdx (fld v 15 14) (fld v 7 0) c) (s.putReg .loopProfileIdx h 0 v) := by
    unfold State.writeProfileIdx
    dsimp only
    rw [hg]
    exact (if_neg Bool.false_ne_true).trans (if_neg (by simp [hk, hp]))
  rw [hw, protWrite_granted hg, cell_congr (State.irqPulse_loop ..), cell_foldl_setIdx]
  have hu := (grants_putReg s (s.writeEntry (Reg.loopProfileIdx.addr h) (s.readWord .loopProfileIdx h 0)
    (s.written .loopProfileIdx h 0 v)) .loopProfileIdx h v).cell d
  rw [hu]

/-! ### LOOP_CHnn_SEL (R130) -/

/-- The M loop's next phase 48 (R102). -/
theorem nextPhase_spec {h x n : Nat} (hx : x < 64) (hn : 64 ≤ n) :
    let p := frameOf (64 * h + x) n + 48
    let k := if p < n then p + 64 else p
    n ≤ k ∧ k < n + 64 ∧ k % 64 = (x + 48) % 64 := by
  have hl : localOf (64 * h + x) = x := by unfold localOf; omega
  unfold frameOf
  rw [hl]
  dsimp only
  split <;> omega

theorem takeSnap_taken {s : State} {h c n : Nat} (hd : (s.chan h).snapDue = some (c, n)) (hn : n ≤ s.now) :
    ((s.takeSnap h).chan h).snap = s.loopSnap c ∧ ((s.takeSnap h).chan h).snapDue = none := by
  have hs : s.takeSnap h = s.modChan h fun k => { k with snap := s.loopSnap c, snapDue := none } := by
    unfold State.takeSnap; rw [hd]; exact if_pos hn
  rw [hs, chan_modChan_self]
  exact ⟨rfl, rfl⟩

theorem writeLoopSel_snapDue (s : State) (h : Nat) (v : Word) :
    let p := frameOf (64 * h + fld v 5 0) s.now + 48
    ((s.writeLoopSel h v).chan h).snapDue = some (64 * h + fld v 5 0, if p < s.now then p + 64 else p) := by
  intro p
  exact congrArg ChLoop.snapDue (chan_modChan_self (s.putReg .loopSel h 0 v) h _)

/-! ### The obligation -/

/-- Settles O42: a profile write by `profileWrite_result`, its words by `applyWords_all`, a selection by
`writeProfileIdx_cell`, and a snapshot by `nextPhase_spec`. -/
theorem profilesAndSelections : Obligations.ProfilesAndSelections := by
  unfold Obligations.ProfilesAndSelections
  refine ⟨fun s r => ⟨fun hn => ⟨?_, ?_⟩, fun hn => ?_, fun e he => ?_, fun e he => ⟨fun hf => ?_, fun hf => ?_, ?_⟩⟩,
    fun s j o b ws hw => ⟨fun hn => profJob_waits hw hn, fun hd hn => profJob_applies hw hd hn⟩,
    fun m p n k b hb hk => applyWords_all m p n k hb hk, fun s h v => ⟨fun hh => ⟨?_, ?_⟩, fun hh => ⟨?_, ?_, ?_⟩⟩,
    fun s u dt h v hu => ?_, fun s h c n hd hn => takeSnap_taken hd hn⟩
  · rw [exec_profileWrite, profileWrite_none _ hn]
  · rw [exec_profileWriteField, profileWrite_none _ hn]
  · rw [exec_profileRead, profileRead_none hn]
  · rw [exec_profileRead, profileRead_some he]
  · rw [exec_profileWrite, profileWrite_other _ he hf]
  · rw [exec_profileWriteField, profileWrite_other _ he hf]
  · intro c b hc
    suffices ∃ form result, byteAt e.bytes 25 = form ∧ b = cleanProfile (result s e) ∧
        exec c s = .next (s.profileWrite r.val form result).finish by
      obtain ⟨form, result, hf, hb, hx⟩ := this
      obtain ⟨h1, h2, h3⟩ := profileWrite_result result he hf hb
      refine ⟨fun hv => by rw [hx, h1 hv], fun hv hw => ?_, fun hv hw => ?_⟩
      · obtain ⟨t, ht, hl, hf⟩ := h2 hv hw
        exact ⟨t, by rw [hx, ht], hl, hf⟩
      · obtain ⟨j, hj⟩ := h3 hv hw
        exact ⟨_, j, hx, hj⟩
    rcases hc with ⟨hf, rfl, hb⟩ | ⟨hf, rfl, hb⟩
    · exact ⟨0, fun _ e => rdBytes e.payload 0 64, hf, hb, exec_profileWrite ..⟩
    · exact ⟨1, fun s e => putBytes (s.profileBytes (byteAt e.bytes 24)) (byteAt e.bytes 26)
        ((e.bytes.drop 28).take (byteAt e.bytes 27)), hf, hb, exec_profileWriteField ..⟩
  · rw [exec_loopProfileIdx, onHost_down hh]
  · rw [exec_fabCellSel, onHost_down hh]
  · intro hg hk hp
    refine ⟨_, by rw [exec_loopProfileIdx, onHost_up hh], fun d _ => ?_⟩
    rw [writeProfileIdx_cell hg h.val hk hp]
    refine ⟨fun hd => ?_, fun hn hd => if_neg fun hc => ?_⟩
    · rw [if_pos (mem_idxCells.mpr hd)]
      exact ⟨fun h1 => by rw [h1]; rfl, fun h2 => by rw [h2]; rfl, fun h3 => by rw [h3]; rfl⟩
    · rcases mem_idxCells.mp hc with ⟨hb, hc⟩ | hc
      · rcases hn with hn | hn
        · exact absurd (hn.symm.trans hb) Bool.false_ne_true
        · exact hn hc
      · exact hd hc
  · intro hg hk
    rw [exec_loopProfileIdx, onHost_up hh, writeProfileIdx_refused hg hk]
  · rw [exec_fabCellSel, onHost_up hh]
  · subst hu
    refine ⟨fun hh => by rw [exec_loopSel, onHost_down hh], fun hh => ?_⟩
    exact ⟨_, _, by rw [exec_loopSel, onHost_up hh], writeLoopSel_snapDue .., rfl, nextPhase_spec (fld_lt v 5 0)⟩

end Sys2Proof.Machine
end

section
/-! Settling O39: what a sample of the M loop does. -/

namespace Sys2Proof.Machine

theorem exec_mSample (s : State) (dt : Nat) (c : Fin 2048) (w : Word) :
    exec (.mSample dt c w) s = .next ((s.pass dt).mSample c.val (sw w)).finish := rfl

/-! ### Operations on one cell's loop -/

/-- From `s` to `t` the loop of cell `c` did its work: the other cells, the fabric, the registers, the profiles and the
time are as they were. -/
structure State.Works (s t : State) (c : Nat) : Prop where
  others : ∀ d, d ≠ c → t.cell d = s.cell d
  fab : t.fab = s.fab
  regs : t.regs = s.regs
  profiles : t.loop.profiles = s.loop.profiles
  now : t.now = s.now

namespace State.Works

variable {s t u : State} {c : Nat}

theorem refl (s : State) (c : Nat) : s.Works s c := ⟨fun _ _ => rfl, rfl, rfl, rfl, rfl⟩

theorem trans (h : s.Works t c) (g : t.Works u c) : s.Works u c :=
  ⟨fun d hd => (g.others d hd).trans (h.others d hd), g.fab.trans h.fab, g.regs.trans h.regs, g.profiles.trans h.profiles,
    g.now.trans h.now⟩

theorem modCell (h : s.Works t c) (f : Cell → Cell) : s.Works (t.modCell c f) c :=
  h.trans ⟨fun _ hd => cell_modCell_other t f hd, rfl, rfl, rfl, rfl⟩

variable (h : s.Works t c)
include h

theorem param (p k : Nat) : t.param p k = s.param p k := by unfold State.param State.profLE; rw [h.profiles]
theorem settleBand : t.settleBand = s.settleBand := by unfold State.settleBand State.rf; rw [rg_congr h.regs]
theorem settleNs : t.settleNs = s.settleNs := by unfold State.settleNs State.rf; rw [rg_congr h.regs]
theorem aperture : t.aperture c = s.aperture c := by unfold State.aperture; rw [h.now]
end State.Works

/-! ### One step of the loop (R100) -/

theorem clampI_bounds {x lo hi : Int} (h : lo ≤ hi) : lo ≤ clampI x lo hi ∧ clampI x lo hi ≤ hi := by
  unfold clampI; omega

theorem setPoint_same {s : State} {c : Nat} (y : Int) (h : (s.cell c).mode ≠ .trajectory) :
    (s.setPoint c y).1 = (s.setPoint c y).2 := by
  unfold State.setPoint
  dsimp only
  split
  · rfl
  next ht => exact absurd ht h
  · rfl

theorem mStep_park {s : State} {c : Nat} (y : Int) (h : (s.cell c).mode = .park) :
    s.mStep c y = { (s.cell c).m with y := y, r := y, sp := y, corr := 0, u := 0, f := 0 } := by
  have hs : s.setPoint c y = (y, y) := by unfold State.setPoint; dsimp only; rw [h]
  unfold State.mStep
  rw [hs]
  exact if_pos h

theorem mStep_driven {s : State} {c : Nat} (y : Int) (h : (s.cell c).mode ≠ .park) :
    let n := s.mStep c y
    n.y = y ∧ n.sp = (s.setPoint c y).1 ∧ n.r = (s.setPoint c y).2 ∧ n.e0 = sat32 (n.sp - y) ∧ n.e1 = n.e0 ∧
    n.e2 = (s.cell c).m.e1 ∧ n.v2 = (s.cell c).m.v1 ∧ n.settle = (s.cell c).m.settle ∧
    ∃ d, n.dout = clampI d (s.param (s.cell c).midx.toNat 0) (s.param (s.cell c).midx.toNat 1) := by
  intro n
  rcases hq : s.setPoint c y with ⟨sp, r⟩
  have hn : s.mStep c y = n := rfl
  unfold State.mStep at hn
  rw [hq] at hn
  rw [← (if_neg h).symm.trans hn]
  exact ⟨rfl, rfl, rfl, rfl, rfl, rfl, rfl, rfl, _, rfl⟩

/-! ### What comes before the step (R118, R120, R129) -/

/-- A profile selected since leaves the loop's values. -/
theorem takeM_keeps (x : Cell) : x.takeM.m.e1 = x.m.e1 ∧ x.takeM.m.v1 = x.m.v1 ∧ x.takeM.m.settle = x.m.settle := by
  change (if x.mNext = x.midx then x.m else x.m.clearOd).e1 = _ ∧ (if x.mNext = x.midx then x.m else x.m.clearOd).v1 = _ ∧
    (if x.mNext = x.midx then x.m else x.m.clearOd).settle = _
  split <;> exact ⟨rfl, rfl, rfl⟩

theorem rowFour_stays {s : State} {c : Nat} (h : (s.cell c).mode ≠ .holdPosition ∨ (s.cell c).timedOut = false ∨
    (s.cell c).wasAt ≠ some s.now) : s.rowFour c = s := by
  refine if_neg fun hc => ?_
  rcases h with h | h | h <;> simp [h] at hc

theorem resumeTrim_trims (s : State) (c : Nat) (y : Int) :
    s.Works (s.resumeTrim c y) c ∧ ∃ o, (s.resumeTrim c y).cell c = { s.cell c with o := o } := by
  unfold State.resumeTrim
  split
  · refine ⟨(State.Works.refl s c).modCell _, ?_⟩
    rw [cell_modCell_self]
    exact ⟨_, rfl⟩
  · exact ⟨.refl s c, _, rfl⟩

/-- The state in which the step of the sample is made. -/
def State.ready (s : State) (c : Nat) (y : Int) : State := (s.modCell c Cell.takeM).resumeTrim c y

theorem ready_works (s : State) (c : Nat) (y : Int) : s.Works (s.ready c y) c ∧
    ∃ o, (s.ready c y).cell c = { (s.cell c).takeM with o := o } := by
  obtain ⟨hw, o, ho⟩ := resumeTrim_trims (s.modCell c Cell.takeM) c y
  rw [cell_modCell_self] at ho
  exact ⟨((State.Works.refl s c).modCell _).trans hw, o, ho⟩

/-! ### What comes after the step -/

/-- The loop's values of a sample, which its bookkeeping leaves. -/
structure MLoop.Same (m n : MLoop) : Prop where
  y : n.y = m.y
  sp : n.sp = m.sp
  r : n.r = m.r
  e0 : n.e0 = m.e0
  e1 : n.e1 = m.e1
  e2 : n.e2 = m.e2
  v2 : n.v2 = m.v2
  dout : n.dout = m.dout
  corr : n.corr = m.corr
  frame : n.frame = m.frame
  settle : n.settle = m.settle

theorem afterM_books (s : State) (c : Nat) : s.Works (s.afterM c) c ∧
    ∃ n, (s.afterM c).cell c = { s.cell c with m := n } ∧ (s.cell c).m.Same n := by
  unfold State.afterM
  dsimp only
  split
  · refine ⟨(State.Works.refl s c).modCell _, ?_⟩
    rw [cell_modCell_self]
    refine ⟨_, rfl, ?_⟩
    split <;> exact ⟨rfl, rfl, rfl, rfl, rfl, rfl, rfl, rfl, rfl, rfl, rfl⟩
  · refine ⟨(State.Works.refl s c).modCell _, ?_⟩
    rw [cell_modCell_self]
    exact ⟨_, rfl, rfl, rfl, rfl, rfl, rfl, rfl, rfl, rfl, rfl, rfl, rfl⟩

/-- The step of the sample in state `v`, with its bookkeeping. -/
def State.mStepped (v : State) (c : Nat) (y : Int) : State :=
  (v.modCell c fun x => { x with m := { v.mStep c y with frame := some (v.aperture c), count := (v.mStep c y).count + 1 } }).afterM c

theorem mStepped_works (v : State) (c : Nat) (y : Int) : v.Works (v.mStepped c y) c ∧
    ∃ n, (v.mStepped c y).cell c = { v.cell c with m := n } ∧
      MLoop.Same { v.mStep c y with frame := some (v.aperture c), count := (v.mStep c y).count + 1 } n := by
  obtain ⟨hw, n, hn, hs⟩ := afterM_books
    (v.modCell c fun x => { x with m := { v.mStep c y with frame := some (v.aperture c), count := (v.mStep c y).count + 1 } }) c
  rw [cell_modCell_self] at hn hs
  exact ⟨((State.Works.refl v c).modCell _).trans hw, n, hn, hs⟩

theorem calLeg_goes (s : State) (c : Nat) : s.Works (s.calLeg c) c ∧ ∃ j, (s.calLeg c).cell c = { s.cell c with cal := j } := by
  unfold State.calLeg
  split
  · exact ⟨.refl s c, _, rfl⟩
  · refine ⟨(State.Works.refl s c).modCell _, ?_⟩
    rw [cell_modCell_self]
    exact ⟨_, rfl⟩

theorem feedEstimator_only (s : State) (c : Nat) : ∃ p, s.feedEstimator c = s.onLoop fun l => { l with period := p } := by
  unfold State.feedEstimator
  dsimp only
  split
  · exact ⟨s.loop.period, rfl⟩
  · exact ⟨_, rfl⟩

theorem takeSnap_only (s : State) (h : Nat) : ∃ l, s.takeSnap h = { s with loop.chans := l } := by
  unfold State.takeSnap
  split
  · split
    · exact ⟨_, rfl⟩
    · exact ⟨_, rfl⟩
  · exact ⟨_, rfl⟩

theorem snapAfter_only (s : State) (c : Nat) : ∃ l, s.snapAfter c = { s with loop.chans := l } := by
  unfold State.snapAfter
  split
  · exact takeSnap_only ..
  · exact ⟨_, rfl⟩

/-- What follows the settle test: of the cells it touches the calibration of `c` alone. -/
def State.wound (s : State) (c : Nat) : State := ((s.calLeg c).feedEstimator c).snapAfter c

theorem wound_fields (s : State) (c : Nat) : (s.wound c).fab = s.fab ∧ (∀ d, d ≠ c → (s.wound c).cell d = s.cell d) ∧
    ∃ j, (s.wound c).cell c = { s.cell c with cal := j } := by
  obtain ⟨hw, hj⟩ := calLeg_goes s c
  obtain ⟨p, hp⟩ := feedEstimator_only (s.calLeg c) c
  obtain ⟨l, hl⟩ := snapAfter_only ((s.calLeg c).feedEstimator c) c
  unfold State.wound
  rw [hl, hp]
  exact ⟨hw.fab, hw.others, hj⟩

theorem mSample_undue {s : State} {c : Nat} (h : s.frameDue c = false) (y : Int) : s.mSample c y = s :=
  if_neg (ne_true_of_eq_false h)

/-- A sample that is due, and is not the one of R118 row 4. -/
theorem mSample_due {s : State} {c : Nat} (h : s.frameDue c = true) (hr : (s.cell c).mode ≠ .holdPosition ∨
    (s.cell c).timedOut = false ∨ (s.cell c).wasAt ≠ some s.now) (y : Int) :
    let z := sat32 (y + (s.calOf c).lin)
    s.mSample c y = (((s.ready c z).mStepped c z).settleTest c (s.aperture c)).wound c := by
  intro z
  have hf : (s.modCell c Cell.takeM).rowFour c = s.modCell c Cell.takeM :=
    rowFour_stays (by rw [cell_modCell_self]; exact hr)
  have hw : s.mSample c y = ((((((s.modCell c Cell.takeM).rowFour c).resumeTrim c z).mStepped c z).settleTest c
      (((s.modCell c Cell.takeM).rowFour c).resumeTrim c z |>.aperture c)).wound c) := if_pos h
  rw [hw, hf]
  exact congrArg (fun a => (((s.ready c z).mStepped c z).settleTest c a).wound c) (ready_works s c z).1.aperture

/-- The cell before the settle test, with the step that was made of it. -/
theorem sampled_cell (s : State) (c : Nat) (z : Int) : s.Works ((s.ready c z).mStepped c z) c ∧ ∃ o n,
    ((s.ready c z).mStepped c z).cell c = { (s.cell c).takeM with o := o, m := n } ∧
    MLoop.Same { (s.ready c z).mStep c z with frame := some (s.aperture c), count := ((s.ready c z).mStep c z).count + 1 } n := by
  obtain ⟨hw, o, ho⟩ := ready_works s c z
  obtain ⟨hv, n, hn, hs⟩ := mStepped_works (s.ready c z) c z
  rw [ho] at hn
  rw [hw.aperture] at hs
  exact ⟨hw.trans hv, o, n, hn, hs⟩

/-! ### The settle test (R77, R78) -/

/-- Outside a stitch it moves at most the count of a timed-out cell, and its position. -/
theorem settleTest_still {s : State} {c : Nat} (a : Nat) (h : (s.cell c).mode ≠ .trajectory) :
    s.Works (s.settleTest c a) c ∧ ∃ k q, (s.settleTest c a).cell c = { s.cell c with m := { (s.cell c).m with settle := k }, pos := q } ∧
      ((s.cell c).timedOut = false → q = (s.cell c).pos) := by
  unfold State.settleTest
  dsimp only
  rw [if_neg h]
  split
  next ht =>
    refine ⟨(State.Works.refl s c).modCell _, ?_⟩
    rw [cell_modCell_self]
    refine ⟨_, _, rfl, fun hf => ?_⟩
    rw [hf] at ht
    exact absurd ht Bool.false_ne_true
  · exact ⟨.refl s c, _, _, rfl, fun _ => rfl⟩

/-- Samples in the settle band so far, with this one. -/
def State.bandRun (s : State) (c : Nat) : Nat := if mag (s.cell c).m.e0 ≤ s.settleBand then (s.cell c).m.settle + 1 else 0

/-- The sample counted. -/
def State.counted (s : State) (c : Nat) : State := s.modCell c fun x => { x with m := { x.m with settle := s.bandRun c } }

theorem cell_counted (s : State) (c : Nat) :
    (s.counted c).cell c = { s.cell c with m := { (s.cell c).m with settle := s.bandRun c } } := cell_modCell_self ..

theorem settleTest_early {s : State} {c a : Nat} (h : (s.cell c).mode = .trajectory) (ha : a < (s.cell c).stitchRaw + nsC 400) :
    s.settleTest c a = s := (if_pos h).trans (if_pos ha)

section
variable {s : State} {c a : Nat} (h : (s.cell c).mode = .trajectory) (ha : (s.cell c).stitchRaw + nsC 400 ≤ a)
include h ha

theorem settleTest_counts : s.settleTest c a =
    if s.bandRun c < 4 then s.counted c
    else if (s.cell c).stitching then
      if a ≤ (s.cell c).stitchRaw + s.settleNs * 1024 / 1000 then (s.counted c).settled c a else s.counted c
    else if (s.cell c).recovering then (s.counted c).recovered c a else s.counted c :=
  (if_pos h).trans (if_neg (Nat.not_lt.mpr ha))

theorem settleTest_few (hn : s.bandRun c < 4) : s.settleTest c a = s.counted c := by
  rw [settleTest_counts h ha, if_pos hn]

variable (hn : ¬ s.bandRun c < 4)
include hn

theorem settleTest_settles (hs : (s.cell c).stitching = true) (ht : a ≤ (s.cell c).stitchRaw + s.settleNs * 1024 / 1000) :
    s.settleTest c a = (s.counted c).settled c a := by
  rw [settleTest_counts h ha, if_neg hn, if_pos hs, if_pos ht]

theorem settleTest_late (hs : ((s.cell c).stitching = true ∧ (s.cell c).stitchRaw + s.settleNs * 1024 / 1000 < a) ∨
    ((s.cell c).stitching = false ∧ (s.cell c).recovering = false)) : s.settleTest c a = s.counted c := by
  rw [settleTest_counts h ha, if_neg hn]
  rcases hs with ⟨hs, ht⟩ | ⟨hs, hr⟩
  · rw [if_pos hs, if_neg (Nat.not_le.mpr ht)]
  · rw [if_neg (ne_true_of_eq_false hs), if_neg (ne_true_of_eq_false hr)]

theorem settleTest_recovers (hs : (s.cell c).stitching = false) (hr : (s.cell c).recovering = true) :
    s.settleTest c a = (s.counted c).recovered c a := by
  rw [settleTest_counts h ha, if_neg hn, if_neg (ne_true_of_eq_false hs), if_pos hr]
end

theorem cell_settled (s : State) (c a : Nat) : ∃ x, (s.settled c a).cell c = x ∧ x.mode = .holdPosition ∧ x.stitching = false ∧
    x.pos = (s.cell c).posOf ∧ x.hist = addOutcome (s.cell c).hist false (s.cell c).state ∧ x.o.check = true ∧
    x.settledIn = a - (s.cell c).stitchRaw := by
  refine ⟨_, rfl, ?_⟩
  unfold State.settled
  rw [cell_stitchRec, cell_modCell_self, cell_endStitch_self]
  exact ⟨rfl, rfl, rfl, rfl, rfl, rfl⟩

theorem cell_recovered (s : State) (c a : Nat) : ∃ x, (s.recovered c a).cell c = x ∧ x.mode = .holdPosition ∧
    x.recovering = false ∧ x.pos = (s.cell c).posOf ∧ x.hist = (s.cell c).hist := by
  refine ⟨_, rfl, ?_⟩
  unfold State.recovered
  rw [cell_event, cell_modCell_self, cell_endStitch_self]
  exact ⟨rfl, rfl, rfl, rfl⟩

/-! ### The sample by mode -/

section
variable {s : State} {c : Nat} {z : Int}

/-- The step of a driven loop, by what the loop was before the sample. -/
theorem ready_step (hm : (s.cell c).mode ≠ .park) :
    let n := (s.ready c z).mStep c z
    n.y = z ∧ n.e0 = sat32 (n.sp - z) ∧ n.e1 = n.e0 ∧ n.e2 = (s.cell c).m.e1 ∧ n.v2 = (s.cell c).m.v1 ∧
    n.settle = (s.cell c).m.settle ∧
    (∃ d, n.dout = clampI d (s.param (s.cell c).mNext.toNat 0) (s.param (s.cell c).mNext.toNat 1)) ∧
    ((s.cell c).mode ≠ .trajectory → n.sp = n.r) := by
  obtain ⟨hw, o, ho⟩ := ready_works s c z
  obtain ⟨ke, kv, ks⟩ := takeM_keeps (s.cell c)
  obtain ⟨h1, h2, h3, h4, h5, h6, h7, h8, d, h9⟩ := mStep_driven (s := s.ready c z) (c := c) z (by rw [ho]; exact hm)
  have hp := setPoint_same (s := s.ready c z) (c := c) z
  rw [ho] at h6 h7 h8 h9 hp
  rw [hw.param, hw.param] at h9
  exact ⟨h1, h4, h5, h6.trans ke, h7.trans kv, h8.trans ks, ⟨d, h9⟩, fun ht => h2.trans ((hp ht).trans h3.symm)⟩

theorem ready_step_park (hm : (s.cell c).mode = .park) :
    let n := (s.ready c z).mStep c z
    n.y = z ∧ n.r = z ∧ n.sp = z ∧ n.corr = 0 := by
  obtain ⟨_, o, ho⟩ := ready_works s c z
  rw [mStep_park z (by rw [ho]; exact hm)]
  exact ⟨rfl, rfl, rfl, rfl⟩
end

/-- The position that a sample takes (R149). -/
def State.linear (s : State) (c : Nat) (w : Int) : Int := sat32 (w + (s.calOf c).lin)

section
variable {s : State} {c : Nat} (h : s.frameDue c = true) (w : Int)
include h

/-- In no stitch: the cell after the sample, by the step that was made. -/
theorem mSample_still (hm : (s.cell c).mode ≠ .trajectory) (hr : (s.cell c).mode ≠ .holdPosition ∨
    (s.cell c).timedOut = false ∨ (s.cell c).wasAt ≠ some s.now) :
    let z := s.linear c w
    let t := s.mSample c w
    t.fab = s.fab ∧ (∀ d, d ≠ c → t.cell d = s.cell d) ∧ ∃ o n q j k,
      t.cell c = { (s.cell c).takeM with o := o, m := { n with settle := k }, pos := q, cal := j } ∧
      ((s.cell c).timedOut = false → q = (s.cell c).pos) ∧
      MLoop.Same { (s.ready c z).mStep c z with frame := some (s.aperture c), count := ((s.ready c z).mStep c z).count + 1 } n := by
  intro z t
  obtain ⟨hw, o, n, hn, hs⟩ := sampled_cell s c z
  obtain ⟨hv, k, q, hq, hp⟩ := settleTest_still (s := (s.ready c z).mStepped c z) (c := c) (s.aperture c) (by rw [hn]; exact hm)
  obtain ⟨hf, ho, j, hj⟩ := wound_fields (((s.ready c z).mStepped c z).settleTest c (s.aperture c)) c
  rw [show t = _ from mSample_due h hr w]
  rw [hn] at hq hp
  exact ⟨hf.trans (hv.fab.trans hw.fab), fun d hd => (ho d hd).trans ((hv.others d hd).trans (hw.others d hd)),
    o, n, q, j, k, hj.trans (by rw [hq]), hp, hs⟩

/-- In a stitch: the settle test decides, on the cell as the step left it. -/
theorem mSample_stitch (hm : (s.cell c).mode = .trajectory) :
    let z := s.linear c w
    ∃ (b : State) (o : OLoop) (n : MLoop) (j : Option CalJob),
      b.cell c = { (s.cell c).takeM with o := o, m := n } ∧ n.settle = (s.cell c).m.settle ∧
      b.bandRun c = (if mag ((s.ready c z).mStep c z).e0 ≤ s.settleBand then (s.cell c).m.settle + 1 else 0) ∧
      b.settleNs = s.settleNs ∧ (s.mSample c w).cell c = { (b.settleTest c (s.aperture c)).cell c with cal := j } := by
  intro z
  have hd : (s.cell c).mode ≠ .park := by rw [hm]; decide
  obtain ⟨hw, o, n, hn, hs⟩ := sampled_cell s c z
  obtain ⟨_, _, _, _, _, hset, _, _⟩ := ready_step (z := z) hd
  obtain ⟨_, _, j, hj⟩ := wound_fields (((s.ready c z).mStepped c z).settleTest c (s.aperture c)) c
  refine ⟨(s.ready c z).mStepped c z, o, n, j, hn, hs.settle.trans hset, ?_, hw.settleNs, ?_⟩
  · unfold State.bandRun
    rw [hn, hw.settleBand, hs.e0, hs.settle, hset]
  · rw [mSample_due h (.inl (by rw [hm]; decide)) w]; exact hj
end

/-! ### The obligation -/

section
variable {u : State} {c : Nat} (h : u.frameDue c = true) (w : Int)
include h

theorem mSample_holds (hm : (u.cell c).mode.holds = true) (hr : (u.cell c).timedOut = false ∨ (u.cell c).wasAt ≠ some u.now) :
    let x := u.cell c
    let y := u.linear c w
    let p := x.mNext.toNat
    let t := u.mSample c w
    (t.cell c).m.y = y ∧ (t.cell c).midx = x.mNext ∧ (t.cell c).m.sp = (t.cell c).m.r ∧
    (t.cell c).m.e0 = sat32 ((t.cell c).m.sp - y) ∧ (t.cell c).m.e1 = (t.cell c).m.e0 ∧
    (t.cell c).m.e2 = x.m.e1 ∧ (t.cell c).m.v2 = x.m.v1 ∧
    ((u.param p 0 : Int) ≤ u.param p 1 →
      (u.param p 0 : Int) ≤ (t.cell c).m.dout ∧ (t.cell c).m.dout ≤ u.param p 1) ∧
    (x.timedOut = false → (t.cell c).pos = x.pos) ∧
    (t.cell c).mode = x.mode ∧ (t.cell c).m.frame = some (u.aperture c) ∧ t.fab = u.fab ∧
    ∀ d, d ≠ c → t.cell d = u.cell d := by
  have ht : (u.cell c).mode ≠ .trajectory := fun ht => by rw [ht] at hm; exact absurd hm (by decide)
  have hk : (u.cell c).mode ≠ .park := fun hk => by rw [hk] at hm; exact absurd hm (by decide)
  intro x y p t
  obtain ⟨hf, ho, o, n, q, j, k, hc, hq, hs⟩ := mSample_still h w ht (.inr hr)
  obtain ⟨h1, h2, h3, h4, h5, _, ⟨d, h7⟩, h8⟩ := ready_step (z := y) hk
  rw [show t.cell c = _ from hc]
  refine ⟨hs.y.trans h1, rfl, hs.sp.trans ((h8 ht).trans hs.r.symm), hs.e0.trans (h2.trans ?_), hs.e1.trans (h3.trans hs.e0.symm),
    hs.e2.trans h4, hs.v2.trans h5, fun hp => ?_, hq, rfl, hs.frame, hf, ho⟩
  · exact congrArg (fun v => sat32 (v - y)) hs.sp.symm
  · have hd : n.dout = _ := hs.dout.trans h7
    have hb := clampI_bounds (x := d) hp
    rw [← hd] at hb
    exact hb

theorem mSample_parks (hm : (u.cell c).mode = .park) :
    let y := u.linear c w
    let t := u.mSample c w
    (t.cell c).m.y = y ∧ (t.cell c).m.r = y ∧ (t.cell c).m.sp = y ∧ (t.cell c).m.corr = 0 ∧ (t.cell c).mode = .park ∧
    t.fab = u.fab ∧ ∀ d, d ≠ c → t.cell d = u.cell d := by
  intro y t
  obtain ⟨hf, ho, o, n, q, j, k, hc, _, hs⟩ := mSample_still h w (by rw [hm]; decide) (.inl (by rw [hm]; decide))
  obtain ⟨h1, h2, h3, h4⟩ := ready_step_park (z := y) hm
  rw [show t.cell c = _ from hc]
  exact ⟨hs.y.trans h1, hs.r.trans h2, hs.sp.trans h3, hs.corr.trans h4, hm, hf, ho⟩

theorem mSample_calibrates (hm : (u.cell c).mode = .cal) :
    let y := u.linear c w
    let t := u.mSample c w
    (t.cell c).m.y = y ∧ (t.cell c).m.sp = (t.cell c).m.r ∧ (t.cell c).m.e0 = sat32 ((t.cell c).m.sp - y) ∧
    (t.cell c).mode = .cal ∧ t.fab = u.fab ∧ ∀ d, d ≠ c → t.cell d = u.cell d := by
  intro y t
  have ht : (u.cell c).mode ≠ .trajectory := by rw [hm]; decide
  obtain ⟨hf, ho, o, n, q, j, k, hc, _, hs⟩ := mSample_still h w ht (.inl (by rw [hm]; decide))
  obtain ⟨h1, h2, _, _, _, _, _, h8⟩ := ready_step (z := y) (by rw [hm]; decide)
  rw [show t.cell c = _ from hc]
  refine ⟨hs.y.trans h1, hs.sp.trans ((h8 ht).trans hs.r.symm), hs.e0.trans (h2.trans ?_), hm, hf, ho⟩
  exact congrArg (fun v => sat32 (v - y)) hs.sp.symm

theorem mSample_stitches (hm : (u.cell c).mode = .trajectory) :
    let x := u.cell c
    let y := u.linear c w
    let t := u.mSample c w
    let inBand := mag ((u.ready c y).mStep c y).e0 ≤ u.settleBand
    let a := u.aperture c
    (a < x.stitchRaw + nsC 400 → (t.cell c).mode = .trajectory ∧ (t.cell c).m.settle = x.m.settle) ∧
    (x.stitchRaw + nsC 400 ≤ a → (¬ inBand ∨ x.m.settle < 3) → (t.cell c).mode = .trajectory ∧
      (inBand → (t.cell c).m.settle = x.m.settle + 1) ∧ (¬ inBand → (t.cell c).m.settle = 0)) ∧
    (x.stitchRaw + nsC 400 ≤ a → inBand → 3 ≤ x.m.settle →
      (x.stitching = true → a ≤ x.stitchRaw + u.settleNs * 1024 / 1000 →
        (t.cell c).mode = .holdPosition ∧ (t.cell c).stitching = false ∧ (t.cell c).pos = x.posOf ∧
        (t.cell c).hist = addOutcome x.hist false x.state ∧ (t.cell c).o.check = true ∧
        (t.cell c).settledIn = a - x.stitchRaw) ∧
      ((x.stitching = true ∧ x.stitchRaw + u.settleNs * 1024 / 1000 < a) ∨ (x.stitching = false ∧ x.recovering = false) →
        (t.cell c).mode = .trajectory ∧ (t.cell c).pos = x.pos ∧ (t.cell c).hist = x.hist) ∧
      (x.stitching = false → x.recovering = true →
        (t.cell c).mode = .holdPosition ∧ (t.cell c).recovering = false ∧ (t.cell c).pos = x.posOf ∧
        (t.cell c).hist = x.hist)) := by
  intro x y t inBand a
  obtain ⟨b, o, n, j, hb, hn, hr, hd, ht⟩ := mSample_stitch h w hm
  have hbm : (b.cell c).mode = .trajectory := by rw [hb]; exact hm
  have hraw : (b.cell c).stitchRaw = x.stitchRaw := by rw [hb]; rfl
  have hst : (b.cell c).stitching = x.stitching := by rw [hb]; rfl
  have hrc : (b.cell c).recovering = x.recovering := by rw [hb]; rfl
  have hcnt := cell_counted b c
  rw [hb] at hcnt
  rw [show t.cell c = _ from ht]
  refine ⟨fun ha => ?_, fun ha hi => ?_, fun ha hi h3 => ?_⟩
  · rw [settleTest_early hbm (hraw ▸ ha), hb]
    exact ⟨hm, hn⟩
  · have hf : b.bandRun c < 4 := by
      rw [hr]; split
      next hin => exact Nat.succ_lt_succ (hi.resolve_left (not_not_intro hin))
      next => exact Nat.succ_pos 3
    rw [settleTest_few hbm (hraw ▸ ha) hf, hcnt]
    exact ⟨hm, fun hin => hr.trans (if_pos hin), fun hin => hr.trans (if_neg hin)⟩
  · have hf : ¬ b.bandRun c < 4 := by rw [hr, if_pos hi]; exact Nat.not_lt.mpr (Nat.succ_le_succ h3)
    refine ⟨fun hs hl => ?_, fun hs => ?_, fun hs hv => ?_⟩
    · rw [settleTest_settles hbm (hraw ▸ ha) hf (hst.trans hs) (by rw [hraw, hd]; exact hl)]
      obtain ⟨z, hz, h1, h2, h4, h5, h6, h7⟩ := cell_settled (b.counted c) c (u.aperture c)
      rw [hz]
      rw [hcnt] at h4 h5 h7
      exact ⟨h1, h2, h4, h5, h6, h7⟩
    · rw [settleTest_late hbm (hraw ▸ ha) hf (by rw [hst, hraw, hd, hrc]; exact hs), hcnt]
      exact ⟨hm, rfl, rfl⟩
    · rw [settleTest_recovers hbm (hraw ▸ ha) hf (hst.trans hs) (hrc.trans hv)]
      obtain ⟨z, hz, h1, h2, h4, h5⟩ := cell_recovered (b.counted c) c (u.aperture c)
      rw [hz]
      rw [hcnt] at h4 h5
      exact ⟨h1, h2, h4, h5⟩
end

/-- Settles O39, by the cell that a sample leaves in each mode. -/
theorem samplesOfTheMainLoop : Obligations.SamplesOfTheMainLoop := by
  unfold Obligations.SamplesOfTheMainLoop
  intro s u dt c w hu
  subst hu
  refine ⟨fun h => by rw [exec_mSample, mSample_undue h], fun h => ⟨fun hm hr => ?_, fun hm => ?_, fun hm => ?_, fun hm => ?_⟩⟩
  · exact ⟨_, exec_mSample .., mSample_holds h (sw w) hm hr⟩
  · exact ⟨_, exec_mSample .., mSample_parks h (sw w) hm⟩
  · exact ⟨_, exec_mSample .., mSample_calibrates h (sw w) hm⟩
  · obtain ⟨h1, h2, h3⟩ := mSample_stitches h (sw w) hm
    refine ⟨fun ha => ⟨_, exec_mSample .., h1 ha⟩, fun ha hi => ⟨_, exec_mSample .., h2 ha hi⟩, fun ha hi hn => ?_⟩
    obtain ⟨h4, h5, h6⟩ := h3 ha hi hn
    exact ⟨fun hs hl => ⟨_, exec_mSample .., h4 hs hl⟩, fun hs => ⟨_, exec_mSample .., h5 hs⟩,
      fun hs hv => ⟨_, exec_mSample .., h6 hs hv⟩⟩

end Sys2Proof.Machine
end

section
/-! The start of a circuit change: what it takes of the plan, and the change that it leaves running (R72, R75, R76). -/

namespace Sys2Proof.Machine

/-! ### Change sets -/

theorem caredCells_congr {s t : State} (h : t.sram = s.sram) (m : Nat) : t.caredCells m = s.caredCells m := by
  have := congrArg (fun r => ({ s with sram := r } : State).caredCells m) h
  exact this

theorem changeSet_congr {s t : State} (h : t.sram = s.sram) (hl : t.loop = s.loop) (m : Nat) : t.changeSet m = s.changeSet m := by
  unfold State.changeSet
  rw [caredCells_congr h]
  exact List.filter_congr fun d _ => by rw [cell_congr hl]

/-! ### The end of the self-test, and the change that is overtaken -/

theorem loop_endTest (s : State) (a : Bool) : (s.endTest a).loop = s.loop := by
  unfold State.endTest
  split
  · rfl
  · extract_lets ls q e t tested counted done aborted
    have hd : done.loop = s.loop := by simp [done, counted, tested]
    have ha : aborted.loop = s.loop := by
      unfold aborted
      split
      · rw [← hd]; simp
      · exact hd
    rw [foldl_keeps State.loop ls (fun s l => (s.loseLock l).dropDelay l) (fun s k => (loseLane_keeps s k).2), ha]

/-- The plan with the self-test `q`. -/
def State.withTest (s : State) (q : SelfTest) : State := { s with tst := q }

theorem plan_endTest_eq (s : State) (a : Bool) : (s.endTest a).plan = (s.withTest (s.endTest a).tst).plan := plan_endTest s a

theorem now_endTest (s : State) (a : Bool) : (s.endTest a).now = s.now :=
  (now_of_plan (plan_endTest_eq s a)).trans rfl
theorem inForce_endTest (s : State) (a : Bool) : (s.endTest a).fab.inForce = s.fab.inForce :=
  (inForce_of_plan (plan_endTest_eq s a)).trans rfl
theorem sram_endTest (s : State) (a : Bool) : (s.endTest a).sram = s.sram :=
  (sram_of_plan (plan_endTest_eq s a)).trans rfl

/-- The state with the change `ch` running. -/
def State.running (s : State) (ch : Option Change) : State := s.onFab fun f => { f with change := ch }

theorem plan_running {s t : State} (h : t.plan = s.plan) (ch : Option Change) : (t.running ch).plan = (s.running ch).plan := by
  have := congrArg (fun s : State => (s.running ch).plan) h
  exact this

theorem running_self {s : State} {ch : Option Change} (h : s.fab.change = ch) : s.running ch = s := by subst h; rfl

/-- An overtaken change reports, and no change runs. -/
theorem overtake_fields (s : State) : (s.overtake.1).plan = (s.running none).plan ∧ s.overtake.1.loop = s.loop := by
  unfold State.overtake
  split
  next hc => rw [running_self hc]; exact ⟨rfl, rfl⟩
  next ch hc =>
    dsimp only
    split
    · exact ⟨plan_finishCmd .., by simp⟩
    · exact ⟨rfl, rfl⟩

/-! ### The start -/

/-- The change that starts, as it runs from then on. -/
structure Change.Starts (ch : Change) (s : State) (tc : Nat) (late : Bool) (d : Change) : Prop where
  map : d.map = ch.map
  prev : d.prev = s.fab.inForce
  src : d.src = ch.src
  stage : d.stage = .started
  tc : d.tc = tc
  late : d.late = late
  guard : d.guard = ch.guard
  cells : d.cells = (s.changeSet ch.map).map (·.1)
  endRaw : d.endRaw = s.now + nsC ch.guard

/-- A start ends the self-test and leaves the change running; nothing else of the plan changes with it. -/
theorem startChange_starts (s : State) (ch : Change) (tc : Nat) (late : Bool) : ∃ (q : SelfTest) (d : Change), q.busy = false ∧
    (s.startChange ch tc late).plan = ((s.withTest q).running (some d)).plan ∧ ch.Starts s tc late d := by
  unfold State.startChange
  extract_lets t m cs ids aff lanes missing d freed stitched taken cut
  have hcut : cut.plan = (s.withTest t.tst).plan := by
    have h1 : freed.plan = t.plan := plan_freeCells ..
    have h2 : stitched.plan = freed.plan := plan_foldl _ (fun s d => by split <;> simp) _
    have h3 : taken.plan = stitched.plan := (plan_takeUpMap ..).trans (plan_unstage ..)
    have h4 : cut.plan = taken.plan := plan_foldl _ (fun s l => plan_cutConnection s l) _
    rw [h4, h3, h2, h1]
    exact plan_endTest_eq s true
  refine ⟨t.tst, d, busy_endTest s true, ?_, rfl, inForce_endTest s true, rfl, rfl, rfl, rfl, rfl, ?_, ?_⟩
  · rw [plan_followPolicies]; exact plan_running hcut (some d)
  · exact congrArg (List.map Prod.fst) (changeSet_congr (sram_endTest s true) (loop_endTest s true) ch.map)
  · exact congrArg (· + nsC ch.guard) (now_endTest s true)

/-- What else of the plan is asked for after a start. -/
theorem startChange_fields (s : State) (ch : Change) (tc : Nat) (late : Bool) : ∃ d, ch.Starts s tc late d ∧
    let t := s.startChange ch tc late
    t.fab.change = some d ∧ t.tst.busy = false ∧ t.sched = s.sched ∧ t.fab.inForce = s.fab.inForce ∧
    t.fab.waiting = s.fab.waiting := by
  obtain ⟨q, d, hq, hp, hs⟩ := startChange_starts s ch tc late
  have ht : (s.startChange ch tc late).tst = q := of_plan State.tst (fun _ => rfl) hp
  exact ⟨d, hs, change_of_plan hp, (congrArg SelfTest.busy ht).trans hq,
    (sched_of_plan hp).trans rfl, (inForce_of_plan hp).trans rfl, (waiting_of_plan hp).trans rfl⟩

end Sys2Proof.Machine
end

section
/-! Settling O36: the start, the guard interval and the verification of a circuit change. -/

namespace Sys2Proof.Machine

theorem exec_sequencerArmed (s : State) (dt : Nat) : exec (.sequencerArmed dt) s = .next (s.pass dt).armSequencers.finish := rfl
theorem exec_circuitChangeStart (s : State) (dt : Nat) :
    exec (.circuitChangeStart dt) s = .next (s.pass dt).changeStart.finish := rfl
theorem exec_guardIntervalEnd (s : State) (dt : Nat) : exec (.guardIntervalEnd dt) s = .next (s.pass dt).guardEnd.finish := rfl
theorem exec_changeComplete (s : State) (dt : Nat) : exec (.changeComplete dt) s = .next (s.pass dt).completeChange.finish := rfl

/-! ### Arming (R75, R81) -/

/-- The state with the sequencers of entry `a` armed. -/
def State.armedAt (s : State) (a : Option Nat) : State := s.onFab fun f => { f with armedEntry := a }

theorem changeReady_armedAt (s : State) (a : Option Nat) (ch : Change) : (s.armedAt a).changeReady ch = s.changeReady ch := rfl

/-- The time of a change is at most 500 ns ahead. -/
def State.near (s : State) (ch : Change) : Bool :=
  match ch.at_ with
  | none => true
  | some t => s.isDue (t - 500)

theorem near_some {s : State} {ch : Change} {a : Nat} (h : ch.at_ = some a) : s.near ch = s.isDue (a - 500) := by
  unfold State.near; rw [h]

theorem near_of {s : State} {ch : Change} (h : ∀ a, ch.at_ = some a → s.isDue (a - 500) = true) : s.near ch = true := by
  unfold State.near
  split
  · rfl
  next t ht => exact h t ht

/-- A change in preparation as arming leaves it. -/
def State.armedChange (s : State) (ch : Change) : Change :=
  if s.near ch && s.changeReady ch then { ch with stage := .armed } else ch

/-- The entry whose sequencers are armed after arming. -/
def State.nextArmed (s : State) : Option Nat :=
  match s.dueEntry with
  | some (r, _, tc) => if !s.quiet && s.dueNt (tc - 500 * 65536) then some r.change else s.fab.armedEntry
  | none => s.fab.armedEntry

theorem nextArmed_some {s : State} {x : Run} {c : Chg} {tc : Nat} (hx : s.dueEntry = some (x, c, tc)) : s.nextArmed =
    if !s.quiet && s.dueNt (tc - 500 * 65536) then some x.change else s.fab.armedEntry := by
  unfold State.nextArmed; rw [hx]

theorem nextArmed_none {s : State} (hx : s.dueEntry = none) : s.nextArmed = s.fab.armedEntry := by
  unfold State.nextArmed; rw [hx]

theorem armSequencers_eq (s : State) : s.armSequencers =
    (s.armedAt s.nextArmed).onFab fun f => { f with waiting := f.waiting.map (s.armedAt s.nextArmed).armedChange } := by
  have hs : ∀ t : State, (t = s.armedAt s.nextArmed) →
      (t.onFab fun f => { f with waiting := f.waiting.map t.armedChange }) =
      (s.armedAt s.nextArmed).onFab fun f => { f with waiting := f.waiting.map (s.armedAt s.nextArmed).armedChange } :=
    fun t ht => by rw [ht]
  refine hs _ ?_
  split
  next r c tc hd => rw [nextArmed_some hd]; split <;> rfl
  next hd => rw [nextArmed_none hd]; rfl

theorem armSequencers_fields (s : State) : s.armSequencers.sched = s.sched ∧ s.armSequencers.loop = s.loop ∧
    s.armSequencers.fab.change = s.fab.change ∧ s.armSequencers.fab.armedEntry = s.nextArmed ∧
    s.armSequencers.fab.waiting.length = s.fab.waiting.length := by
  rw [armSequencers_eq, State.onFab_sched, State.onFab_loop, State.onFab_fab, State.armedAt, State.onFab_sched, State.onFab_loop,
    State.onFab_fab]
  exact ⟨rfl, rfl, rfl, rfl, List.length_map _⟩

theorem armedChange_armedAt (s : State) (a : Option Nat) (ch : Change) : (s.armedAt a).armedChange ch = s.armedChange ch := by
  unfold State.armedChange
  rw [changeReady_armedAt]
  rfl

theorem armedChange_arms {s : State} {ch : Change} (hr : s.changeReady ch = true)
    (hd : ∀ a, ch.at_ = some a → s.isDue (a - 500) = true) : s.armedChange ch = { ch with stage := .armed } :=
  if_pos (by rw [hr, near_of hd]; rfl)

theorem armedChange_waits {s : State} {ch : Change} (h : s.changeReady ch = false ∨ ∃ a, ch.at_ = some a ∧ s.isDue (a - 500) = false) :
    s.armedChange ch = ch := by
  refine if_neg (ne_true_of_eq_false ?_)
  rcases h with h | ⟨a, ha, hd⟩
  · rw [h, Bool.and_false]
  · rw [near_some ha, hd, Bool.false_and]

theorem nextArmed_near {s : State} {x : Run} {c : Chg} {tc : Nat} (hx : s.dueEntry = some (x, c, tc)) (hq : s.quiet = false)
    (hd : s.dueNt (tc - 500 * 65536) = true) : s.nextArmed = some x.change := by
  rw [nextArmed_some hx]
  exact if_pos (by rw [hq, hd]; rfl)

theorem nextArmed_stays {s : State} (h : s.dueEntry = none ∨ s.quiet = true ∨
    ∃ x c tc, s.dueEntry = some (x, c, tc) ∧ s.dueNt (tc - 500 * 65536) = false) : s.nextArmed = s.fab.armedEntry := by
  rcases h with h | h | ⟨x, c, tc, h, hd⟩
  · exact nextArmed_none h
  · rcases hx : s.dueEntry with _ | ⟨x, c, tc⟩
    · exact nextArmed_none hx
    · rw [nextArmed_some hx, h]; rfl
  · rw [nextArmed_some h, hd, Bool.and_false]; rfl

theorem waiting_armSequencers (s : State) (i : Nat) :
    s.armSequencers.fab.waiting[i]? = s.fab.waiting[i]?.map s.armedChange := by
  rw [armSequencers_eq]
  have hf : (s.armedAt s.nextArmed).armedChange = s.armedChange := funext fun ch => armedChange_armedAt ..
  rw [hf, State.onFab_fab, List.getElem?_map]
  rfl

/-! ### The entry of a running bank (R71, R213, R214) -/

theorem changeStart_entry {s : State} {x : Run} {c : Chg} {tc : Nat} (hx : s.dueEntry = some (x, c, tc)) (hd : s.dueNt tc = true) :
    s.changeStart = s.entryDue x c tc := by
  unfold State.changeStart
  rw [hx]
  exact if_pos hd

theorem changeStart_command {s : State} (h : s.dueEntry = none ∨ ∃ x c tc, s.dueEntry = some (x, c, tc) ∧ s.dueNt tc = false) :
    s.changeStart = s.commandDue := by
  unfold State.changeStart
  rcases h with h | ⟨x, c, tc, h, hd⟩
  · rw [h]
  · rw [h]; exact if_neg (ne_true_of_eq_false hd)

/-- The counts of the entries passed, with one more. -/
theorem countSkipped_fields (s : State) : (s.countSkipped 1).fab = s.fab ∧ (s.countSkipped 1).loop = s.loop ∧
    (s.sched.failQuiet = true → (s.countSkipped 1).sched.fqSkipped = s.sched.fqSkipped + 1) ∧
    ∀ h, s.sched.hold = some h → (s.countSkipped 1).sched.hold = some { h with skipped := h.skipped + 1 } := by
  unfold State.countSkipped
  dsimp only
  split
  · exact ⟨rfl, rfl, fun _ => rfl, fun h hh => congrArg (Option.map _) hh⟩
  next hf => exact ⟨rfl, rfl, fun h => absurd h hf, fun h hh => congrArg (Option.map _) hh⟩

theorem entryDue_passed {s : State} (hq : s.quiet = true) (x : Run) (c : Chg) (tc : Nat) :
    let t := s.entryDue x c tc
    t.loop = s.loop ∧ t.fab.change = s.fab.change ∧ t.fab.inForce = s.fab.inForce ∧ t.fab.armedEntry = none ∧
    t.sched.run = some { x with change := x.change + 1 } ∧
    (s.sched.failQuiet = true → t.sched.fqSkipped = s.sched.fqSkipped + 1) ∧
    ∀ h, s.sched.hold = some h → t.sched.hold = some { h with skipped := h.skipped + 1 } := by
  obtain ⟨hf, hl, hs, hh⟩ := countSkipped_fields s
  rw [show s.entryDue x c tc = (s.countSkipped 1).nextEntry x from if_pos hq]
  have hc : (s.countSkipped 1).fab.change = s.fab.change := by rw [hf]
  have hi : (s.countSkipped 1).fab.inForce = s.fab.inForce := by rw [hf]
  exact ⟨hl, hc, hi, rfl, rfl, hs, hh⟩

/-- The entry taken: the next one is at hand, and its cast-on orders are past. -/
def State.entryTaken (s : State) (x : Run) (tc : Nat) : State :=
  (s.nextEntry x).onFab fun f => { f with casts := f.casts.filter fun d => tc < d.2.2 }

/-- The change of a change entry. -/
def State.entryChange (s : State) (x : Run) (c : Chg) (shut lanes : BitVec 8) : Change :=
  { map := c.map, prev := s.fab.inForce, src := .scheduled x.change, guard := imgGuard (s.bankImg x.bank) c,
    stale := (s.dir c.map).state = .stale, gatesShut := shut, lanes := lanes }

theorem entryDue_starts {s : State} (hq : s.quiet = false) (x : Run) (c : Chg) (tc : Nat) : s.entryDue x c tc =
    (s.entryTaken x tc).overtake.1.startChange ((s.entryTaken x tc).overtake.1.entryChange x c
      (s.entryTaken x tc).overtake.2.1 (s.entryTaken x tc).overtake.2.2) tc false :=
  if_neg (ne_true_of_eq_false hq)

theorem entryTaken_fields (s : State) (x : Run) (tc : Nat) : (s.entryTaken x tc).loop = s.loop ∧ (s.entryTaken x tc).sram = s.sram ∧
    (s.entryTaken x tc).now = s.now ∧ (s.entryTaken x tc).fab.inForce = s.fab.inForce ∧
    (s.entryTaken x tc).fab.waiting = s.fab.waiting ∧ (s.entryTaken x tc).sched.run = some { x with change := x.change + 1 } :=
  ⟨rfl, rfl, rfl, rfl, rfl, rfl⟩

theorem bankImg_congr {s t : State} (h : t.sram = s.sram) (b : Nat) : t.bankImg b = s.bankImg b := by
  unfold State.bankImg; rw [h]

theorem entryDue_started {s : State} (hq : s.quiet = false) (x : Run) (c : Chg) (tc : Nat) :
    let t := s.entryDue x c tc
    t.sched.run = some { x with change := x.change + 1 } ∧ t.fab.inForce = s.fab.inForce ∧ t.fab.waiting = s.fab.waiting ∧
    t.tst.busy = false ∧ ∃ ch, t.fab.change = some ch ∧ ch.map = c.map ∧ ch.prev = s.fab.inForce ∧ ch.src = .scheduled x.change ∧
      ch.stage = .started ∧ ch.tc = tc ∧ ch.guard = imgGuard (s.bankImg x.bank) c ∧
      ch.cells = (s.changeSet c.map).map (·.1) ∧ ch.endRaw = s.now + nsC ch.guard := by
  obtain ⟨hl, hm, hn, hf, hw, hr⟩ := entryTaken_fields s x tc
  obtain ⟨hp, hol⟩ := overtake_fields (s.entryTaken x tc)
  have hol := hol.trans hl
  have hom := ((sram_of_plan hp).trans rfl).trans hm
  have hon := ((now_of_plan hp).trans rfl).trans hn
  have hof := ((inForce_of_plan hp).trans rfl).trans hf
  have how := ((waiting_of_plan hp).trans rfl).trans hw
  have hor := (congrArg Sched.run ((sched_of_plan hp).trans rfl)).trans hr
  rw [entryDue_starts hq]
  generalize (s.entryTaken x tc).overtake = o at hol hom hon hof how hor
  obtain ⟨d, hd, h1, h2, h3, h4, h5⟩ := startChange_fields o.1 (o.1.entryChange x c o.2.1 o.2.2) tc false
  have hg : d.guard = imgGuard (s.bankImg x.bank) c := hd.guard.trans (congrArg (imgGuard · c) (bankImg_congr hom _))
  refine ⟨(congrArg Sched.run h3).trans hor, h4.trans hof, h5.trans how, h2, d, h1, hd.map, hd.prev.trans hof, hd.src, hd.stage,
    hd.tc, hg, hd.cells.trans (congrArg (List.map Prod.fst) (changeSet_congr hom hol c.map)), ?_⟩
  rw [hd.endRaw, hon, ← hd.guard]

/-! ### Changes of commands (R23, R70, R71, R73, R90) -/

/-- The changes that wait once those that need a stopped chamber have ended. -/
def State.unstopped (s : State) : List Change := s.fab.waiting.filter fun ch => !(ch.ofCommand && s.stoppedMask ch.map ≠ 0)

theorem waiting_refuseStopped (s : State) : s.refuseStopped.fab.waiting = s.unstopped :=
  congrArg Fabric.waiting (ends_dropWaiting ..).fab

theorem waiting_setShut (s : State) : ∀ ch ∈ s.setShut.fab.waiting, ∃ c ∈ s.fab.waiting, ch.src = c.src ∧ ch.map = c.map := by
  have hw := waiting_of_plan (plan_shutGates (s.onFab fun f => { f with waiting := f.waiting.map fun ch =>
    { ch with gatesShut := BitVec.ofNat 8 (maskOf (s.changeLanes ch.map)) } }))
  intro ch hch
  rw [State.setShut, hw] at hch
  obtain ⟨c, hc, rfl⟩ := List.mem_map.mp hch
  exact ⟨c, hc, rfl, rfl⟩

theorem ofCommand_congr {c d : Change} (h : d.src = c.src) : d.ofCommand = c.ofCommand := by unfold Change.ofCommand; rw [h]

/-- No change of a command that waits then needs a stopped chamber. -/
theorem setShut_unstopped (s : State) : ∀ ch ∈ s.refuseStopped.setShut.fab.waiting, ch.ofCommand = true → s.stoppedMask ch.map = 0 := by
  intro ch hch ho
  obtain ⟨c, hc, hs, hm⟩ := waiting_setShut _ ch hch
  rw [waiting_refuseStopped] at hc
  have := (List.mem_filter.mp hc).2
  rw [ofCommand_congr hs] at ho
  rw [hm]
  simpa [ho] using this

theorem commandDue_waits {s v : State} (hv : v = s.refuseStopped.setShut)
    (h : v.fab.change.isSome = true ∨ ∀ ch ∈ v.fab.waiting, v.commandStart ch = none) : s.commandDue = v := by
  subst hv
  unfold State.commandDue
  dsimp only
  split
  · rfl
  next hc =>
    have hn : (s.refuseStopped.setShut.fab.waiting.findSome? fun ch =>
        (s.refuseStopped.setShut.commandStart ch).map fun late => (ch, late)) = none :=
      List.findSome?_eq_none_iff.mpr fun ch hch => by rw [h.resolve_left hc ch hch]; rfl
    rw [hn]

/-- The instant at which a change of a command starts. -/
def State.commandTc (s : State) (ch : Change) (late : Bool) : Nat :=
  match ch.at_ with
  | some t => if late then s.nt else t * 65536
  | none => s.nt

theorem commandDue_starts {s v : State} (hv : v = s.refuseStopped.setShut) {a b : List Change} {ch : Change} {late : Bool}
    (hn : v.fab.change = none) (hw : v.fab.waiting = a ++ ch :: b) (ha : ∀ d ∈ a, v.commandStart d = none)
    (hc : v.commandStart ch = some late) (hi : ch ∉ a) : s.commandDue =
      (v.onFab fun f => { f with waiting := a ++ b }).startChange ch (v.commandTc ch late) late := by
  subst hv
  unfold State.commandDue
  dsimp only
  have hf : (s.refuseStopped.setShut.fab.waiting.findSome? fun ch =>
      (s.refuseStopped.setShut.commandStart ch).map fun late => (ch, late)) = some (ch, late) := by
    rw [hw, List.findSome?_append, List.findSome?_eq_none_iff.mpr fun d hd => by rw [ha d hd]; rfl, List.findSome?_cons, hc]
    rfl
  have he : (s.refuseStopped.setShut.fab.waiting.erase ch) = a ++ b := by
    rw [hw, List.erase_append_right _ hi, List.erase_cons_head]
  rw [hf, hn]
  change State.startChange (s.refuseStopped.setShut.onFab fun f => { f with waiting := f.waiting.erase ch }) _ _ _ = _
  rw [show (s.refuseStopped.setShut.onFab fun f => { f with waiting := f.waiting.erase ch }) =
    s.refuseStopped.setShut.onFab fun f => { f with waiting := a ++ b } from
    congrArg (fun w => s.refuseStopped.setShut.onFab fun f => { f with waiting := w }) he]
  rfl

theorem commandTc_timed (s : State) {ch : Change} {m : Nat} (h : ch.at_ = some m) : s.commandTc ch false = m * 65536 := by
  unfold State.commandTc
  rw [h]
  exact if_neg Bool.false_ne_true

theorem commandTc_now (s : State) {ch : Change} {late : Bool} (h : ch.at_ = none ∨ late = true) : s.commandTc ch late = s.nt := by
  unfold State.commandTc
  split
  next t ht =>
    exact if_pos (h.resolve_left (by rw [ht]; exact Option.some_ne_none t))
  · rfl

theorem now_onFab (s : State) (f : Fabric → Fabric) : (s.onFab f).now = s.now := by
  unfold State.now; rw [State.onFab_time]

theorem changeSet_onFab_waiting (s : State) (w : List Change) (m : Nat) :
    (s.onFab fun f => { f with waiting := w }).changeSet m = s.changeSet m := changeSet_congr rfl rfl m

theorem commandDue_started {s v : State} (hv : v = s.refuseStopped.setShut) {a b : List Change} {ch : Change} {late : Bool}
    (hn : v.fab.change = none) (hw : v.fab.waiting = a ++ ch :: b) (ha : ∀ d ∈ a, v.commandStart d = none)
    (hc : v.commandStart ch = some late) (hi : ch ∉ a) :
    let t := s.commandDue
    t.fab.waiting = a ++ b ∧ t.fab.inForce = v.fab.inForce ∧
    ∃ d, t.fab.change = some d ∧ d.map = ch.map ∧ d.src = ch.src ∧ d.stage = .started ∧ d.late = late ∧ d.guard = ch.guard ∧
      d.cells = (v.changeSet ch.map).map (·.1) ∧ d.endRaw = v.now + nsC d.guard ∧
      (∀ m, ch.at_ = some m → late = false → d.tc = m * 65536) ∧ (ch.at_ = none ∨ late = true → d.tc = v.nt) := by
  rw [commandDue_starts hv hn hw ha hc hi]
  obtain ⟨d, hd, h1, _, _, h4, h5⟩ := startChange_fields (v.onFab fun f => { f with waiting := a ++ b }) ch (v.commandTc ch late) late
  refine ⟨h5, h4, d, h1, hd.map, hd.src, hd.stage, hd.late, hd.guard, ?_, ?_, fun m hm hl => ?_, fun h => ?_⟩
  · rw [hd.cells, changeSet_onFab_waiting]
  · rw [hd.endRaw, hd.guard, now_onFab]
  · subst hl
    exact hd.tc.trans (commandTc_timed v hm)
  · exact hd.tc.trans (commandTc_now v h)

/-! ### The end of a verification (R80, R281, R293) -/

/-- No verification runs any more, and connections that failed fire source 49. -/
def State.verified (s : State) (ch : Change) : State :=
  let q := s.onFab fun q => { q with verify := none }
  if (s.verifyCounts ch).2.2 = 0 then q else q.fire 49 (s.verifyCounts ch).2.2

theorem completeChange_none {s : State} (h : s.fab.verify = none) : s.completeChange = s := by
  unfold State.completeChange; rw [h]

section
variable {s : State} {ch : Change} (h : s.fab.verify = some ch)
include h

theorem completeChange_apply {r i : Nat} (hs : ch.src = .apply r i) : s.completeChange =
    ((s.verified ch).finishCmd r i (if ch.missing = 0#32 then 0 else 0x17) true
      (applyRes (ch.count ch.cells) (ch.count ch.dropped) (s.verifyCounts ch).1 (s.verifyCounts ch).2.1 (s.verifyCounts ch).2.2
        ch.missing.toNat (timeField ch.tc)) (at_ ch.stale 1 + at_ ch.late 2)).followPolicies := by
  have hm : (ch.missing = 0#32) = (ch.missing.toNat = 0) := propext (BitVec.toNat_inj (y := 0#32)).symm
  unfold State.verified State.completeChange
  split
  next hn => exact absurd (h.symm.trans hn) (Option.some_ne_none ch)
  next ch' hc =>
    obtain rfl : ch = ch' := Option.some.inj (h.symm.trans hc)
    rcases s.verifyCounts ch with ⟨v, d, f⟩
    dsimp only
    rw [hs]
    simp only [hm]

theorem completeChange_event (hs : ∀ r i, ch.src ≠ .apply r i) : s.completeChange =
    ((s.verified ch).event 1 ch.src.eventSub.1 ch.map
      (leBytes 2 (ch.count ch.cells) ++ leBytes 2 (ch.count ch.dropped) ++ leBytes 2 (s.verifyCounts ch).1 ++
        leBytes 2 (s.verifyCounts ch).2.1 ++ leBytes 2 (s.verifyCounts ch).2.2 ++ leBytes 2 ch.src.eventSub.2 ++
        leBytes 4 ch.missing.toNat) (some ch.tc)).followPolicies := by
  unfold State.verified State.completeChange
  split
  next hn => exact absurd (h.symm.trans hn) (Option.some_ne_none ch)
  next ch' hc =>
    obtain rfl : ch = ch' := Option.some.inj (h.symm.trans hc)
    rcases s.verifyCounts ch with ⟨v, d, f⟩
    dsimp only
    split
    next r i hc => exact absurd hc (hs r i)
    next => rfl
end

/-- The state with the verification `v` running. -/
def State.verifying (s : State) (v : Option Change) : State := s.onFab fun f => { f with verify := v }

theorem plan_verified (s : State) (ch : Change) : (s.verified ch).plan = (s.verifying none).plan := by
  unfold State.verified
  dsimp only
  split
  · rfl
  · exact plan_fire ..

theorem plan_completeChange (s : State) : ∃ v, s.completeChange.plan = (s.verifying v).plan := by
  rcases hv : s.fab.verify with _ | ch
  · exact ⟨s.fab.verify, by rw [completeChange_none hv]; rfl⟩
  · refine ⟨none, ?_⟩
    rcases hs : ch.src with k | ⟨r, i⟩ | _ | _ | _
    case apply => rw [completeChange_apply hv hs, plan_followPolicies, plan_finishCmd, plan_verified]
    all_goals rw [completeChange_event hv (by simp [hs]), plan_followPolicies, plan_event, plan_verified]

/-! ### The end of the guard interval (R74, R204) -/

/-- The new map in force, unless PARK_ALL has left none, and its verification running. -/
def State.guardOver (s : State) (ch : Change) : State :=
  s.onFab fun f => { f with inForce := if s.flt.parkedAll then f.inForce else some ch.map, change := none,
                            verify := some { ch with stage := .verifying } }

theorem plan_guardOver {s t : State} (h : t.plan = s.plan) (ch : Change) : (t.guardOver ch).plan = (s.guardOver ch).plan := by
  have := congrArg (fun s : State => (s.guardOver ch).plan) h
  exact this

/-- The lanes of the change with their new connections. -/
def State.connected (s : State) (ch : Change) : State :=
  (maskList ch.lanes.toNat 8).foldl State.newConnection (s.completeChange.guardOver ch)

theorem plan_connected (s : State) (ch : Change) : (s.connected ch).plan = (s.guardOver ch).plan := by
  obtain ⟨v, hv⟩ := plan_completeChange s
  exact (plan_foldl _ plan_newConnection _).trans ((plan_guardOver hv ch).trans rfl)

theorem setShut_keeps (s : State) : s.setShut.fab.change = s.fab.change ∧ s.setShut.fab.inForce = s.fab.inForce ∧
    s.setShut.fab.verify = s.fab.verify ∧ s.setShut.sched = s.sched := by
  have hp : s.setShut.plan = _ := plan_shutGates ..
  exact ⟨(change_of_plan hp).trans rfl, (inForce_of_plan hp).trans rfl, (verify_of_plan hp).trans rfl, (sched_of_plan hp).trans rfl⟩

theorem fixStart_start {s : State} {q : StartReq} (h : s.sched.start = some q) : s.fixStart.sched.start = some { q with
    needMap := false
    boundary := some (nextMatrix (s.bankImg q.bank) (max (q.time * 65536) (s.nt + 200000 * 65536))) } := by
  change s.sched.start.map _ = _
  rw [h]
  rfl

/-- With START_MAP in force the start of its bank has its boundary. -/
def State.startFixed (s : State) (ch : Change) : State :=
  if ch.src = .startMap then (s.connected ch).fixStart else s.connected ch

theorem fab_startFixed (s : State) (ch : Change) : (s.startFixed ch).fab = (s.connected ch).fab := by
  unfold State.startFixed; split <;> rfl

theorem guardEnd_waits {s : State} (h : s.fab.change = none ∨ ∃ ch : Change, s.fab.change = some ch ∧
    (ch.stage ≠ .started ∨ s.now < ch.endRaw)) : s.guardEnd = s := by
  unfold State.guardEnd
  rcases h with h | ⟨ch, h, hs⟩
  · rw [h]
  · rw [h]
    exact if_pos (by rcases hs with hs | hs <;> simp [hs])

theorem guardEnd_ends {s : State} {ch : Change} (h : s.fab.change = some ch) (hs : ch.stage = .started) (he : ch.endRaw ≤ s.now) :
    s.guardEnd = (s.startFixed ch).followPolicies.setShut := by
  unfold State.guardEnd
  rw [h]
  exact if_neg (by simp [hs, Nat.not_lt.mpr he])

theorem guardEnd_fields {s : State} {ch : Change} (h : s.fab.change = some ch) (hs : ch.stage = .started) (he : ch.endRaw ≤ s.now) :
    let t := s.guardEnd
    t.fab.change = none ∧ t.fab.inForce = (if s.flt.parkedAll then s.fab.inForce else some ch.map) ∧
    t.fab.verify = some { ch with stage := .verifying } ∧
    ∀ q, s.sched.start = some q → ch.src = .startMap → t.sched.start = some { q with
      needMap := false,
      boundary := some (nextMatrix (s.bankImg q.bank) (max (q.time * 65536) (s.nt + 200000 * 65536))) } := by
  have hp := plan_connected s ch
  have hf := plan_followPolicies (s.startFixed ch)
  have hfab := fab_startFixed s ch
  obtain ⟨h1, h2, h3, h4⟩ := setShut_keeps (s.startFixed ch).followPolicies
  rw [guardEnd_ends h hs he]
  refine ⟨?_, ?_, ?_, fun q hq hm => ?_⟩
  · rw [h1, change_of_plan hf, hfab, change_of_plan hp]; rfl
  · rw [h2, inForce_of_plan hf, hfab, inForce_of_plan hp]; rfl
  · rw [h3, verify_of_plan hf, hfab, verify_of_plan hp]; rfl
  · rw [h4, sched_of_plan hf, show s.startFixed ch = (s.connected ch).fixStart from if_pos hm,
      fixStart_start (q := q) ((congrArg Sched.start ((sched_of_plan hp).trans rfl)).trans hq), bankImg_of_plan hp, nt_of_plan hp]
    rfl

/-! ### The obligation -/

/-- Settles O36: arming by `waiting_armSequencers`, a start by `entryDue_started` and `commandDue_started`, the end of the
guard interval by `guardEnd_fields`, and the end of the verification by `completeChange_apply` and `completeChange_event`. -/
theorem circuitChanges : Obligations.CircuitChanges := by
  unfold Obligations.CircuitChanges
  intro s u dt hu
  subst hu
  refine ⟨⟨_, exec_sequencerArmed .., ?_⟩, fun x c tc hx hd => ⟨fun hq => ?_, fun hq => ?_⟩, fun h => ?_,
    fun ch hc hs he => ?_, fun h => ?_, fun h => ?_, fun ch h => ⟨(s.pass dt).verified ch, rfl, fun r i hs => ?_, fun hs => ?_⟩⟩
  · obtain ⟨h1, h2, h3, h4, h5⟩ := armSequencers_fields (s.pass dt)
    refine ⟨h1, h2, h3, fun x c tc hx hq hd => h4.trans (nextArmed_near hx hq hd), fun h => h4.trans (nextArmed_stays h), h5,
      fun i ch hi => ?_⟩
    rw [waiting_armSequencers, hi, Option.map_some]
    exact ⟨fun hr hd => congrArg some (armedChange_arms hr hd), fun hw => congrArg some (armedChange_waits hw)⟩
  · exact ⟨_, by rw [exec_circuitChangeStart, changeStart_entry hx hd], entryDue_passed hq x c tc⟩
  · exact ⟨_, by rw [exec_circuitChangeStart, changeStart_entry hx hd], entryDue_started hq x c tc⟩
  · refine ⟨_, rfl, setShut_unstopped _, fun hw => ?_, fun a b ch late hn hw ha hc hi => ?_⟩
    · rw [exec_circuitChangeStart, changeStart_command h, commandDue_waits rfl hw]
    · exact ⟨_, by rw [exec_circuitChangeStart, changeStart_command h], commandDue_started rfl hn hw ha hc hi⟩
  · exact ⟨_, exec_guardIntervalEnd .., guardEnd_fields hc hs he⟩
  · rw [exec_guardIntervalEnd, guardEnd_waits h]
  · rw [exec_changeComplete, completeChange_none h]
  · rw [exec_changeComplete, completeChange_apply h hs]
  · rw [exec_changeComplete, completeChange_event h hs]

end Sys2Proof.Machine
end

section
/-! Settling O41: hand-over, optical holding, loss of light, and balance. -/

namespace Sys2Proof.Machine

theorem exec_oSample (s : State) (dt : Nat) (c : Fin 2048) (t0 t1 : Word) :
    exec (.oSample dt c t0 t1) s = .next ((s.pass dt).oSample c.val t0 t1).finish := rfl
theorem exec_handoverRetry (s : State) (dt : Nat) (c : Fin 2048) (t0 t1 : Word) :
    exec (.handoverRetry dt c t0 t1) s = .next ((s.pass dt).retryCheck c.val t0 t1).finish := rfl
theorem exec_lightLoss (s : State) (dt : Nat) (c : Fin 2048) :
    exec (.lightLoss dt c) s = .next ((s.pass dt).loseLight c.val).finish := rfl
theorem exec_bSample (s : State) (dt : Nat) (c : Fin 2048) :
    exec (.bSample dt c) s = .next ((s.pass dt).bSample c.val).finish := rfl
theorem exec_balanceSettled (s : State) (c : Fin 2048) :
    exec (.balanceSettled c) s = .next (s.balanceSettled c.val).finish := rfl

/-! ### The readings of the taps (R105) -/

/-- The conversion changes the cell alone, and leaves its readings there. -/
theorem readTaps_reads (s : State) (c : Nat) (t0 t1 : Word) : let v := (s.readTaps c t0 t1).2
    s.Works v c ∧ (v.cell c).o.tap0 = t0 ∧ (v.cell c).o.tap1 = t1 := by
  intro v
  have hv : (s.readTaps c t0 t1).2 = v := rfl
  unfold State.readTaps at hv
  extract_lets u dark at hv
  have hu : s.Works u c := ((State.Works.refl s c).modCell _).modCell _
  have hc : (u.cell c).o.tap0 = t0 ∧ (u.cell c).o.tap1 = t1 := by rw [cell_modCell_self]; exact ⟨rfl, rfl⟩
  cases he : u.estimate c with
  | some l =>
    rw [he] at hv
    rw [← hv]
    refine ⟨hu.modCell _, ?_⟩
    rw [cell_modCell_self]
    exact hc
  | none =>
    rw [he] at hv
    rw [← hv]
    refine ⟨(hu.trans (u := u.tick) ⟨fun _ _ => rfl, rfl, rfl, rfl, rfl⟩).modCell _, ?_⟩
    rw [cell_modCell_self]
    exact hc

/-- From `s` to `t` of the cells at most `c` changed, which keeps its readings, and the fabric is as it was. -/
structure State.SameTaps (s t : State) (c : Nat) : Prop where
  others : ∀ d, d ≠ c → t.cell d = s.cell d
  fab : t.fab = s.fab
  tap0 : (t.cell c).o.tap0 = (s.cell c).o.tap0
  tap1 : (t.cell c).o.tap1 = (s.cell c).o.tap1

namespace State.SameTaps

variable {s t u : State} {c : Nat}

theorem refl (s : State) (c : Nat) : s.SameTaps s c := ⟨fun _ _ => rfl, rfl, rfl, rfl⟩

theorem trans (h : s.SameTaps t c) (g : t.SameTaps u c) : s.SameTaps u c :=
  ⟨fun d hd => (g.others d hd).trans (h.others d hd), g.fab.trans h.fab, g.tap0.trans h.tap0, g.tap1.trans h.tap1⟩

theorem modCell {f : Cell → Cell} (h0 : (f (s.cell c)).o.tap0 = (s.cell c).o.tap0)
    (h1 : (f (s.cell c)).o.tap1 = (s.cell c).o.tap1) : s.SameTaps (s.modCell c f) c :=
  ⟨fun _ hd => cell_modCell_other s f hd, rfl, by rw [cell_modCell_self, h0], by rw [cell_modCell_self, h1]⟩

theorem setBit (s : State) (c : Nat) (r : Reg) (i b : Nat) : s.SameTaps (s.setBit r i b) c :=
  ⟨fun d _ => cell_setBit d .., State.setBit_fab .., by rw [cell_setBit], by rw [cell_setBit]⟩

end State.SameTaps

/-! ### Hand-over and refusal (R109, R121, R123) -/

theorem handOver_sameTaps (s : State) (c : Nat) (lam : Option Int) : s.SameTaps (s.handOver c lam) c := .modCell rfl rfl

theorem handOver_fields (s : State) (c : Nat) (lam : Option Int) : let y := (s.handOver c lam).cell c
    y.mode = .holdOptical ∧ y.o.check = false ∧ y.o.defer = false ∧ y.o.retry = none ∧ y.b.oCnt = 0 := by
  unfold State.handOver
  rw [cell_modCell_self]
  exact ⟨rfl, rfl, rfl, rfl, rfl⟩

theorem refuseCheck_sameTaps (s : State) (c : Nat) : s.SameTaps (s.refuseCheck c) c :=
  (State.SameTaps.modCell rfl rfl).trans (.setBit _ c ..)

theorem refuseCheck_fields (s : State) (c : Nat) : let t := s.refuseCheck c
    (t.cell c).mode = (s.cell c).mode ∧ (t.cell c).o.retry = some 1024 ∧ (t.cell c).o.refused = true ∧
    bit (t.rg .loopEvt (chamberOf c)) 1 = true := by
  unfold State.refuseCheck
  dsimp only
  rw [cell_setBit, cell_modCell_self]
  exact ⟨rfl, rfl, rfl, bit_rg_setBit _ _ _ (by decide)⟩

/-! ### An O sample in HOLD-POSITION (R121 to R123) -/

theorem oHold_sameTaps (s : State) (c : Nat) (lit : Bool) (lam : Option Int) : s.SameTaps (s.oHold c lit lam) c := by
  unfold State.oHold
  dsimp only
  split
  · split
    · exact .modCell rfl rfl
    split
    · exact .refl s c
    split
    · exact handOver_sameTaps ..
    · exact .modCell rfl rfl
  split
  · exact .refl s c
  split
  · split
    · exact .modCell rfl rfl
    split
    · exact handOver_sameTaps ..
    · exact .modCell rfl rfl
  split
  · exact .modCell rfl rfl
  · split
    · exact .refl s c
    split
    · exact handOver_sameTaps ..
    · exact refuseCheck_sameTaps ..

/-- The check that is outstanding has come due: hand-over, a deferral, or the end of the check in the dark. -/
theorem oHold_check {s : State} {c : Nat} {lit : Bool} (lam : Option Int) (hm : (s.cell c).mode = .holdPosition)
    (hy : s.mayCheck c = true) (hd : (s.cell c).o.defer = false) (hc : (s.cell c).o.check = true)
    (ht : (s.cell c).stitchRaw + (s.cell c).settledIn < convOf c s.now) : let y := (s.oHold c lit lam).cell c
    (lit = true → s.checkPasses c lam = true → y.mode = .holdOptical ∧ y.o.check = false ∧ y.b.oCnt = 0) ∧
    (lit = true → s.checkPasses c lam = false → y.mode = .holdPosition ∧ y.o.check = false ∧ y.o.defer = true ∧
      y.o.refused = true) ∧
    (lit = false → y.mode = .holdPosition ∧ y.o.check = false) := by
  have hw : (!s.mayCheck c || ((s.cell c).o.check && decide (convOf c s.now ≤ (s.cell c).stitchRaw + (s.cell c).settledIn))) =
      false := by rw [hy, hc, decide_eq_false (Nat.not_le.mpr ht)]; rfl
  have he : s.oHold c lit lam = if !lit then s.modCell c fun x => { x with o := { x.o with check := false } }
      else if s.checkPasses c lam then s.handOver c lam
      else s.modCell c fun x => { x with o := { x.o with check := false, defer := true, deferCnt := 0, refused := true } } :=
    (if_neg (ne_true_of_eq_false hd)).trans ((if_neg (ne_true_of_eq_false hw)).trans (if_pos hc))
  rw [he]
  refine ⟨fun hl hp => ?_, fun hl hp => ?_, fun hl => ?_⟩
  · rw [hl, hp]
    obtain ⟨h1, h2, _, _, h3⟩ := handOver_fields s c lam
    exact ⟨h1, h2, h3⟩
  · rw [hl, hp, Bool.not_true, if_neg Bool.false_ne_true, if_neg Bool.false_ne_true, cell_modCell_self]
    exact ⟨hm, rfl, rfl, rfl⟩
  · rw [hl, Bool.not_false, if_pos rfl, cell_modCell_self]
    exact ⟨hm, rfl⟩

/-- A deferral: it ends in the dark or with a check that passes, and counts one that fails. -/
theorem oHold_deferral {s : State} {c : Nat} {lit : Bool} (lam : Option Int) (hm : (s.cell c).mode = .holdPosition)
    (hd : (s.cell c).o.defer = true) : let y := (s.oHold c lit lam).cell c
    (lit = false → y.mode = .holdPosition ∧ y.o.defer = false) ∧
    (lit = true → s.mayCheck c = true → s.checkPasses c lam = true → y.mode = .holdOptical ∧ y.o.defer = false) ∧
    (lit = true → s.mayCheck c = true → s.checkPasses c lam = false →
      y.mode = .holdPosition ∧ y.o.deferCnt = min ((s.cell c).o.deferCnt + 1) 8) := by
  have he : s.oHold c lit lam = if !lit then s.modCell c fun x => { x with o := { x.o with defer := false, deferCnt := 0 } }
      else if !s.mayCheck c then s
      else if s.checkPasses c lam then s.handOver c lam
      else s.modCell c fun x => { x with o := { x.o with deferCnt := min (x.o.deferCnt + 1) 8, refused := true } } := if_pos hd
  rw [he]
  refine ⟨fun hl => ?_, fun hl hy hp => ?_, fun hl hy hp => ?_⟩
  · rw [hl, Bool.not_false, if_pos rfl, cell_modCell_self]
    exact ⟨hm, rfl⟩
  · rw [hl, hy, hp]
    obtain ⟨h1, _, h2, _, _⟩ := handOver_fields s c lam
    exact ⟨h1, h2⟩
  · rw [hl, hy, hp, Bool.not_true, if_neg Bool.false_ne_true, if_neg Bool.false_ne_true, if_neg Bool.false_ne_true,
      cell_modCell_self]
    exact ⟨hm, rfl⟩

/-! ### An O sample in HOLD-OPTICAL (R108) -/

/-- A trim that is moved by at most `st` and kept within `top` of 0. -/
theorem mag_clampI_step (a d : Int) (st top : Nat) : let t := clampI (a + clampI d (-st) st) (-top) top
    mag t ≤ top ∧ (mag a ≤ top → mag (t - a) ≤ st) := by
  unfold mag clampI
  dsimp only
  omega

/-- A step changes the O loop's values of the cell alone, and steps its trim. -/
theorem oStep_steps (s : State) (c : Nat) (l : Int) : s.SameTaps (s.oStep c l) c ∧
    ∃ o d, (s.oStep c l).cell c = { s.cell c with o := o } ∧
      o.trim = clampI ((s.cell c).o.trim + clampI d (-s.param (s.cell c).oidx.toNat 1) (s.param (s.cell c).oidx.toNat 1))
        (-s.param (s.cell c).oidx.toNat 0) (s.param (s.cell c).oidx.toNat 0) := by
  unfold State.oStep
  extract_lets x p eo oint treq top st trim osat v
  have hv : s.SameTaps v c := .modCell rfl rfl
  have hc : v.cell c = _ := cell_modCell_self ..
  split
  · rw [cell_setBit, hc]
    exact ⟨hv.trans (.setBit v c ..), _, _, rfl, rfl⟩
  · rw [hc]
    exact ⟨hv, _, _, rfl, rfl⟩

/-- An O sample since hand-over counted. -/
def State.countO (s : State) (c : Nat) : State := s.modCell c fun x => { x with b := { x.b with oCnt := x.b.oCnt + 1 } }

theorem cell_countO (s : State) (c : Nat) :
    (s.countO c).cell c = { s.cell c with b := { (s.cell c).b with oCnt := (s.cell c).b.oCnt + 1 } } := cell_modCell_self ..

theorem countO_sameTaps (s : State) (c : Nat) : s.SameTaps (s.countO c) c := .modCell rfl rfl

/-! ### The O sample by mode (R105, R117) -/

theorem oSample_undue {s : State} {c : Nat} (h : s.periodDue c = false) (t0 t1 : Word) : s.oSample c t0 t1 = s :=
  if_neg (ne_true_of_eq_false h)

theorem oSample_due {s : State} {c : Nat} (h : s.periodDue c = true) (t0 t1 : Word) :
    s.oSample c t0 t1 = s.oWork c t0 t1 := if_pos h

section
variable {s v : State} {c : Nat} {t0 t1 : Word} {lam : Option Int} (h : s.readTaps c t0 t1 = (lam, v))
include h

theorem oWork_holdPosition (hm : (v.cell c).mode = .holdPosition) : s.oWork c t0 t1 = v.oHold c (v.isLit c) lam := by
  unfold State.oWork; rw [h]; dsimp only; rw [hm]

theorem oWork_estimate (hm : (v.cell c).mode = .holdOptical) {l : Int} (hl : lam = some l) :
    s.oWork c t0 t1 = (v.countO c).oStep c l := by
  unfold State.oWork; rw [h]; dsimp only; rw [hm, hl]; rfl

theorem oWork_holdSample (hm : (v.cell c).mode = .holdOptical) (hl : lam = none) : s.oWork c t0 t1 = v.countO c := by
  unfold State.oWork; rw [h]; dsimp only; rw [hm, hl]; rfl

theorem oWork_idle (hp : (v.cell c).mode ≠ .holdPosition) (ho : (v.cell c).mode ≠ .holdOptical) : s.oWork c t0 t1 = v := by
  unfold State.oWork; rw [h]; dsimp only
  split
  next hm => exact absurd hm ho
  next hm => exact absurd hm hp
  · rfl

theorem oWork_sameTaps : v.SameTaps (s.oWork c t0 t1) c := by
  by_cases hp : (v.cell c).mode = .holdPosition
  · rw [oWork_holdPosition h hp]; exact oHold_sameTaps ..
  by_cases ho : (v.cell c).mode = .holdOptical
  · cases hl : lam with
    | none => rw [oWork_holdSample h ho hl]; exact countO_sameTaps ..
    | some l => rw [oWork_estimate h ho hl]; exact (countO_sameTaps ..).trans (oStep_steps ..).1
  · rw [oWork_idle h hp ho]; exact .refl v c

/-- Whatever the mode, an O sample leaves its readings and changes no other cell. -/
theorem oWork_fields : let t := s.oWork c t0 t1
    (t.cell c).o.tap0 = t0 ∧ (t.cell c).o.tap1 = t1 ∧ (∀ d, d ≠ c → t.cell d = s.cell d) ∧ t.fab = s.fab := by
  have hr := readTaps_reads s c t0 t1
  rw [h] at hr
  obtain ⟨hw, h0, h1⟩ := hr
  have ht := oWork_sameTaps h
  exact ⟨ht.tap0.trans h0, ht.tap1.trans h1, fun d hd => (ht.others d hd).trans (hw.others d hd), ht.fab.trans hw.fab⟩

/-- In HOLD-OPTICAL a sample counts; a hold sample leaves the trim, and an estimate steps it. -/
theorem oWork_holdOptical (hm : (v.cell c).mode = .holdOptical) :
    let x := v.cell c
    let y := (s.oWork c t0 t1).cell c
    y.mode = .holdOptical ∧ y.b.oCnt = x.b.oCnt + 1 ∧ (lam = none → y.o.trim = x.o.trim) ∧
    ∀ l, lam = some l → mag y.o.trim ≤ s.param x.oidx.toNat 0 ∧
      (mag x.o.trim ≤ s.param x.oidx.toNat 0 → mag (y.o.trim - x.o.trim) ≤ s.param x.oidx.toNat 1) := by
  have hr := readTaps_reads s c t0 t1
  rw [h] at hr
  obtain ⟨hw, _, _⟩ := hr
  intro x y
  cases hl : lam with
  | none =>
    have hy : y = _ := congrArg (·.cell c) (oWork_holdSample h hm hl)
    rw [hy, cell_countO]
    exact ⟨hm, rfl, fun _ => rfl, fun l hn => absurd hn (Option.some_ne_none l).symm⟩
  | some l =>
    have hy : y = _ := congrArg (·.cell c) (oWork_estimate h hm hl)
    obtain ⟨_, o, d, ho, ht⟩ := oStep_steps (v.countO c) c l
    have hp : ∀ p k, (v.countO c).param p k = s.param p k := hw.param
    rw [cell_countO] at ho ht
    rw [hp, hp] at ht
    rw [hy, ho]
    refine ⟨hm, rfl, fun hn => absurd hn (Option.some_ne_none l), fun _ _ => ?_⟩
    change mag o.trim ≤ _ ∧ (_ → mag (o.trim - _) ≤ _)
    rw [ht]
    exact mag_clampI_step ..

/-! ### The repeat of a refused check (R123) -/

variable (hd : s.periodDue c = true)
include hd

theorem retryCheck_due : s.retryCheck c t0 t1 =
    if (v.cell c).o.retry = some 1 && v.mayCheck c && v.isLit c then
      if v.checkPasses c lam then v.handOver c lam else v.refuseCheck c
    else v := by
  unfold State.retryCheck
  rw [hd, Bool.not_true, if_neg Bool.false_ne_true, h]

theorem retryCheck_idle (hn : (v.cell c).o.retry ≠ some 1 ∨ v.mayCheck c = false ∨ v.isLit c = false) :
    s.retryCheck c t0 t1 = v := by
  rw [retryCheck_due h hd]
  exact if_neg (by rcases hn with hn | hn | hn <;> simp [hn])

theorem retryCheck_repeats (hr : (v.cell c).o.retry = some 1) (hy : v.mayCheck c = true) (hl : v.isLit c = true) :
    let t := s.retryCheck c t0 t1
    (v.checkPasses c lam = true → (t.cell c).mode = .holdOptical ∧ (t.cell c).o.retry = none) ∧
    (v.checkPasses c lam = false → (t.cell c).mode = (v.cell c).mode ∧ (t.cell c).o.retry = some 1024 ∧
      (t.cell c).o.refused = true ∧ bit (t.rg .loopEvt (chamberOf c)) 1 = true) := by
  have he : s.retryCheck c t0 t1 = if v.checkPasses c lam then v.handOver c lam else v.refuseCheck c := by
    rw [retryCheck_due h hd]
    exact if_pos (by simp [hr, hy, hl])
  rw [he]
  refine ⟨fun hp => ?_, fun hp => ?_⟩
  · rw [if_pos hp]
    obtain ⟨h1, _, _, h2, _⟩ := handOver_fields v c lam
    exact ⟨h1, h2⟩
  · rw [if_neg (ne_true_of_eq_false hp)]
    exact refuseCheck_fields v c
end

theorem retryCheck_undue {s : State} {c : Nat} (h : s.periodDue c = false) (t0 t1 : Word) : s.retryCheck c t0 t1 = s :=
  if_pos (by rw [h]; rfl)

/-! ### Loss of light (R124) -/

theorem loseLight_keeps {s : State} {c : Nat} (h : (s.cell c).mode ≠ .holdOptical ∨ (s.cell c).o.dark < s.lossCount c) :
    s.loseLight c = s :=
  if_neg (by rcases h with h | h <;> simp [h])

theorem loseLight_fields {s : State} {c : Nat} (hm : (s.cell c).mode = .holdOptical) (hd : s.lossCount c ≤ (s.cell c).o.dark) :
    let t := s.loseLight c
    (t.cell c).mode = .holdPosition ∧ (t.cell c).o.trim = (s.cell c).o.trim ∧ (t.cell c).b.bal = (s.cell c).b.bal ∧
    ∀ d, d ≠ c → t.cell d = s.cell d := by
  have ht : s.loseLight c = s.modCell c _ := if_pos (by simp [hm, hd])
  rw [ht]
  dsimp only
  rw [cell_modCell_self]
  exact ⟨rfl, rfl, rfl, fun d hd => cell_modCell_other _ _ hd⟩

/-! ### The balance loop (R109, R111) -/

theorem bSample_undue {s : State} {c : Nat} (h : s.bDue c = false) : s.bSample c = s := if_neg (ne_true_of_eq_false h)

/-- The B sample taken, before its step. -/
def State.bTaken (s : State) (c : Nat) : State := s.modCell c fun x => { x.takeB with b := { x.b with bAt := x.b.oCnt } }

theorem cell_bTaken (s : State) (c : Nat) :
    (s.bTaken c).cell c = { (s.cell c).takeB with b := { (s.cell c).b with bAt := (s.cell c).b.oCnt } } := cell_modCell_self ..

theorem bSample_due {s : State} {c : Nat} (h : s.bDue c = true) : s.bSample c =
    if (s.bTaken c).balEn c then (s.bTaken c).modCell c fun x => { x with b := (s.bTaken c).bStep c } else s.bTaken c :=
  if_pos h

theorem balEn_bTaken (s : State) (c : Nat) :
    (s.bTaken c).balEn c = (s.profByte (s.cell c).bNext.toNat 1).testBit 0 := by
  unfold State.balEn; rw [cell_bTaken]; rfl

/-- The B sample of the latest O sample is not due again. -/
theorem bDue_sampled {t : State} {c : Nat} (h : (t.cell c).b.bAt = (t.cell c).b.oCnt) : t.bDue c = false := by
  simp [State.bDue, h]

theorem bStep_fields (s : State) (c : Nat) : let b := (s.cell c).b
    let n := s.bStep c
    n.bAt = b.bAt ∧ n.oCnt = b.oCnt ∧ n.sign = -b.sign ∧ n.bCnt = b.bCnt + 1 ∧
    n.bal = n.bint - b.sign * s.param (s.cell c).bidx.toNat 2 := ⟨rfl, rfl, rfl, rfl, rfl⟩

theorem bSample_fields {s : State} {c : Nat} (h : s.bDue c = true) :
    let x := s.cell c
    let t := s.bSample c
    let y := t.cell c
    y.bidx = x.bNext ∧ y.b.bAt = x.b.oCnt ∧ t.bDue c = false ∧ (∀ d, d ≠ c → t.cell d = s.cell d) ∧
    ((s.profByte x.bNext.toNat 1).testBit 0 = true → y.b.sign = -x.b.sign ∧ y.b.bCnt = x.b.bCnt + 1 ∧
      y.b.bal = y.b.bint - x.b.sign * s.param x.bNext.toNat 2) ∧
    ((s.profByte x.bNext.toNat 1).testBit 0 = false → y.b.bal = x.b.bal ∧ y.b.bCnt = x.b.bCnt) := by
  intro x t y
  have ht : t = _ := bSample_due h
  have ho : ∀ d, d ≠ c → (s.bTaken c).cell d = s.cell d := fun d hd => cell_modCell_other s _ hd
  cases he : (s.bTaken c).balEn c with
  | true =>
    rw [he, if_pos rfl] at ht
    have hb := (balEn_bTaken s c).symm.trans he
    have hy : y = { (s.bTaken c).cell c with b := (s.bTaken c).bStep c } := by
      rw [show y = t.cell c from rfl, ht, cell_modCell_self]
    obtain ⟨h1, h2, h3, h4, h5⟩ := bStep_fields (s.bTaken c) c
    rw [cell_bTaken] at h1 h2 h3 h4 h5
    rw [cell_bTaken] at hy
    refine ⟨by rw [hy]; rfl, by rw [hy]; exact h1, bDue_sampled ?_, fun d hd => ?_, fun _ => ?_, fun hf => ?_⟩
    · rw [show t.cell c = y from rfl, hy]; exact h1.trans h2.symm
    · rw [ht, cell_modCell_other _ _ hd, ho d hd]
    · rw [hy]; exact ⟨h3, h4, h5⟩
    · exact absurd (hf.symm.trans hb) Bool.false_ne_true
  | false =>
    rw [he, if_neg Bool.false_ne_true] at ht
    have hb := (balEn_bTaken s c).symm.trans he
    have hy : y = _ := (congrArg (·.cell c) ht).trans (cell_bTaken s c)
    refine ⟨by rw [hy]; rfl, by rw [hy], bDue_sampled ?_, fun d hd => ?_, fun hf => ?_, fun _ => ?_⟩
    · rw [show t.cell c = y from rfl, hy]
    · rw [ht, ho d hd]
    · exact absurd (hb.symm.trans hf) Bool.false_ne_true
    · rw [hy]; exact ⟨rfl, rfl⟩

theorem balanceSettled_settles {s : State} {c : Nat} (he : s.balEn c = true) (hm : (s.cell c).mode = .holdOptical)
    (hn : 256 ≤ (s.cell c).b.bCnt) :
    s.balanceSettled c = s.modCell c fun x => { x with b := { x.b with settled := true } } := if_pos (by simp [he, hm, hn])

theorem balanceSettled_waits {s : State} {c : Nat}
    (h : s.balEn c = false ∨ (s.cell c).mode ≠ .holdOptical ∨ (s.cell c).b.bCnt < 256) : s.balanceSettled c = s :=
  if_neg (by rcases h with h | h | h <;> simp [h])

/-! ### The obligation -/

/-- Settles O41: in HOLD-POSITION by `oHold_check` and `oHold_deferral`, in HOLD-OPTICAL by `oWork_holdOptical`, and the
balance loop by `bSample_fields`. -/
theorem handOverAndOptics : Obligations.HandOverAndOptics := by
  unfold Obligations.HandOverAndOptics
  intro s u dt c hu
  subst hu
  refine ⟨fun t0 t1 => ?_, ⟨fun hm hd => ?_, fun h => ?_, fun h => ?_, fun h => ?_⟩, fun he hm hn => ?_, fun h => ?_⟩
  · intro v lam x settled
    have hr : (s.pass dt).readTaps c.val t0 t1 = (lam, v) := rfl
    have hnow : v.now = (s.pass dt).now := (readTaps_reads (s.pass dt) c.val t0 t1).1.now
    refine ⟨fun h => ?_, fun h => ?_, fun h hx hy hl => ?_, fun h hn => ?_⟩
    · exact ⟨by rw [exec_oSample, oSample_undue h], by rw [exec_handoverRetry, retryCheck_undue h]⟩
    · obtain ⟨h0, h1, ho, hf⟩ := oWork_fields hr
      refine ⟨_, by rw [exec_oSample, oSample_due h], h0, h1, ho, hf, fun hm hy hd hc hs => ?_, fun hm hd => ?_, fun hm => ?_,
        oWork_idle hr⟩
      · rw [oWork_holdPosition hr hm]
        exact oHold_check lam hm hy hd hc (by rw [hnow]; exact of_decide_eq_true hs)
      · rw [oWork_holdPosition hr hm]
        exact oHold_deferral lam hm hd
      · exact oWork_holdOptical hr hm
    · exact ⟨_, exec_handoverRetry .., retryCheck_repeats hr h hx hy hl⟩
    · rw [exec_handoverRetry, retryCheck_idle hr h hn]
  · exact ⟨_, exec_lightLoss .., loseLight_fields hm hd⟩
  · rw [exec_lightLoss, loseLight_keeps h]
  · exact ⟨_, exec_bSample .., bSample_fields h⟩
  · rw [exec_bSample, bSample_undue h]
  · rw [exec_balanceSettled, balanceSettled_settles he hm hn]
  · rw [exec_balanceSettled, balanceSettled_waits h]

end Sys2Proof.Machine
end

section
/-! Settling O43: set-points, calibrations, and the drift tracker's probe. -/

namespace Sys2Proof.Machine

theorem exec_loopSetpoint (s : State) (r : Fin 16) : exec (.loopSetpoint r) s = .next (s.loopSetpoint r.val).finish := rfl
theorem exec_calProbe (s : State) (r : Fin 16) : exec (.calProbe r) s = .next (s.calCommand r.val 0).finish := rfl
theorem exec_calSweep (s : State) (r : Fin 16) : exec (.calSweep r) s = .next (s.calCommand r.val 1).finish := rfl
theorem exec_calReset (s : State) (r : Fin 16) : exec (.calReset r) s = .next (s.calReset r.val).finish := rfl
theorem exec_calComplete (s : State) (dt : Nat) (c : Fin 2048) (m : CalMeasure) :
    exec (.calComplete dt c m) s = .next ((s.pass dt).calDone c.val m).finish := rfl
theorem exec_driftProbe (s : State) (dt : Nat) (c : Fin 2048) :
    exec (.driftProbe dt c) s = .next ((s.pass dt).driftProbe c.val).finish := rfl

/-! ### What drift and calibration keep of a cell (R148) -/

theorem calOf_congr {s t : State} (h : t.loop = s.loop) (d : Nat) : t.calOf d = s.calOf d := by unfold State.calOf; rw [h]

theorem calOf_modCal_self (s : State) (c : Nat) (f : CalOffset → CalOffset) : (s.modCal c f).calOf c = f (s.calOf c) :=
  tget_tset_self _ _ _ _ rfl

theorem calOf_modCal_other (s : State) {c d : Nat} (f : CalOffset → CalOffset) (h : d ≠ c) :
    (s.modCal c f).calOf d = s.calOf d := by
  unfold State.calOf State.modCal
  dsimp only
  rw [tmod, tget_tset_other _ _ _ h]

theorem calOf_driftLimit (s : State) (w c d : Nat) : (s.driftLimit w c).calOf d = s.calOf d := by
  refine calOf_congr ?_ d
  unfold State.driftLimit
  rw [State.fire_loop, event_keeps_loop]
  simp

theorem lin_moveHoldDrive (s : State) (c : Nat) (x : Bool) (n : Int) :
    ((s.moveHoldDrive c x n).1.calOf c).lin = (s.calOf c).lin := by
  unfold State.moveHoldDrive
  extract_lets top v w u
  have hu : (u.calOf c).lin = (s.calOf c).lin := by
    rw [calOf_modCal_self]
    split
    · rfl
    · rfl
  split
  · exact hu
  · exact (congrArg CalOffset.lin (calOf_driftLimit u 1 c c)).trans hu

/-- Setting a hold drive moves it. It is unfolded as the function `F`, as in `fold_eq`. -/
theorem setHoldDrive_eq {F : State → Nat → Bool → Int → State} (hF : F = State.setHoldDrive) (s : State) (c : Nat) (x : Bool)
    (n : Int) : ∃ k, F s c x n = (s.moveHoldDrive c x k).1 := by
  delta State.setHoldDrive at hF
  subst hF
  exact ⟨_, rfl⟩

theorem lin_setHoldDrive (s : State) (c : Nat) (x : Bool) (n : Int) :
    ((s.setHoldDrive c x n).calOf c).lin = (s.calOf c).lin := by
  obtain ⟨k, h⟩ := setHoldDrive_eq rfl s c x n
  rw [h, lin_moveHoldDrive]

theorem cell_setHoldDrive (s : State) (c : Nat) (x : Bool) (n : Int) (d : Nat) : (s.setHoldDrive c x n).cell d = s.cell d := by
  obtain ⟨k, h⟩ := setHoldDrive_eq rfl s c x n
  rw [h, cell_moveHoldDrive]

theorem cell_setStiff (s : State) (c n d : Nat) : (s.setStiff c n).cell d = s.cell d := by
  unfold State.setStiff
  extract_lets w u
  split
  · rfl
  · exact cell_driftLimit ..

theorem stiff_setStiff (s : State) (c n : Nat) : ((s.setStiff c n).calOf c).stiff = min (max n 12288) 21790 := by
  unfold State.setStiff
  extract_lets w u
  have hu : (u.calOf c).stiff = w := by rw [calOf_modCal_self]
  split
  · exact hu
  · rw [calOf_driftLimit, hu]

theorem lin_setStiff (s : State) (c n : Nat) : ((s.setStiff c n).calOf c).lin = (s.calOf c).lin := by
  unfold State.setStiff
  extract_lets w u
  have hu : (u.calOf c).lin = (s.calOf c).lin := by rw [calOf_modCal_self]
  split
  · exact hu
  · rw [calOf_driftLimit, hu]

/-! ### Into CAL and out of it (R114, R118 rows 9 and 10) -/

theorem enterCal_enters (s : State) (c : Nat) (j : CalJob) : let t := s.enterCal c j
    (t.cell c).mode = .cal ∧ (t.cell c).cal = some { j with back := (s.cell c).mode } ∧ ∀ d, d ≠ c → t.cell d = s.cell d := by
  unfold State.enterCal
  dsimp only
  rw [cell_modCell_self]
  exact ⟨rfl, rfl, fun d hd => cell_modCell_other s _ hd⟩

/-- A sweep's two counts, of the main element of the cell (R149). -/
theorem enterCal_counts (s : State) (c : Nat) (j : CalJob) : let t := (s.enterCal c j).addDrip (2 * c) 2
    (t.cell c).mode = .cal ∧ (t.cell c).cal = some { j with back := (s.cell c).mode } ∧
    t.drip (2 * c) = min (s.drip (2 * c) + 2) (2 ^ 48 - 1) ∧ (∀ x, x ≠ 2 * c → t.drip x = s.drip x) ∧
    ∀ d, d ≠ c → t.cell d = s.cell d := by
  obtain ⟨h1, h2, h3⟩ := enterCal_enters s c j
  exact ⟨by rw [cell_addDrip, h1], by rw [cell_addDrip, h2], drip_addDrip_self .., fun x hx => drip_addDrip_other _ 2 hx,
    fun d hd => by rw [cell_addDrip, h3 d hd]⟩

theorem exitCal_driven (s : State) (c : Nat) {b : Mode} (hb : b ≠ .park) : let y := (s.exitCal c b).cell c
    y.mode = b ∧ y.cal = none ∧ y.m.rampStart = true ∧ y.o.trim = 0 := by
  unfold State.exitCal
  rw [if_neg hb, cell_modCell_self]
  exact ⟨rfl, rfl, rfl, rfl⟩

/-- A cell in CAL that enters PARK has no calibration any more (R101). -/
theorem cal_parkLoop {s : State} {c : Nat} (h : (s.cell c).mode = .cal) : ((s.parkLoop c).cell c).cal = none := by
  unfold State.parkLoop
  rw [cell_modCell_self, h]
  rfl

theorem exitCal_exits {s : State} {c : Nat} (h : (s.cell c).mode = .cal) (b : Mode) :
    ((s.exitCal c b).cell c).mode = b ∧ ((s.exitCal c b).cell c).cal = none := by
  by_cases hb : b = .park
  · have he : s.exitCal c b = s.parkLoop c := if_pos hb
    rw [he, hb]
    exact ⟨mode_parkLoop s c, cal_parkLoop h⟩
  · obtain ⟨h1, h2, _, _⟩ := exitCal_driven s c hb
    exact ⟨h1, h2⟩

/-! ### LOOP_SETPOINT (R115, R284) -/

theorem loopSetpoint_none {s : State} {r : Nat} (h : s.readyHead r 0x12 = none) : s.loopSetpoint r = s := by
  rw [State.loopSetpoint, h]

section
variable {s : State} {r : Nat} {e : Entry} (h : s.readyHead r 0x12 = some e)
include h

/-- The job of a LOOP_SETPOINT: its set-point, rate and hold time, the rate clipped where it is above RAMP_RATE. -/
def State.setPointJob (s : State) (r : Nat) (e : Entry) : CalJob where
  op := 2
  issuer := some (r, e.idx)
  back := .park
  target := signed 32 (lef e.bytes 28 4)
  rate := lef e.bytes 32 4
  clipped := decide (s.param (s.cell (lef e.bytes 24 2)).midx.toNat 2 < lef e.bytes 32 4)
  hold := usC (lef e.bytes 36 2)

theorem loopSetpoint_refused (he : s.eligible (lef e.bytes 24 2) = false) :
    s.loopSetpoint r = s.finishCmd r e.idx 0x23 false := by
  unfold State.loopSetpoint
  rw [h]
  exact if_pos (by rw [he]; rfl)

theorem loopSetpoint_enters (he : s.eligible (lef e.bytes 24 2) = true) :
    s.loopSetpoint r = (s.begin_ r e.idx).enterCal (lef e.bytes 24 2) (s.setPointJob r e) := by
  unfold State.loopSetpoint
  rw [h]
  exact if_neg (by rw [he]; exact Bool.false_ne_true)
end

/-! ### CAL (R147, R149, R284) -/

theorem calCommand_none {s : State} {r : Nat} (op : Nat) (h : s.readyHead r 0x13 = none) : s.calCommand r op = s := by
  rw [State.calCommand, h]

theorem calReset_none {s : State} {r : Nat} (h : s.readyHead r 0x13 = none) : s.calReset r = s := by
  rw [State.calReset, h]

/-- A probe's leg is 10 nm long. -/
theorem probeJob_leg (s : State) (c : Nat) (i : Option (Nat × Nat)) :
    mag ((s.probeJob c i).target - (s.cell c).m.y) = 655360 := by
  unfold State.probeJob mag
  dsimp only
  split <;> omega

section
variable {s : State} {r : Nat} {e : Entry} (h : s.readyHead r 0x13 = some e)
include h

theorem calCommand_other {op : Nat} (ho : byteAt e.bytes 26 ≠ op) : s.calCommand r op = s := by
  unfold State.calCommand
  rw [h]
  exact if_pos ho

theorem calCommand_refused {op : Nat} (ho : byteAt e.bytes 26 = op) (he : s.eligible (lef e.bytes 24 2) = false) :
    s.calCommand r op = s.finishCmd r e.idx 0x23 false := by
  unfold State.calCommand
  rw [h]
  exact (if_neg (not_not_intro ho)).trans (if_pos (by rw [he]; rfl))

theorem calCommand_probes (ho : byteAt e.bytes 26 = 0) (he : s.eligible (lef e.bytes 24 2) = true) :
    let c := lef e.bytes 24 2
    s.calCommand r 0 = (s.begin_ r e.idx).enterCal c (s.probeJob c (some (r, e.idx))) := by
  unfold State.calCommand
  rw [h]
  exact (if_neg (not_not_intro ho)).trans (if_neg (by rw [he]; exact Bool.false_ne_true))

theorem calCommand_sweeps (ho : byteAt e.bytes 26 = 1) (he : s.eligible (lef e.bytes 24 2) = true) :
    let c := lef e.bytes 24 2
    s.calCommand r 1 = ((s.begin_ r e.idx).enterCal c (s.sweepJob c (some (r, e.idx)))).addDrip (2 * c) 2 := by
  unfold State.calCommand
  rw [h]
  exact (if_neg (not_not_intro ho)).trans (if_neg (by rw [he]; exact Bool.false_ne_true))

theorem calReset_other (ho : byteAt e.bytes 26 ≠ 2) : s.calReset r = s := by
  unfold State.calReset
  rw [h]
  exact if_pos ho

variable (ho : byteAt e.bytes 26 = 2)
include ho

/-- RESET of every cell. -/
theorem calReset_all (hc : lef e.bytes 24 2 = 0xFFFF) : let t := s.calReset r
    t.loop.calOff = [] ∧ t.loop.cells = s.loop.cells := by
  have ht : s.calReset r = (s.onLoop fun l => { l with calOff := [] }).finishCmd r e.idx 0 true := by
    unfold State.calReset
    rw [h]
    exact (if_neg (not_not_intro ho)).trans (if_pos hc)
  rw [ht]
  dsimp only
  rw [finishCmd_keeps_loop]
  exact ⟨rfl, rfl⟩

/-- RESET of one cell. -/
theorem calReset_one (hc : lef e.bytes 24 2 ≠ 0xFFFF) : let c := lef e.bytes 24 2
    let t := s.calReset r
    t.calOf c = {} ∧ (∀ d, d ≠ c → t.calOf d = s.calOf d) ∧ t.loop.cells = s.loop.cells := by
  intro c t
  have ht : t = (s.modCal c fun _ => {}).finishCmd r e.idx 0 true ((s.modCal c fun _ => {}).calRes c) := by
    change s.calReset r = _
    unfold State.calReset
    rw [h]
    exact (if_neg (not_not_intro ho)).trans (if_neg hc)
  have hl : t.loop = (s.modCal c fun _ => {}).loop := by rw [ht, finishCmd_keeps_loop]
  refine ⟨(calOf_congr hl c).trans (calOf_modCal_self ..), fun d hd => ?_, congrArg (·.cells) hl⟩
  exact (calOf_congr hl d).trans (calOf_modCal_other _ _ hd)
end

/-! ### A calibration that is over (R118 rows 2 and 10, R148, R149, R281) -/

theorem calDone_none {s : State} {c : Nat} (h : (s.cell c).cal = none) (m : CalMeasure) : s.calDone c m = s := by
  rw [State.calDone, h]

section
variable {s : State} {c : Nat} {j : CalJob} (h : (s.cell c).cal = some j) (m : CalMeasure)
include h

theorem calDone_runs (ho : j.over s.now = false) : s.calDone c m = s := by
  rw [State.calDone, h]
  exact if_pos (by rw [ho]; rfl)

variable (ho : j.over s.now = true)
include ho

theorem calDone_aborted (hn : s.changeNeeds c = true) : s.calDone c m = s.leaveCal c 0x24 true := by
  rw [State.calDone, h]
  exact (if_neg (by rw [ho]; exact Bool.false_ne_true)).trans (if_pos hn)

theorem calDone_result (hn : s.changeNeeds c = false) : s.calDone c m = s.calResult c j m := by
  rw [State.calDone, h]
  exact (if_neg (by rw [ho]; exact Bool.false_ne_true)).trans (if_neg (ne_true_of_eq_false hn))
end

theorem calResult_setPoint {s : State} {c : Nat} {j : CalJob} {r i : Nat} (m : CalMeasure) (hi : j.issuer = some (r, i))
    (ho : j.op = 2) : s.calResult c j m = (s.exitCal c j.back).finishCmd r i 0 true
      (leBytes 4 (unsigned 32 (s.cell c).m.y) ++ leBytes 4 (unsigned 32 (s.rampRate c))) (at_ j.clipped 0) := by
  unfold State.calResult
  dsimp only
  rw [hi, ho]
  rfl

/-- What a sweep measures beside the stiffness. -/
def State.swept (s : State) (c : Nat) (m : CalMeasure) : State :=
  ((s.modCal c fun k => { k with lin := m.linOffset }).setHoldDrive c false m.driveBar).setHoldDrive c true m.driveCross

theorem cell_swept (s : State) (c : Nat) (m : CalMeasure) (d : Nat) : (s.swept c m).cell d = s.cell d := by
  unfold State.swept
  rw [cell_setHoldDrive, cell_setHoldDrive, cell_modCal]

theorem lin_swept (s : State) (c : Nat) (m : CalMeasure) : ((s.swept c m).calOf c).lin = m.linOffset := by
  unfold State.swept
  rw [lin_setHoldDrive, lin_setHoldDrive, calOf_modCal_self]

/-- What the measurement of a probe or a sweep changes. -/
def State.measured (s : State) (c : Nat) (j : CalJob) (m : CalMeasure) : State :=
  (if j.op = 1 then (s.exitCal c j.back).swept c m else s.exitCal c j.back).setStiff c m.stiffness

section
variable {s : State} {c : Nat} {j : CalJob} (m : CalMeasure)

/-- A probe or sweep of a command completes with its result; the tracker's own probe has nothing to complete. -/
theorem calResult_measured (ho : j.op < 2) : let t := s.measured c j m
    (∀ r i, j.issuer = some (r, i) → s.calResult c j m = t.finishCmd r i 0 true (t.calRes c)) ∧
    (j.issuer = none → s.calResult c j m = t) := by
  unfold State.calResult State.measured State.swept
  dsimp only
  refine ⟨fun r i hi => ?_, fun hi => ?_⟩
  · rw [hi]
    dsimp only
    rw [if_neg (Nat.ne_of_lt ho)]
    split
    next hop => rw [hop, if_neg Nat.zero_ne_one]
    next hop => rw [hop, if_pos rfl]
    next h0 h1 => exact ((show j.op = 0 ∨ j.op = 1 by omega).elim h0 h1).elim
  · rw [hi]
    dsimp only
    split
    next hop => rw [hop, if_neg Nat.zero_ne_one]
    next hop => rw [hop, if_pos rfl]
    next h0 h1 => exact ((show j.op = 0 ∨ j.op = 1 by omega).elim h0 h1).elim

theorem cell_measured (s : State) (c : Nat) (j : CalJob) (m : CalMeasure) (d : Nat) :
    (s.measured c j m).cell d = (s.exitCal c j.back).cell d := by
  unfold State.measured
  rw [cell_setStiff]
  split
  · exact cell_swept ..
  · rfl

theorem lin_measured (s : State) (c : Nat) {j : CalJob} (m : CalMeasure) (ho : j.op = 1) :
    ((s.measured c j m).calOf c).lin = m.linOffset := by
  unfold State.measured
  rw [lin_setStiff, if_pos ho, lin_swept]

theorem measured_fields (h : (s.cell c).mode = .cal) : let t := s.measured c j m
    (t.cell c).mode = j.back ∧ (t.cell c).cal = none ∧ (t.calOf c).stiff = min (max m.stiffness 12288) 21790 ∧
    (j.op = 1 → (t.calOf c).lin = m.linOffset) ∧ ∀ d, d ≠ c → t.cell d = s.cell d := by
  obtain ⟨h1, h2⟩ := exitCal_exits h j.back
  refine ⟨(congrArg Cell.mode (cell_measured ..)).trans h1, (congrArg Cell.cal (cell_measured ..)).trans h2, stiff_setStiff ..,
    lin_measured s c m, fun d hd => (cell_measured ..).trans (cell_exitCal_other s _ hd)⟩
end

/-! ### The drift tracker's probe (R147) -/

/-- The tracker probed the cell less than its period ago. -/
def State.probedSoon (s : State) (c : Nat) : Bool :=
  (s.cell c).probedAt.any fun t => decide (s.now < t + secC (10 * max (s.rf .fabDriftCfg 0 7 0) 1))

/-- A probe of the tracker runs in a chamber. -/
def State.probing (s : State) (h : Nat) : Bool :=
  (cellsOf h).any fun d => (s.cell d).cal.any fun j => j.op = 0 && j.issuer.isNone

theorem driftProbe_eq (s : State) (c : Nat) : s.driftProbe c =
    if !bit (s.rg .fabDriftCfg) 30 || s.probedSoon c || s.probing (chamberOf c) || !s.eligible c then s
    else (s.enterCal c (s.probeJob c none)).modCell c fun x => { x with probedAt := some s.now } := by
  have hs : s.driftProbe c = if !bit (s.rg .fabDriftCfg) 30 ||
      (match (s.cell c).probedAt with
        | some t => decide (s.now < t + secC (10 * max (s.rf .fabDriftCfg 0 7 0) 1))
        | none => false) || s.probing (chamberOf c) || !s.eligible c then s
    else (s.enterCal c (s.probeJob c none)).modCell c fun x => { x with probedAt := some s.now } := rfl
  rw [hs]
  unfold State.probedSoon
  cases (s.cell c).probedAt with
  | none => rw [Option.any_none]
  | some t => rw [Option.any_some]

theorem driftProbe_waits {s : State} {c : Nat} (h : bit (s.rg .fabDriftCfg) 30 = false ∨ s.probedSoon c = true ∨
    s.probing (chamberOf c) = true ∨ s.eligible c = false) : s.driftProbe c = s := by
  rw [driftProbe_eq]
  exact if_pos (by rcases h with h | h | h | h <;> simp [h])

theorem driftProbe_probes {s : State} {c : Nat} (hb : bit (s.rg .fabDriftCfg) 30 = true) (hs : s.probedSoon c = false)
    (hp : s.probing (chamberOf c) = false) (he : s.eligible c = true) : ∃ j, let t := s.driftProbe c
    (t.cell c).mode = .cal ∧ (t.cell c).cal = some j ∧ j.op = 0 ∧ j.issuer = none ∧ j.back = (s.cell c).mode ∧
    (t.cell c).probedAt = some s.now ∧ ∀ d, d ≠ c → t.cell d = s.cell d := by
  have ht : s.driftProbe c = (s.enterCal c (s.probeJob c none)).modCell c fun x => { x with probedAt := some s.now } := by
    rw [driftProbe_eq]
    exact if_neg (by simp [hb, hs, hp, he])
  obtain ⟨h1, h2, h3⟩ := enterCal_enters s c (s.probeJob c none)
  rw [ht]
  refine ⟨{ s.probeJob c none with back := (s.cell c).mode }, ?_⟩
  dsimp only
  rw [cell_modCell_self]
  exact ⟨h1, h2, rfl, rfl, rfl, rfl, fun d hd => (cell_modCell_other _ _ hd).trans (h3 d hd)⟩

/-! ### The obligation -/

/-- Settles O43: CAL is entered by `enterCal_enters` and left by `exitCal_exits`, with the result of `calResult_setPoint` or
`calResult_measured`. -/
theorem calibrationCommands : Obligations.CalibrationCommands := by
  unfold Obligations.CalibrationCommands
  refine ⟨fun s r => ⟨fun h => ?_, fun h => ?_, fun e => ⟨fun h => ?_, fun h => ?_⟩⟩, fun s u dt c m hu => ?_,
    fun s c b hb => exitCal_driven s c hb, fun s u dt c hu => ?_⟩
  · rw [exec_loopSetpoint, loopSetpoint_none h]
  · intro c hc
    simp only [List.mem_cons, List.not_mem_nil, or_false] at hc
    rcases hc with rfl | rfl | rfl
    · rw [exec_calProbe, calCommand_none 0 h]
    · rw [exec_calSweep, calCommand_none 1 h]
    · rw [exec_calReset, calReset_none h]
  · refine ⟨fun he => by rw [exec_loopSetpoint, loopSetpoint_refused h he], fun he => ?_⟩
    obtain ⟨h1, h2, h3⟩ := enterCal_enters (s.begin_ r.val e.idx) (lef e.bytes 24 2) (s.setPointJob r.val e)
    exact ⟨_, _, by rw [exec_loopSetpoint, loopSetpoint_enters h he], h1, h2, rfl, rfl, rfl, rfl, rfl, rfl,
      decide_eq_true_iff.trans Int.ofNat_lt.symm, h3⟩
  · refine ⟨fun ho => by rw [exec_calProbe, calCommand_other h ho], fun ho => by rw [exec_calSweep, calCommand_other h ho],
      fun ho => by rw [exec_calReset, calReset_other h ho], fun ho => ⟨fun he => ?_, fun he => ?_⟩,
      fun ho => ⟨fun he => ?_, fun he => ?_⟩, fun ho hc => ⟨_, exec_calReset .., calReset_one h ho hc⟩,
      fun ho hc => ⟨_, exec_calReset .., calReset_all h ho hc⟩⟩
    · rw [exec_calProbe, calCommand_refused h ho he]
    · obtain ⟨h1, h2, h3⟩ := enterCal_enters (s.begin_ r.val e.idx) (lef e.bytes 24 2)
        (s.probeJob (lef e.bytes 24 2) (some (r.val, e.idx)))
      exact ⟨_, _, by rw [exec_calProbe, calCommand_probes h ho he], h1, h2, rfl, rfl, rfl,
        probeJob_leg s _ (some (r.val, e.idx)), rfl, rfl, rfl, h3⟩
    · rw [exec_calSweep, calCommand_refused h ho he]
    · obtain ⟨h1, h2, h3, h4, h5⟩ := enterCal_counts (s.begin_ r.val e.idx) (lef e.bytes 24 2)
        (s.sweepJob (lef e.bytes 24 2) (some (r.val, e.idx)))
      exact ⟨_, _, by rw [exec_calSweep, calCommand_sweeps h ho he], h1, h2, rfl, rfl, rfl, h3, h4, h5⟩
  · subst hu
    refine ⟨fun h => by rw [exec_calComplete, calDone_none h], fun j h => ⟨fun ho => ?_, fun ho hn => ?_, fun ho hn hm => ?_⟩⟩
    · rw [exec_calComplete, calDone_runs h m ho]
    · rw [exec_calComplete, calDone_aborted h m ho hn]
    · have hx := (exec_calComplete s dt c m).trans (by rw [calDone_result h m ho hn])
      refine ⟨fun r i hi h2 => by rw [hx, calResult_setPoint m hi h2], fun h2 => ?_⟩
      obtain ⟨hr, hw⟩ := calResult_measured (s := s.pass dt) (c := c.val) m h2
      obtain ⟨h3, h4, h5, h6, h7⟩ := measured_fields (j := j) m hm
      exact ⟨_, h3, h4, h5, h6, h7, fun r i hi => by rw [hx, hr r i hi], fun hi => by rw [hx, hw hi]⟩
  · subst hu
    refine ⟨fun hb hs hp he => ?_, fun h => by rw [exec_driftProbe, driftProbe_waits h]⟩
    obtain ⟨j, hj⟩ := driftProbe_probes hb hs hp he
    exact ⟨_, j, exec_driftProbe .., hj⟩

end Sys2Proof.Machine
end

section
/-! Settling O44: the period of the flowstone tables, their learning, and the oscillation detector's reaction. -/

namespace Sys2Proof.Machine

theorem exec_periodIn (s : State) (dt : Nat) :
    exec (.periodIn dt) s = .next (s.onClock dt fun s => if s.core then s.periodIn else s) := rfl
theorem exec_estimatorEdge (s : State) (dt : Nat) :
    exec (.estimatorEdge dt) s = .next (s.onClock dt fun s => if s.core then s.estimatorEdge else s) := rfl
theorem exec_periodLockLoss (s : State) (dt : Nat) : exec (.periodLockLoss dt) s = .next (s.pass dt).periodLoss.finish := rfl
theorem exec_fadeEnd (s : State) (dt : Nat) : exec (.fadeEnd dt) s = .next (s.pass dt).fadeEnds.finish := rfl
theorem exec_binVisitEnd (s : State) (dt : Nat) : exec (.binVisitEnd dt) s = .next (s.pass dt).visitEnds.finish := rfl
theorem exec_flowstoneClear (s : State) (h : Fin 32) (v : Word) :
    exec (.flowstoneClear h v) s = .next (s.onHost fun s => s.writeFlowCfg h.val v) := rfl
theorem exec_oscDetect (s : State) (c : Fin 2048) : exec (.oscDetect c) s = .next (s.oscDetect c.val).finish := rfl

theorem fire_queues (s : State) (n d : Nat) (o : Option Nat) :
    ∃ q ∈ (s.fire n d o).flt.fireQ, q.src = n ∧ q.detail = d :=
  ⟨_, List.mem_append_right _ (List.mem_singleton_self _), rfl, rfl⟩

theorem onClock_core {s : State} {dt : Nat} (h : (s.pass dt).core = true) (f : State → State) :
    s.onClock dt (fun s => if s.core then f s else s) = (f (s.pass dt)).finish := congrArg State.finish (if_pos h)

theorem onClock_noCore {s : State} {dt : Nat} (h : (s.pass dt).core = false) (f : State → State) :
    s.onClock dt (fun s => if s.core then f s else s) = (s.pass dt).finish :=
  congrArg State.finish (if_neg (ne_true_of_eq_false h))

/-! ### Reference edges (R133) -/

/-- An interval as long as the last accepted one is accepted, within the limits of R133. -/
theorem edge_accepts {q : PerSrc} {now : Nat} (need : Nat) (hr : q.refAt = some (now - q.lastOk)) (hn : q.lastOk ≤ now)
    (hlo : msC 5 ≤ q.lastOk) (hhi : q.lastOk ≤ msC 500) : q.edge now need =
      { q with refAt := some now, run := q.run + 1, bad := 0, acceptedAt := some now,
               locked := q.locked || decide (need ≤ q.run + 1) } := by
  unfold PerSrc.edge
  rw [hr]
  dsimp only
  rw [Nat.sub_sub_self hn]
  exact if_pos (by simp [hlo, hhi])

/-! ### The choice of a source (R135) -/

/-- What a source is chosen from. -/
def Period.sources (p : Period) : Estimator × PerSrc × PerSrc := (p.filter, p.pin, p.est)

/-- What the choice of a source leaves as it is. -/
def State.inputs (s : State) : Pwr × Tab Cell × Estimator × PerSrc × PerSrc :=
  (s.pwr, s.loop.cells, s.loop.period.sources)

theorem inputs_eq {s : State} {w : Pwr} {x : Tab Cell} {f : Estimator} {p e : PerSrc} (h : s.inputs = (w, x, f, p, e)) :
    s.pwr = w ∧ s.loop.cells = x ∧ s.loop.period.filter = f ∧ s.loop.period.pin = p ∧ s.loop.period.est = e := by
  unfold State.inputs Period.sources at h
  simpa only [Prod.mk.injEq] using h

theorem sources_take (p : Period) (q : PerSrc) : (p.take q).sources = p.sources := by
  unfold Period.take; split <;> rfl

theorem inputs_onPeriod {s : State} {f : Period → Period} (h : (f s.loop.period).sources = s.loop.period.sources) :
    (s.onPeriod f).inputs = s.inputs := congrArg (fun x => (s.pwr, s.loop.cells, x)) h

@[simp] theorem inputs_periodEvent (s : State) (n : Nat) : (s.periodEvent n).inputs = s.inputs := by
  unfold State.inputs State.periodEvent
  rw [event_keeps_pwr, event_keeps_loop]

@[simp] theorem inputs_setBit (s : State) (r : Reg) (i b : Nat) : (s.setBit r i b).inputs = s.inputs := by
  unfold State.inputs
  rw [State.setBit_pwr, State.setBit_loop]

@[simp] theorem inputs_fire (s : State) (n d : Nat) (o : Option Nat) : (s.fire n d o).inputs = s.inputs := rfl

theorem inputs_periodTake (s : State) (k : Nat) : (s.periodTake k).inputs = s.inputs := by
  refine inputs_onPeriod ?_
  dsimp only
  split
  · exact sources_take ..
  · rfl

theorem inputs_periodSelect (s : State) : s.periodSelect.inputs = s.inputs := by
  unfold State.periodSelect
  extract_lets p was k on use
  have huse : ∀ q, (use q).sources = q.sources := fun q => by
    unfold use
    split <;> exact sources_take ..
  split
  · rfl
  split
  · rw [inputs_fire, inputs_periodEvent, inputs_setBit]
    exact inputs_onPeriod rfl
  split
  · rw [inputs_periodEvent]
    exact inputs_onPeriod (huse _)
  split
  · rw [inputs_periodEvent]
    exact inputs_onPeriod (huse _)
  · rw [inputs_periodEvent]
    exact inputs_onPeriod (huse _)

/-- No source is in use: the factor fades down from its present value (R136). -/
def State.unlocked (s : State) : State :=
  s.onPeriod fun p => { p with active := 3#2, locked := false }.startFade s.now false

/-- With no source left to choose, the one in use is lost (R135, R136). -/
theorem periodSelect_loses {s : State} (hk : s.loop.period.choose (s.rf .fabPeriodCfg 0 31 30) = 3)
    (ha : s.loop.period.active ≠ 3#2) :
    s.periodSelect = ((s.unlocked.setBit .fabPeriodStatus 0 28).periodEvent 1).fire 56 := by
  have hw : 3 ≠ s.loop.period.active.toNat := fun h => ha (BitVec.eq_of_toNat_eq h.symm)
  unfold State.periodSelect
  dsimp only
  rw [hk, if_neg hw]
  rfl

/-! ### Edges of the two sources (R133, R134) -/

theorem periodIn_counts {s : State} (h : s.loop.period.pin.edges + 1 < max (s.rf .fabPeriodCfg 0 21 16) 1) :
    s.periodIn.pwr = { s.pwr with periodIn := true } ∧ s.periodIn.loop.period =
      { s.loop.period with pin := { s.loop.period.pin with edges := s.loop.period.pin.edges + 1 } } := by
  unfold State.periodIn
  dsimp only
  rw [if_pos h]
  exact ⟨rfl, rfl⟩

theorem periodIn_refers {s : State} (h : max (s.rf .fabPeriodCfg 0 21 16) 1 ≤ s.loop.period.pin.edges + 1) :
    s.periodIn.pwr = { s.pwr with periodIn := true } ∧
    s.periodIn.loop.period.pin = { s.loop.period.pin.edge s.now 3 with edges := 0 } := by
  obtain ⟨hp, -, -, hq, -⟩ := inputs_eq ((inputs_periodSelect _).trans (inputs_periodTake
    (s.onPeriod fun p => { p with pin := { p.pin.edge s.now 3 with edges := 0 } }) 0))
  unfold State.periodIn
  dsimp only
  rw [if_neg (Nat.not_lt.mpr h)]
  exact ⟨congrArg (fun p : Pwr => { p with periodIn := true }) hp, hq⟩

theorem estimatorEdge_none {s : State} (h : s.loop.period.filter.crossAt = none) : s.estimatorEdge = s := by
  unfold State.estimatorEdge; rw [h]

theorem estimatorEdge_some {s : State} {k : Nat} (h : s.loop.period.filter.crossAt = some k) :
    s.estimatorEdge = s.takeCrossing k := by
  unfold State.estimatorEdge; rw [h]

theorem inputs_takeCrossing (s : State) (k : Nat) : let p := s.loop.period
    (s.takeCrossing k).inputs = (s.pwr, s.loop.cells, { p.filter with crossAt := none }, p.pin,
      { p.est.edge k 8 with locked := (p.est.edge k 8).locked && s.estimatorFed }) :=
  (inputs_periodSelect _).trans (inputs_periodTake _ 1)

theorem takeCrossing_fields (s : State) (k : Nat) : let p := s.loop.period
    let t := s.takeCrossing k
    t.loop.period.filter = { p.filter with crossAt := none } ∧
    t.loop.period.est = { p.est.edge k 8 with locked := (p.est.edge k 8).locked && s.estimatorFed } ∧
    t.loop.period.pin = p.pin ∧ t.loop.cells = s.loop.cells := by
  obtain ⟨-, hc, hf, hp, he⟩ := inputs_eq (inputs_takeCrossing s k)
  exact ⟨hf, he, hp, hc⟩

/-! ### Loss of lock, and the fade (R133, R136) -/

/-- A source that is overdue is no longer locked. -/
def PerSrc.lapse (q : PerSrc) (now : Nat) : PerSrc := { q with locked := q.locked && !q.overdue now }

/-- The sources of the period once their locks have lapsed. -/
def State.lapsed (s : State) : State :=
  s.onPeriod fun p => { p with pin := p.pin.lapse s.now, est := p.est.lapse s.now }

theorem periodLoss_eq (s : State) : s.periodLoss = s.lapsed.periodSelect := rfl

theorem periodLoss_fields (s : State) : s.periodLoss.loop.period.pin = s.loop.period.pin.lapse s.now ∧
    s.periodLoss.loop.period.est = s.loop.period.est.lapse s.now ∧ s.periodLoss.loop.cells = s.loop.cells := by
  obtain ⟨-, hc, -, hp, he⟩ := inputs_eq (inputs_periodSelect s.lapsed)
  exact ⟨hp, he, hc⟩

/-- PERIOD_IN, overdue and selected alone, leaves no source. -/
theorem choose_lapsed {s : State} (ho : s.loop.period.pin.overdue s.now = true) (hs : s.rf .fabPeriodCfg 0 31 30 = 0) :
    s.lapsed.loop.period.choose (s.lapsed.rf .fabPeriodCfg 0 31 30) = 3 := by
  have hl : s.lapsed.loop.period.pin.locked = false := by
    change (s.loop.period.pin.locked && !s.loop.period.pin.overdue s.now) = false
    rw [ho, Bool.not_true, Bool.and_false]
  have hr : s.lapsed.rf .fabPeriodCfg 0 31 30 = 0 := hs
  unfold Period.choose
  rw [hr, hl]
  rfl

theorem periodLoss_loses {s : State} (ha : s.loop.period.active = 0#2) (ho : s.loop.period.pin.overdue s.now = true)
    (hs : s.rf .fabPeriodCfg 0 31 30 = 0) : let t := s.periodLoss
    t.loop.period.active = 3#2 ∧ t.loop.period.locked = false ∧ t.loop.period.fading = true ∧ t.loop.period.fadeUp = false ∧
    t.loop.period.fadeFrom = s.now ∧ t.loop.period.period = s.loop.period.period ∧
    bit (t.rg .fabPeriodStatus) 28 = true ∧ ∃ q ∈ t.flt.fireQ, q.src = 56 := by
  have hn : s.lapsed.loop.period.active ≠ 3#2 := by
    change s.loop.period.active ≠ 3#2
    rw [ha]
    decide
  have hl : s.periodLoss = _ := periodSelect_loses (choose_lapsed ho hs) hn
  have hp : s.periodLoss.loop.period = s.lapsed.unlocked.loop.period :=
    (congrArg (·.loop.period) hl).trans (congrArg Loops.period ((event_keeps_loop ..).trans (State.setBit_loop ..)))
  dsimp only
  rw [hp, hl]
  refine ⟨rfl, rfl, rfl, rfl, rfl, rfl, ?_, ?_⟩
  · rw [rg_congr (State.fire_regs ..), State.periodEvent, rg_congr (event_keeps_regs ..)]
    exact bit_rg_setBit _ _ _ (by decide)
  · obtain ⟨q, hq, hsrc, -⟩ := fire_queues ((s.lapsed.unlocked.setBit .fabPeriodStatus 0 28).periodEvent 1) 56 0 none
    exact ⟨q, hq, hsrc⟩

theorem fadeEnds_ends {s : State} (hf : s.loop.period.fading = true) (hn : s.loop.period.fadeFrom + s.fadeCycles ≤ s.now) :
    s.fadeEnds.loop = { s.loop with period := { s.loop.period with fading := false, factor1 := s.loop.period.fadeUp } } := by
  have he : s.fadeEnds = s.onPeriod fun p => { p with fading := false, factor1 := p.fadeUp } :=
    if_pos (by rw [hf, decide_eq_true hn]; rfl)
  rw [he]
  rfl

theorem fadeEnds_goesOn {s : State} (h : s.loop.period.fading = false ∨ s.now < s.loop.period.fadeFrom + s.fadeCycles) :
    s.fadeEnds = s := by
  refine if_neg ?_
  rcases h with h | h
  · rw [h, Bool.false_and]; exact Bool.false_ne_true
  · rw [decide_eq_false (Nat.not_le.mpr h), Bool.and_false]; exact Bool.false_ne_true

/-! ### Visits of bins (R137) -/

theorem learnCell_loop (s : State) (k c : Nat) : (s.learnCell k c).loop = s.loop := by
  unfold State.learnCell
  dsimp only
  split <;> rfl

/-- The next visit of a cell begins. -/
def State.newVisit (s : State) (c : Nat) : State :=
  s.modCell c fun x => { x with m := { x.m with sumU := 0, nU := 0, clean := x.mode.holds } }

/-- The visit that ends was in lock at the full factor and leads to the next bin. -/
def State.cleanVisit (s : State) : Bool :=
  let p := s.loop.period
  p.locked && !p.fading && p.factor1 && decide (p.binAt s.now = (p.bin + 1) % 256)

/-- The loops after a clean visit have learned. -/
def State.visitLearned (s : State) : State :=
  if s.cleanVisit then (s.loop.cells.map (·.1)).foldl (fun t c => t.learnCell s.loop.period.bin c) s else s

theorem visitEnds_eq {s : State} (h : s.loop.period.binAt s.now ≠ s.loop.period.bin) : s.visitEnds =
    ((s.loop.cells.map (·.1)).foldl State.newVisit s.visitLearned).onPeriod fun p =>
      { p with bin := s.loop.period.binAt s.now } := if_neg h

theorem visitEnds_same {s : State} (h : s.loop.period.binAt s.now = s.loop.period.bin) : s.visitEnds = s := if_pos h

theorem visitLearned_loop (s : State) : s.visitLearned.loop = s.loop := by
  unfold State.visitLearned
  split
  · exact foldl_keeps State.loop _ _ (fun t c => learnCell_loop t _ c) s
  · rfl

theorem visitEnds_period {s : State} (h : s.loop.period.binAt s.now ≠ s.loop.period.bin) :
    s.visitEnds.loop.period = { s.loop.period with bin := s.loop.period.binAt s.now } := by
  have hp := foldl_keeps (·.loop.period) (s.loop.cells.map (·.1)) State.newVisit (fun _ _ => rfl) s.visitLearned
  rw [visitEnds_eq h]
  exact congrArg (fun p : Period => { p with bin := s.loop.period.binAt s.now })
    (hp.trans (congrArg Loops.period (visitLearned_loop s)))

theorem visitEnds_cell {s : State} (h : s.loop.period.binAt s.now ≠ s.loop.period.bin) {k : Nat × Cell}
    (hk : k ∈ s.loop.cells) : (s.visitEnds.cell k.1).m.nU = 0 ∧ (s.visitEnds.cell k.1).m.sumU = 0 := by
  have hm : ∀ (t : State) (c : Nat), ((t.newVisit c).cell c).m.nU = 0 ∧ ((t.newVisit c).cell c).m.sumU = 0 := fun t c => by
    unfold State.newVisit
    rw [cell_modCell_self]
    exact ⟨rfl, rfl⟩
  rw [visitEnds_eq h]
  refine foldl_reaches _ (I := fun _ => True) (P := fun t => (t.cell k.1).m.nU = 0 ∧ (t.cell k.1).m.sumU = 0)
    (List.mem_map_of_mem hk) (fun _ _ _ => trivial) (fun t _ => hm t k.1) (fun t d _ ht => ?_) s.visitLearned trivial
  by_cases hd : k.1 = d
  · exact hd ▸ hm t k.1
  · rw [State.newVisit, cell_modCell_other _ _ hd]
    exact ht

/-- Without a clean visit nothing is learned. -/
theorem visitEnds_sram {s : State} (h : s.loop.period.binAt s.now ≠ s.loop.period.bin) (hc : s.loop.period.locked = false ∨
    s.loop.period.fading = true ∨ s.loop.period.factor1 = false ∨
    s.loop.period.binAt s.now ≠ (s.loop.period.bin + 1) % 256) : s.visitEnds.sram = s.sram := by
  have hl : s.visitLearned = s := if_neg (by unfold State.cleanVisit; rcases hc with h | h | h | h <;> simp [h])
  rw [visitEnds_eq h, hl]
  exact foldl_keeps State.sram (s.loop.cells.map (·.1)) State.newVisit (fun _ _ => rfl) s

/-! ### Flowstone tables zeroed (R138, R140) -/

theorem rd_clearBytes (m : Memory) (a n x : Nat) :
    rd (clearBytes m a n) x = if a ≤ x ∧ x < a + n then 0#8 else rd m x := by
  unfold clearBytes rd
  induction m with
  | nil => exact (ite_self _).symm
  | cons p m ih =>
    rw [List.filter_cons]
    by_cases hp : p.1 = x
    · by_cases hx : a ≤ x ∧ x < a + n
      · rw [if_neg (by simp; omega), ih, if_pos hx, if_pos hx]
      · rw [if_pos (by simp; omega), if_neg hx, tget, tget, if_pos hp, if_pos hp]
    · rw [tget, if_neg hp, ← ih]
      split
      · rw [tget, if_neg hp]
      · rfl

/-- An address of the flowstone table of a cell. -/
def inFlow (c x : Nat) : Prop := flowBase c ≤ x ∧ x < flowBase c + 512

theorem rd_clearFlow_inside (s : State) {c x : Nat} (h : inFlow c x) : rd (s.clearFlow c).sram x = 0#8 :=
  (rd_clearBytes ..).trans (if_pos h)

theorem rd_clearFlow_outside (s : State) {c x : Nat} (h : ¬ inFlow c x) : rd (s.clearFlow c).sram x = rd s.sram x :=
  (rd_clearBytes ..).trans (if_neg h)

theorem rd_clearFlows_inside {l : List Nat} {c x : Nat} (hc : c ∈ l) (h : inFlow c x) (s : State) :
    rd (l.foldl State.clearFlow s).sram x = 0#8 := by
  refine foldl_reaches l (I := fun _ => True) (P := fun s => rd s.sram x = 0#8) hc (fun _ _ _ => trivial)
    (fun s _ => rd_clearFlow_inside s h) (fun s d _ hs => ?_) s trivial
  by_cases hd : inFlow d x
  · exact rd_clearFlow_inside s hd
  · rw [rd_clearFlow_outside s hd, hs]

theorem rd_clearFlows_outside {l : List Nat} {x : Nat} (h : ∀ c ∈ l, ¬ inFlow c x) (s : State) :
    rd (l.foldl State.clearFlow s).sram x = rd s.sram x := by
  induction l generalizing s with
  | nil => rfl
  | cons c l ih =>
    rw [List.foldl_cons, ih fun d hd => h d (List.mem_cons_of_mem _ hd), rd_clearFlow_outside s (h c List.mem_cons_self)]

/-- A table of zeros has zero bins. -/
theorem flowBin_zero {s : State} {c k : Nat} (h : ∀ x, inFlow c x → rd s.sram x = 0#8) (hk : k < 256) : s.flowBin c k = 0 := by
  unfold State.flowBin
  rw [rdBytes, rdBytes, rdBytes, h _ (by unfold inFlow; omega), h _ (by unfold inFlow; omega)]
  rfl

theorem clearFlow_cleared (s : State) (c : Nat) :
    (∀ k < 256, (s.clearFlow c).flowBin c k = 0) ∧ s.sramKept (s.clearFlow c) (flowBase c) 512 :=
  ⟨fun _ hk => flowBin_zero (fun _ => rd_clearFlow_inside s) hk,
    fun x hx => rd_clearFlow_outside s (by unfold inFlow; omega)⟩

/-- The tables of a chamber lie together. -/
theorem clearChamber_cleared (s : State) (h : Nat) : let t := (cellsOf h).foldl State.clearFlow s
    (∀ c, chamberOf c = h → ∀ k < 256, t.flowBin c k = 0) ∧ s.sramKept t (flowBase (64 * h)) (512 * 64) := by
  refine ⟨fun c hc k hk => flowBin_zero (fun x hx => rd_clearFlows_inside (mem_cellsOf.mpr hc) hx s) hk, fun x hx => ?_⟩
  refine rd_clearFlows_outside (fun c hc hi => ?_) s
  have hb := mem_cellsOf.mp hc
  unfold chamberOf at hb
  unfold inFlow at hi
  unfold flowBase at hx hi
  omega

theorem flowBin_congr {s t : State} (h : t.sram = s.sram) (c k : Nat) : t.flowBin c k = s.flowBin c k := by
  unfold State.flowBin; rw [h]

theorem sramKept_congr {s s' t t' : State} (hs : s'.sram = s.sram) (ht : t'.sram = t.sram) {a n : Nat}
    (h : s.sramKept t a n) : s'.sramKept t' a n := fun x hx => by rw [hs, ht]; exact h x hx

theorem writeFlowCfg_fields {s : State} (hg : s.grantOk = true) (h : Nat) (v : Word) : let t := s.writeFlowCfg h v
    t.rg .loopFlowCfg h = s.written .loopFlowCfg h 0 v ∧
    (bit v 30 = true → (∀ c, chamberOf c = h → ∀ k < 256, t.flowBin c k = 0) ∧
      s.sramKept t (flowBase (64 * h)) (512 * 64)) ∧
    (bit v 30 = false → t.sram = s.sram) := by
  obtain ⟨u, hu, he⟩ := protReg_acts hg .loopFlowCfg h v fun s =>
    if bit v 30 then (cellsOf h).foldl State.clearFlow s else s
  have hs : u.sram = s.sram := by have := congrArg State.sram hu.frame; exact this
  intro t
  have ht : t = _ := he
  have hr := (congrArg State.regs ht).trans (State.irqPulse_regs ..)
  have hm := (congrArg State.sram ht).trans (State.irqPulse_sram ..)
  cases hv : bit v 30 with
  | true =>
    rw [hv, if_pos rfl] at hr hm
    have hk := foldl_keeps State.regs (cellsOf h) State.clearFlow (fun _ _ => rfl) u
    obtain ⟨h1, h2⟩ := clearChamber_cleared u h
    exact ⟨(rg_congr (hr.trans hk) ..).trans hu.rg, fun _ => ⟨fun c hc k hk => (flowBin_congr hm c k).trans (h1 c hc k hk),
      sramKept_congr hs.symm hm h2⟩, fun hf => absurd hf.symm Bool.false_ne_true⟩
  | false =>
    rw [hv, if_neg Bool.false_ne_true] at hr hm
    exact ⟨(rg_congr hr ..).trans hu.rg, fun hf => absurd hf Bool.false_ne_true, fun _ => hm.trans hs⟩

/-! ### The oscillation detector (R140, R141) -/

/-- The counts of a chamber's detector, which a trace trigger leaves. -/
def ChLoop.odet (k : ChLoop) : Nat × Nat := (k.lastCell, k.odetCount)

theorem odet_fireNow (s : State) (h k : Nat) :
    ((s.modChan h fun q => { q with trace := q.trace.fireNow }).chan k).odet = (s.chan k).odet := by
  rcases eq_or_ne k h with rfl | hk
  · rw [chan_modChan_self]; rfl
  · rw [chan_modChan_other s _ hk]

theorem odet_followTrigger (s : State) (h k : Nat) : ((s.followTrigger h).chan k).odet = (s.chan k).odet := by
  unfold State.followTrigger
  dsimp only
  split
  · exact odet_fireNow s h k
  · rfl

theorem odet_traceEvent (s : State) (h n k : Nat) : ((s.traceEvent h n).chan k).odet = (s.chan k).odet := by
  unfold State.traceEvent
  split
  · rw [traceTrigger_eq]
    split
    · exact (foldl_keeps (fun t => (t.chan k).odet) _ _ (fun t j => odet_followTrigger t j k) _).trans (odet_fireNow s h k)
    · rfl
  · rfl

/-- From `s` to `t` the detector of cell `c` has reported its window. -/
structure State.Detects (s t : State) (c : Nat) : Prop where
  done : (t.cell c).m.odDue = false
  odet : (t.chan (chamberOf c)).odet = (localOf c, min ((s.chan (chamberOf c)).odetCount + 1) 0xFFFF)
  status : bit (t.rg .loopOdetStatus (chamberOf c)) 31 = true
  others : ∀ d, d ≠ c → t.cell d = s.cell d

/-- The window is noted in the chamber's status. -/
def State.odNoted (s : State) (c : Nat) : State :=
  ((s.modCell c fun x => { x with m := { x.m with odDue := false } }).modChan (chamberOf c) fun k =>
    { k with lastCell := localOf c, odetCount := satN (k.odetCount + 1) 0xFFFF }).setBit .loopOdetStatus (chamberOf c) 31

/-- The action of a chamber's detector: 0 none, 2 with the flowstone table zeroed, and else the fallback alone. -/
def State.odActs (s : State) (c act : Nat) : State :=
  let t := if act = 0 then s else s.fallback c
  if act = 2 then t.clearFlow c else t

/-- The event, source 54 and the trace trigger of a report. -/
def State.odReports (s : State) (c act : Nat) : State :=
  ((s.event 7 (localOf c) (chamberOf c) [BitVec.ofNat 8 act, (s.cell c).mNext]).fire 54 c (some (chamberOf c))).traceEvent
    (chamberOf c) 4

theorem oscDetect_idle {s : State} {c : Nat} (h : (s.cell c).m.odDue = false) : s.oscDetect c = s :=
  if_pos (by rw [h]; rfl)

theorem oscDetect_due {s : State} {c : Nat} (h : (s.cell c).m.odDue = true) : s.oscDetect c =
    let act := s.rf .loopOdetCfg (chamberOf c) 31 30
    ((s.odNoted c).odActs c act).odReports c act := if_neg (by rw [h]; exact Bool.false_ne_true)

theorem cell_odNoted_self (s : State) (c : Nat) :
    (s.odNoted c).cell c = { s.cell c with m := { (s.cell c).m with odDue := false } } := by
  unfold State.odNoted
  rw [cell_setBit, cell_modChan, cell_modCell_self]

theorem detects_odNoted (s : State) (c : Nat) : s.Detects (s.odNoted c) c where
  done := by rw [cell_odNoted_self]
  odet := by
    unfold State.odNoted
    rw [chan_congr (State.setBit_loop ..), chan_modChan_self]
    rfl
  status := bit_rg_setBit _ _ _ (by decide)
  others d hd := by
    unfold State.odNoted
    rw [cell_setBit, cell_modChan, cell_modCell_other _ _ hd]

/-- A further status bit leaves what was reported. -/
theorem State.Detects.setBit {s t : State} {c : Nat} (h : s.Detects t c) (b : Nat) :
    s.Detects (t.setBit .loopOdetStatus (chamberOf c) b) c where
  done := by rw [cell_setBit]; exact h.done
  odet := by rw [chan_congr (State.setBit_loop ..)]; exact h.odet
  status := by rw [rg_setBit_self, bit_or, h.status, Bool.true_or]
  others d hd := by rw [cell_setBit]; exact h.others d hd

/-- The profile to which a chamber's detector falls back. -/
def State.odProfile (s : State) (c : Nat) : Nat := s.rf .loopOdetCfg (chamberOf c) 15 8

theorem fallback_stays {s : State} {c : Nat} (h : s.profKind (s.odProfile c) ≠ 1 ∨ (s.cell c).midx.toNat = s.odProfile c) :
    s.fallback c = s.setBit .loopOdetStatus (chamberOf c) 29 := by
  refine if_pos ?_
  unfold State.odProfile at h
  simpa using h

theorem fallback_falls {s : State} {c : Nat} (hp : s.profKind (s.odProfile c) = 1) (hm : (s.cell c).midx.toNat ≠ s.odProfile c) :
    s.fallback c = (s.modCell c fun x => { x with mfall := some (BitVec.ofNat 8 (s.odProfile c)) }).setBit
      .loopOdetStatus (chamberOf c) 30 := by
  refine if_neg ?_
  unfold State.odProfile at hp hm
  simp [hp, hm]

theorem State.Detects.fallback {s t : State} {c : Nat} (h : s.Detects t c) : s.Detects (t.fallback c) c := by
  by_cases hf : t.profKind (t.odProfile c) = 1 ∧ (t.cell c).midx.toNat ≠ t.odProfile c
  · rw [fallback_falls hf.1 hf.2]
    refine State.Detects.setBit (t := t.modCell c _) ⟨?_, h.odet, h.status, fun d hd => ?_⟩ 30
    · rw [cell_modCell_self]; exact h.done
    · rw [cell_modCell_other _ _ hd]; exact h.others d hd
  · rw [fallback_stays (by tauto)]
    exact h.setBit 29

theorem State.Detects.odActs {s t : State} {c : Nat} (h : s.Detects t c) (act : Nat) : s.Detects (t.odActs c act) c := by
  have hf : s.Detects (if act = 0 then t else t.fallback c) c := by
    split
    · exact h
    · exact h.fallback
  unfold State.odActs
  dsimp only
  split
  · exact ⟨hf.done, hf.odet, hf.status, hf.others⟩
  · exact hf

/-- A report leaves cells, registers and memory. -/
theorem odReports_keeps (s : State) (c act : Nat) : (∀ d, (s.odReports c act).cell d = s.cell d) ∧
    (s.odReports c act).regs = s.regs ∧ (s.odReports c act).sram = s.sram := by
  unfold State.odReports
  refine ⟨fun d => by rw [cell_traceEvent, cell_fire, cell_event], ?_⟩
  obtain ⟨l, hl⟩ := traceEvent_only ((s.event 7 (localOf c) (chamberOf c) [BitVec.ofNat 8 act, (s.cell c).mNext]).fire 54 c
    (some (chamberOf c))) (chamberOf c) 4
  rw [hl]
  exact ⟨event_keeps_regs .., event_keeps_sram ..⟩

theorem odReports_fires (s : State) (c act : Nat) : ∃ q ∈ (s.odReports c act).flt.fireQ, q.src = 54 ∧ q.detail = c := by
  unfold State.odReports
  rw [flt_traceEvent]
  exact fire_queues ..

theorem State.Detects.odReports {s t : State} {c : Nat} (h : s.Detects t c) (act : Nat) :
    s.Detects (t.odReports c act) c := by
  obtain ⟨hc, hr, -⟩ := odReports_keeps t c act
  refine ⟨by rw [hc]; exact h.done, ?_, by rw [rg_congr hr]; exact h.status, fun d hd => (hc d).trans (h.others d hd)⟩
  unfold State.odReports
  rw [odet_traceEvent, ← h.odet]
  exact congrArg ChLoop.odet (chan_congr (event_keeps_loop ..) _)

/-- What the fallback looks at is as it was when the window ended. -/
theorem odNoted_fallback (s : State) (c : Nat) : (s.odNoted c).odProfile c = s.odProfile c ∧
    (∀ p, (s.odNoted c).profKind p = s.profKind p) ∧ ((s.odNoted c).cell c).midx = (s.cell c).midx := by
  refine ⟨?_, fun p => ?_, by rw [cell_odNoted_self]⟩
  · unfold State.odProfile State.rf State.odNoted
    rw [rg_setBit_of_ne _ _ (by simp only [Reg.addr, Reg.info]; omega)]
    rfl
  · unfold State.odNoted State.profKind State.profByte
    rw [State.setBit_loop]
    rfl

theorem odNoted_sram (s : State) (c : Nat) : (s.odNoted c).sram = s.sram := State.setBit_sram ..

theorem mNext_odNoted (s : State) (c : Nat) : ((s.odNoted c).cell c).mNext = (s.cell c).mNext := by
  rw [cell_odNoted_self]; rfl

theorem sram_fallback (s : State) (c : Nat) : (s.fallback c).sram = s.sram := by
  unfold State.fallback
  dsimp only
  split <;> exact State.setBit_sram ..

theorem cell_odActs {act : Nat} (ha : act ≠ 0) (s : State) (c d : Nat) : (s.odActs c act).cell d = (s.fallback c).cell d := by
  unfold State.odActs
  dsimp only
  rw [if_neg ha]
  split <;> rfl

theorem regs_odActs {act : Nat} (ha : act ≠ 0) (s : State) (c : Nat) : (s.odActs c act).regs = (s.fallback c).regs := by
  unfold State.odActs
  dsimp only
  rw [if_neg ha]
  split <;> rfl

section
variable (s : State) (c : Nat) {act : Nat}

theorem odActs_falls (ha : act ≠ 0) (hp : s.profKind (s.odProfile c) = 1) (hm : (s.cell c).midx.toNat ≠ s.odProfile c) :
    (((s.odNoted c).odActs c act).cell c).mNext = BitVec.ofNat 8 (s.odProfile c) := by
  obtain ⟨h1, h2, h3⟩ := odNoted_fallback s c
  rw [cell_odActs ha, fallback_falls (by rw [h1, h2, hp]) (by rw [h1, h3]; exact hm), cell_setBit, cell_modCell_self, h1]
  rfl

theorem odActs_stays (ha : act ≠ 0) (h : s.profKind (s.odProfile c) ≠ 1 ∨ (s.cell c).midx.toNat = s.odProfile c) :
    (((s.odNoted c).odActs c act).cell c).mNext = (s.cell c).mNext ∧
    bit (((s.odNoted c).odActs c act).rg .loopOdetStatus (chamberOf c)) 29 = true := by
  obtain ⟨h1, h2, h3⟩ := odNoted_fallback s c
  rw [cell_odActs ha, rg_congr (regs_odActs ha ..), fallback_stays (by rw [h1, h2, h3]; exact h), cell_setBit, mNext_odNoted]
  exact ⟨rfl, bit_rg_setBit _ _ _ (by decide)⟩

theorem odActs_clears (ha : act = 2) : (∀ j < 256, ((s.odNoted c).odActs c act).flowBin c j = 0) ∧
    s.sramKept ((s.odNoted c).odActs c act) (flowBase c) 512 := by
  subst ha
  obtain ⟨h1, h2⟩ := clearFlow_cleared ((s.odNoted c).fallback c) c
  exact ⟨h1, sramKept_congr ((sram_fallback ..).trans (odNoted_sram ..)).symm rfl h2⟩
end

/-! ### The obligation -/

/-- Settles O44: the sources by `edge_accepts`, `periodIn_refers`, `takeCrossing_fields` and `periodLoss_loses`, the bins by
`visitEnds_eq`, the tables by `clearChamber_cleared`, and the detector by `State.Detects`. -/
theorem periodAndFlowstone : Obligations.PeriodAndFlowstone := by
  unfold Obligations.PeriodAndFlowstone
  refine ⟨fun q now need hr hn hlo hhi => ?_, fun s u dt hu => ?_, fun s h v hh hg => ?_, fun s c => ⟨fun hd => ?_, fun hd => ?_⟩⟩
  · rw [edge_accepts need hr hn hlo hhi]
    exact ⟨rfl, rfl, rfl, fun hl => by simp [hl], fun hl => by simp [hl]⟩
  · subst hu
    refine ⟨fun hc => ?_, fun hc => ⟨fun hp => ?_, fun hp => ?_, fun hf => ?_, fun k hk => ?_⟩, ?_,
      fun hf hn => ⟨_, exec_fadeEnd .., fadeEnds_ends hf hn⟩, fun hf => ?_, fun hb => ?_, fun hb => ?_⟩
    · rw [exec_periodIn, exec_estimatorEdge, onClock_noCore hc, onClock_noCore hc]
      exact ⟨rfl, rfl⟩
    · exact ⟨_, by rw [exec_periodIn, onClock_core hc], periodIn_refers hp⟩
    · exact ⟨_, by rw [exec_periodIn, onClock_core hc], periodIn_counts hp⟩
    · rw [exec_estimatorEdge, onClock_core hc, estimatorEdge_none hf]
    · exact ⟨_, by rw [exec_estimatorEdge, onClock_core hc, estimatorEdge_some hk], takeCrossing_fields ..⟩
    · obtain ⟨h1, h2, h3⟩ := periodLoss_fields (s.pass dt)
      exact ⟨_, exec_periodLockLoss .., congrArg PerSrc.locked h1, congrArg PerSrc.locked h2, h3,
        fun ha ho hs => periodLoss_loses ha ho hs⟩
    · rw [exec_fadeEnd, fadeEnds_goesOn hf]
    · rw [exec_binVisitEnd, visitEnds_same hb]
    · exact ⟨_, exec_binVisitEnd .., visitEnds_period hb, fun k hk => visitEnds_cell hb hk, visitEnds_sram hb⟩
  · obtain ⟨h1, h2, h3⟩ := writeFlowCfg_fields hg h.val v
    exact ⟨_, by rw [exec_flowstoneClear, onHost_up hh], h1,
      fun hv => ⟨fun c _ hc => (h2 hv).1 c hc, (h2 hv).2⟩, h3⟩
  · rw [exec_oscDetect, oscDetect_idle hd]
  · intro h act k
    obtain ⟨hc, hr, hm⟩ := odReports_keeps ((s.odNoted c.val).odActs c.val act) c.val act
    obtain ⟨hdone, hodet, hst, hoth⟩ := ((detects_odNoted s c.val).odActs act).odReports act
    refine ⟨_, by rw [exec_oscDetect, oscDetect_due hd], hdone, congrArg Prod.fst hodet, hst, congrArg Prod.snd hodet,
      odReports_fires .., hoth, fun ha => ?_, fun ha hp hx => ?_, fun ha hx => ?_, fun ha => ?_⟩
    · have hz : (s.odNoted c.val).odActs c.val act = s.odNoted c.val := by rw [ha]; rfl
      exact ⟨by rw [hc, hz, mNext_odNoted], by rw [hm, hz, odNoted_sram]⟩
    · rw [hc]
      exact odActs_falls s c.val ha hp hx
    · rw [hc, rg_congr hr]
      exact odActs_stays s c.val ha hx
    · obtain ⟨h1, h2⟩ := odActs_clears s c.val ha
      exact ⟨fun j hj => (flowBin_congr hm ..).trans (h1 j hj), sramKept_congr rfl hm h2⟩

end Sys2Proof.Machine
end

section
/-! Settling O51: when an authorised step lapses. -/

namespace Sys2Proof.Machine

theorem exec_stepLapsed (s : State) (dt : Nat) :
    exec (.stepLapsed dt) s = .next ((s.pass dt).stepLapsed).finish := rfl

/-- A step to source has no Δ exactly where no sample has arrived in the timeout (R186). -/
theorem stepDelta_isNone_iff (s : State) (q : StepReq) : (s.stepDelta q).isNone = true ↔
    q.delta = none ∧ ∀ th a, s.srcSample = some (th, a) → a + s.srcTimeout s.src < s.now := by
  unfold State.stepDelta
  cases q.delta with
  | some d => simp
  | none =>
    rcases s.srcSample with _ | ⟨th, a⟩
    · simp
    · by_cases hlate : s.now ≤ a + s.srcTimeout s.src
      · simp [hlate]
      · simp [hlate, not_le.mp hlate]

/-- What a lapse leaves before the completion of a TIME_STEP. -/
def State.withoutStep (s : State) : State :=
  ((s.onTime fun t => { t with step := none, lapsed := true }).onSched fun c =>
    { c with holdReq := if c.holdReq = some HoldWhy.step then none else c.holdReq }).setBit .timeStatus 0 23

theorem lapseStep_noIssuer {s : State} {q : StepReq} (h : q.issuer = none) : s.lapseStep q = s.withoutStep := by
  simp only [State.lapseStep, h, State.withoutStep]

theorem lapseStep_issuer {s : State} {q : StepReq} {r i : Nat} (h : q.issuer = some (r, i)) :
    s.lapseStep q = s.withoutStep.finishCmd r i 0x32 false := by
  simp only [State.lapseStep, h, State.withoutStep]

/-- Settles O51: the two cases are those of `State.stepLapsed`, by `stepDelta_isNone_iff`. -/
theorem aStepLapses : Obligations.AStepLapses := by
  unfold Obligations.AStepLapses
  rintro s u dt rfl
  rw [exec_stepLapsed]
  refine ⟨fun h => by rw [State.stepLapsed, h], fun q hq => ?_⟩
  have hcase : (s.pass dt).stepLapsed = if (s.pass dt).stepTooLate q ||
      ((s.pass dt).sup.available && (s.pass dt).stepReady && ((s.pass dt).stepDelta q).isNone) then
        (s.pass dt).lapseStep q else s.pass dt := by
    rw [State.stepLapsed, hq]
  generalize s.pass dt = u at *
  have hiff : (u.stepTooLate q || (u.sup.available && u.stepReady && (u.stepDelta q).isNone)) = true ↔
      q.authAt + secC 1 ≤ u.now ∨ (q.delta = none ∧ u.sup.available = true ∧ u.stepReady = true ∧
        ∀ th a, u.srcSample = some (th, a) → a + u.srcTimeout u.src < u.now) := by
    rw [Bool.or_eq_true, Bool.and_eq_true, Bool.and_eq_true, stepDelta_isNone_iff, State.stepTooLate,
      decide_eq_true_eq]
    tauto
  rw [hcase]
  refine ⟨fun h => ⟨u.withoutStep, rfl, rfl, bit_rg_setBit _ _ _ (by decide), rfl, fun hi => ?_, fun r i hi => ?_⟩,
    fun hlate hlost => ?_⟩
  · rw [if_pos (hiff.mpr h), lapseStep_noIssuer hi]
  · rw [if_pos (hiff.mpr h), lapseStep_issuer hi]
  · rw [if_neg (mt hiff.mp (by rintro (h | h); exacts [absurd h (by omega), hlost h]))]

end Sys2Proof.Machine
end

section
/-! Settling O49: holdover and the PPS pins, with what a message and a sample leave alone. -/

namespace Sys2Proof.Machine

/-! ### What the messages of a consist leave alone -/

/-- The state without what a message sent, an event, or the end of a coupling changes. -/
def State.apart (s : State) : State := { s.frame with ept := {}, casc := {}, sched := {} }

theorem apart_of_frame {s t : State} (h : s.frame = t.frame) : s.apart = t.apart :=
  congrArg (fun x : State => { x with ept := {}, casc := {}, sched := {} }) h

theorem apart_foldl {α : Type} (l : List α) {f : State → α → State} (h : ∀ s a, (f s a).apart = s.apart) (s : State) :
    (l.foldl f s).apart = s.apart := foldl_keeps State.apart l f h s

@[simp] theorem apart_modLane (s : State) (l : Nat) (f : Lane → Lane) : (s.modLane l f).apart = s.apart := rfl
@[simp] theorem apart_onCasc (s : State) (f : Casc → Casc) : (s.onCasc f).apart = s.apart := rfl
@[simp] theorem apart_onSched (s : State) (f : Sched → Sched) : (s.onSched f).apart = s.apart := rfl
@[simp] theorem apart_putFrame (s : State) (l q : Nat) (f : TxFrame) : (s.putFrame l q f).apart = s.apart := rfl

@[simp] theorem apart_event (s : State) (c b a : Nat) (d : List Byte) (t : Option Nat) (q : Bool) :
    (s.event c b a d t q).apart = s.apart := apart_of_frame (frame_event ..)

@[simp] theorem apart_consistEvent (s : State) (k a : Nat) (d : List Byte) : (s.consistEvent k a d).apart = s.apart :=
  apart_event ..

@[simp] theorem apart_releaseCoupling (s : State) : s.releaseCoupling.apart = s.apart := rfl

@[simp] theorem apart_askHold (s : State) (w : HoldWhy) : (s.askHold w).apart = s.apart := by
  unfold State.askHold
  split
  · rfl
  · split <;> rfl

@[simp] theorem apart_sendOwn (s : State) (l : Nat) (f : TxFrame) : (s.sendOwn l f).apart = s.apart := by
  unfold State.sendOwn
  split <;> rfl

@[simp] theorem apart_sendBiarn (s : State) (k : Nat) (p : List Byte) : (s.sendBiarn k p).apart = s.apart := by
  unfold State.sendBiarn
  split
  · rfl
  · exact apart_foldl _ (fun _ _ => apart_sendOwn ..) _

@[simp] theorem apart_sendRelease (s : State) : s.sendRelease.apart = s.apart := by simp [State.sendRelease]

@[simp] theorem apart_checkRelease (s : State) : s.checkRelease.apart = s.apart := by
  unfold State.checkRelease
  split
  · exact apart_sendRelease s
  · rfl

@[simp] theorem apart_sendReady (s : State) (o : Nat) : (s.sendReady o).apart = s.apart := by
  unfold State.sendReady
  dsimp only
  split <;> simp

@[simp] theorem apart_coupleCheck (s : State) : s.coupleCheck.apart = s.apart := by
  unfold State.coupleCheck
  split
  · exact apart_sendReady ..
  · rfl

section
variable {s t : State} (h : t.apart = s.apart)
include h

theorem time_of_apart : t.time = s.time := by have := congrArg State.time h; exact this
theorem pwr_of_apart : t.pwr = s.pwr := by have := congrArg State.pwr h; exact this
theorem regs_of_apart : t.regs = s.regs := by have := congrArg State.regs h; exact this
end

/-! ### What a sample leaves alone -/

/-- The time unit without its servo, its state and its step: what its inputs have brought. -/
def TimeUnit.inputs (t : TimeUnit) : TimeUnit :=
  { raw := t.raw, theta := t.theta, thetaAt := t.thetaAt, insts := t.insts, delays := t.delays, ppsValid := t.ppsValid,
    ppsLast := t.ppsLast, todNext := t.todNext, todWritten := t.todWritten, tod := t.tod }

/-- `t` is `s` but for what the source's sample moves: servo, state and step, and the bits of TIME_STATUS. -/
structure State.SameInputs (s t : State) : Prop where
  inputs : t.time.inputs = s.time.inputs
  nt : t.nt = s.nt
  pwr : t.pwr = s.pwr
  rg : ∀ r i, r.addr i ≠ Reg.timeStatus.addr 0 → t.rg r i = s.rg r i

namespace State.SameInputs

variable {s t u : State}

theorem refl (s : State) : s.SameInputs s := ⟨rfl, rfl, rfl, fun _ _ _ => rfl⟩

theorem trans (h : s.SameInputs t) (g : t.SameInputs u) : s.SameInputs u :=
  ⟨g.inputs.trans h.inputs, g.nt.trans h.nt, g.pwr.trans h.pwr, fun r i hr => (g.rg r i hr).trans (h.rg r i hr)⟩

theorem of_apart (h : t.apart = s.apart) : s.SameInputs t :=
  ⟨by rw [time_of_apart h], by unfold State.nt State.now; rw [time_of_apart h], pwr_of_apart h,
    fun r i _ => rg_congr (regs_of_apart h) r i 0⟩

theorem of_frame (h : t.frame = s.frame) : s.SameInputs t := .of_apart (apart_of_frame h)

theorem setBit (s : State) (b : Nat) : s.SameInputs (s.setBit .timeStatus 0 b) := by
  obtain ⟨m, hm⟩ := setBit_only s .timeStatus 0 b
  exact ⟨by rw [hm], by rw [hm]; rfl, by rw [hm], fun r i hr => rg_setBit_of_ne _ _ hr⟩

theorem onTime (s : State) (f : TimeUnit → TimeUnit) (hi : (f s.time).inputs = s.time.inputs)
    (hn : ({ s with time := f s.time } : State).nt = s.nt) : s.SameInputs (s.onTime f) := ⟨hi, hn, rfl, fun _ _ _ => rfl⟩

end State.SameInputs

theorem inputs_setTime (s : State) (st : TimeState) : s.SameInputs (s.setTime st) := by
  unfold State.setTime
  extract_lets old th moved
  split
  · exact .refl s
  · have hm : s.SameInputs moved := ⟨rfl, rfl, rfl, fun _ _ _ => rfl⟩
    exact hm.trans (.of_frame (by simp))

theorem nt_lt (s : State) : s.nt < ntMod := Nat.mod_lt _ (by decide)

theorem inputs_setInc (s : State) (inc : Int) : s.SameInputs (s.setInc inc) where
  inputs := rfl
  nt := by
    have h := ntAt_reanchor { s.time with inc := inc.toNat } (nt_lt s)
    exact h
  pwr := rfl
  rg _ _ _ := rfl

theorem inputs_servo (s : State) (x : Int) : s.SameInputs (s.servo x) := by
  unfold State.servo
  extract_lets v p i ask inc set
  have h : s.SameInputs set := (State.SameInputs.onTime s (fun t => { t with integ := i }) rfl rfl).trans (inputs_setInc ..)
  split
  · exact h
  · exact (h.trans (.setBit ..)).trans (.of_frame rfl)

theorem inputs_countSample (s : State) (x : Int) : s.SameInputs (s.countSample x) := by
  unfold State.countSample
  extract_lets t ok good calm drift counted
  have h : s.SameInputs counted := .onTime s _ rfl rfl
  exact h.trans (inputs_setTime ..)

theorem inputs_authStep (s : State) (w : StepCase) (d : Option Int) (o : Option (Nat × Nat)) :
    s.SameInputs (s.authStep w d o) := by
  unfold State.authStep
  extract_lets authorised
  have h : s.SameInputs authorised := .onTime s _ rfl rfl
  exact (h.trans (.of_apart (apart_askHold ..))).trans (.of_frame (frame_irqPulse ..))

theorem inputs_acceptSample (s : State) (x : Int) : s.SameInputs (s.acceptSample x) :=
  ((inputs_servo s x).trans (.onTime _ _ rfl rfl)).trans (inputs_countSample ..)

theorem inputs_refuseSample (s : State) (x : Int) : s.SameInputs (s.refuseSample x) := by
  unfold State.refuseSample
  extract_lets far
  exact (State.SameInputs.setBit s 27).trans (.onTime _ _ rfl rfl)

theorem inputs_takeSample (s : State) (x : Int) : s.SameInputs (s.takeSample x) := by
  unfold State.takeSample
  split
  · exact .refl s
  · split
    · exact (inputs_authStep ..).trans (inputs_countSample ..)
    · split
      · exact inputs_acceptSample ..
      · exact inputs_refuseSample ..

/-! ### Holdover (R169 to R171) -/

theorem exec_holdover (s : State) (dt : Nat) : exec (.holdover dt) s = .next (s.pass dt).holdover.finish := rfl
theorem exec_holdoverDrift (s : State) (dt : Nat) :
    exec (.holdoverDrift dt) s = .next (s.pass dt).holdoverDrift.finish := rfl

theorem setLevel_active (s : State) (n d : Nat) (u : Option Nat) : ((s.setLevel n true d u).fsrc n).active = true := by
  unfold State.setLevel
  extract_lets q t
  rw [if_pos rfl]
  have ht : (t.fsrc n).active = true := by simp [t, State.fsrc, State.modFsrc, tmod]
  split
  next h => exact (Bool.and_eq_true_iff.mp h).1
  next => split <;> exact ht

/-- The state of the time unit is written, and RELOCKED with it; nothing else of the time unit. -/
theorem setTime_time (s : State) (st : TimeState) :
    ∃ b, (s.setTime st).time = { s.time with state := st, relocked := b } := by
  by_cases h : s.time.state = st
  · exact ⟨s.time.relocked, by rw [State.setTime, if_pos h, ← h]⟩
  · exact ⟨s.time.relocked || st = .locked, by rw [State.setTime, if_neg h]; simp⟩

theorem setTime_holdover_active {s : State} (h : s.time.state ≠ .holdover) :
    ((s.setTime .holdover).fsrc 63).active = true := by
  rw [State.setTime, if_neg h]
  exact setLevel_active ..

/-- The time unit without its gPTP instances. -/
def TimeUnit.own (t : TimeUnit) : TimeUnit := { t with insts := [] }

theorem own_modInst (s : State) (n : Nat) (f : PtpInst → PtpInst) : (s.modInst n f).time.own = s.time.own := rfl

/-- The domain switch touches registers and the roles of before. -/
theorem autoSwitch_keeps (s : State) : s.autoSwitch.flt = s.flt ∧ s.autoSwitch.time.own = s.time.own := by
  unfold State.autoSwitch
  extract_lets n switched role w bare
  split
  · split
    · exact ⟨by simp [switched], by simp [switched]⟩
    · exact ⟨by simp [bare, switched], (own_modInst ..).trans (by simp [bare, switched])⟩
  · exact ⟨rfl, rfl⟩

section
variable {s t : State} (h : t.time.own = s.time.own)
include h

theorem state_of_own : t.time.state = s.time.state := by have := congrArg TimeUnit.state h; exact this
theorem inc_of_own : t.time.inc = s.time.inc := by have := congrArg TimeUnit.inc h; exact this
theorem good_of_own : t.time.good = s.time.good := by have := congrArg TimeUnit.good h; exact this

theorem nt_of_own : t.nt = s.nt := by
  have hn : t.time.own.ntAt t.time.own.raw.toNat = s.time.own.ntAt s.time.own.raw.toNat := by rw [h]
  exact hn
end

theorem enterHoldover_fields (s : State) : let t := s.enterHoldover
    t.time.state = .holdover ∧ t.time.inc = (incNom - s.time.integ).toNat ∧ t.nt = s.nt ∧ t.time.good = 0 ∧
    (s.time.state ≠ .holdover → (t.fsrc 63).active = true) := by
  unfold State.enterHoldover
  extract_lets slowed
  set held := slowed.onTime fun t => { t with good := 0 } with hheld
  obtain ⟨hflt, hown⟩ := autoSwitch_keeps (held.setTime .holdover)
  obtain ⟨b, htime⟩ := setTime_time held .holdover
  refine ⟨?_, ?_, ?_, ?_, fun hs => ?_⟩
  · rw [state_of_own hown, htime]
  · rw [inc_of_own hown, htime]
    rfl
  · rw [nt_of_own hown, (inputs_setTime ..).nt]
    exact (inputs_setInc ..).nt
  · rw [good_of_own hown, htime]
    rfl
  · have hact : ((held.setTime .holdover).fsrc 63).active = true := setTime_holdover_active hs
    unfold State.fsrc at *
    rw [hflt]
    exact hact

theorem holdover_due {s : State} (h : s.holdoverDue = true) : s.holdover = s.enterHoldover := if_pos h
theorem holdover_not_due {s : State} (h : s.holdoverDue = false) : s.holdover = s := if_neg (by simp [h])

/-! ### PPS_IN (R179) -/

theorem exec_ppsIn (s : State) (dt : Nat) : exec (.ppsIn dt) s = .next (s.pass dt).ppsEdge.finish := rfl
theorem exec_ppsInLoss (s : State) (dt : Nat) : exec (.ppsInLoss dt) s = .next (s.pass dt).ppsLoss.finish := rfl

theorem ppsLevel_frame (s : State) : s.ppsLevel.frame = s.frame := frame_setLevel ..

/-- The seconds value that governs an edge, and whether it is the one after the last edge's. -/
def TimeUnit.todStale (t : TimeUnit) : Bool := !t.commitTod.todWritten && t.commitTod.ppsLast.isSome
def TimeUnit.edgeSec (t : TimeUnit) : Nat := if t.todStale then t.commitTod.tod + 1 else t.commitTod.tod

/-- θ of an edge. -/
def State.edgeTheta (s : State) : Int :=
  (s.nt : Int) - (s.time.edgeSec * 1000000000 + s.rf .timePpsIn 0 15 0 : Nat) * 65536

/-- An accepted edge with its seconds value and its θ. -/
def TimeUnit.edge (t : TimeUnit) (sec : Nat) (theta : Int) (now : Nat) : TimeUnit :=
  { t with tod := sec, todWritten := false, ppsLast := some now, ppsValid := true, theta := theta, thetaAt := some now }

/-- The time unit as an accepted edge leaves it, before the sample is taken. -/
def State.edgeTime (s : State) : TimeUnit := s.time.commitTod.edge s.time.edgeSec s.edgeTheta s.now

/-- An accepted edge before its sample, with the bit that shows a second counted on. -/
def State.edged (s : State) : State :=
  let t := s.onTime fun _ => s.edgeTime
  if s.time.todStale then t.setBit .timePpsIn 0 31 else t

theorem ppsSample_eq (s : State) : s.ppsSample =
    if s.edged.ppsLevel.src = 2 then (s.edged.ppsLevel.takeSample s.edgeTheta).coupleCheck else s.edged.ppsLevel := rfl

theorem edged_time (s : State) : s.edged.time = s.edgeTime := by
  unfold State.edged
  split <;> simp


/-- A value written before the cycle governs the edge. -/
theorem edge_written {t : TimeUnit} {v c : Nat} (h : t.todNext = some (v, c)) (hc : c < t.raw.toNat) :
    t.edgeSec = v ∧ t.commitTod.todNext = none := by
  have hw : t.commitTod = { t with tod := v, todWritten := true, todNext := none } := by
    rw [TimeUnit.commitTod, h]
    exact if_pos hc
  rw [TimeUnit.edgeSec, TimeUnit.todStale, hw]
  exact ⟨rfl, rfl⟩

/-- With none written since the last edge the second is counted on. -/
theorem edge_counted {t : TimeUnit} (h : t.todNext = none) (hw : t.todWritten = false) (hl : t.ppsLast.isSome = true) :
    t.todStale = true ∧ t.edgeSec = t.tod + 1 := by
  have hc : t.commitTod = t := by rw [TimeUnit.commitTod, h]
  have hs : t.todStale = true := by simp [TimeUnit.todStale, hc, hw, hl]
  exact ⟨hs, by rw [TimeUnit.edgeSec, if_pos hs, hc]⟩

theorem ntAt_congr {t u : TimeUnit} (hn : t.aNt = u.aNt) (hr : t.aRaw = u.aRaw) (hi : t.inc = u.inc) (c : Nat) :
    t.ntAt c = u.ntAt c := by
  simp only [TimeUnit.ntAt, hn, hr, hi]

/-- The clock and the state in one time unit are those in another. -/
structure TimeUnit.SameRate (t u : TimeUnit) : Prop where
  raw : u.raw = t.raw
  aNt : u.aNt = t.aNt
  aRaw : u.aRaw = t.aRaw
  inc : u.inc = t.inc
  state : u.state = t.state

theorem commitTod_sameRate (t : TimeUnit) : t.SameRate t.commitTod := by
  unfold TimeUnit.commitTod
  split
  · split <;> exact ⟨rfl, rfl, rfl, rfl, rfl⟩
  · exact ⟨rfl, rfl, rfl, rfl, rfl⟩

theorem edge_sameRate {t u : TimeUnit} (h : t.SameRate u) (sec : Nat) (theta : Int) (now : Nat) :
    t.SameRate (u.edge sec theta now) := ⟨h.raw, h.aNt, h.aRaw, h.inc, h.state⟩

/-- An edge leaves the clock. -/
theorem edgeTime_clock (s : State) : s.time.SameRate s.edgeTime := edge_sameRate (commitTod_sameRate _) ..

theorem edged_nt (s : State) : s.edged.nt = s.nt := by
  obtain ⟨hraw, hn, hr, hi, _⟩ := edgeTime_clock s
  unfold State.nt State.now
  rw [edged_time, hraw]
  exact ntAt_congr hn hr hi _

theorem edged_src (s : State) : s.edged.ppsLevel.src = s.src := by
  have h : s.edged.rg .timeCtrl = s.rg .timeCtrl := by
    unfold State.edged
    split
    · exact rg_setBit_of_ne _ _ (by decide)
    · rfl
  have hl : s.edged.ppsLevel.rg .timeCtrl = s.edged.rg .timeCtrl := rg_congr (of_frame_regs (ppsLevel_frame _)) ..
  unfold State.src State.rf
  rw [hl, h]

/-- An accepted edge's sample leaves what the edge brought. -/
theorem ppsSample_inputs (s : State) : s.edged.SameInputs s.ppsSample := by
  have hl : s.edged.SameInputs s.edged.ppsLevel := .of_frame (ppsLevel_frame _)
  rw [ppsSample_eq]
  split
  · exact (hl.trans (inputs_takeSample ..)).trans (.of_apart (apart_coupleCheck _))
  · exact hl

theorem ppsSample_other {s : State} (h : s.src ≠ 2) : s.ppsSample.time = s.edgeTime := by
  rw [ppsSample_eq, if_neg (by rwa [edged_src]), of_frame_time (ppsLevel_frame _), edged_time]

/-- What an edge shows in the inputs of the time unit. -/
theorem edge_inputs {t u : TimeUnit} {sec : Nat} {theta : Int} {now : Nat}
    (h : t.inputs = (u.edge sec theta now).inputs) : t.ppsValid = true ∧ t.ppsLast = some now ∧ t.thetaAt = some now ∧
    t.tod = sec ∧ t.todNext = u.todNext ∧ t.theta = theta :=
  ⟨(congrArg TimeUnit.ppsValid h :), (congrArg TimeUnit.ppsLast h :), (congrArg TimeUnit.thetaAt h :),
    (congrArg TimeUnit.tod h :), (congrArg TimeUnit.todNext h :), (congrArg TimeUnit.theta h :)⟩

theorem ppsSample_fields (s : State) : let t := s.ppsSample
    t.pwr = s.pwr ∧ t.time.ppsValid = true ∧ t.time.ppsLast = some s.now ∧ t.time.thetaAt = some s.now ∧
    (∀ v c, s.time.todNext = some (v, c) → c < s.time.raw.toNat → t.time.tod = v ∧ t.time.todNext = none ∧
      t.time.theta = (s.nt : Int) - ((v * 1000000000 + s.rf .timePpsIn 0 15 0) * 65536 : Nat)) ∧
    (s.time.todNext = none → s.time.todWritten = false → s.time.ppsLast.isSome = true →
      t.time.tod = s.time.tod + 1 ∧ bit (t.rg .timePpsIn) 31 = true) ∧
    (s.src ≠ 2 → t.time.state = s.time.state ∧ t.time.inc = s.time.inc ∧ t.nt = s.nt) := by
  intro t
  obtain ⟨hin, hnt, hpwr, hrg⟩ : s.edged.SameInputs t := ppsSample_inputs s
  have hother : s.src ≠ 2 → t.time = s.edgeTime := ppsSample_other
  clear_value t
  rw [edged_time] at hin
  obtain ⟨hvalid, hlast, hat, htod, hnext, htheta⟩ := edge_inputs hin
  have hep : s.edged.pwr = s.pwr := by
    unfold State.edged
    split <;> simp
  refine ⟨hpwr.trans hep, hvalid, hlast, hat, fun v c hv hc => ?_, fun hn hw hl => ?_, fun hs => ?_⟩
  · obtain ⟨hsec, hnone⟩ := edge_written hv hc
    exact ⟨htod.trans hsec, hnext.trans hnone, by rw [htheta, State.edgeTheta, hsec, Nat.cast_mul, Nat.cast_ofNat]⟩
  · obtain ⟨hstale, hsec⟩ := edge_counted hn hw hl
    refine ⟨htod.trans hsec, ?_⟩
    rw [hrg _ _ (by decide), State.edged, if_pos hstale]
    exact bit_rg_setBit _ _ _ (by decide)
  · obtain ⟨_, _, _, hinc, hstate⟩ := edgeTime_clock s
    rw [hother hs]
    exact ⟨hstate, hinc, hnt.trans (edged_nt s)⟩

theorem ppsEdge_ignored {s : State} (h : s.core = false ∨ bit (s.rg .timePpsCfg) 29 = false ∨ s.edgeIgnored = true) :
    s.ppsEdge = s.onPwr fun p => { p with ppsIn := true } := by
  refine if_pos ?_
  have hc : (!(s.core && bit (s.rg .timePpsCfg) 29) || s.edgeIgnored) = true := by simpa [or_assoc] using h
  exact hc

theorem ppsEdge_accepted {s : State} (hc : s.core = true) (hb : bit (s.rg .timePpsCfg) 29 = true)
    (hi : s.edgeIgnored = false) : s.ppsEdge = (s.onPwr fun p => { p with ppsIn := true }).ppsSample := by
  refine if_neg ?_
  have h : ¬(!(s.core && bit (s.rg .timePpsCfg) 29) || s.edgeIgnored) = true := by simp [hc, hb, hi]
  exact h

/-! ### PPS_VALID and PPS_OUT (R180) -/

theorem exec_ppsOut (s : State) (dt : Nat) : exec (.ppsOut dt) s = .next (s.pass dt).ppsRise.finish := rfl
theorem exec_ppsOutPulseEnd (s : State) (dt : Nat) : exec (.ppsOutPulseEnd dt) s = .next (s.pass dt).ppsFall.finish := rfl

theorem ppsLoss_lost {s : State} {a : Nat} (h : s.time.ppsLast = some a) (hv : s.time.ppsValid = true)
    (ha : a + nsC 1500000000 ≤ s.now) : s.ppsLoss = (s.onTime fun t => { t with ppsValid := false }).ppsLevel := by
  rw [State.ppsLoss, h]
  exact if_pos (by simp [hv, ha])

theorem ppsLoss_kept {s : State}
    (h : ∀ a, s.time.ppsLast = some a → s.time.ppsValid = false ∨ s.now < a + nsC 1500000000) : s.ppsLoss = s := by
  unfold State.ppsLoss
  split
  next => rfl
  next a ha => exact if_neg (by rcases h a ha with h | h <;> simp [h])

theorem ppsRise_rises {s : State} (hc : s.core = true) (hs : s.secondNow = true) (he : bit (s.rg .timePpsCfg) 31 = true)
    (hq : bit (s.rg .timePpsCfg) 30 = false ∨ s.time.state = .locked) :
    s.ppsRise = s.onTime fun t => { t with ppsOut := true, ppsOutEnd := some (s.now + s.ppsWidth) } :=
  if_pos (by simpa [hc, hs, he] using hq)

theorem ppsRise_stays {s : State} (h : s.core = false ∨ s.secondNow = false ∨ bit (s.rg .timePpsCfg) 31 = false ∨
    (bit (s.rg .timePpsCfg) 30 = true ∧ s.time.state ≠ .locked)) : s.ppsRise = s := by
  refine if_neg ?_
  rcases h with h | h | h | ⟨h, hs⟩
  · simp [h]
  · simp [h]
  · simp [h]
  · simp [h, hs]

theorem secondNear_iff (s : State) : s.secondNear = true ↔ 999990000 ≤ s.ns % 1000000000 := decide_eq_true_iff

theorem ppsFall_falls {s : State} (h : s.expired s.time.ppsOutEnd = true ∨ 999990000 ≤ s.ns % 1000000000) :
    s.ppsFall = s.onTime fun t => { t with ppsOut := false, ppsOutEnd := none } :=
  if_pos (by rwa [Bool.or_eq_true, secondNear_iff])

theorem ppsFall_stays {s : State} (h : s.expired s.time.ppsOutEnd = false) (hn : s.ns % 1000000000 < 999990000) :
    s.ppsFall = s := by
  refine if_neg ?_
  rw [Bool.or_eq_true, secondNear_iff, h, not_or]
  exact ⟨Bool.false_ne_true, by omega⟩

theorem holdoverDrift_drifts {s : State} (hs : s.time.state = .holdover) (hd : s.time.drift = false)
    (hl : s.heldTooLong = true) : s.holdoverDrift = s.onTime fun t => { t with drift := true, calm := 0 } :=
  if_pos (by simp [hs, hd, hl])

theorem holdoverDrift_stays {s : State} (h : s.time.state ≠ .holdover ∨ s.time.drift = true ∨ s.heldTooLong = false) :
    s.holdoverDrift = s := by
  refine if_neg ?_
  rcases h with h | h | h
  · simp [h]
  · simp [h]
  · simp [h]

/-- Settles O49: HOLDOVER is entered by `enterHoldover_fields`, and an edge is taken by `ppsSample_fields`. -/
theorem holdoverAndPps : Obligations.HoldoverAndPps := by
  unfold Obligations.HoldoverAndPps
  rintro s u dt rfl
  rw [exec_holdover, exec_holdoverDrift, exec_ppsIn, exec_ppsInLoss, exec_ppsOut, exec_ppsOutPulseEnd]
  generalize s.pass dt = u
  refine ⟨fun h => ?_, fun h => by rw [holdover_not_due h], fun hs hd hl => by rw [holdoverDrift_drifts hs hd hl],
    fun h => by rw [holdoverDrift_stays h], fun h => by rw [ppsEdge_ignored h], fun hc hb hi => ?_, fun a ha hv hl => ?_,
    fun h => by rw [ppsLoss_kept h], fun hc hs he hq => by rw [ppsRise_rises hc hs he hq],
    fun h => by rw [ppsRise_stays h], fun h => by rw [ppsFall_falls h], fun h hn => by rw [ppsFall_stays h hn]⟩
  · rw [holdover_due h]
    exact ⟨_, rfl, enterHoldover_fields u⟩
  · rw [ppsEdge_accepted hc hb hi]
    obtain ⟨hpwr, hrest⟩ := ppsSample_fields (u.onPwr fun p => { p with ppsIn := true })
    exact ⟨_, rfl, by rw [hpwr]; rfl, hrest⟩
  · rw [ppsLoss_lost ha hv hl]
    exact ⟨_, rfl, of_frame_time (ppsLevel_frame _)⟩

end Sys2Proof.Machine
end

section
/-! Settling O47: samples of network time, link delays and the jump of time. -/

namespace Sys2Proof.Machine

theorem exec_sync (s : State) (dt : Nat) (n : Fin 2) (l : Fin 8) (m : PtpMsg) :
    exec (.sync dt n l m) s = .next ((s.pass dt).syncArrives n.val l.val m).finish := rfl
theorem exec_followUp (s : State) (dt : Nat) (n : Fin 2) (l : Fin 8) (m : PtpMsg) :
    exec (.followUp dt n l m) s = .next ((s.pass dt).followUp n.val l.val m).finish := rfl
theorem exec_timeJump (s : State) : exec .timeJump s = .next s.timeJump.finish := rfl
theorem exec_linkDelayExchange (s : State) (dt : Nat) (l : Fin 8) (d k : Int) :
    exec (.linkDelayExchange dt l d k) s = .next ((s.pass dt).delayExchange l.val d k).finish := rfl
theorem exec_instanceValidTimeout (s : State) (dt : Nat) (n : Fin 2) :
    exec (.instanceValidTimeout dt n) s = .next ((s.pass dt).instTimeout n.val).finish := rfl

/-! ### The instances -/

@[simp] theorem inst_modInst_self (s : State) (n : Nat) (f : PtpInst → PtpInst) :
    (s.modInst n f).inst n = f (s.inst n) := tget_tset_self _ _ _ _ rfl

theorem inst_modInst_other (s : State) {n k : Nat} (f : PtpInst → PtpInst) (h : k ≠ n) :
    (s.modInst n f).inst k = s.inst k := by
  unfold State.inst State.modInst tmod
  dsimp only
  rw [tget_tset_other _ _ _ h]

theorem inst_of_inputs {s t : State} (h : s.SameInputs t) (n : Nat) : t.inst n = s.inst n := by
  have hi : t.time.insts = s.time.insts := by have := congrArg TimeUnit.insts h.inputs; exact this
  unfold State.inst
  rw [hi]

/-- A sample as its instance keeps it. -/
def State.sampled (s : State) (n : Nat) (theta : Int) : State :=
  s.modInst n fun k => { k with theta := theta, sampleAt := some s.now, valid := true }

theorem instSample_selected {s : State} {n : Nat} (x : Int) (h : s.src = n) :
    s.instSample n x = ((s.sampled n x).takeSample x).coupleCheck := if_pos h

theorem instSample_other {s : State} {n : Nat} (x : Int) (h : s.src ≠ n) : s.instSample n x = s.sampled n x := if_neg h

/-- Servo, state and step of a selected instance leave what the instances keep. -/
theorem instSample_inst (s : State) (n : Nat) (x : Int) :
    (s.instSample n x).inst n = { s.inst n with theta := x, sampleAt := some s.now, valid := true } := by
  have hs : (s.sampled n x).inst n = { s.inst n with theta := x, sampleAt := some s.now, valid := true } :=
    inst_modInst_self ..
  by_cases h : s.src = n
  · rw [instSample_selected x h, ← hs]
    exact inst_of_inputs ((inputs_takeSample ..).trans (.of_apart (apart_coupleCheck _))) n
  · rw [instSample_other x h, hs]

/-! ### Sync and Follow_Up (R173) -/

section
variable {s : State} {n l : Nat} (m : PtpMsg)

theorem syncArrives_unusable (h : s.syncUsable n l = false) : s.syncArrives n l m = s := if_pos (by simp [h])

/-- A Sync that can be used gives its instance the interval of its message. -/
def State.timed (s : State) (n : Nat) (m : PtpMsg) : State :=
  s.modInst n fun k => { k with interval := syncInterval k.interval m.logInt }

/-- No Sync of an instance waits for its Follow_Up. -/
def State.waitless (s : State) (n : Nat) : State := s.modInst n fun k => { k with pending := none }

theorem syncArrives_oneStep (h : s.syncUsable n l = true) (ht : m.twoStep = false) : s.syncArrives n l m =
    ((s.timed n m).waitless n).instSample n
      ((s.timed n m).syncTheta l (s.nt - (s.lane l).rxDelay) m.origin m.corr) := by
  rw [State.syncArrives, if_neg (by simp [h])]
  exact if_neg (by simp [ht])

theorem syncArrives_twoStep (h : s.syncUsable n l = true) (ht : m.twoStep = true) : s.syncArrives n l m =
    (s.timed n m).modInst n fun k =>
      { k with pending := some (m.seqId, s.nt - (s.lane l).rxDelay, m.corr, (s.timed n m).now) } := by
  rw [State.syncArrives, if_neg (by simp [h])]
  exact if_pos ht

theorem followUp_none (h : (s.inst n).pending = none) : s.followUp n l m = s := by rw [State.followUp, h]

theorem followUp_unusable (h : s.syncUsable n l = false) : s.followUp n l m = s := by
  unfold State.followUp
  split
  next => rfl
  next => exact if_neg (by simp [h])

variable {q : BitVec 16} {t1 : Nat} {c : Int} {at1 : Nat} (hp : (s.inst n).pending = some (q, t1, c, at1))
include hp

theorem followUp_late (h : q ≠ m.seqId ∨ at1 + nsC (s.inst n).interval < s.now ∨ at1 < (s.lane l).connEnd) :
    s.followUp n l m = s := by
  rw [State.followUp, hp]
  refine if_neg ?_
  rcases h with h | h | h
  · simp [h]
  · simp [h]
  · simp [h]

theorem followUp_next (hu : s.syncUsable n l = true) (hq : q = m.seqId) (hi : s.now ≤ at1 + nsC (s.inst n).interval)
    (hc : (s.lane l).connEnd ≤ at1) : s.followUp n l m =
      (s.waitless n).instSample n ((s.waitless n).syncTheta l t1 m.origin (c + m.corr)) := by
  rw [State.followUp, hp]
  exact if_pos (by simp [hu, hq, hi, hc])
end

/-! ### A sample of the source (R169, R170, R182) -/

theorem servo_bounds (s : State) (x : Int) : let t := s.servo x
    (-incSpan ≤ t.time.integ ∧ t.time.integ ≤ incSpan) ∧
    (incNom - incSpan).toNat ≤ t.time.inc ∧ t.time.inc ≤ (incNom + incSpan).toNat := by
  unfold State.servo
  extract_lets v p i ask inc loaded t
  obtain ⟨hl, hu⟩ : -incSpan ≤ i ∧ i ≤ incSpan := clampI_bounds (by decide)
  obtain ⟨hl', hu'⟩ : incNom - incSpan ≤ inc ∧ inc ≤ incNom + incSpan := clampI_bounds (by decide)
  obtain ⟨hi, hc⟩ : loaded.time.integ = i ∧ loaded.time.inc = inc.toNat := ⟨rfl, rfl⟩
  have ht : t.time = loaded.time := by
    unfold t
    split
    · rfl
    · simp
  rw [ht, hi, hc]
  exact ⟨⟨hl, hu⟩, Int.toNat_le_toNat hl', Int.toNat_le_toNat hu'⟩

theorem countSample_fields (s : State) (x : Int) : let t := s.countSample x
    t.time.accepted = true ∧ t.time.refCnt = s.time.refCnt ∧ t.time.integ = s.time.integ ∧ t.time.inc = s.time.inc := by
  unfold State.countSample
  extract_lets u ok good calm drift counted
  obtain ⟨b, hb⟩ := setTime_time counted (if 8 ≤ good then .locked else .locking)
  rw [hb]
  exact ⟨rfl, rfl, rfl, rfl⟩

theorem acceptSample_fields (s : State) (x : Int) : let t := s.acceptSample x
    t.time.refCnt = 0 ∧ t.time.accepted = true ∧ -incSpan ≤ t.time.integ ∧ t.time.integ ≤ incSpan ∧
    (incNom - incSpan).toNat ≤ t.time.inc ∧ t.time.inc ≤ (incNom + incSpan).toNat ∧ t.nt = s.nt := by
  intro t
  obtain ⟨⟨hl, hu⟩, hl', hu'⟩ := servo_bounds s x
  obtain ⟨ha, hr, hi, hc⟩ : t.time.accepted = true ∧ t.time.refCnt = 0 ∧ t.time.integ = (s.servo x).time.integ ∧
      t.time.inc = (s.servo x).time.inc := countSample_fields ((s.servo x).onTime _) x
  rw [hi, hc]
  exact ⟨hr, ha, hl, hu, hl', hu', (inputs_acceptSample s x).nt⟩

theorem refuseSample_fields (s : State) (x : Int) : let t := s.refuseSample x
    t.time.refCnt = min (s.time.refCnt + 1) 255 ∧ t.time.integ = s.time.integ ∧ t.time.inc = s.time.inc ∧
    t.time.state = s.time.state ∧ bit (t.rg .timeStatus) 27 = true := by
  have ht : (s.setBit .timeStatus 0 27).time = s.time := by simp
  intro t
  have hr : t.time.refCnt = satN ((s.setBit .timeStatus 0 27).time.refCnt + 1) 255 := rfl
  have hi : t.time.integ = (s.setBit .timeStatus 0 27).time.integ := rfl
  have hc : t.time.inc = (s.setBit .timeStatus 0 27).time.inc := rfl
  have hs : t.time.state = (s.setBit .timeStatus 0 27).time.state := rfl
  rw [hr, hi, hc, hs, ht]
  exact ⟨rfl, rfl, rfl, rfl, bit_rg_setBit s .timeStatus 0 (by decide)⟩

theorem takeSample_freeRun {s : State} (x : Int) (h : s.time.state = .freeRun) : s.takeSample x = s := if_pos h

section
variable {s : State} {x : Int} (hf : s.time.state ≠ .freeRun) (ha : s.acquires = false)
include hf ha

theorem takeSample_accepts (h : mag x ≤ s.jumpTh * 65536) : s.takeSample x = s.acceptSample x := by
  rw [State.takeSample, if_neg hf, if_neg (by simp [ha]), if_pos h]

theorem takeSample_refuses (h : s.jumpTh * 65536 < mag x) : s.takeSample x = s.refuseSample x := by
  rw [State.takeSample, if_neg hf, if_neg (by simp [ha]), if_neg (by omega)]
end

/-! ### The jump, the link delay and the timeout of an instance (R170, R172, R178, R182) -/

theorem timeJump_fires {s : State} (h : 8 ≤ s.time.refCnt) (hj : s.time.jumpFired = false) :
    s.timeJump = (s.onTime fun t => { t with jumpFired := true }).fire 61 s.time.refCnt := if_pos (by simp [h, hj])

theorem timeJump_stays {s : State} (h : s.time.refCnt < 8 ∨ s.time.jumpFired = true) : s.timeJump = s := by
  refine if_neg ?_
  rcases h with h | h
  · simp [h]
  · simp [h]

theorem autoSwitch_valid (s : State) (n : Nat) : (s.autoSwitch.inst n).valid = (s.inst n).valid := by
  unfold State.autoSwitch
  extract_lets k switched role w bare
  have hs : switched.inst n = s.inst n := by simp [switched, State.inst]
  have hb : bare.inst n = s.inst n := by rw [← hs]; rfl
  split
  · split
    · rw [hs]
    · by_cases h : n = k
      · subst h
        rw [inst_modInst_self, hb]
      · rw [inst_modInst_other _ _ h, hb]
  · rfl

theorem holdover_valid (s : State) (n : Nat) : (s.holdover.inst n).valid = (s.inst n).valid := by
  unfold State.holdover
  split
  · unfold State.enterHoldover
    extract_lets slowed
    have h : s.SameInputs ((slowed.onTime fun t => { t with good := 0 }).setTime .holdover) :=
      ((inputs_setInc ..).trans (.onTime _ _ rfl rfl)).trans (inputs_setTime ..)
    rw [autoSwitch_valid, inst_of_inputs h]
  · rfl

theorem instTimeout_ends {s : State} {n a : Nat} (h : (s.inst n).sampleAt = some a) (hv : (s.inst n).valid = true)
    (ha : a + s.srcTimeout n ≤ s.now) :
    s.instTimeout n = (s.modInst n fun k => { k with valid := false }).holdover := by
  rw [State.instTimeout, h]
  exact if_pos (by simp [hv, ha])

theorem instTimeout_stays {s : State} {n : Nat}
    (h : ∀ a, (s.inst n).sampleAt = some a → (s.inst n).valid = false ∨ s.now < a + s.srcTimeout n) :
    s.instTimeout n = s := by
  unfold State.instTimeout
  split
  next => rfl
  next a ha => exact if_neg (by rcases h a ha with h | h <;> simp [h])

/-- Settles O47: `instSample_inst` for the samples of an instance, `acceptSample_fields` and `refuseSample_fields` for
those of the source. -/
theorem samplesOfNetworkTime : Obligations.SamplesOfNetworkTime := by
  unfold Obligations.SamplesOfNetworkTime
  refine ⟨fun s u dt n l m hu => ?messages, fun s x => ?source, fun s => ?jump, fun s u dt l d k hu => ?delay,
    fun s u dt n hu => ?timeout⟩
  case messages =>
    intro k t2
    rw [exec_sync, exec_followUp, ← hu]
    refine ⟨fun h => by rw [syncArrives_unusable m h, followUp_unusable m h]; exact ⟨rfl, rfl⟩,
      fun h => ⟨fun ht => ?_, fun ht => ?_, fun hp => by rw [followUp_none m hp], fun q t1 c at1 hp =>
        ⟨fun hl => by rw [followUp_late m hp hl], fun hq hi hc => ?_⟩⟩⟩
    · rw [syncArrives_oneStep m h ht]
      refine ⟨_, rfl, ?_⟩
      have hi : ((u.timed n.val m).waitless n.val).inst n.val =
          { u.inst n.val with interval := syncInterval k.interval m.logInt, pending := none } := by
        rw [State.waitless, inst_modInst_self, State.timed, inst_modInst_self]
      rw [instSample_inst, hi]
      exact ⟨rfl, rfl, rfl, rfl, rfl, fun hs => by
        rw [instSample_other (s := (u.timed n.val m).waitless n.val) _ hs]; rfl⟩
    · rw [syncArrives_twoStep m h ht]
      refine ⟨_, rfl, ?_⟩
      rw [inst_modInst_self, State.timed, inst_modInst_self]
      exact ⟨rfl, rfl, rfl⟩
    · rw [followUp_next m hp h hq hi hc]
      refine ⟨_, rfl, ?_⟩
      rw [instSample_inst, State.waitless, inst_modInst_self]
      exact ⟨rfl, rfl, rfl, rfl⟩
  case source =>
    refine ⟨takeSample_freeRun x, fun hf ha => ⟨fun h => ?_, fun h => ?_⟩⟩
    · rw [takeSample_accepts hf ha h]
      exact acceptSample_fields s x
    · rw [takeSample_refuses hf ha h]
      exact refuseSample_fields s x
  case jump =>
    rw [exec_timeJump]
    exact ⟨fun h hj => by rw [timeJump_fires h hj], fun h => by rw [timeJump_stays h]⟩
  case delay =>
    subst hu
    intro done
    rw [exec_linkDelayExchange]
    refine ⟨fun h => ?_, fun h => ?_⟩
    · rw [State.delayExchange, if_pos h]
      exact ⟨_, rfl, delayOf_modDelay_self .., fun j hj => delayOf_modDelay_other _ _ hj⟩
    · rw [State.delayExchange, if_neg (Bool.not_eq_true _ ▸ h)]
  case timeout =>
    subst hu
    rw [exec_instanceValidTimeout]
    refine ⟨fun a hat hv ha => ?_, fun h => by rw [instTimeout_stays h]⟩
    rw [instTimeout_ends hat hv ha]
    exact ⟨_, rfl, by rw [holdover_valid, inst_modInst_self]⟩

end Sys2Proof.Machine
end

section
/-! Settling O48: gPTP messages sent, and the writes of the time unit's settings. -/

namespace Sys2Proof.Machine

theorem exec_syncTransmit (s : State) (dt : Nat) (n : Fin 2) (l : Fin 8) :
    exec (.syncTransmit dt n l) s = .next ((s.pass dt).syncTransmit n.val l.val).finish := rfl
theorem exec_announceTransmit (s : State) (dt : Nat) (n : Fin 2) (l : Fin 8) (b : List Byte) :
    exec (.announceTransmit dt n l b) s = .next ((s.pass dt).announce n.val l.val b).finish := rfl
theorem exec_timeCtrlWrite (s : State) (v : Word) :
    exec (.timeCtrlWrite v) s = .next (s.onHost fun s => s.writeTimeCtrl v) := rfl
theorem exec_driftLimWrite (s : State) (v : Word) :
    exec (.driftLimWrite v) s = .next (s.onHost fun s => s.writeTimeDrift v) := rfl
theorem exec_timeDomCfgWrite (s : State) (n : Fin 2) (v : Word) :
    exec (.timeDomCfgWrite n v) s = .next (s.onHost fun s => s.writeTimeDom n.val v) := rfl

/-! ### Frames that the module queues itself (R222) -/

theorem queue_setQueue_self (s : State) (l q : Nat) (fs : List TxFrame) : (s.setQueue l q fs).queue l q = fs := by
  unfold State.queue State.setQueue
  rw [lane_modLane_self]
  exact tget_tset_self _ _ _ _ rfl

theorem putFrame_queue (s : State) (l q : Nat) (f : TxFrame) : (s.putFrame l q f).queue l q =
    s.queue l q ++ [{ f with headAt := if (s.queue l q).isEmpty then some s.now else none }] := queue_setQueue_self ..

theorem sendOwn_full {s : State} {l : Nat} (f : TxFrame) (h : s.queueFull l (s.ctrlQ l) = true) : s.sendOwn l f = s :=
  if_pos h

theorem sendOwn_queues {s : State} {l : Nat} (f : TxFrame) (h : s.queueFull l (s.ctrlQ l) = false) :
    s.sendOwn l f = s.putFrame l (s.ctrlQ l) f := if_neg (by simp [h])

/-! ### Sync and Announce sent (R175, R177) -/

theorem syncTransmit_quiet {s : State} {n l : Nat}
    (h : s.sendsAsMaster n l = false ∨ s.now < tget (fun _ => 0) (s.inst n).nextSync l) : s.syncTransmit n l = s := by
  refine if_pos ?_
  rcases h with h | h
  · simp [h]
  · simp [h]

/-- The frame of a Sync. -/
def State.syncOut (s : State) (n l : Nat) : TxFrame :=
  let one := bit (s.rg .timeDomCfg n) 29
  { octets := s.syncFrame n l one (tget (fun _ => 0) (s.inst n).txSeq l), src := if one then .own else .twoStep n,
    sync := one }

/-- A lane's next Sync interval of an instance begins. -/
def State.nextInterval (s : State) (n l : Nat) : State :=
  s.modInst n fun k => { k with
    nextSync := tset (fun _ => 0) k.nextSync l (s.now + s.syncCycles n),
    txSeq := tset (fun _ => 0) k.txSeq l ((tget (fun _ => 0) (s.inst n).txSeq l + 1) % 65536) }

theorem syncTransmit_sends {s : State} {n l : Nat} (h : s.sendsAsMaster n l = true)
    (hd : tget (fun _ => 0) (s.inst n).nextSync l ≤ s.now) :
    s.syncTransmit n l = (s.nextInterval n l).sendOwn l (s.syncOut n l) := if_neg (by simp [h, hd])

theorem nextInterval_nextSync (s : State) (n l : Nat) :
    tget (fun _ => 0) ((s.nextInterval n l).inst n).nextSync l = s.now + s.syncCycles n := by
  rw [State.nextInterval, inst_modInst_self]
  exact tget_tset_self _ _ _ _ rfl

theorem sendOwn_time (s : State) (l : Nat) (f : TxFrame) : (s.sendOwn l f).time = s.time := time_of_apart (apart_sendOwn ..)

theorem announce_quiet {s : State} {n l : Nat} (b : List Byte) (h : s.sendsAsMaster n l = false) : s.announce n l b = s :=
  if_neg (by simp [h])

theorem announce_sends {s : State} {n l : Nat} (b : List Byte) (h : s.sendsAsMaster n l = true) :
    s.announce n l b = s.sendOwn l { octets := s.ptpHead l ++ b, src := .own } := if_pos h

theorem syncTransmit_fields {s : State} {n l : Nat} (h : s.sendsAsMaster n l = true)
    (hd : tget (fun _ => 0) (s.inst n).nextSync l ≤ s.now) : let t := s.syncTransmit n l
    tget (fun _ => 0) (t.inst n).nextSync l = s.now + s.syncCycles n ∧
    (s.queueFull l (s.ctrlQ l) = false → ∃ f, t.queue l (s.ctrlQ l) = s.queue l (s.ctrlQ l) ++ [f] ∧
      f.sync = bit (s.rg .timeDomCfg n) 29 ∧ f.src = (if f.sync then .own else .twoStep n)) ∧
    (s.queueFull l (s.ctrlQ l) = true → t.ept = s.ept) := by
  rw [syncTransmit_sends h hd]
  refine ⟨?_, fun hq => ?_, fun hq => ?_⟩
  · unfold State.inst
    rw [sendOwn_time]
    exact nextInterval_nextSync s n l
  · rw [sendOwn_queues (s := s.nextInterval n l) _ hq]
    exact ⟨_, putFrame_queue .., rfl, rfl⟩
  · rw [sendOwn_full (s := s.nextInterval n l) _ hq]
    rfl

/-! ### TIME_CTRL (R170, R171) -/

/-- Bits of a field that the host may write take the value. -/
theorem fld_written (s : State) {r : Reg} (i : Nat) (v : Word) {hi lo : Nat}
    (h : ∀ j, lo ≤ j → j ≤ hi → bit (r.rwMask 0) j = true) (hhi : hi < 32) :
    fld (s.written r i 0 v) hi lo = fld v hi lo :=
  fld_congr fun j hl hj => by rw [bit_written _ _ _ _ _ (by omega), if_pos (h j hl hj)]

theorem fld_src_written (s : State) (v : Word) : fld (s.written .timeCtrl 0 0 v) 1 0 = fld v 1 0 :=
  fld_written s 0 v (by decide) (by decide)

theorem src_of_rg {s : State} {w : Word} (h : s.rg .timeCtrl = w) : s.src = fld w 1 0 := by
  unfold State.src State.rf
  rw [h]

section
variable {s : State} {old : Nat}

theorem sourceWritten_stops (ho : old ≠ 3) (hs : s.src = 3) :
    s.sourceWritten old = (s.onTime fun t => { t with drift := false }).setTime .freeRun := if_pos (by simp [ho, hs])

theorem state_onDrift (s : State) (d : Bool) :
    (s.onTime fun t => { t with drift := d, calm := 0 }).time.state = s.time.state := rfl

/-- From none to a source once a sample was accepted: HOLDOVER, with DRIFT as its time so far gives it. -/
theorem sourceWritten_holds (ho : old = 3) (hs : s.src ≠ 3) (ha : s.time.accepted = true) :
    s.sourceWritten old = s.enterHoldover.onTime fun t => { t with drift := s.enterHoldover.heldTooLong, calm := 0 } := by
  rw [State.sourceWritten, if_neg (by simp [ho]), if_pos (by simp [ho, hs]), if_pos ha]

theorem sourceWritten_frees (ho : old = 3) (hs : s.src ≠ 3) (ha : s.time.accepted = false) :
    s.sourceWritten old = (s.onTime fun t => { t with drift := true, calm := 0 }).setTime .free := by
  rw [State.sourceWritten, if_neg (by simp [ho]), if_pos (by simp [ho, hs]), if_neg (by simp [ha])]

theorem sourceWritten_keeps (h : old = 3 ↔ s.src = 3) : s.sourceWritten old = s := by
  rw [State.sourceWritten, if_neg (by simpa using not_imp_not.mpr h.mpr), if_neg (by simpa using h.mp)]
end

/-- What follows the change of the source reports it, and no more. -/
theorem frame_ppsLevel_irqPulse (s : State) (n : Nat) : (s.ppsLevel.irqPulse n).frame = s.frame :=
  (frame_irqPulse ..).trans (ppsLevel_frame s)

/-- A time unit that enters a state keeps what was written before, and no register but TIME_STATUS moves. -/
theorem setTime_rg (s : State) (st : TimeState) {r : Reg} (i : Nat) (h : r.addr i ≠ Reg.timeStatus.addr 0) :
    (s.setTime st).rg r i = s.rg r i := (inputs_setTime s st).rg r i h

theorem writeTimeCtrl_granted {s : State} (h : s.grantOk = true) (v : Word) :
    ∃ u, s.Grants .timeCtrl 0 v u ∧ s.writeTimeCtrl v = (u.sourceWritten s.src).ppsLevel.irqPulse 87 :=
  protReg_acts h .timeCtrl 0 v fun u => (u.sourceWritten s.src).ppsLevel

/-! ### DRIFT_LIM (R203) -/

@[simp] theorem bank_modBank_self (s : State) (b : Nat) (f : Bank → Bank) : (s.modBank b f).bank b = f (s.bank b) :=
  tget_tset_self _ _ _ _ rfl

theorem bank_modBank_other (s : State) {b k : Nat} (f : Bank → Bank) (h : k ≠ b) : (s.modBank b f).bank k = s.bank k := by
  unfold State.bank State.modBank tmod
  dsimp only
  rw [tget_tset_other _ _ _ h]

/-- A bank whose check assumed less drift than the limit now allows is marked. -/
def Bank.stale (k : Bank) (lim : Nat) : Bank := if k.checkDrift < lim then { k with marginStale := true } else k

theorem Bank.stale_stale (k : Bank) (lim : Nat) : (k.stale lim).stale lim = k.stale lim := by
  unfold Bank.stale
  split <;> rfl

def State.staleBank (s : State) (b : Nat) : State :=
  if (s.bank b).checkDrift < s.driftLim then s.modBank b fun k => { k with marginStale := true } else s

theorem staleBank_regs (s : State) (b : Nat) : (s.staleBank b).regs = s.regs := by
  unfold State.staleBank
  split <;> rfl

theorem staleBank_bank (s : State) (b k : Nat) :
    (s.staleBank b).bank k = if k = b then (s.bank k).stale s.driftLim else s.bank k := by
  unfold State.staleBank Bank.stale
  by_cases hk : k = b
  · subst hk
    by_cases hd : (s.bank k).checkDrift < s.driftLim
    · simp [hd]
    · simp [hd]
  · rw [if_neg hk]
    split
    · exact bank_modBank_other _ _ hk
    · rfl

theorem staleBanks_regs (l : List Nat) (s : State) : (l.foldl State.staleBank s).regs = s.regs :=
  foldl_keeps State.regs l _ staleBank_regs s

theorem staleBanks_bank (l : List Nat) (s : State) (k : Nat) :
    (l.foldl State.staleBank s).bank k = if k ∈ l then (s.bank k).stale s.driftLim else s.bank k := by
  induction l generalizing s with
  | nil => rfl
  | cons b l ih =>
    have hd : (s.staleBank b).driftLim = s.driftLim := by
      unfold State.driftLim State.rf
      rw [rg_congr (staleBank_regs s b)]
    rw [List.foldl_cons, ih, hd, staleBank_bank]
    by_cases hb : k = b
    · simp [hb, Bank.stale_stale]
    · simp [hb]

theorem writeTimeDrift_granted {s : State} (h : s.grantOk = true) (v : Word) : ∃ u, s.Grants .timeDrift 0 v u ∧
    s.writeTimeDrift v = ((List.range 4).foldl State.staleBank u).irqPulse 87 :=
  protReg_acts h .timeDrift 0 v fun u => (List.range 4).foldl State.staleBank u

/-! ### TIME_DOMn_CFG (R175) -/

theorem ptpRole_lt (s : State) (n l : Nat) : s.ptpRole n l < 4 := by
  have h : 2 ^ (2 * l + 1 + 1 - 2 * l) = 4 := by rw [show 2 * l + 1 + 1 - 2 * l = 2 by omega]; rfl
  unfold State.ptpRole
  dsimp only
  split
  · exact h ▸ bits_lt ..
  · exact h ▸ bits_lt ..

/-- Two-bit fields packed in order. -/
def packed (f : Nat → Nat) (n : Nat) : Nat := (List.range n).foldl (fun r l => r + f l * 2 ^ (2 * l)) 0

theorem packed_succ (f : Nat → Nat) (n : Nat) : packed f (n + 1) = packed f n + f n * 2 ^ (2 * n) := by
  rw [packed, List.range_succ, List.foldl_append]
  rfl

theorem packed_lt {f : Nat → Nat} (hf : ∀ l, f l < 4) (n : Nat) : packed f n < 2 ^ (2 * n) := by
  induction n with
  | zero => exact Nat.one_pos
  | succ n ih =>
    have hn := hf n
    rw [packed_succ, show 2 * (n + 1) = 2 * n + 2 by omega, pow_add]
    nlinarith

/-- A packed field reads back. -/
theorem bits_packed {f : Nat → Nat} (hf : ∀ l, f l < 4) {n l : Nat} (hl : l < n) :
    bits (packed f n) (2 * l + 1) (2 * l) = f l := by
  rw [bits, show 2 * l + 1 + 1 - 2 * l = 2 by omega]
  induction n with
  | zero => omega
  | succ n ih =>
    rw [packed_succ]
    rcases Nat.lt_succ_iff_lt_or_eq.mp hl with hlt | rfl
    · obtain ⟨k, rfl⟩ : ∃ k, n = l + 1 + k := ⟨n - (l + 1), by omega⟩
      have hpow : f (l + 1 + k) * 2 ^ (2 * (l + 1 + k)) = f (l + 1 + k) * 2 ^ (2 * k) * 2 ^ 2 * 2 ^ (2 * l) := by
        rw [mul_assoc, mul_assoc, ← pow_add, ← pow_add]
        congr 2
        omega
      rw [hpow, Nat.add_mul_div_right _ _ (Nat.two_pow_pos _), Nat.add_mul_mod_self_right, ih hlt]
    · rw [Nat.add_mul_div_right _ _ (Nat.two_pow_pos _), Nat.div_eq_of_lt (packed_lt hf l), Nat.zero_add,
        Nat.mod_eq_of_lt (show f l < 2 ^ 2 from hf l)]

/-- A table filled in order reads the value of each index. -/
theorem tget_foldl_tset (g : Nat → Nat) (n k : Nat) :
    tget (fun _ => 0) ((List.range n).foldl (fun t l => tset (fun _ => 0) t l (g l)) []) k = if k < n then g k else 0 := by
  induction n with
  | zero => rfl
  | succ n ih =>
    rw [List.range_succ, List.foldl_append, List.foldl_cons, List.foldl_nil]
    by_cases hk : k = n
    · subst hk
      rw [tget_tset_self _ _ _ _ rfl, if_pos (by omega)]
    · rw [tget_tset_other _ _ _ hk, ih]
      simp [show k < n + 1 ↔ k < n by omega]

/-- A turned instance keeps each lane's role of before until the start of its new one. -/
theorem turnRoles_inst (s : State) (n : Nat) {l : Nat} (hl : l < 8) :
    bits ((s.turnRoles n).inst n).roleOld.toNat (2 * l + 1) (2 * l) = s.ptpRole n l ∧
    tget (fun _ => 0) ((s.turnRoles n).inst n).roleAt l = s.roleStart n l := by
  unfold State.turnRoles
  extract_lets old starts
  rw [inst_modInst_self]
  have hold : (BitVec.ofNat 16 old).toNat = packed (s.ptpRole n) 8 := by
    rw [BitVec.toNat_ofNat]
    exact Nat.mod_eq_of_lt (packed_lt (ptpRole_lt s n) 8)
  refine ⟨?_, (tget_foldl_tset (s.roleStart n) 8 l).trans (if_pos hl)⟩
  show bits (BitVec.ofNat 16 old).toNat _ _ = _
  rw [hold]
  exact bits_packed (ptpRole_lt s n) hl

theorem fld_role_written (s : State) (n : Nat) (v : Word) {l : Nat} (hl : l < 8) :
    fld (s.written .timeDomCfg n 0 v) (2 * l + 1) (2 * l) = fld v (2 * l + 1) (2 * l) := by
  have hmask : ∀ j < 16, bit (Reg.timeDomCfg.rwMask 0) j = true := by decide
  exact fld_written s n v (fun j _ hj => hmask j (by omega)) (by omega)

theorem putDom_rg (s : State) (n : Nat) (v : Word) : (s.putDom n v).rg .timeDomCfg n = s.written .timeDomCfg n 0 v := by
  rw [State.putDom, rg_putReg_self]
  exact written_congr rfl rfl rfl ..

theorem putDom_ptpRole (s : State) (n : Nat) (v : Word) {l : Nat} (hl : l < 8) :
    (s.now < s.roleStart n l → (s.putDom n v).ptpRole n l = s.ptpRole n l) ∧
    (s.roleStart n l ≤ s.now → (s.putDom n v).ptpRole n l = fld v (2 * l + 1) (2 * l)) := by
  obtain ⟨hold, hat⟩ := turnRoles_inst s n hl
  have hinst : (s.putDom n v).inst n = (s.turnRoles n).inst n := rfl
  have hnow : (s.putDom n v).now = s.now := rfl
  rw [← hinst] at hold hat
  unfold State.ptpRole at hold ⊢
  dsimp only at hold ⊢
  rw [hat, hnow, hold]
  exact ⟨fun h => if_pos h, fun h => (if_neg (by omega)).trans (by rw [putDom_rg, fld_role_written s n v hl])⟩

theorem ptpRole_congr {s t : State} (hr : t.regs = s.regs) (ht : t.time = s.time) (n l : Nat) :
    t.ptpRole n l = s.ptpRole n l := by
  unfold State.ptpRole State.inst State.now
  rw [ht, rg_congr hr]

theorem roleStart_congr {s t : State} (hr : t.regs = s.regs) (ht : t.time = s.time) (n l : Nat) :
    t.roleStart n l = s.roleStart n l := by
  unfold State.roleStart State.inst
  rw [ptpRole_congr hr ht, ht]

theorem writeTimeDom_bad {s : State} (hg : s.grantOk = true) {n : Nat} {v : Word} (h : s.domBad n v = true) :
    s.writeTimeDom n v = s.setBit .timeDomCfg n 28 := if_pos (by simp [hg, h])

theorem writeTimeDom_stores {s : State} (hg : s.grantOk = true) {n : Nat} {v : Word} (h : s.domBad n v = false) :
    ∃ e, s.writeTimeDom n v = ((s.recordOrHold e true).putDom n v).irqPulse 87 := by
  rw [State.writeTimeDom, if_neg (by simp [h]), protWrite_granted hg]
  exact ⟨_, rfl⟩

/-- The audit entry of a granted write moves nothing that a role depends on. -/
theorem writeTimeDom_fields {s : State} (hg : s.grantOk = true) {n : Nat} {v : Word} (h : s.domBad n v = false) :
    let t := s.writeTimeDom n v
    t.rg .timeDomCfg n = s.written .timeDomCfg n 0 v ∧
    ∀ l < 8, (s.now < s.roleStart n l → t.ptpRole n l = s.ptpRole n l) ∧
      (s.roleStart n l ≤ s.now → t.ptpRole n l = fld v (2 * l + 1) (2 * l)) := by
  obtain ⟨e, he⟩ := writeTimeDom_stores hg h
  rw [he]
  have hf := frame_irqPulse ((s.recordOrHold e true).putDom n v) 87
  have hr : (s.recordOrHold e true).regs = s.regs := recordOrHold_keeps_regs ..
  have ht : (s.recordOrHold e true).time = s.time := recordOrHold_keeps_time ..
  refine ⟨?_, fun l hl => ?_⟩
  · rw [rg_congr (of_frame_regs hf), putDom_rg]
    exact written_congr hr (recordOrHold_marks ..) (congrArg TimeUnit.raw ht) ..
  · rw [ptpRole_congr (of_frame_regs hf) (of_frame_time hf), ← ptpRole_congr hr ht, ← roleStart_congr hr ht]
    have hnow : (s.recordOrHold e true).now = s.now := by unfold State.now; rw [ht]
    rw [← hnow]
    exact putDom_ptpRole _ n v hl

section
variable {s : State} (hg : s.grantOk = true) {v : Word}
include hg

theorem writeTimeCtrl_stops (hs : s.src ≠ 3) (hv : fld v 1 0 = 3) : (s.writeTimeCtrl v).time.state = .freeRun ∧
    (s.writeTimeCtrl v).time.drift = false ∧ (s.writeTimeCtrl v).rg .timeCtrl = s.written .timeCtrl 0 0 v := by
  obtain ⟨u, hu, hw⟩ := writeTimeCtrl_granted hg v
  have hsrc : u.src = 3 := by rw [src_of_rg hu.rg, fld_src_written, hv]
  rw [hw, sourceWritten_stops hs hsrc]
  obtain ⟨b, hb⟩ := setTime_time (u.onTime fun t => { t with drift := false }) .freeRun
  have hf := frame_ppsLevel_irqPulse ((u.onTime fun t => { t with drift := false }).setTime .freeRun) 87
  rw [of_frame_time hf, rg_congr (of_frame_regs hf), hb, setTime_rg _ _ _ (by decide)]
  exact ⟨rfl, rfl, hu.rg⟩

theorem writeTimeCtrl_frees (hs : s.src = 3) (hv : fld v 1 0 ≠ 3) (ha : s.time.accepted = false) :
    (s.writeTimeCtrl v).time.state = .free ∧ (s.writeTimeCtrl v).time.drift = true ∧
    (s.writeTimeCtrl v).rg .timeCtrl = s.written .timeCtrl 0 0 v := by
  obtain ⟨u, hu, hw⟩ := writeTimeCtrl_granted hg v
  have hsrc : u.src ≠ 3 := by rwa [src_of_rg hu.rg, fld_src_written]
  rw [hw, sourceWritten_frees hs hsrc (by rw [hu.time, ha])]
  obtain ⟨b, hb⟩ := setTime_time (u.onTime fun t => { t with drift := true, calm := 0 }) .free
  have hf := frame_ppsLevel_irqPulse ((u.onTime fun t => { t with drift := true, calm := 0 }).setTime .free) 87
  rw [of_frame_time hf, rg_congr (of_frame_regs hf), hb, setTime_rg _ _ _ (by decide)]
  exact ⟨rfl, rfl, hu.rg⟩

theorem writeTimeCtrl_holds (hs : s.src = 3) (hv : fld v 1 0 ≠ 3) (ha : s.time.accepted = true) :
    (s.writeTimeCtrl v).time.state = .holdover := by
  obtain ⟨u, hu, hw⟩ := writeTimeCtrl_granted hg v
  have hsrc : u.src ≠ 3 := by rwa [src_of_rg hu.rg, fld_src_written]
  rw [hw, sourceWritten_holds hs hsrc (by rw [hu.time, ha]), of_frame_time (frame_ppsLevel_irqPulse ..),
    state_onDrift]
  exact (enterHoldover_fields u).1

theorem writeTimeCtrl_keeps (h : s.src = 3 ↔ fld v 1 0 = 3) : (s.writeTimeCtrl v).time = s.time ∧
    (s.writeTimeCtrl v).rg .timeCtrl = s.written .timeCtrl 0 0 v := by
  obtain ⟨u, hu, hw⟩ := writeTimeCtrl_granted hg v
  have hsrc : s.src = 3 ↔ u.src = 3 := by rwa [src_of_rg hu.rg, fld_src_written]
  have hf := frame_ppsLevel_irqPulse u 87
  rw [hw, sourceWritten_keeps hsrc, of_frame_time hf, rg_congr (of_frame_regs hf)]
  exact ⟨hu.time, hu.rg⟩

theorem writeTimeDrift_fields (v : Word) : let t := s.writeTimeDrift v
    t.rg .timeDrift = s.written .timeDrift 0 0 v ∧
    ∀ b < 4, t.bank b = (if (s.bank b).checkDrift < max (fld v 15 0) 32
      then { s.bank b with marginStale := true } else s.bank b) := by
  obtain ⟨u, hu, hw⟩ := writeTimeDrift_granted hg v
  have hf := frame_irqPulse ((List.range 4).foldl State.staleBank u) 87
  have hlim : u.driftLim = max (fld v 15 0) 32 := by
    rw [State.driftLim, State.rf, hu.rg, fld_written _ _ _ (by decide) (by decide)]
  have hub : ∀ b, u.bank b = s.bank b := fun b => by
    have hsched : u.sched = s.sched := by have := congrArg State.sched hu.frame; exact this
    unfold State.bank
    rw [hsched]
  rw [hw]
  refine ⟨?_, fun b hb => ?_⟩
  · rw [rg_congr (of_frame_regs hf), rg_congr (staleBanks_regs _ u), hu.rg]
  · have hbank : (((List.range 4).foldl State.staleBank u).irqPulse 87).bank b =
        ((List.range 4).foldl State.staleBank u).bank b := by
      unfold State.bank
      rw [of_frame_sched hf]
    rw [hbank, staleBanks_bank, if_pos (List.mem_range.mpr hb), hlim, hub]
    rfl
end

/-- Settles O48: `syncTransmit_fields` for the messages, and one lemma per register for the settings. -/
theorem timeMessagesAndSettings : Obligations.TimeMessagesAndSettings := by
  unfold Obligations.TimeMessagesAndSettings
  refine ⟨fun s u dt n l hu => ?messages, fun s v => ⟨fun h n c hc => ?down, fun hup hg => ?writes⟩⟩
  case messages =>
    subst hu
    rw [exec_syncTransmit]
    refine ⟨fun h => ⟨by rw [syncTransmit_quiet (.inl h)], fun b => by rw [exec_announceTransmit, announce_quiet b h]⟩,
      fun h => by rw [syncTransmit_quiet (.inr h)],
      fun h => ⟨fun hd => ⟨_, rfl, syncTransmit_fields h hd⟩, fun b => by rw [exec_announceTransmit, announce_sends b h]⟩⟩
  case down =>
    simp only [List.mem_cons, List.not_mem_nil, or_false] at hc
    rcases hc with rfl | rfl | rfl
    · rw [exec_timeCtrlWrite, onHost_down h]
    · rw [exec_driftLimWrite, onHost_down h]
    · rw [exec_timeDomCfgWrite, onHost_down h]
  case writes =>
    rw [exec_timeCtrlWrite, exec_driftLimWrite, onHost_up hup, onHost_up hup]
    refine ⟨fun hs hv => ⟨_, rfl, writeTimeCtrl_stops hg hs hv⟩, fun hs hv => ⟨_, rfl, writeTimeCtrl_holds hg hs hv,
      writeTimeCtrl_frees hg hs hv⟩, fun h => ⟨_, rfl, writeTimeCtrl_keeps hg h⟩, ⟨_, rfl, writeTimeDrift_fields hg v⟩,
      fun n => ⟨fun h => ?_, fun h => ⟨_, ?_, writeTimeDom_fields hg h⟩⟩⟩
    · rw [exec_timeDomCfgWrite, onHost_up hup, writeTimeDom_bad hg h]
    · rw [exec_timeDomCfgWrite, onHost_up hup]

end Sys2Proof.Machine
end

section
/-! Settling O17: host writes in BAR2 and to the halves of 8-byte registers. -/

namespace Sys2Proof.Machine

/-! ### BAR2 (R244, R426) -/

theorem writeBar2_cons_taken {s : State} {x : Nat} (b : Byte) (bs : List Byte) (h : s.takesByte x = true) :
    s.writeBar2 x (b :: bs) = State.writeBar2 { s with sram := wr s.sram x b } (x + 1) bs := by
  simp [State.writeBar2, h]

theorem writeBar2_cons_kept {s : State} {x : Nat} (b : Byte) (bs : List Byte) (h : s.takesByte x = false) :
    s.writeBar2 x (b :: bs) = s.writeBar2 (x + 1) bs := by
  simp [State.writeBar2, h]

theorem rd_writeBar2_outside (s : State) {x y : Nat} (bs : List Byte) (hy : y < x ∨ x + bs.length ≤ y) :
    rd (s.writeBar2 x bs).sram y = rd s.sram y := by
  induction bs generalizing s x with
  | nil => rfl
  | cons b bs ih =>
    rw [List.length_cons] at hy
    cases h : s.takesByte x with
    | true =>
      rw [writeBar2_cons_taken b bs h, ih _ (by omega)]
      exact rd_wr_other _ _ (by omega)
    | false => rw [writeBar2_cons_kept b bs h, ih _ (by omega)]

/-- No byte of a receive slot is taken. -/
theorem takesByte_receiveSlot {s : State} {x : Nat} (h : s.slotBound (x / 0x800) true = true) : s.takesByte x = false := by
  simp [State.takesByte, h]

theorem writeBar2_receiveSlot {s : State} {x : Nat} (bs : List Byte) (h : ∀ y, x ≤ y → y < x + bs.length →
    s.slotBound (y / 0x800) true = true) : s.writeBar2 x bs = s := by
  induction bs generalizing x with
  | nil => rfl
  | cons b bs ih =>
    rw [List.length_cons] at h
    rw [writeBar2_cons_kept b bs (takesByte_receiveSlot (h x le_rfl (by omega)))]
    exact ih fun y hl hu => h y (by omega) (by omega)

theorem takesByte_unbound {s : State} {x : Nat} (hx : x < 0x400000) (hr : s.slotBound (x / 0x800) true = false)
    (ht : s.slotBound (x / 0x800) false = false) : s.takesByte x = true := by
  simp [State.takesByte, hx, hr, ht]

theorem takesByte_slotHead {s : State} {x : Nat} (ht : s.slotBound (x / 0x800) false = true) (hl : 8 ≤ x % 0x800)
    (hu : x % 0x800 < 20) : s.takesByte x = false := by
  simp [State.takesByte, ht, hl, hu]

theorem hostWrite_byte (s : State) (x : Nat) (v : Dword) :
    s.hostWrite (0x100000 + x) 1 v = s.writeBar2 x [BitVec.ofNat 8 v.toNat] := by
  rw [State.hostWrite, if_pos (by unfold bar0Size; omega), show 0x100000 + x - bar0Size = x by unfold bar0Size; omega]
  rfl

theorem byte_of_widened (b : Byte) : BitVec.ofNat 8 (b.setWidth 64).toNat = b := by
  rw [BitVec.toNat_setWidth_of_le (by omega), BitVec.ofNat_toNat, BitVec.setWidth_eq]

/-! ### Halves of 8-byte registers (R428) -/

/-- Registers of 8 bytes that software writes, with `n` instances on 8-byte boundaries. -/
def Reg.wideTo (r : Reg) (n : Nat) : Bool :=
  r.wide && r.info.bytes = 8 && decide (n ≤ r.count) &&
    decide (r.info.base % 8 = 0 ∧ r.info.step1 % 8 = 0 ∧ r.info.step2 % 8 = 0)

theorem Reg.addr_mod_eight {r : Reg} (h0 : r.info.base % 8 = 0) (h1 : r.info.step1 % 8 = 0) (h2 : r.info.step2 % 8 = 0)
    (i : Nat) : r.addr i % 8 = 0 :=
  Nat.mod_eq_zero_of_dvd (((Nat.dvd_of_mod_eq_zero h0).add (.mul_left (Nat.dvd_of_mod_eq_zero h1) _)).add
    (.mul_left (Nat.dvd_of_mod_eq_zero h2) _))

section
variable {r : Reg} {i : Nat} (hb : r.info.bytes = 8) (hi : i < r.count)
include hb hi

theorem writeBar0_half (s : State) {w : Nat} (hw : w < 2) (v : Word) :
    s.writeBar0 2 (r.addr i + 4 * w) v = s.writeHalf r i w v := by
  obtain ⟨-, -, hm⟩ := r.addr_placed (b := 4 * w) hi (by omega)
  rw [State.writeBar0, if_neg hm, regAt_addr r hi (by omega)]
  dsimp only
  rw [if_pos hb, Nat.mul_div_cancel_left _ (by decide)]

theorem hostWrite_low (s : State) (v : Dword) : s.hostWrite (r.addr i) 4 v = s.writeHalf r i 0 (loW v) := by
  obtain ⟨hq, ha, -⟩ := r.addr_placed (b := 0) hi (by omega)
  rw [State.hostWrite, if_neg (by omega), if_neg (by decide), if_pos (by simpa using hq)]
  exact writeBar0_half hb hi s (w := 0) (by decide) _

theorem hostWrite_both (s : State) (h8 : r.addr i % 8 = 0) (v : Dword) : s.hostWrite (r.addr i) 8 v =
    State.writeWide { s with lowHeld := keptDrop s.lowHeld (r.addr i) } r i v := by
  obtain ⟨-, ha, -⟩ := r.addr_placed (b := 0) hi (by omega)
  have hat := regAt_addr r (b := 0) hi (by omega)
  rw [Nat.add_zero] at hat
  rw [State.hostWrite, if_neg (by omega), if_neg (by decide), if_neg (by simp), if_pos (by simpa using h8),
    State.writeBar0Wide, hat]
  exact if_pos (by simp [hb])
end

theorem writeHalf_low (s : State) {r : Reg} (i : Nat) (v : Word) (hr : r.wide = true) :
    s.writeHalf r i 0 v = { s with lowHeld := keptSet s.lowHeld (r.addr i) v } := by
  have hdb : r ≠ .ringDb := by rintro rfl; exact absurd hr (by decide)
  rw [State.writeHalf, if_pos rfl, if_neg hdb, if_pos hr]

theorem writeHalf_high (s : State) (r : Reg) (i : Nat) (v : Word) : s.writeHalf r i 1 v =
    State.writeWide { s with lowHeld := keptDrop s.lowHeld (r.addr i) } r i (joinW (s.lowFor r i) v) := rfl

theorem lowFor_held (s : State) (r : Reg) (i : Nat) (v : Word) :
    State.lowFor { s with lowHeld := keptSet s.lowHeld (r.addr i) v } r i = v := by
  unfold State.lowFor
  dsimp only
  rw [keptGet_keptSet]
  rfl

/-- The low word waits, the high word then brings both, and a 64-bit write needs neither. -/
theorem wide_writes {s : State} (h : s.hostUp = true) {r : Reg} {n i : Nat} (hr : r.wideTo n = true) (hi : i < n)
    (lo hi' v : Dword) :
    (∃ t : State, exec (.registerWrite (r.addr i) 4 lo) s = .next t.finish ∧ t = { s with lowHeld := t.lowHeld } ∧
      t.writeBar0 2 (r.addr i + 4) (loW hi') =
        State.writeWide { t with lowHeld := keptDrop t.lowHeld (r.addr i) } r i (joinW (loW lo) (loW hi'))) ∧
    exec (.registerWrite (r.addr i) 8 v) s =
      .next (State.writeWide { s with lowHeld := keptDrop s.lowHeld (r.addr i) } r i v).finish := by
  simp only [Reg.wideTo, Bool.and_eq_true, decide_eq_true_eq] at hr
  obtain ⟨⟨⟨hw, hb⟩, hn⟩, h0, h1, h2⟩ := hr
  have hc : i < r.count := by omega
  rw [exec_registerWrite h, exec_registerWrite h, hostWrite_low hb hc, hostWrite_both hb hc s (Reg.addr_mod_eight h0 h1 h2 i),
    writeHalf_low s i _ hw]
  refine ⟨⟨_, rfl, rfl, ?_⟩, rfl⟩
  refine (writeBar0_half hb hc _ (w := 1) (by decide) _).trans ?_
  rw [writeHalf_high, lowFor_held]

theorem wideTo_all : ∀ p ∈ [(Reg.eptMac, 8), (.eptShape, 64), (.ringBase, 160), (.fabHistBase, 1), (.timeTodNext, 1)],
    p.1.wideTo p.2 = true := by decide

/-- Both words of a register that are written in one cycle read as written. -/
theorem rg_putReg_both (s : State) (r : Reg) (i : Nat) (lo hi : Word) :
    ((s.putReg r i 0 lo).putReg r i 1 hi).rg r i 0 = s.written r i 0 lo ∧
    ((s.putReg r i 0 lo).putReg r i 1 hi).rg r i 1 = s.written r i 1 hi := by
  refine ⟨?_, ?_⟩
  · rw [rg_putReg_of_ne _ _ (by omega), rg_putReg_self]
  · rw [rg_putReg_self]
    unfold State.written
    rw [rg_putReg_of_ne _ _ (by omega)]
    rfl

theorem writeTod_todNext (s : State) (v : Dword) :
    (s.writeTod v).time.todNext = some (v.toNat % 2 ^ 48, s.time.raw.toNat) := by
  simp [State.writeTod]

theorem hostWrite_doorbell (s : State) {i : Nat} (hi : i < 160) (v : Dword) :
    s.hostWrite (Reg.ringDb.addr i) 4 v = s.writeDoorbell i (loW v) := by
  rw [hostWrite_low rfl (by exact hi), State.writeHalf, if_pos rfl, if_pos rfl]

theorem addr_ringDb (i : Nat) : Reg.ringDb.addr i = 0x80000 + 8 * i := by
  simp only [Reg.addr, Reg.info]
  omega

theorem exec_doorbell_eq (s : State) (r : Fin 144) (v : Word) :
    exec (.doorbell r v) s = .next (s.onHost fun s => s.doorbell r.val v) := rfl
theorem exec_eventDoorbell_eq (s : State) (r : Fin 16) (v : Word) :
    exec (.eventDoorbell r v) s = .next (s.onHost fun s => s.eventDoorbell (144 + r.val) v) := rfl

/-- Settles O17: BAR2 by `writeBar2` byte by byte, and the 8-byte registers by `wide_writes`. -/
theorem widthsOfHostWrites : Obligations.WidthsOfHostWrites := by
  unfold Obligations.WidthsOfHostWrites
  refine ⟨fun s x bs => ⟨fun y hy => rd_writeBar2_outside s bs hy, fun hx hn hb => writeBar2_receiveSlot bs ?_,
    fun b hx hr ht hu => ?_, fun b hx ht hl hh hu => ?_⟩, fun s hu => ⟨fun p hp i hi lo hi' v =>
    wide_writes hu (wideTo_all p hp) hi lo hi' v, fun r v => ⟨fun hd => ?_, fun hd => if_neg hd⟩, fun v => ?_,
    fun r v => ?_, fun r v => ?_⟩⟩
  · intro y hl hy
    rwa [show y / 0x800 = x / 0x800 by omega]
  · rw [exec_registerWrite hu, hostWrite_byte, byte_of_widened, writeBar2_cons_taken _ _ (takesByte_unbound hx hr ht)]
    rfl
  · rw [exec_registerWrite hu, hostWrite_byte, writeBar2_cons_kept _ _ (takesByte_slotHead ht hl hh)]
    rfl
  · have h : s.writeWide .ringBase r.val v = (s.putReg .ringBase r.val 0 (loW v)).putReg .ringBase r.val 1 (hiW v) :=
      if_pos hd
    rw [h]
    exact rg_putReg_both ..
  · have h := hostWrite_both (r := .timeTodNext) (i := 0) rfl (by decide) s (by decide) v
    exact ⟨_, exec_registerWrite hu _ _ _, (congrArg (fun t : State => t.time.todNext) h).trans rfl⟩
  · have h := hostWrite_doorbell s (i := r.val) (by omega) v
    rw [addr_ringDb] at h
    rw [exec_registerWrite hu, exec_doorbell_eq, onHost_up hu, h, State.writeDoorbell,
      if_neg (by simp [isEvent, Nat.not_le.mpr r.isLt])]
  · have h := hostWrite_doorbell s (i := 144 + r.val) (by omega) v
    rw [addr_ringDb, show 0x80000 + 8 * (144 + r.val) = 0x80480 + 8 * r.val by omega] at h
    rw [exec_registerWrite hu, exec_eventDoorbell_eq, onHost_up hu, h, State.writeDoorbell,
      if_pos (by simp [isEvent])]

end Sys2Proof.Machine
end

section
/-! Settling O57: the calendar wheel, streams and slots. -/

namespace Sys2Proof.Machine

/-! ### What a frame sent leaves alone -/

@[simp] theorem stream_modStream_self (s : State) (x : Nat) (f : Stream → Stream) :
    (s.modStream x f).stream x = f (s.stream x) := tget_tset_self _ _ _ _ rfl

theorem stream_modStream_other (s : State) {x y : Nat} (f : Stream → Stream) (h : y ≠ x) :
    (s.modStream x f).stream y = s.stream y := by
  unfold State.stream State.modStream tmod
  dsimp only
  rw [tget_tset_other _ _ _ h]

/-- A stream with one more of counter `k`. -/
def Stream.counted (q : Stream) (k : Nat) : Stream :=
  { q with cnt := tmod (fun _ => 0) q.cnt k fun c => satN (c + 1) 0xFFFFFFFF }

theorem stream_strCnt_self (s : State) (x k : Nat) : (s.strCnt x k).stream x = (s.stream x).counted k :=
  stream_modStream_self ..

theorem stream_strCnt_other (s : State) {x y : Nat} (k : Nat) (h : y ≠ x) : (s.strCnt x k).stream y = s.stream y :=
  stream_modStream_other _ _ h

@[simp] theorem counted_goodCopy (q : Stream) (k : Nat) : (q.counted k).goodCopy = q.goodCopy := rfl
@[simp] theorem counted_age (q : Stream) (k : Nat) : (q.counted k).age = q.age := rfl

theorem strCnt_sram (s : State) (x k : Nat) : (s.strCnt x k).sram = s.sram := rfl

theorem counted_self (q : Stream) (k : Nat) :
    tget (fun _ => 0) (q.counted k).cnt k = min (tget (fun _ => 0) q.cnt k + 1) 0xFFFFFFFF := tget_tset_self _ _ _ _ rfl

theorem counted_other (q : Stream) {j k : Nat} (h : j ≠ k) :
    tget (fun _ => 0) (q.counted k).cnt j = tget (fun _ => 0) q.cnt j := by
  unfold Stream.counted tmod
  dsimp only
  rw [tget_tset_other _ _ _ h]

theorem stream_congr {s t : State} (h : t.ept.streams = s.ept.streams) (x : Nat) : t.stream x = s.stream x := by
  unfold State.stream
  rw [h]

/-- The state without its lanes and what reports change. -/
def State.unlaned (s : State) : State := { s.frame with ept := { s.ept with lanes := [] } }

theorem unlaned_of_frame {s t : State} (h : s.frame = t.frame) : s.unlaned = t.unlaned :=
  congrArg (fun x : State => { x with ept := { x.ept with lanes := [] } }) h

@[simp] theorem unlaned_modLane (s : State) (l : Nat) (f : Lane → Lane) : (s.modLane l f).unlaned = s.unlaned := rfl
@[simp] theorem unlaned_modEntry (s : State) (r i : Nat) (f : Entry → Entry) : (s.modEntry r i f).unlaned = s.unlaned :=
  unlaned_of_frame (frame_modEntry ..)

/-- The end of a copy that has not left shows in its ring alone. -/
theorem frame_partDone_kept (s : State) (f : TxFrame) {p : TxPart} (h : p.left = false) :
    (s.partDone f p).frame = s.frame := by
  unfold State.partDone
  split
  · extract_lets marked
    split
    · split
      · exact (frame_complete ..).trans (frame_modEntry ..)
      · exact frame_modEntry ..
    · exact frame_modEntry ..
  · exact congrArg State.frame (if_neg (by simp [h]))
  · rfl

theorem unlaned_dropCopy (s : State) (f : TxFrame) (l k st : Nat) : (s.dropCopy f l k st).unlaned = s.unlaned :=
  (unlaned_of_frame (frame_partDone_kept _ f rfl)).trans (unlaned_modLane ..)

theorem unlaned_foldl {α : Type} (l : List α) {f : State → α → State} (h : ∀ s a, (f s a).unlaned = s.unlaned)
    (s : State) : (l.foldl f s).unlaned = s.unlaned := foldl_keeps State.unlaned l f h s

theorem unlaned_queueOrDrop (s : State) (l q : Nat) (f : TxFrame) :
    (if s.queueFull l q then s else s.putFrame l q f).unlaned = s.unlaned := by
  split <;> rfl

theorem unlaned_sendStream (s : State) (c : List Byte) (f : TxFrame) : (s.sendStream c f).unlaned = s.unlaned := by
  unfold State.sendStream
  split
  next use out _ =>
  extract_lets n entered dropped given
  have he : entered.unlaned = s.unlaned := by
    unfold entered
    split
    · exact unlaned_modEntry ..
    · rfl
  have hd : dropped.unlaned = entered.unlaned := unlaned_foldl _ (fun _ _ => unlaned_dropCopy ..) _
  have hg : given.unlaned = dropped.unlaned := by
    unfold given
    split
    · exact unlaned_of_frame (frame_partDone_kept _ f rfl)
    · rfl
  exact (((unlaned_foldl _ (fun _ _ => unlaned_queueOrDrop ..) _).trans hg).trans hd).trans he

section
variable {s t : State} (h : t.unlaned = s.unlaned)
include h

theorem streams_of_unlaned : t.ept.streams = s.ept.streams := by
  have := congrArg (fun x : State => x.ept.streams) h; exact this
theorem sram_of_unlaned : t.sram = s.sram := by have := congrArg State.sram h; exact this
end

theorem sendStream_stream (s : State) (c : List Byte) (f : TxFrame) (x : Nat) : (s.sendStream c f).stream x = s.stream x :=
  stream_congr (streams_of_unlaned (unlaned_sendStream ..)) x

/-- An event is placed on the wheel or on the overflow list. -/
theorem addEvent_lists (s : State) (t x : Nat) :
    ∃ w o, s.addEvent t x = s.onEpt fun p => { p with wheel := w, ovfl := o } := by
  unfold State.addEvent
  extract_lets e
  generalize s.slotNo + 16383 = reach
  split
  · exact ⟨s.ept.wheel, _, rfl⟩
  · exact ⟨_, s.ept.ovfl, rfl⟩

theorem addEvent_stream (s : State) (t y x : Nat) : (s.addEvent t y).stream x = s.stream x := by
  obtain ⟨w, o, h⟩ := addEvent_lists s t y
  rw [h]
  rfl

theorem addEvent_sram (s : State) (t x : Nat) : (s.addEvent t x).sram = s.sram := by
  obtain ⟨w, o, h⟩ := addEvent_lists s t x
  rw [h]
  rfl

theorem addEvent_lanes (s : State) (t x : Nat) : (s.addEvent t x).ept.lanes = s.ept.lanes := by
  obtain ⟨w, o, h⟩ := addEvent_lists s t x
  rw [h]
  rfl

/-! ### The wheel (R240 to R242) -/

theorem exec_pacedRelease (s : State) (dt : Nat) (x : Fin 4096) : exec (.pacedRelease dt x) s =
    .next ((s.pass dt).dueEvent x.val fun s => !(s.stream x.val).paced.isEmpty).finish := rfl
theorem exec_slotRelease (s : State) (dt : Nat) (x : Fin 4096) : exec (.slotRelease dt x) s =
    .next ((s.pass dt).dueEvent x.val fun s => ctxSlotTx (s.ctx x.val)).finish := rfl
theorem exec_calendarSlot (s : State) (dt : Nat) : exec (.calendarSlot dt) s = .next (s.pass dt).calendarSlot.finish := rfl
theorem exec_overflowMove (s : State) (dt : Nat) : exec (.overflowMove dt) s = .next (s.pass dt).overflowMove.finish := rfl

section
variable {s : State} {x : Nat} (p : State → Bool)

theorem dueEvent_none (h : (s.ept.wheel.find? fun e => e.ctx = x && s.slotDue e) = none) : s.dueEvent x p = s := by
  rw [State.dueEvent, h]

theorem dueEvent_idle (h : p s = false) : s.dueEvent x p = s := by
  unfold State.dueEvent
  split
  · exact if_neg (by simp [h])
  · rfl

theorem dueEvent_serves {e : WheelEvent} (h : (s.ept.wheel.find? fun e => e.ctx = x && s.slotDue e) = some e)
    (hp : p s = true) : s.dueEvent x p = s.serveWhile s.ept.wheel.length fun v =>
      v.slot * 4096 + v.ctx ≤ e.slot * 4096 + e.ctx := by
  rw [State.dueEvent, h]
  exact if_pos hp
end

theorem calendarSlot_none {s : State} (h : s.ept.wheel.find? s.slotDue = none) : s.calendarSlot = s := by
  rw [State.calendarSlot, h]

theorem calendarSlot_serves {s : State} {e : WheelEvent} (h : s.ept.wheel.find? s.slotDue = some e) :
    s.calendarSlot = s.serveWhile s.ept.wheel.length fun v => v.slot = e.slot := by
  rw [State.calendarSlot, h]

theorem calendarSlot_single {s : State} {e : WheelEvent} (h : s.ept.wheel = [e]) (hd : s.slotDue e = true) :
    s.calendarSlot = s.serveOne e := by
  have hf : s.ept.wheel.find? s.slotDue = some e := by rw [h, List.find?_cons_of_pos hd]
  have hw : s.serveWhile 1 (fun v => v.slot = e.slot) = s.serveOne e := by
    rw [State.serveWhile, hf]
    exact if_pos (by simp)
  rw [calendarSlot_serves hf, h]
  exact hw

/-- Events handled so far in the slot of an event. -/
def State.servedIn (s : State) (e : WheelEvent) : Nat := if s.ept.slotAt = e.slot then s.ept.slotUsed else 0

theorem serveOne_handles {s : State} {e : WheelEvent} (h : s.ept.wheel = [e]) (hu : s.servedIn e < 8) : s.serveOne e =
    (s.onEpt fun p => { p with wheel := [], slotAt := e.slot, slotUsed := s.servedIn e + 1 }).handleEvent e := by
  have hs : s.serveOne e = (s.onEpt fun p =>
      { p with wheel := p.wheel.erase e, slotAt := e.slot, slotUsed := s.servedIn e + 1 }).handleEvent e := if_pos hu
  rw [hs, State.onEpt, State.onEpt, h, List.erase_cons_head]

theorem serveOne_carries {s : State} {e : WheelEvent} (h : s.ept.wheel = [e]) (hu : 8 ≤ s.servedIn e) : s.serveOne e =
    (s.onEpt fun p => { p with wheel := [{ e with slot := e.slot + 1 }] }).setBit .eptWheelStatus 0 31 := by
  have hn : ¬(if s.ept.slotAt = e.slot then s.ept.slotUsed else 0) < 8 := Nat.not_lt.mpr hu
  rw [State.serveOne]
  simp only [if_neg hn]
  simp [State.onEpt, h, insertEvent, insertBy]

theorem mem_insertEvent (e v : WheelEvent) (l : List WheelEvent) : v ∈ insertEvent e l ↔ v = e ∨ v ∈ l := by
  unfold insertEvent
  induction l with
  | nil => simp [insertBy]
  | cons a l ih =>
    rw [insertBy]
    split
    · simp
    · rw [List.mem_cons, ih, List.mem_cons]
      tauto

theorem mem_foldl_insertEvent (v : WheelEvent) (es l : List WheelEvent) :
    v ∈ es.foldl (fun l e => insertEvent e l) l ↔ v ∈ l ∨ v ∈ es := by
  induction es generalizing l with
  | nil => simp
  | cons e es ih =>
    rw [List.foldl_cons, ih, mem_insertEvent, List.mem_cons]
    tauto

theorem overflowMove_stays {s : State} (h : s.slotNo / 4096 = s.ept.movedAt / 4096) : s.overflowMove = s := if_pos h

/-- No event is lost between the overflow list and the wheel. -/
theorem overflowMove_fields {s : State} (h : s.slotNo / 4096 ≠ s.ept.movedAt / 4096) : let t := s.overflowMove
    t.ept.movedAt = s.slotNo ∧
    (∀ e, e ∈ t.ept.wheel ↔ e ∈ s.ept.wheel ∨ (e ∈ s.ept.ovfl ∧ e.slot ≤ s.slotNo + 16383)) ∧
    ∀ e, e ∈ t.ept.ovfl ↔ e ∈ s.ept.ovfl ∧ s.slotNo + 16383 < e.slot := by
  rw [State.overflowMove, if_neg h]
  refine ⟨rfl, fun e => ?_, fun e => ?_⟩
  · dsimp only
    rw [mem_foldl_insertEvent, List.mem_filter, decide_eq_true_eq]
  · dsimp only
    rw [List.mem_filter, decide_eq_true_eq]

/-! ### The release of a paced frame (R242) -/

section
variable {s : State} {e : WheelEvent}

theorem handleEvent_paced (h : (s.stream e.ctx).paced ≠ []) : s.handleEvent e = s.releasePaced e.ctx e.time :=
  if_pos (by simpa using h)

theorem handleEvent_slot (h : (s.stream e.ctx).paced = []) (hc : ctxSlotTx (s.ctx e.ctx) = true)
    (hr : s.sched.run.isSome = true) : s.handleEvent e = s.releaseSlot e.ctx := by
  rw [State.handleEvent, if_neg (by simp [h]), if_pos (by simp [hc, hr])]

theorem handleEvent_idle (h : (s.stream e.ctx).paced = []) (hc : ctxSlotTx (s.ctx e.ctx) = false ∨ s.sched.run = none) :
    s.handleEvent e = s := by
  rw [State.handleEvent, if_neg (by simp [h])]
  exact if_neg (by rcases hc with hc | hc <;> simp [hc])
end

section
variable {s : State} {x a h : Nat} {f : TxFrame} {rest : List (Nat × TxFrame)} (hp : (s.stream x).paced = (h, f) :: rest)
include hp

theorem releasePaced_full (hq : ((s.lanesFor (s.ctx x)).1.any fun l => s.queueFull l (ctxQueue (s.ctx x))) = true) :
    s.releasePaced x a = s.addEvent (a + 16) x := by
  rw [State.releasePaced, hp]
  exact if_pos hq

theorem releasePaced_stream (hq : ((s.lanesFor (s.ctx x)).1.any fun l => s.queueFull l (ctxQueue (s.ctx x))) = false) :
    (s.releasePaced x a).stream x = { s.stream x with paced := rest, lastRelease := some a } := by
  have hs : ((s.modStream x fun q => { q with paced := rest, lastRelease := some a }).sendStream (s.ctx x) f).stream x =
      { s.stream x with paced := rest, lastRelease := some a } := by
    rw [sendStream_stream, stream_modStream_self]
  rw [State.releasePaced, hp]
  dsimp only
  rw [if_neg (by simp [hq])]
  split
  · exact hs
  · rw [addEvent_stream]
    exact hs
end

/-! ### The release of a slot (R244, R245) -/

/-- The slot buffer of a context cannot be sent as it stands. -/
def State.slotTorn (s : State) (x : Nat) : Bool :=
  let c := s.ctx x
  let len := s.slotLE (ctxSlot c) 4 2
  s.slotLE (ctxSlot c) 0 4 % 2 = 1 || len < 60 || 1984 < len ||
    (s.lanesFor c).1.any fun l => s.maxLen l < len + 4 + (if ctxSeqGen c then 6 else 0)

/-- It holds a copy that has not been sent. -/
def State.slotFresh (s : State) (x : Nat) : Bool :=
  !s.slotTorn x && ((s.stream x).goodCopy.isNone ||
    decide (s.slotLE (ctxSlot (s.ctx x)) 0 4 ≠ (s.stream x).goodSeq.toNat))

/-- A torn slot is counted. -/
def State.slotTold (s : State) (x : Nat) : State := if s.slotTorn x then s.strCnt x 12 else s

/-- A fresh copy is taken. -/
def State.slotTaken (s : State) (x : Nat) : State :=
  let n := ctxSlot (s.ctx x)
  let t := s.slotTold x
  if s.slotFresh x then t.modStream x fun q =>
    { q with goodCopy := some (rdBytes t.sram (slotBase n + 64) (s.slotLE n 4 2)), goodSeq := w32 (s.slotLE n 0 4), age := 0 }
  else t

/-- The stream and the slot before the copy is sent. -/
def State.slotRead (s : State) (x : Nat) : State :=
  (s.slotTaken x).slotPut (ctxSlot (s.ctx x)) 8 (leBytes 4 (s.slotTaken x).sched.rowCnt.toNat)

/-- What is sent of the copy `d`. -/
def State.slotSend (s : State) (x : Nat) (c : List Byte) (fresh idle : Bool) (d : List Byte) : State :=
  let s := if fresh then s else s.modStream x fun q => { q with age := min (q.age + 1) 255 }
  let a := (s.stream x).age
  let off := lef c 34 2
  let d := if off ≠ 0 && off < d.length then putBytes d off [BitVec.ofNat 8 a] else d
  if idle then (s.sendStream c { octets := d, src := .slot x }).strCnt x 13
  else
    let s := if fresh then s else s.strCnt x 11
    let p := s.acceptStream x c { octets := d, src := .slot x }
    (p.2.slotPut (ctxSlot c) 18 (leBytes 2 a)).sendStream c p.1

theorem releaseSlot_eq (s : State) (x : Nat) : s.releaseSlot x =
    match ((s.slotRead x).stream x).goodCopy with
    | none => (s.slotRead x).strCnt x 13
    | some d => (s.slotRead x).slotSend x (s.ctx x) (s.slotFresh x) (s.lanesFor (s.ctx x)).1.isEmpty d := rfl

theorem leNat_leBytes (n v : Nat) (h : v < 256 ^ n) : leNat (leBytes n v) = v := by
  induction n generalizing v with
  | zero => rw [pow_zero] at h; exact (Nat.lt_one_iff.mp h).symm
  | succ n ih =>
    rw [pow_succ, Nat.mul_comm] at h
    rw [leBytes, leNat, ih _ (Nat.div_lt_of_lt_mul h), BitVec.toNat_ofNat]
    omega

theorem slotLE_congr {s t : State} (h : t.sram = s.sram) (n o k : Nat) : t.slotLE n o k = s.slotLE n o k := by
  unfold State.slotLE
  rw [h]

theorem slotLE_slotPut_self (s : State) (n o : Nat) {k v : Nat} (h : v < 256 ^ k) :
    (s.slotPut n o (leBytes k v)).slotLE n o k = v := by
  have hb := rdBytes_wrBytes s.sram (slotBase n + o) (leBytes k v)
  rw [length_leBytes] at hb
  exact (congrArg leNat hb).trans (leNat_leBytes k v h)

/-- A field before the bytes written is kept. -/
theorem slotLE_slotPut_before (s : State) (n : Nat) {o p k : Nat} (b : List Byte) (h : o + k ≤ p) :
    (s.slotPut n p b).slotLE n o k = s.slotLE n o k := by
  refine congrArg leNat (rdBytes_congr fun x hl hu => ?_)
  exact rd_wrBytes_outside _ (.inl (by omega))

/-- Giving a frame to a stream moves its counters and its sequence number. -/
theorem acceptStream_keeps (s : State) (x : Nat) (c : List Byte) (f : TxFrame) : let t := (s.acceptStream x c f).2
    t.sram = s.sram ∧ (t.stream x).goodCopy = (s.stream x).goodCopy ∧ (t.stream x).age = (s.stream x).age := by
  unfold State.acceptStream
  extract_lets g counted p t
  have hc : counted.stream x = (s.stream x).counted 0 := stream_strCnt_self ..
  unfold t
  split
  · refine ⟨rfl, ?_, ?_⟩ <;> (rw [stream_modStream_self, hc]; rfl)
  · refine ⟨rfl, ?_, ?_⟩ <;> (rw [hc]; rfl)

/-- A copy sent keeps the slot's row count and the good copy, and one sent again has aged. -/
theorem slotSend_keeps (s : State) (x : Nat) (c : List Byte) (fresh idle : Bool) (d : List Byte) :
    let t := s.slotSend x c fresh idle d
    t.slotLE (ctxSlot c) 8 4 = s.slotLE (ctxSlot c) 8 4 ∧ (t.stream x).goodCopy = (s.stream x).goodCopy ∧
    (t.stream x).age = if fresh then (s.stream x).age else min ((s.stream x).age + 1) 255 := by
  unfold State.slotSend
  extract_lets aged a off d' told p t
  have haged : aged.sram = s.sram ∧ (aged.stream x).goodCopy = (s.stream x).goodCopy ∧
      (aged.stream x).age = if fresh then (s.stream x).age else min ((s.stream x).age + 1) 255 := by
    unfold aged
    split
    · exact ⟨rfl, rfl, rfl⟩
    · rw [stream_modStream_self]
      exact ⟨rfl, rfl, rfl⟩
  obtain ⟨hm, hg, ha⟩ := haged
  clear_value aged
  rw [← hg, ← ha, ← slotLE_congr hm]
  unfold t
  split
  · rw [stream_strCnt_self, sendStream_stream]
    exact ⟨slotLE_congr (sram_of_unlaned (unlaned_sendStream ..)) .., rfl, rfl⟩
  · have htold : told.sram = aged.sram ∧ (told.stream x).goodCopy = (aged.stream x).goodCopy ∧
        (told.stream x).age = (aged.stream x).age := by
      unfold told
      split
      · exact ⟨rfl, rfl, rfl⟩
      · rw [stream_strCnt_self]
        exact ⟨rfl, rfl, rfl⟩
    obtain ⟨htm, htg, hta⟩ := htold
    obtain ⟨hpm, hpg, hpa⟩ := acceptStream_keeps told x c { octets := d', src := .slot x }
    rw [sendStream_stream]
    refine ⟨?_, hpg.trans htg, hpa.trans hta⟩
    rw [slotLE_congr (sram_of_unlaned (unlaned_sendStream ..)), slotLE_slotPut_before _ _ _ (by decide)]
    exact slotLE_congr (hpm.trans htm) ..

section
variable {s : State} {x : Nat}

theorem slotTold_keeps (s : State) (x : Nat) : (s.slotTold x).sram = s.sram ∧ (s.slotTold x).sched = s.sched ∧
    (s.slotTold x).ept.lanes = s.ept.lanes ∧ ((s.slotTold x).stream x).goodCopy = (s.stream x).goodCopy ∧
    ((s.slotTold x).stream x).age = (s.stream x).age := by
  unfold State.slotTold
  split
  · rw [stream_strCnt_self]
    exact ⟨rfl, rfl, rfl, rfl, rfl⟩
  · exact ⟨rfl, rfl, rfl, rfl, rfl⟩

theorem slotTaken_stale (h : s.slotFresh x = false) : s.slotTaken x = s.slotTold x := if_neg (by simp [h])

theorem slotTaken_sched (s : State) (x : Nat) : (s.slotTaken x).sched = s.sched := by
  obtain ⟨-, hs, -⟩ := slotTold_keeps s x
  unfold State.slotTaken
  extract_lets n t
  split
  · rw [State.modStream_sched]
    exact hs
  · exact hs

theorem slotTaken_fresh (h : s.slotFresh x = true) : ((s.slotTaken x).stream x).goodCopy =
    some (rdBytes s.sram (slotBase (ctxSlot (s.ctx x)) + 64) (s.slotLE (ctxSlot (s.ctx x)) 4 2)) ∧
    ((s.slotTaken x).stream x).age = 0 := by
  obtain ⟨hm, -⟩ := slotTold_keeps s x
  unfold State.slotTaken
  dsimp only
  rw [if_pos h, stream_modStream_self, hm]
  exact ⟨rfl, rfl⟩

theorem slotRead_stream (s : State) (x y : Nat) : (s.slotRead x).stream y = (s.slotTaken x).stream y := rfl

theorem slotRead_row (s : State) (x : Nat) : (s.slotRead x).slotLE (ctxSlot (s.ctx x)) 8 4 = s.sched.rowCnt.toNat := by
  rw [State.slotRead, slotLE_slotPut_self _ _ _ (s.slotTaken x).sched.rowCnt.isLt, slotTaken_sched]

theorem releaseSlot_none (h : ((s.slotRead x).stream x).goodCopy = none) :
    s.releaseSlot x = (s.slotRead x).strCnt x 13 := by rw [releaseSlot_eq, h]

theorem releaseSlot_some {d : List Byte} (h : ((s.slotRead x).stream x).goodCopy = some d) : s.releaseSlot x =
    (s.slotRead x).slotSend x (s.ctx x) (s.slotFresh x) (s.lanesFor (s.ctx x)).1.isEmpty d := by rw [releaseSlot_eq, h]

/-- The release writes the row count and keeps what the slot was read as; what is sent again has aged. -/
theorem releaseSlot_reads (s : State) (x : Nat) :
    (s.releaseSlot x).slotLE (ctxSlot (s.ctx x)) 8 4 = s.sched.rowCnt.toNat ∧
    ((s.releaseSlot x).stream x).goodCopy = ((s.slotTaken x).stream x).goodCopy ∧
    (s.slotFresh x = true → ((s.releaseSlot x).stream x).age = ((s.slotTaken x).stream x).age) ∧
    (s.slotFresh x = false → ((s.slotTaken x).stream x).goodCopy ≠ none →
      ((s.releaseSlot x).stream x).age = min (((s.slotTaken x).stream x).age + 1) 255) := by
  have hrow := slotRead_row s x
  cases hg : ((s.slotRead x).stream x).goodCopy with
  | none =>
    rw [releaseSlot_none hg, stream_strCnt_self]
    rw [slotRead_stream] at hg ⊢
    exact ⟨(slotLE_congr (strCnt_sram ..) ..).trans hrow, counted_goodCopy .., fun _ => counted_age .., fun _ h => absurd hg h⟩
  | some d =>
    rw [releaseSlot_some hg]
    obtain ⟨hl, hc, ha⟩ := slotSend_keeps (s.slotRead x) x (s.ctx x) (s.slotFresh x)
      (s.lanesFor (s.ctx x)).1.isEmpty d
    rw [slotRead_stream] at hc ha
    exact ⟨hl.trans hrow, hc, fun h => ha.trans (if_pos h), fun h _ => ha.trans (if_neg (by simp [h]))⟩

/-- A torn slot of which nothing good was ever read is counted twice. -/
theorem releaseSlot_torn (ht : s.slotTorn x = true) (hg : (s.stream x).goodCopy = none) :
    (s.releaseSlot x).ept.lanes = s.ept.lanes ∧
    (s.releaseSlot x).stream x = ((s.stream x).counted 12).counted 13 := by
  have hf : s.slotFresh x = false := by simp [State.slotFresh, ht]
  obtain ⟨-, -, hl, hc, -⟩ := slotTold_keeps s x
  have hn : ((s.slotRead x).stream x).goodCopy = none := by rw [slotRead_stream, slotTaken_stale hf, hc, hg]
  rw [releaseSlot_none hn, stream_strCnt_self, slotRead_stream, slotTaken_stale hf]
  refine ⟨?_, by rw [State.slotTold, if_pos ht, stream_strCnt_self]⟩
  rw [← hl, ← slotTaken_stale hf]
  rfl
end

/-- What torn and fresh mean of a slot (R244, R245). -/
theorem slotTorn_iff (s : State) (x : Nat) : let n := ctxSlot (s.ctx x)
    s.slotTorn x = true ↔ s.slotLE n 0 4 % 2 = 1 ∨ s.slotLE n 4 2 < 60 ∨ 1984 < s.slotLE n 4 2 ∨
      ∃ l ∈ (s.lanesFor (s.ctx x)).1, s.maxLen l < s.slotLE n 4 2 + 4 + (if ctxSeqGen (s.ctx x) then 6 else 0) := by
  simp only [State.slotTorn, Bool.or_eq_true, decide_eq_true_eq, List.any_eq_true, or_assoc]

theorem slotFresh_iff (s : State) (x : Nat) : s.slotFresh x = true ↔ ¬ s.slotTorn x = true ∧
    ((s.stream x).goodCopy = none ∨ s.slotLE (ctxSlot (s.ctx x)) 0 4 ≠ (s.stream x).goodSeq.toNat) := by
  simp [State.slotFresh]

/-! ### Policing and recovery (R236, R243) -/

theorem exec_policeCredit (s : State) (dt : Nat) (x : Fin 4096) :
    exec (.policeCredit dt x) s = .next ((s.pass dt).policeCredit x.val).finish := rfl
theorem exec_recoveryReset (s : State) (dt : Nat) (x : Fin 4096) :
    exec (.recoveryReset dt x) s = .next ((s.pass dt).recoveryReset x.val).finish := rfl

theorem policeCredit_off {s : State} {x : Nat}
    (h : ctxValid (s.ctx x) = false ∨ ctxPolEn (s.ctx x) = false ∨ (s.stream x).creditAt = none) : s.policeCredit x = s := by
  refine if_neg ?_
  rcases h with h | h | h
  · simp [h]
  · simp [h]
  · simp [h]

theorem policeCredit_early {s : State} {x a : Nat} (h : (s.stream x).creditAt = some a) (ha : s.now * 1000 < a) :
    s.policeCredit x = s := if_neg (by simp [h, ha])

theorem policeCredit_adds {s : State} {x a : Nat} (hv : ctxValid (s.ctx x) = true) (hp : ctxPolEn (s.ctx x) = true)
    (h : (s.stream x).creditAt = some a) (ha : a ≤ s.now * 1000) : s.policeCredit x = s.modStream x fun q =>
      { q with credits := min (q.credits + 1) (ctxPolBurst (s.ctx x)), creditAt := q.creditAt.map (· + polGap (s.ctx x)) } :=
  if_pos (by simp [hv, hp, h, ha])

/-- A recovery that has been silent begins anew. -/
def State.recoverAnew (s : State) (x : Nat) : State := s.modStream x fun q => { q with rcvyTimer := none, recov := {} }

theorem recoverAnew_counted (s : State) (x : Nat) : ((s.recoverAnew x).strCnt x 8).stream x =
    { s.stream x with rcvyTimer := none, recov := {} }.counted 8 := by
  rw [stream_strCnt_self, State.recoverAnew, stream_modStream_self]

theorem recoverAnew_other (s : State) {x y : Nat} (h : y ≠ x) : ((s.recoverAnew x).strCnt x 8).stream y = s.stream y := by
  rw [stream_strCnt_other _ _ h, State.recoverAnew, stream_modStream_other _ _ h]

/-! ### Contexts (R232 to R234) -/

theorem exec_streamWrite (s : State) (r : Fin 16) : exec (.streamWrite r) s = .next (s.streamWrite r.val).finish := rfl
theorem exec_streamRead (s : State) (r : Fin 16) : exec (.streamRead r) s = .next (s.streamRead r.val).finish := rfl

/-- The stream of a context changes so that what it knows of its sequence no longer holds. -/
def ctxRenewed (o c : List Byte) : Bool :=
  byteAt o 1 % 16 ≠ byteAt c 1 % 16 || (o.drop 5).take 9 ≠ (c.drop 5).take 9 || byteAt o 4 ≠ byteAt c 4 ||
    byteAt o 3 ≠ byteAt c 3

/-- What a write of the context does outside the wheel. -/
theorem putCtx_fields (s : State) (x : Nat) (c : List Byte) : let t := s.putCtx x c
    let new := ctxRenewed (s.ctx x) c
    t.sram = wrBytes s.sram (ctxBase x) c ∧ t.ept.lanes = s.ept.lanes ∧ (t.stream x).cnt = (s.stream x).cnt ∧
    (t.stream x).paced = (s.stream x).paced ∧ (t.stream x).gen = (if new then 0#16 else (s.stream x).gen) ∧
    (t.stream x).recov = (if new then {} else (s.stream x).recov) ∧
    (t.stream x).credits = if new then ctxPolBurst c else min (s.stream x).credits (ctxPolBurst c) := by
  unfold State.putCtx
  extract_lets o fresh slot stored moved keep _ kept off t new
  have hs : moved.stream x = _ := stream_modStream_self stored x _
  have hk : kept.sram = wrBytes s.sram (ctxBase x) c ∧ kept.ept.lanes = s.ept.lanes ∧ kept.stream x = moved.stream x :=
    ⟨rfl, rfl, rfl⟩
  have ht : t.sram = kept.sram ∧ t.ept.lanes = kept.ept.lanes ∧ t.stream x = kept.stream x := by
    unfold t
    split
    · extract_lets n
      split
      · exact ⟨addEvent_sram .., addEvent_lanes .., addEvent_stream ..⟩
      · exact ⟨rfl, rfl, rfl⟩
    · exact ⟨rfl, rfl, rfl⟩
  obtain ⟨hm, hl, hst⟩ := ht
  obtain ⟨hkm, hkl, hkst⟩ := hk
  rw [hm, hl, hst, hkm, hkl, hkst, hs]
  exact ⟨rfl, rfl, rfl, rfl, rfl, rfl, rfl⟩

section
variable {s : State} {r : Nat} {e : Entry}

theorem streamWrite_none (h : s.readyHead r 0x41 = none) : s.streamWrite r = s := by rw [State.streamWrite, h]

theorem streamWrite_refused (h : s.readyHead r 0x41 = some e)
    (hs : s.ctxStatus (lef e.bytes 24 2) (rdBytes e.payload 0 64) ≠ 0) : s.streamWrite r =
      s.finishCmd r e.idx (s.ctxStatus (lef e.bytes 24 2) (rdBytes e.payload 0 64)) false := by
  rw [State.streamWrite, h]
  exact if_neg hs

theorem streamWrite_stores (h : s.readyHead r 0x41 = some e)
    (hs : s.ctxStatus (lef e.bytes 24 2) (rdBytes e.payload 0 64) = 0) : s.streamWrite r =
      (s.putCtx (lef e.bytes 24 2) (rdBytes e.payload 0 64)).finishCmd r e.idx 0 true := by
  rw [State.streamWrite, h]
  exact if_pos hs

theorem streamRead_none (h : s.readyHead r 0x42 = none) : s.streamRead r = s := by rw [State.streamRead, h]

theorem streamRead_reads (h : s.readyHead r 0x42 = some e) : s.streamRead r =
    State.finishCmd { s with free := s.free + 192 } r e.idx 0 true [] 0
      (some (lef e.bytes 8 8, s.ctx (lef e.bytes 24 2) ++ freeBytes s.free 192)) := by
  rw [State.streamRead, h]
end

theorem length_freeBytes (k n : Nat) : (freeBytes k n).length = n := by
  induction n generalizing k with
  | zero => rfl
  | succ n ih => rw [freeBytes, List.length_cons, ih]

theorem length_ctx (s : State) (x : Nat) : (s.ctx x).length = 64 := length_rdBytes ..

theorem ctx_of_sram {s : State} {m : Memory} {x : Nat} {c : List Byte} (h : s.sram = wrBytes m (ctxBase x) c)
    (hl : c.length = 64) : s.ctx x = c := by
  unfold State.ctx
  rw [h, ← hl]
  exact rdBytes_wrBytes ..

theorem ctxRenewed_iff (o c : List Byte) : ctxRenewed o c = true ↔ byteAt o 1 % 16 ≠ byteAt c 1 % 16 ∨
    (o.drop 5).take 9 ≠ (c.drop 5).take 9 ∨ byteAt o 4 ≠ byteAt c 4 ∨ byteAt o 3 ≠ byteAt c 3 := by
  simp only [ctxRenewed, Bool.or_eq_true, decide_eq_true_eq, or_assoc]

/-- Settles O57: the wheel by `serveWhile`, the slots by `releaseSlot_reads` and `releaseSlot_torn`, and the contexts by
`putCtx_fields`. -/
theorem wheelStreamsAndSlots : Obligations.WheelStreamsAndSlots := by
  unfold Obligations.WheelStreamsAndSlots
  refine ⟨fun s u dt x hu => ?due, fun s u dt hu => ?calendar, fun s e => ⟨fun h f rest hp => ?paced,
    fun hp hc hr => handleEvent_slot hp hc hr, fun hp hc => handleEvent_idle hp hc⟩, fun s x => ?slot,
    fun s u dt hu => ?overflow, fun s u dt x hu => ?police, fun s u dt x hu => ?recovery,
    fun s r h => by rw [exec_streamWrite, streamWrite_none h], fun s r e h => ?write,
    fun s r h => by rw [exec_streamRead, streamRead_none h], fun s r e h => ?read⟩
  case due =>
    intro due
    rw [exec_pacedRelease, exec_slotRelease, ← hu]
    refine ⟨fun h => ⟨by rw [dueEvent_none _ h], by rw [dueEvent_none _ h]⟩,
      fun h => by rw [dueEvent_idle _ (by simp [h])], fun h => by rw [dueEvent_idle _ h], fun e he => ?_⟩
    exact ⟨fun h => by rw [dueEvent_serves _ he (by simpa using h)], fun h => by rw [dueEvent_serves _ he h]⟩
  case calendar =>
    rw [exec_calendarSlot, ← hu]
    refine ⟨fun h => by rw [calendarSlot_none h], fun e h => by rw [calendarSlot_serves h], fun e h hd => ?_⟩
    rw [calendarSlot_single h hd]
    exact ⟨fun hn => by rw [serveOne_handles h hn]; rfl, fun hn => by rw [serveOne_carries h hn]⟩
  case paced =>
    have hne : (s.stream e.ctx).paced ≠ [] := by simp [hp]
    intro c full
    rw [handleEvent_paced hne]
    refine ⟨fun hf => releasePaced_full hp hf, fun hf => ?_⟩
    rw [releasePaced_stream hp hf]
    exact ⟨rfl, rfl⟩
  case slot =>
    intro c n q len torn fresh t
    have htorn : s.slotTorn x = true ↔ torn := slotTorn_iff s x
    have hfresh : s.slotFresh x = true ↔ fresh := by
      rw [slotFresh_iff, htorn]
    obtain ⟨hrow, hcopy, hnew, hold⟩ := releaseSlot_reads s x
    obtain ⟨-, -, -, hgood, hage⟩ := slotTold_keeps s x
    refine ⟨hrow, fun h => ?_, fun d h hd => ?_, fun h hd => ?_⟩
    · obtain ⟨hc, ha⟩ := slotTaken_fresh (hfresh.mpr h)
      exact ⟨hcopy.trans hc, (hnew (hfresh.mpr h)).trans ha⟩
    · have hf : s.slotFresh x = false := Bool.eq_false_iff.mpr (mt hfresh.mp h)
      rw [slotTaken_stale hf, hgood] at hold hcopy
      exact ⟨hcopy.trans hd, (hold hf (by rw [hd]; exact Option.some_ne_none d)).trans (by rw [hage])⟩
    · obtain ⟨hl, hst⟩ := releaseSlot_torn (htorn.mpr h) hd
      have h12 : tget (fun _ => 0) (t.stream x).cnt 12 = min (tget (fun _ => 0) q.cnt 12 + 1) 0xFFFFFFFF := by
        rw [hst, counted_other _ (by decide), counted_self]
      have h13 : tget (fun _ => 0) (t.stream x).cnt 13 = min (tget (fun _ => 0) q.cnt 13 + 1) 0xFFFFFFFF := by
        rw [hst, counted_self, counted_other _ (by decide)]
      exact ⟨hl, h12, h13⟩
  case overflow =>
    rw [exec_overflowMove, ← hu]
    exact ⟨fun h => by rw [overflowMove_stays h], fun h => ⟨_, rfl, overflowMove_fields h⟩⟩
  case police =>
    intro c q
    rw [exec_policeCredit, ← hu]
    refine ⟨fun h => by rw [policeCredit_off h], fun a h ha => by rw [policeCredit_early h ha], fun a hv hp h ha => ?_⟩
    rw [policeCredit_adds hv hp h ha]
    refine ⟨_, rfl, ?_⟩
    rw [stream_modStream_self]
    exact ⟨rfl, by rw [h]; rfl, fun y hy => stream_modStream_other _ _ hy⟩
  case recovery =>
    intro q go
    rw [exec_recoveryReset, ← hu]
    refine ⟨fun h => ?_, fun h => ?_⟩
    · have hr : u.recoveryReset x.val = u := if_neg (Bool.eq_false_iff.mp h)
      rw [hr]
    · have hr : u.recoveryReset x.val = (u.recoverAnew x.val).strCnt x.val 8 := if_pos h
      rw [hr]
      refine ⟨_, rfl, ?_⟩
      rw [recoverAnew_counted]
      exact ⟨rfl, rfl, counted_self _ 8, fun y hy => recoverAnew_other u hy⟩
  case write =>
    intro x o c new
    rw [exec_streamWrite]
    refine ⟨fun hs => by rw [streamWrite_refused h hs], fun hs => ?_⟩
    obtain ⟨hm, hl, hcnt, hpaced, hgen, hrec, hcr⟩ := putCtx_fields s x c
    have hnew : ctxRenewed o c = true ↔ new := ctxRenewed_iff o c
    have hlen : c.length = 64 := length_rdBytes ..
    rw [streamWrite_stores h hs]
    refine ⟨_, rfl, ctx_of_sram hm hlen, fun y hy => ?_, hl, hcnt, hpaced, fun hn => ?_, fun hn => ?_⟩
    · rw [hm, rd_wrBytes_outside _ (by rw [hlen]; exact hy)]
    · rw [if_pos (hnew.mpr hn)] at hgen hrec hcr
      exact ⟨hgen, hrec, hcr⟩
    · rw [if_neg (mt hnew.mp hn)] at hgen hrec hcr
      exact ⟨hgen, hrec, hcr⟩
  case read =>
    refine ⟨_, ?_, ?_, by rw [exec_streamRead, streamRead_reads h]⟩
    · rw [List.length_append, length_ctx, length_freeBytes]
    · rw [← length_ctx s (lef e.bytes 24 2), List.take_left]

end Sys2Proof.Machine
end

section
/-! Settling O55: frames sent and frames received. -/

namespace Sys2Proof.Machine

/-! ### What the module has sent only grows -/

/-- `t` has sent what `s` has, and perhaps more. -/
def State.Sends (s t : State) : Prop := s.out <+: t.out

namespace State.Sends

variable {s t u : State}

theorem of_out (h : t.out = s.out) : s.Sends t := by
  unfold State.Sends
  rw [h]

theorem refl (s : State) : s.Sends s := of_out rfl
theorem trans (h : s.Sends t) (g : t.Sends u) : s.Sends u := List.IsPrefix.trans h g

theorem emit (s : State) (o : Output) : s.Sends (s.emit o) := List.prefix_append ..
theorem modRing (s : State) (r : Nat) (f : Ring → Ring) : s.Sends (s.modRing r f) := of_out rfl
theorem modEntry (s : State) (r i : Nat) (f : Entry → Entry) : s.Sends (s.modEntry r i f) := of_out rfl
theorem acceptHead (s : State) (r i : Nat) (f : Entry → Entry) : s.Sends (s.acceptHead r i f) := of_out rfl
theorem fire (s : State) (n d : Nat) (o : Option Nat) : s.Sends (s.fire n d o) := of_out rfl
theorem noteRefusal (s : State) (k : Nat) : s.Sends (s.noteRefusal k) := of_out rfl

theorem sendMsix (s : State) (v : Nat) : s.Sends (s.sendMsix v) := by
  unfold State.sendMsix
  split
  · exact of_out rfl
  · exact emit ..

theorem ringMsg (s : State) (r : Nat) : s.Sends (s.ringMsg r) := by
  unfold State.ringMsg
  dsimp only
  split
  · split
    · exact modRing ..
    · split
      · exact sendMsix ..
      · exact (sendMsix ..).trans (modRing ..)
  · exact refl s

theorem writeEvent (s : State) (r : Nat) (e : EventRec) : s.Sends (s.writeEvent r e) :=
  (((emit ..).trans (emit ..)).trans (modRing ..)).trans (ringMsg ..)

theorem dropEvent (s : State) (r : Nat) (q : Bool) : s.Sends (s.dropEvent r q) := by
  unfold State.dropEvent
  dsimp only
  split
  · exact modRing ..
  · exact (modRing ..).trans (fire ..)

theorem event (s : State) (c b a : Nat) (d : List Byte) (x : Option Nat) (q : Bool) : s.Sends (s.event c b a d x q) := by
  unfold State.event
  dsimp only
  split
  · split
    · exact (modRing ..).trans (writeEvent ..)
    · split
      · exact (modRing ..).trans (modRing ..)
      · exact ((modRing ..).trans (modRing ..)).trans (dropEvent ..)
  · exact dropEvent ..

theorem writeAudit (s : State) (e : AuditEntry) (ok : Bool) : s.Sends (s.writeAudit e ok) := by
  unfold State.writeAudit State.appendAudit
  dsimp only
  split <;> exact of_out rfl

theorem holdAudit (s : State) (e : AuditEntry) : s.Sends (s.holdAudit e) := by
  unfold State.holdAudit
  split <;> exact of_out rfl

theorem setResult (s : State) (q : Nat) (b : Byte) : s.Sends (s.setResult q b) := by
  unfold State.setResult
  split
  · exact of_out rfl
  · exact refl s

theorem useCounter (s : State) (k : Nat) (c : Dword) : s.Sends (s.useCounter k c) := by
  unfold State.useCounter
  split <;> exact of_out rfl

theorem credCheck (s : State) (b m : List Byte) (may : Role → Bool) : s.Sends (s.credCheck b m may).2 := by
  unfold State.credCheck
  dsimp only
  split
  · exact refl s
  · split
    · exact refl s
    · split
      · exact refl s
      · split <;> exact useCounter ..

theorem startHead (s : State) (r : Nat) (e : Entry) (ok : Bool) : s.Sends (s.startHead r e ok) := by
  unfold State.startHead
  dsimp only
  split
  · exact acceptHead ..
  · split
    · exact (modEntry ..).trans (modRing ..)
    · split
      · exact (holdAudit ..).trans (modEntry ..)
      · generalize hp : (if e.auth.isEmpty = true then ((⟨5, none⟩ : Cred), s) else s.credCheck e.auth _ _) = p
        have hcred : s.Sends p.2 := by
          rw [← hp]
          split
          · exact refl s
          · exact credCheck ..
        have haudit := hcred.trans (writeAudit p.2 (cmdAudit r e p.1.status) ok)
        generalize (if p.1.status = 0 && !ok then 0x50 else p.1.status) = st
        split
        · exact haudit.trans (acceptHead ..)
        · exact ((haudit.trans (noteRefusal ..)).trans (event ..)).trans (modEntry ..)

/-- A completion sends its data before its own writes. -/
theorem writeCompletion_data (s : State) (r : Nat) (e : Entry) (c : Completion) :
    State.Sends (match c.pre with | some (a, d) => s.emit (.hostWrite a d) | none => s) (s.writeCompletion r e c) := by
  unfold State.writeCompletion
  extract_lets data a cw sp w body control result
  have hbody : data.Sends body := by
    unfold body
    split
    · exact refl _
    · exact emit ..
  have hresult : control.Sends result := by
    unfold result
    split
    · exact setResult ..
    · exact refl _
  exact (((hbody.trans (emit ..)).trans hresult).trans (modRing ..)).trans (ringMsg ..)

theorem writeCompletion (s : State) (r : Nat) (e : Entry) (c : Completion) : s.Sends (s.writeCompletion r e c) := by
  refine trans ?_ (writeCompletion_data s r e c)
  split
  · exact emit ..
  · exact refl s

theorem settle (n : Nat) (s : State) (r : Nat) (ok : Bool) : s.Sends (State.settle n s r ok) := by
  induction n generalizing s with
  | zero => exact refl s
  | succ n ih =>
    unfold State.settle
    split
    · exact refl s
    · split
      · exact refl s
      · split
        · exact ((writeCompletion ..).trans (modRing ..)).trans (ih _)
        · split
          · exact (startHead ..).trans (ih _)
          · exact refl s

theorem complete (s : State) (r i : Nat) (c : Completion) : s.Sends (s.complete r i c) :=
  (modEntry ..).trans (settle ..)

theorem partDone (s : State) (f : TxFrame) (p : TxPart) : s.Sends (s.partDone f p) := by
  unfold State.partDone
  split
  · dsimp only
    split
    · split
      · exact (modEntry ..).trans (complete ..)
      · exact modEntry ..
    · exact modEntry ..
  · dsimp only
    split
    · exact of_out rfl
    · exact refl s
  · exact refl s

end State.Sends

/-! ### Completion of a ring's only entry (R262, R263) -/

@[simp] theorem ring_modRing_self (s : State) (r : Nat) (f : Ring → Ring) : (s.modRing r f).ring r = f (s.ring r) :=
  tget_tset_self _ _ _ _ rfl

theorem entries_modEntry_single {s : State} {r : Nat} {e : Entry} (h : (s.ring r).entries = [e]) (f : Entry → Entry) :
    ((s.modEntry r e.idx f).ring r).entries = [f e] := by
  rw [State.modEntry, ring_modRing_self, h]
  simp

theorem settle_empty {s : State} {r : Nat} (h : (s.ring r).entries = []) (n : Nat) (ok : Bool) : State.settle n s r ok = s := by
  cases n with
  | zero => rfl
  | succ n =>
    rw [State.settle, h]
    simp

/-- An entry alone in its ring and done leaves it with its completion. -/
theorem drain_single {s : State} {r : Nat} {e : Entry} {c : Completion} (h : (s.ring r).entries = [e]) (hd : e.done = some c)
    (hb : s.bmeUp = true) :
    s.drain r = (s.writeCompletion r e c).modRing r fun g => { g with entries := [], supWait := none } := by
  have hs : State.settle 3 s r true = State.settle 2
      ((s.writeCompletion r e c).modRing r fun g => { g with entries := [], supWait := none }) r true := by
    rw [State.settle, if_neg (by simp [hb]), h]
    dsimp only
    rw [hd]
  rw [State.drain, h]
  exact hs.trans (settle_empty (by rw [ring_modRing_self]) 2 true)

/-- The completion as the ring's state makes it. -/
def Ring.completionOf (g : Ring) (r i : Nat) (c : Completion) : Completion :=
  if g.state = .resetting then c.atReset (isCommand r && g.entries.any fun e => e.idx = i && e.state = .begun) else c

/-- An entry is done with a completion, unless it is done already. -/
def Entry.doneWith (e : Entry) (c : Completion) : Entry := if e.done.isSome then e else { e with done := some c }

theorem doneWith_done {e : Entry} (h : e.done = none) (c : Completion) : (e.doneWith c).done = some c := by
  rw [Entry.doneWith, if_neg (by simp [h])]

theorem complete_eq (s : State) (r i : Nat) (c : Completion) :
    s.complete r i c = (s.modEntry r i fun e => e.doneWith ((s.ring r).completionOf r i c)).drain r := rfl

theorem complete_single {s : State} {r : Nat} {e : Entry} (h : (s.ring r).entries = [e]) (hd : e.done = none)
    (hb : s.bmeUp = true) (c : Completion) : ∃ (d : Completion) (t : State) (v : Entry), d.pre = c.pre ∧ t.out = s.out ∧
      s.complete r e.idx c = (t.writeCompletion r v d).modRing r fun g => { g with entries := [], supWait := none } := by
  have hc : ((s.ring r).completionOf r e.idx c).pre = c.pre := by
    unfold Ring.completionOf
    split <;> rfl
  have hm := entries_modEntry_single h fun v => v.doneWith ((s.ring r).completionOf r e.idx c)
  rw [complete_eq, drain_single hm (doneWith_done hd _) hb]
  exact ⟨_, _, _, hc, State.modRing_out .., rfl⟩

theorem complete_leaves {s : State} {r : Nat} {e : Entry} (h : (s.ring r).entries = [e]) (hd : e.done = none)
    (hb : s.bmeUp = true) (c : Completion) : ((s.complete r e.idx c).ring r).entries = [] := by
  obtain ⟨d, t, v, -, -, hs⟩ := complete_single h hd hb c
  rw [hs, ring_modRing_self]

/-- Data of a completion is sent before the completion itself. -/
theorem complete_data {s : State} {r a : Nat} {e : Entry} {c : Completion} {b : List Byte} (h : (s.ring r).entries = [e])
    (hd : e.done = none) (hb : s.bmeUp = true) (hp : c.pre = some (a, b)) :
    ∃ m, (s.complete r e.idx c).out = s.out ++ [.hostWrite a b] ++ m := by
  obtain ⟨d, t, v, hdp, ho, hs⟩ := complete_single h hd hb c
  obtain ⟨m, hm⟩ := State.Sends.writeCompletion_data t r v d
  rw [hdp, hp, State.emit_out, ho] at hm
  exact ⟨m, by rw [hs, State.modRing_out, ← hm]⟩


/-! ### Transmit entries (R222, R288, R289) -/

theorem putFrame_enters (s : State) (l q : Nat) (f : TxFrame) :
    ∃ a, (s.putFrame l q f).queue l q = s.queue l q ++ [{ f with headAt := a }] := ⟨_, putFrame_queue ..⟩

theorem exec_transmitEntry (s : State) (dt : Nat) (k : Fin 64) :
    exec (.transmitEntry dt k) s = .next ((s.pass dt).transmitEntry (16 + k.val)).finish := rfl

/-- The last copy of a ring's only entry completes it. -/
theorem partDone_last {s : State} {r : Nat} {e : Entry} {f : TxFrame} (p : TxPart) (h : (s.ring r).entries = [e])
    (hd : e.done = none) (hb : s.bmeUp = true) (hf : f.src = .entry r e.idx) (hc : e.copies ≤ e.parts.length + 1) :
    ((s.partDone f p).ring r).entries = [] := by
  have hm := entries_modEntry_single h fun e => { e with parts := e.parts ++ [p] }
  unfold State.partDone
  rw [hf]
  dsimp only
  rw [hm, List.find?_cons_of_pos (by simp)]
  dsimp only
  rw [if_pos (by simpa using hc)]
  exact complete_leaves hm hd hb _

section
variable {s : State} {r : Nat} {e : Entry}

theorem transmitEntry_idle (h : ((s.ring r).state ≠ .running ∧ (s.ring r).state ≠ .error) ∨
    (∀ e ∈ (s.ring r).entries, e.state = .ready → e.done.isSome = true)) : s.transmitEntry r = s := by
  unfold State.transmitEntry
  dsimp only
  rcases h with ⟨hr, he⟩ | h
  · exact if_pos (by simp [hr, he])
  · have hn : ((s.ring r).entries.find? fun e => e.state = .ready && e.done.isNone) = none := by
      rw [List.find?_eq_none]
      intro e he hp
      obtain ⟨hs, hd⟩ := Bool.and_eq_true_iff.mp hp
      simpa [Option.isNone_iff_eq_none.mp hd] using h e he (by simpa using hs)
    rw [hn]
    exact ite_self _

theorem transmitEntry_single (hr : (s.ring r).state = .running ∨ (s.ring r).state = .error)
    (h : (s.ring r).entries = [e]) (he : e.state = .ready) (hd : e.done = none) :
    s.transmitEntry r = if s.txBlocked e.bytes then s else s.takeTx r e := by
  unfold State.transmitEntry
  dsimp only
  rw [if_neg (by rcases hr with hr | hr <;> simp [hr]), h, List.find?_cons_of_pos (by simp [he, hd])]

/-- The frame of a transmit entry. -/
def Entry.txFrame (e : Entry) (r : Nat) : TxFrame :=
  { octets := rdBytes e.payload 0 (txLen e.bytes), src := .entry r e.idx, ins := txIns e.bytes }

/-- A transmit entry is refused with a status: no copy of its frame is sent. -/
def State.refuseTx (s : State) (r : Nat) (e : Entry) (st lane : Nat) : State :=
  (s.modEntry r e.idx fun e => { e with copies := 1 }).partDone (e.txFrame r) ⟨lane, false, st, 0, 0#32⟩

theorem refuseTx_ept (s : State) (r : Nat) (e : Entry) (st lane : Nat) : (s.refuseTx r e st lane).ept = s.ept :=
  of_frame_ept ((frame_partDone_kept _ _ rfl).trans (frame_modEntry ..))

theorem refuseTx_leaves (h : (s.ring r).entries = [e]) (hd : e.done = none) (hb : s.bmeUp = true) (st lane : Nat) :
    ((s.refuseTx r e st lane).ring r).entries = [] :=
  partDone_last _ (entries_modEntry_single h fun e => { e with copies := 1 }) hd hb rfl (Nat.le_add_left ..)

section
variable (hs : txStream e.bytes = false)
include hs

theorem takeTx_queued (hen : s.txEn (txLane e.bytes) = true) (hl : txLen e.bytes + 4 ≤ s.maxLen (txLane e.bytes)) :
    s.takeTx r e = (s.modEntry r e.idx fun e => { e with state := .begun, copies := 1 }).putFrame
      (txLane e.bytes) (txQueue e.bytes) (e.txFrame r) := by
  unfold State.takeTx
  dsimp only
  rw [if_neg (by simp [hs]), if_neg (by omega), if_neg (by simp [hen])]
  rfl

theorem takeTx_refused (h : s.txEn (txLane e.bytes) = false ∨ s.maxLen (txLane e.bytes) < txLen e.bytes + 4) :
    ∃ st lane, s.takeTx r e = s.refuseTx r e st lane := by
  unfold State.takeTx
  dsimp only
  rw [if_neg (by simp [hs])]
  split
  · exact ⟨_, _, rfl⟩
  · next hl => exact ⟨_, _, if_pos (by simpa [hl] using h)⟩
end

section
variable (hs : txStream e.bytes = true)
include hs

theorem takeTx_noStream (h : (ctxValid (s.ctx (txCtx e.bytes)) && ctxTx (s.ctx (txCtx e.bytes))) = false ∨
    ctxSlotTx (s.ctx (txCtx e.bytes)) = true) : ∃ st lane, s.takeTx r e = s.refuseTx r e st lane := by
  unfold State.takeTx
  dsimp only
  rw [if_pos hs]
  exact ⟨_, _, if_pos (by rcases h with h | h <;> simp [h])⟩

/-- A frame that its stream takes is paced, or enters the queues of the stream's lanes. -/
theorem takeTx_stream {x : Nat} {c : List Byte} (hx : txCtx e.bytes = x) (hc : s.ctx x = c)
    (hv : (ctxValid c && ctxTx c) = true) (hn : ctxSlotTx c = false) (hg : ctxSeqGen c = true) (hl : ∀ l ∈ (s.lanesFor c).1, txLen e.bytes + 10 ≤ s.maxLen l) :
    s.takeTx r e =
      let p := (s.modEntry r e.idx fun e => { e with state := .begun, copies := 2 }).acceptStream x c (e.txFrame r)
      if ctxPaceEn c then p.2.pace x c p.1 else p.2.sendStream c p.1 := by
  have hfit : ((s.lanesFor c).1.any fun l =>
      decide (s.maxLen l < txLen e.bytes + 4 + (if ctxSeqGen c then 6 else 0))) = false := by
    rw [List.any_eq_false]
    intro l hm
    have := hl l hm
    simp only [hg, if_true, decide_eq_true_eq]
    omega
  unfold State.takeTx
  dsimp only
  rw [hx, hc, if_pos hs, if_neg (by simp [hv, hn]), if_neg (by simp [hfit])]
  rfl
end
end

theorem queue_congr {s t : State} (h : t.ept.lanes = s.ept.lanes) (l q : Nat) : t.queue l q = s.queue l q := by
  unfold State.queue State.lane
  rw [h]

theorem laneAvail_congr {s t : State} (hr : t.regs = s.regs) (hf : t.flt = s.flt) : t.laneAvail = s.laneAvail := by
  unfold State.laneAvail State.txEn State.isolated
  simp only [rg_congr hr, hf]

theorem lanesFor_congr {s t : State} (hl : t.ept.lanes = s.ept.lanes) (hr : t.regs = s.regs) (hf : t.flt = s.flt)
    (c : List Byte) : t.lanesFor c = s.lanesFor c := by
  unfold State.lanesFor
  simp only [laneAvail_congr hr hf, queue_congr hl]

/-- A stream that numbers its frames gives the frame its number and R-TAG. -/
theorem acceptStream_seq (s : State) (x : Nat) {c : List Byte} (f : TxFrame) (h : ctxSeqGen c = true) :
    ∃ v t, s.acceptStream x c f = (v, t) ∧ v.seq = some (s.stream x).gen ∧
      v.octets = insertTag f.octets (s.stream x).gen ∧ v.src = f.src ∧
      t.stream x = { (s.stream x).counted 0 with gen := (s.stream x).gen + 1 } ∧ t.ept.lanes = s.ept.lanes ∧
      t.regs = s.regs ∧ t.flt = s.flt := by
  unfold State.acceptStream
  dsimp only
  rw [if_pos h]
  refine ⟨_, _, rfl, ?_, ?_, ?_, ?_, rfl, rfl, rfl⟩
  · rfl
  · rfl
  · rfl
  · rw [stream_modStream_self, stream_strCnt_self]

theorem pace_fields (s : State) (x : Nat) (c : List Byte) (f : TxFrame) : (s.pace x c f).ept.lanes = s.ept.lanes ∧
    (s.pace x c f).stream x = { s.stream x with paced := (s.stream x).paced ++ [(ceilNs s.nt, f)] } := by
  unfold State.pace
  dsimp only
  split
  · rw [addEvent_lanes, addEvent_stream, stream_modStream_self]
    exact ⟨rfl, rfl⟩
  · rw [stream_modStream_self]
    exact ⟨rfl, rfl⟩

theorem sendStream_single {s : State} {c : List Byte} {f : TxFrame} {r i l : Nat} (hf : f.src = .entry r i)
    (hl : s.lanesFor c = ([l], [])) (hq : s.queueFull l (ctxQueue c) = false) :
    s.sendStream c f = (s.modEntry r i fun e => { e with copies := 1 }).putFrame l (ctxQueue c) f := by
  unfold State.sendStream
  rw [hl, hf]
  exact if_neg (Bool.eq_false_iff.mp hq)

/-- A numbered frame that its stream takes: what the stream and the queues hold then (R235, R242). -/
theorem takeTx_numbered {s : State} {r x : Nat} {e : Entry} {c : List Byte} (hs : txStream e.bytes = true)
    (hx : txCtx e.bytes = x) (hc : s.ctx x = c) (hv : (ctxValid c && ctxTx c) = true) (hn : ctxSlotTx c = false)
    (hg : ctxSeqGen c = true) (hl : ∀ l ∈ (s.lanesFor c).1, txLen e.bytes + 10 ≤ s.maxLen l)
    (hq : s.txBlocked e.bytes = false) : let t := s.takeTx r e
    (t.stream x).gen = (s.stream x).gen + 1 ∧
    (ctxPaceEn c = true → (t.stream x).paced.length = (s.stream x).paced.length + 1 ∧ t.ept.lanes = s.ept.lanes) ∧
    (∀ l, ctxPaceEn c = false → s.lanesFor c = ([l], []) → ∃ f, f.seq = some (s.stream x).gen ∧
      f.octets = insertTag (rdBytes e.payload 0 (txLen e.bytes)) (s.stream x).gen ∧
      t.queue l (ctxQueue c) = s.queue l (ctxQueue c) ++ [f]) := by
  obtain ⟨v, taken, hacc, hseq, hoct, hsrc, hst, hlanes, hregs, hflt⟩ :=
    acceptStream_seq (s.modEntry r e.idx fun e => { e with state := .begun, copies := 2 }) x (e.txFrame r) hg
  have huse : taken.lanesFor c = s.lanesFor c := lanesFor_congr hlanes hregs hflt c
  have hqueue : ∀ l q, taken.queue l q = s.queue l q := queue_congr hlanes
  rw [takeTx_stream hs hx hc hv hn hg hl, hacc]
  dsimp only
  by_cases hp : ctxPaceEn c = true
  · obtain ⟨hpl, hps⟩ := pace_fields taken x c v
    rw [if_pos hp, hps, hpl, hlanes, hst]
    generalize ceilNs taken.nt = held
    exact ⟨rfl, fun _ => ⟨List.length_append, rfl⟩, fun l h => absurd hp (by simp [h])⟩
  · rw [if_neg hp, sendStream_stream, hst]
    refine ⟨rfl, fun h => absurd h hp, fun l _ hl1 => ?_⟩
    have hroom : taken.queueFull l (ctxQueue c) = false := by
      have hany := hq
      rw [State.txBlocked, if_pos hs] at hany
      dsimp only at hany
      rw [hx, hc, hv, hn, if_neg hp, hl1] at hany
      unfold State.queueFull at hany ⊢
      rw [hqueue]
      simpa using hany
    obtain ⟨a, ha⟩ := putFrame_enters (taken.modEntry r e.idx fun e => { e with copies := 1 }) l (ctxQueue c) v
    refine ⟨{ v with headAt := a }, hseq, hoct, ?_⟩
    rw [sendStream_single hsrc (huse.trans hl1) hroom, ha, ← hqueue]
    rfl

/-! ### Frames started and sent (R176, R224, R228, R248) -/

theorem exec_frameStart (s : State) (dt : Nat) (l : Fin 8) :
    exec (.frameStart dt l) s = .next ((s.pass dt).frameStart l.val).finish := rfl
theorem exec_frameSent (s : State) (dt : Nat) (l : Fin 8) :
    exec (.frameSent dt l) s = .next ((s.pass dt).frameSent l.val).finish := rfl
theorem exec_txNofit (s : State) (dt : Nat) (l q : Fin 8) :
    exec (.txNofit dt l q) s = .next ((s.pass dt).noFit l.val q.val).finish := rfl

/-- In an ARBITRATING window a frame of an express queue may start (R228). -/
def State.expressWaits (s : State) (l : Nat) : Bool :=
  s.laneKind l = .arbitrating && queuesDown.any fun q => !s.preemptable l q && s.canStart l q

theorem expressWaits_iff (s : State) (l : Nat) : s.expressWaits l = true ↔
    s.laneKind l = .arbitrating ∧ ∃ q ∈ queuesDown, s.preemptable l q = false ∧ s.canStart l q = true := by
  simp only [State.expressWaits, Bool.and_eq_true, decide_eq_true_eq, List.any_eq_true, Bool.not_eq_true']

section
variable {s : State} {l : Nat}

theorem frameStart_off (h : s.txRuns l = false) : s.frameStart l = s := if_pos (by simp [h])

section
variable (hr : s.txRuns l = true)
include hr

theorem frameStart_sending {x : TxNow} (hc : (s.lane l).cur = some x) : s.frameStart l =
    if s.preemptable l x.queue && (!s.gateOpen l x.queue || s.expressWaits l) then s.cut l else s := by
  unfold State.frameStart
  rw [if_neg (by simp [hr]), hc]
  rfl

theorem frameStart_busy (hc : (s.lane l).cur = none) (hb : s.now < (s.lane l).busyTill) : s.frameStart l = s := by
  unfold State.frameStart
  rw [if_neg (by simp [hr]), hc]
  exact if_pos hb

theorem frameStart_none (hc : (s.lane l).cur = none) (h : queuesDown.find? (fun q => s.canStart l q) = none) :
    s.frameStart l = s := by
  unfold State.frameStart
  rw [if_neg (by simp [hr]), hc, h]
  exact ite_self _

theorem frameStart_starts {q : Nat} (hc : (s.lane l).cur = none) (hb : (s.lane l).busyTill ≤ s.now)
    (h : queuesDown.find? (fun q => s.canStart l q) = some q) : s.frameStart l = s.startFrame l q := by
  unfold State.frameStart
  rw [if_neg (by simp [hr]), hc, h]
  exact if_neg (Nat.not_lt.mpr hb)
end

/-- A lane with `n` more in counter `k` (R248). -/
def Lane.counted (x : Lane) (k n : Nat) : Lane := { x with cnt := tmod (fun _ => 0) x.cnt k fun c => (c + n) % 2 ^ 64 }

theorem lane_laneCnt (s : State) (l k n : Nat) : (s.laneCnt l k n).lane l = (s.lane l).counted k n := lane_modLane_self ..

theorem lane_counted_self (x : Lane) (k n : Nat) :
    tget (fun _ => 0) (x.counted k n).cnt k = (tget (fun _ => 0) x.cnt k + n) % 2 ^ 64 := tget_tset_self _ _ _ _ rfl

theorem lane_counted_other (x : Lane) {j k : Nat} (n : Nat) (h : j ≠ k) :
    tget (fun _ => 0) (x.counted k n).cnt j = tget (fun _ => 0) x.cnt j := by
  unfold Lane.counted tmod
  dsimp only
  rw [tget_tset_other _ _ _ h]

/-- The remainder `y` of a queue's frame leaves from `now` on. -/
def Lane.resumes (x : Lane) (q : Nat) (y : TxNow) (now : Nat) : Lane :=
  { x with cur := some { y with since := now }, rest := x.rest.filter (·.1 ≠ q) }

theorem startFrame_remainder {q : Nat} {y : TxNow} (h : (s.lane l).rest.find? (·.1 = q) = some (q, y)) :
    s.startFrame l q = (s.modLane l fun x => x.resumes q y s.now).laneCnt l 11 1 := by
  unfold State.startFrame
  rw [h]
  rfl

theorem lane_startFrame_remainder {q : Nat} {y : TxNow} (h : (s.lane l).rest.find? (·.1 = q) = some (q, y)) :
    (s.startFrame l q).lane l = ((s.lane l).resumes q y s.now).counted 11 1 := by
  rw [startFrame_remainder h, lane_laneCnt, lane_modLane_self]

/-- The head of a queue leaves it, and the lane is as before. -/
theorem popQueue_lane {q : Nat} {f : TxFrame} {fs : List TxFrame} (h : s.queue l q = f :: fs) :
    ∃ hs, hs.length = fs.length ∧ s.popQueue l q = s.setQueue l q hs := by
  unfold State.popQueue
  rw [h]
  cases fs with
  | nil => exact ⟨[], rfl, rfl⟩
  | cons g gs => exact ⟨{ g with headAt := some s.now } :: gs, rfl, rfl⟩

/-- The head frame of a queue starts with its stamp and the row count. -/
theorem startFrame_head {q : Nat} {f : TxFrame} {fs : List TxFrame} (hn : (s.lane l).rest.find? (·.1 = q) = none)
    (h : s.queue l q = f :: fs) : ∃ x, ((s.startFrame l q).lane l).cur = some x ∧ x.queue = q ∧
      x.stamp = s.nt + (s.lane l).sfdDelay + (s.lane l).txDelay ∧ x.row = s.sched.rowCnt ∧
      x.frame.octets = f.stamped x.stamp ∧ x.frame.src = f.src ∧ ((s.startFrame l q).queue l q).length = fs.length := by
  obtain ⟨hs, hlen, hpop⟩ := popQueue_lane h
  have hq := queue_setQueue_self s l q hs
  have hd : ((s.setQueue l q hs).lane l).sfdDelay = (s.lane l).sfdDelay ∧
      ((s.setQueue l q hs).lane l).txDelay = (s.lane l).txDelay := by
    rw [State.setQueue, lane_modLane_self]
    exact ⟨rfl, rfl⟩
  unfold State.startFrame
  rw [hn, h]
  dsimp only
  rw [hpop, lane_modLane_self, hd.1, hd.2]
  refine ⟨_, rfl, rfl, rfl, rfl, rfl, rfl, ?_⟩
  unfold State.queue at hq ⊢
  rw [lane_modLane_self]
  exact (congrArg List.length hq).trans hlen
end

/-! ### Frames that have left -/

/-- What the end of a frame sets of a lane: no frame in progress, the instant it is free from, and its counters. -/
def Lane.ended (x : Lane) : Option TxNow × Nat × Tab Nat := (x.cur, x.busyTill, x.cnt)

@[simp] theorem ended_afterReset (x : Lane) (n : Nat) : (x.afterReset n).ended = x.ended := by
  unfold Lane.afterReset
  rw [Lane.withLock_fields]
  rfl

@[simp] theorem ended_verifyFrom (x : Lane) (on : Bool) (t : Nat) : (x.verifyFrom on t).ended = x.ended := rfl

theorem ended_modLane (s : State) {f : Lane → Lane} (h : ∀ x, (f x).ended = x.ended) (l k : Nat) :
    ((s.modLane l f).lane k).ended = (s.lane k).ended := by
  by_cases hk : k = l
  · subst hk
    rw [lane_modLane_self, h]
  · rw [lane_modLane_other _ _ hk]

theorem ended_sendOwn (s : State) (l : Nat) (f : TxFrame) (k : Nat) : ((s.sendOwn l f).lane k).ended = (s.lane k).ended := by
  unfold State.sendOwn
  split
  · rfl
  · rw [State.putFrame, State.setQueue]
    refine ended_modLane s ?_ l k
    exact fun _ => rfl

theorem ended_resetLane (s : State) (l : Nat) : ((s.resetLane l).lane l).ended = (s.lane l).ended := by
  rw [resetLane_eq, lane_startVerify, lane_resetPcs, ended_verifyFrom, ended_afterReset]

theorem resetLane_out (s : State) (l : Nat) : (s.resetLane l).out = s.out := by
  simp [State.resetLane, State.startVerify, State.dropDelay, State.loseLock, State.setLock]

theorem sendOwn_out (s : State) (l : Nat) (f : TxFrame) : (s.sendOwn l f).out = s.out := by
  unfold State.sendOwn
  split <;> rfl

/-- What follows a frame that has left keeps the lane's end and sends nothing at once. -/
theorem afterSent_keeps (s : State) (l : Nat) (x : TxNow) :
    ((s.afterSent l x).lane l).ended = (s.lane l).ended ∧ (s.afterSent l x).out = s.out := by
  unfold State.afterSent
  split
  · exact ⟨ended_sendOwn .., sendOwn_out ..⟩
  · exact ⟨congrArg Lane.ended (lane_modDelay ..), rfl⟩
  · exact ⟨ended_sendOwn .., sendOwn_out ..⟩
  · exact ⟨rfl, rfl⟩

theorem laneIdle_keeps (s : State) (l : Nat) :
    ((s.laneIdle l).lane l).ended = (s.lane l).ended ∧ (s.laneIdle l).out = s.out := by
  unfold State.laneIdle
  split
  · exact ⟨ended_resetLane .., resetLane_out ..⟩
  · exact ⟨rfl, rfl⟩

/-- The end of a copy changes no lane. -/
theorem partDone_ept (s : State) (f : TxFrame) (p : TxPart) : (s.partDone f p).ept = s.ept := by
  cases hp : p.left
  · exact of_frame_ept (frame_partDone_kept s f hp)
  · unfold State.partDone
    split
    · dsimp only
      split
      · split
        · exact complete_keeps_ept ..
        · rfl
      · rfl
    · dsimp only
      split <;> rfl
    · rfl

/-- The frame in progress leaves its lane and is counted. -/
def State.frameOut (s : State) (l : Nat) (x : TxNow) : State :=
  (((s.modLane l fun y => { y with cur := none, busyTill := s.now }).laneCnt l 0 1).laneCnt l 1 x.frame.len).emit
    (.frame l x.frame.octets x.stamp)

/-- The part of a frame that has left. -/
def TxNow.sentPart (x : TxNow) (l : Nat) : TxPart :=
  { lane := l, left := true, status := 0, stamp := x.stamp, row := x.row }

section
variable {s : State} {l : Nat}

theorem frameSent_idle (h : (s.lane l).cur = none) : s.frameSent l = s := by rw [State.frameSent, h]

section
variable {x : TxNow} (hc : (s.lane l).cur = some x)
include hc

theorem frameSent_early (h : s.now < x.since + (s.lane l).octCycles (8 + x.frame.len - x.sent)) : s.frameSent l = s := by
  rw [State.frameSent, hc]
  exact if_pos h

theorem frameSent_leaves (h : x.since + (s.lane l).octCycles (8 + x.frame.len - x.sent) ≤ s.now) : s.frameSent l =
    (((s.frameOut l x).partDone x.frame (x.sentPart l)).afterSent l x).laneIdle l := by
  rw [State.frameSent, hc]
  exact if_neg (Nat.not_lt.mpr h)
end

theorem frameOut_lane (s : State) (l : Nat) (x : TxNow) : (s.frameOut l x).lane l =
    ({ s.lane l with cur := none, busyTill := s.now }.counted 0 1).counted 1 x.frame.len := by
  have h : (s.frameOut l x).lane l = (((s.modLane l fun y => { y with cur := none, busyTill := s.now }).laneCnt l 0 1).laneCnt
      l 1 x.frame.len).lane l := rfl
  rw [h, lane_laneCnt, lane_laneCnt, lane_modLane_self]

/-- A frame that has left frees its lane, and its octets are the next that the module sends. -/
theorem frameSent_fields (s : State) (l : Nat) (x : TxNow) :
    let t := (((s.frameOut l x).partDone x.frame (x.sentPart l)).afterSent l x).laneIdle l
    (t.lane l).ended = (({ s.lane l with cur := none, busyTill := s.now }.counted 0 1).counted 1 x.frame.len).ended ∧
    ∃ m, t.out = s.out ++ [.frame l x.frame.octets x.stamp] ++ m := by
  obtain ⟨hi, hio⟩ := laneIdle_keeps (((s.frameOut l x).partDone x.frame (x.sentPart l)).afterSent l x) l
  obtain ⟨ha, hao⟩ := afterSent_keeps ((s.frameOut l x).partDone x.frame (x.sentPart l)) l x
  obtain ⟨m, hm⟩ := State.Sends.partDone (s.frameOut l x) x.frame (x.sentPart l)
  have hp := lane_congr (partDone_ept (s.frameOut l x) x.frame (x.sentPart l)) l
  refine ⟨?_, m, ?_⟩
  · rw [hi, ha, hp, frameOut_lane]
  · rw [hio, hao, ← hm]
    rfl
end

/-! ### Frames that wait too long (R226) -/

theorem noFit_discards {s : State} {l q a : Nat} {f : TxFrame} {fs : List TxFrame} (h : s.queue l q = f :: fs)
    (ha : f.headAt = some a) (hp : s.pastMatrix (s.now - a) = true) :
    s.noFit l q = (s.popQueue l q).dropCopy f l 9 0x40 := by
  rw [State.noFit, h]
  dsimp only
  rw [ha]
  exact if_pos hp

theorem noFit_stays {s : State} {l q : Nat}
    (h : ∀ f fs a, s.queue l q = f :: fs → f.headAt = some a → s.pastMatrix (s.now - a) = false) : s.noFit l q = s := by
  unfold State.noFit
  split
  · rfl
  · next f fs hq =>
    split
    · rfl
    · next a ha => exact if_neg (by simp [h f fs a hq ha])

/-! ### Frames received (R221, R226) -/

theorem exec_frameReceive (s : State) (dt : Nat) (l : Fin 8) (fr : RxFrame) :
    exec (.frameReceive dt l fr) s = .next ((s.pass dt).frameReceive l.val fr).finish := rfl

/-- The receiver of a lane is on. -/
def State.receives (s : State) (l : Nat) : Bool :=
  s.lanePowered l && s.rxEn l && !s.laneTesting l && !s.laneResetting l

/-- A frame that arrives whole is counted with its octets. -/
def State.rxCounted (s : State) (l n : Nat) : State := (s.laneCnt l 2 1).laneCnt l 3 n

/-- The frame ends within 120 ns after the lane's connection changed, or while it changes. -/
def State.reacquires (s : State) (l : Nat) (f : List Byte) : Bool :=
  (s.lane l).connBusy || ((s.lane l).connEnd ≠ 0 &&
    decide (s.now - (s.lane l).octCycles (12 + f.length) < (s.lane l).connEnd + nsC 120))

section
variable {s : State} {l : Nat} {fr : RxFrame}

theorem frameReceive_off (h : s.receives l = false) : s.frameReceive l fr = s := by
  refine if_pos ?_
  unfold State.receives at h
  revert h
  cases s.lanePowered l && s.rxEn l
  · simp
  · cases s.laneTesting l <;> simp

section
variable (h : s.receives l = true)
include h

theorem receives_on : ¬(!(s.lanePowered l && s.rxEn l) || s.laneTesting l || s.laneResetting l) = true := by
  unfold State.receives at h
  simp only [Bool.and_eq_true, Bool.not_eq_true'] at h
  simp [h]

theorem frameReceive_error (he : fr.err ≠ .none) :
    s.frameReceive l fr = s.rxError l fr.err (s.reacquires l fr.octets) := by
  unfold State.frameReceive
  dsimp only
  rw [if_neg (receives_on h), if_pos he]
  rfl

section
variable (he : fr.err = .none)
include he

theorem frameReceive_unlocked (hb : (s.lane l).blockLock = false) : s.frameReceive l fr = s := by
  unfold State.frameReceive
  dsimp only
  rw [if_neg (receives_on h), if_neg (not_not.mpr he), if_pos (by simp [hb])]

variable (hb : (s.lane l).blockLock = true)
include hb

theorem frameReceive_long (hl : s.maxLen l < fr.octets.length + 4) : s.frameReceive l fr = s.laneCnt l 5 1 := by
  unfold State.frameReceive
  dsimp only
  rw [if_neg (receives_on h), if_neg (not_not.mpr he), if_neg (by simp [hb]), if_pos hl]

variable (hl : fr.octets.length + 4 ≤ s.maxLen l)
include hl

theorem frameReceive_foreign (ha : bef fr.octets 0 6 ≠ s.rg8 .eptMac l) (hg : byteAt fr.octets 0 % 2 = 0)
    (hp : bit (s.rg .eptCfg l) 24 = false) : s.frameReceive l fr = s.laneCnt l 7 1 := by
  unfold State.frameReceive
  dsimp only
  rw [if_neg (receives_on h), if_neg (not_not.mpr he), if_neg (by simp [hb]), if_neg (Nat.not_lt.mpr hl),
    if_pos (by simp [ha, hg, hp])]

/-- A good frame of no service of the module's own goes to its stream, or to the lane's default ring. -/
theorem frameReceive_delivers
    (ha : bef fr.octets 0 6 = s.rg8 .eptMac l ∨ byteAt fr.octets 0 % 2 = 1 ∨ bit (s.rg .eptCfg l) 24 = true)
    (ht : bef fr.octets (afterTags fr.octets) 2 ≠ 0x88F7) (hi : isBiarn fr.octets = false) :
    ∃ i : RxInfo, i.lane = l ∧ s.frameReceive l fr =
      match s.matchCtx l fr.octets with
      | some c => (s.rxCounted l (fr.octets.length + 4)).rxStream c fr.octets i
      | none => (s.rxCounted l (fr.octets.length + 4)).toHost (s.rf .eptCfg l 20 15) fr.octets i := by
  unfold State.frameReceive
  dsimp only
  rw [if_neg (receives_on h), if_neg (not_not.mpr he), if_neg (by simp [hb]), if_neg (Nat.not_lt.mpr hl),
    if_neg (by rcases ha with ha | ha | ha <;> simp [ha]), if_neg (by simp [ht]), if_neg (by simp [ht]), if_neg ht,
    if_neg (by simp [hi])]
  exact ⟨_, rfl, rfl⟩
end
end
end

theorem rxError_reacquires (s : State) (l : Nat) (e : RxError) : s.rxError l e true = s.laneCnt l 6 1 := rfl

theorem rxError_unlocked {s : State} {l : Nat} (e : RxError) (h : (s.lane l).blockLock = false) :
    s.rxError l e false = s := by
  unfold State.rxError
  rw [if_neg (by simp), if_pos (by simp [h])]

theorem rxError_counts {s : State} {l : Nat} (e : RxError) (h : (s.lane l).blockLock = true) :
    s.rxError l e false = s.laneCnt l (if e = .assembly then 12 else if e = .smd then 13 else 4) 1 := by
  unfold State.rxError
  rw [if_neg (by simp), if_neg (by simp [h])]
  cases e <;> rfl

/-! ### Frames that a stream or the default ring takes (R234, R236, R243, R265, R290) -/

section
variable {s : State} {k : Nat} {d : List Byte} {i : RxInfo}

theorem toHost_drops (h : (s.ring (80 + k)).entries = [] ∨ s.bmeUp = false) : s.toHost k d i = s.laneCnt i.lane 8 1 := by
  unfold State.toHost
  dsimp only
  split
  · rfl
  · next e he =>
    rcases h with h | h
    · rw [h] at he
      exact absurd he (by simp)
    · exact if_pos (by simp [h])

/-- A frame fills the posted entry, or is dropped. -/
theorem toHost_cases (s : State) (k : Nat) (d : List Byte) (i : RxInfo) :
    s.toHost k d i = s.laneCnt i.lane 8 1 ∨ ∃ r j c, s.toHost k d i = s.complete r j c := by
  unfold State.toHost
  dsimp only
  split
  · exact .inl rfl
  · split
    · exact .inl rfl
    · exact .inr ⟨_, _, _, rfl⟩

theorem toHost_fills {e : Entry} (h : (s.ring (80 + k)).entries = [e]) (hd : e.done = none) (hb : s.bmeUp = true)
    (hr : (s.ring (80 + k)).state = .running) : ∃ c : Completion, s.toHost k d i = s.complete (80 + k) e.idx c ∧
      c.pre = if d.length ≤ lef e.bytes 4 4 then some (lef e.bytes 8 8, d) else none := by
  unfold State.toHost
  dsimp only
  rw [h, List.find?_cons_of_pos (by simp [hd])]
  dsimp only
  rw [if_neg (by simp [hb, hr])]
  exact ⟨_, rfl, if_congr decide_eq_true_iff rfl rfl⟩
end

/-- What a frame for the host leaves of streams and of the lane's counters but that of frames dropped. -/
theorem toHost_keeps (s : State) (k : Nat) (d : List Byte) (i : RxInfo) :
    (s.toHost k d i).ept.streams = s.ept.streams ∧ ∀ l j, j ≠ 8 →
      tget (fun _ => 0) ((s.toHost k d i).lane l).cnt j = tget (fun _ => 0) (s.lane l).cnt j := by
  rcases toHost_cases s k d i with h | ⟨r, n, c, h⟩
  · rw [h]
    refine ⟨rfl, fun l j hj => ?_⟩
    by_cases hl : l = i.lane
    · subst hl
      rw [lane_laneCnt, lane_counted_other _ _ hj]
    · rw [State.laneCnt, lane_modLane_other _ _ hl]
  · rw [h]
    have he := complete_keeps_ept s r n c
    exact ⟨congrArg Endpoint.streams he, fun l j _ => by rw [lane_congr he]⟩

/-- `t` has the lanes of `s` but for frames dropped, and the frames that stream `x` has taken. -/
structure State.TakenBy (s t : State) (x : Nat) : Prop where
  stream : tget (fun _ => 0) (t.stream x).cnt 2 = tget (fun _ => 0) (s.stream x).cnt 2
  lane : ∀ l j, j ≠ 8 → tget (fun _ => 0) (t.lane l).cnt j = tget (fun _ => 0) (s.lane l).cnt j

namespace State.TakenBy
variable {s t u : State} {x : Nat}

theorem trans (h : s.TakenBy t x) (g : t.TakenBy u x) : s.TakenBy u x :=
  ⟨g.stream.trans h.stream, fun l j hj => (g.lane l j hj).trans (h.lane l j hj)⟩

theorem of_ept (h : t.ept = s.ept) : s.TakenBy t x :=
  ⟨by rw [stream_congr (congrArg Endpoint.streams h)], fun l j _ => by rw [lane_congr h]⟩

theorem strCnt (s : State) (x : Nat) {k : Nat} (h : 2 ≠ k) : s.TakenBy (s.strCnt x k) x :=
  ⟨by rw [stream_strCnt_self, counted_other _ h], fun _ _ _ => rfl⟩

theorem spend (s : State) (x : Nat) (b : Bool) :
    s.TakenBy (if b then s.modStream x fun q => { q with credits := q.credits - 1 } else s) x := by
  split
  · exact ⟨by rw [stream_modStream_self], fun _ _ _ => rfl⟩
  · exact .of_ept rfl

theorem toHost (s : State) (k : Nat) (d : List Byte) (i : RxInfo) : s.TakenBy (s.toHost k d i) x :=
  ⟨by rw [stream_congr (toHost_keeps s k d i).1], (toHost_keeps s k d i).2⟩
end State.TakenBy

/-- A frame of a stream without recovery passes, and is counted. -/
def State.passed (s : State) (x : Nat) (c : List Byte) : State :=
  (s.strCnt x 2).modStream x fun q =>
    { q with rcvyTimer := if ctxRcvy c then some (s.now + msC (lef c 14 2)) else q.rcvyTimer }

theorem recover_plain {c : List Byte} (s : State) (x : Nat) (n : Option Nat) (h : ctxRcvy c = false) :
    s.recover x c n = (true, s.passed x c) := if_pos (by simp [h])

theorem passed_cnt (s : State) (x : Nat) (c : List Byte) :
    tget (fun _ => 0) ((s.passed x c).stream x).cnt 2 = min (tget (fun _ => 0) (s.stream x).cnt 2 + 1) 0xFFFFFFFF := by
  rw [State.passed, stream_modStream_self, stream_strCnt_self]
  exact counted_self ..

@[simp] theorem slotPut_ept (s : State) (n o : Nat) (b : List Byte) : (s.slotPut n o b).ept = s.ept := rfl

theorem storeSlot_ept (s : State) (c d : List Byte) (i : RxInfo) : (s.storeSlot c d i).ept = s.ept := by
  simp only [State.storeSlot, slotPut_ept]

/-- A frame of a stream without recovery is counted once, whatever limits meet it. -/
theorem rxStream_plain (s : State) (x : Nat) (f : List Byte) (i : RxInfo) (h : ctxRcvy (s.ctx x) = false) :
    (s.passed x (s.ctx x)).TakenBy (s.rxStream x f i) x := by
  unfold State.rxStream
  extract_lets c seq
  rw [recover_plain s x seq h]
  dsimp only
  generalize s.passed x c = p
  rw [if_neg (by simp)]
  split
  · exact .strCnt _ _ (by decide)
  · split
    · exact .strCnt _ _ (by decide)
    · have hs := State.TakenBy.spend p x (ctxPolEn c)
      split
      · exact hs.trans (.of_ept (storeSlot_ept ..))
      · exact hs.trans (.toHost ..)

theorem rxCounted_cnt (s : State) (l n : Nat) : tget (fun _ => 0) ((s.rxCounted l n).lane l).cnt 2 =
    (tget (fun _ => 0) (s.lane l).cnt 2 + 1) % 2 ^ 64 := by
  rw [State.rxCounted, lane_laneCnt, lane_counted_other _ _ (by decide), lane_laneCnt, lane_counted_self]

theorem rxDropped_cnt (s : State) (l n : Nat) : tget (fun _ => 0) (((s.rxCounted l n).laneCnt l 8 1).lane l).cnt 8 =
    (tget (fun _ => 0) (s.lane l).cnt 8 + 1) % 2 ^ 64 := by
  rw [lane_laneCnt, lane_counted_self, State.rxCounted, lane_laneCnt, lane_counted_other _ _ (by decide), lane_laneCnt,
    lane_counted_other _ _ (by decide)]

theorem rxCounted_ring (s : State) (l n r : Nat) : (s.rxCounted l n).ring r = s.ring r := rfl
theorem rxCounted_bmeUp (s : State) (l n : Nat) : (s.rxCounted l n).bmeUp = s.bmeUp := rfl
theorem rxCounted_out (s : State) (l n : Nat) : (s.rxCounted l n).out = s.out := rfl

theorem rxDropped_out (s : State) (l n : Nat) : ((s.rxCounted l n).laneCnt l 8 1).out = s.out := by
  rw [State.laneCnt, State.modLane_out, rxCounted_out]

/-- Settles O55: transmit entries by `takeTx`'s cases, lanes by `startFrame_head` and `frameSent_fields`, and frames
received by `frameReceive_delivers`. -/
theorem framesSentAndReceived : Obligations.FramesSentAndReceived := by
  unfold Obligations.FramesSentAndReceived
  refine ⟨fun s u dt k hu => ?entry, fun s u dt l hu => ?start, fun s u dt l hu => ?sent, fun s u dt l q hu => ?noFit,
    fun s u dt l fr hu => ?receive⟩
  case entry =>
    intro r
    rw [exec_transmitEntry, ← hu]
    refine ⟨fun h => by rw [transmitEntry_idle h], fun e hr he hrd hd => ?_⟩
    rw [transmitEntry_single hr he hrd hd]
    have hrefused : (∃ st lane, u.takeTx r e = u.refuseTx r e st lane) →
        ∃ t : State, (.next (u.takeTx r e).finish : Host.Outcome State Fault Refusal) = .next t.finish ∧
          t.ept = u.ept ∧ (u.bmeUp = true → (t.ring r).entries = []) := by
      rintro ⟨st, lane, h⟩
      rw [h]
      exact ⟨_, rfl, refuseTx_ept .., fun hb => refuseTx_leaves he hd hb st lane⟩
    refine ⟨fun hb => by rw [if_pos hb], fun hb => ?_⟩
    rw [if_neg (by simp [hb])]
    refine ⟨fun hs => ⟨fun hen hl => ?_, fun h => hrefused (takeTx_refused hs h)⟩, fun hs => ?_⟩
    · rw [takeTx_queued hs hen hl]
      obtain ⟨a, ha⟩ := putFrame_enters (u.modEntry r e.idx fun e => { e with state := .begun, copies := 1 })
        (txLane e.bytes) (txQueue e.bytes) (e.txFrame r)
      exact ⟨_, _, rfl, ha, rfl, rfl, entries_modEntry_single he fun e => { e with state := .begun, copies := 1 }⟩
    · intro x c
      refine ⟨fun h => hrefused (takeTx_noStream hs h), fun hv hn hg hl => ⟨_, rfl, ?_⟩⟩
      exact takeTx_numbered hs rfl rfl hv hn hg hl hb
  case start =>
    intro n
    rw [exec_frameStart, ← hu]
    refine ⟨fun h => by rw [frameStart_off h], fun hr => ⟨fun x hc => ?_, fun hc hb => by rw [frameStart_busy hr hc hb],
      fun hc h => ?_, fun q hc hb hq => ?_⟩⟩
    · intro express
      have hx : u.expressWaits l.val = true ↔ express := expressWaits_iff u l.val
      rw [frameStart_sending hr hc]
      refine ⟨fun hp h => by rw [if_pos (by rcases h with h | h <;> simp [hp, h, hx])], fun h => ?_⟩
      rw [if_neg ?_]
      rcases h with h | ⟨hg, hn⟩
      · simp [h]
      · simp [hg, Bool.eq_false_iff.mpr (mt hx.mp hn)]
    · rw [frameStart_none hr hc (List.find?_eq_none.mpr fun q hq => by simp [h q hq])]
    · rw [frameStart_starts hr hc hb hq]
      refine ⟨fun y hy => ⟨_, rfl, ?_⟩, fun f fs hn hf => ?_⟩
      · unfold State.queue
        rw [lane_startFrame_remainder hy]
        exact ⟨rfl, rfl, lane_counted_self ..⟩
      · obtain ⟨x, h⟩ := startFrame_head hn hf
        exact ⟨_, x, rfl, h⟩
  case sent =>
    intro n
    rw [exec_frameSent, ← hu]
    refine ⟨fun h => by rw [frameSent_idle h], fun x hc => ⟨fun h => by rw [frameSent_early hc h], fun h => ?_⟩⟩
    obtain ⟨hend, m, hm⟩ := frameSent_fields u l.val x
    simp only [Lane.ended, Prod.mk.injEq] at hend
    obtain ⟨hcur, hbusy, hcnt⟩ := hend
    rw [frameSent_leaves hc h]
    refine ⟨_, m, rfl, hcur, hbusy, hm, ?_, ?_⟩
    · rw [hcnt, lane_counted_other _ _ (by decide), lane_counted_self]
    · rw [hcnt, lane_counted_self, lane_counted_other _ _ (by decide)]
  case noFit =>
    rw [exec_txNofit, ← hu]
    exact ⟨fun f fs a h ha hp => by rw [noFit_discards h ha hp], fun h => by rw [noFit_stays h]⟩
  case receive =>
    intro f on n up
    rw [exec_frameReceive, ← hu]
    refine ⟨fun h => by rw [frameReceive_off h], fun h he => ?_, fun h he hb => by rw [frameReceive_unlocked h he hb],
      fun h he hb => ⟨fun hl => by rw [frameReceive_long h he hb hl],
        fun hl ha hg hp => by rw [frameReceive_foreign h he hb hl ha hg hp], fun hl ha ht hi => ?_⟩⟩
    · rw [frameReceive_error h he]
      have hre : u.reacquires l.val fr.octets = (n.connBusy || (n.connEnd ≠ 0 &&
        decide (u.now - n.octCycles (12 + fr.octets.length) < n.connEnd + nsC 120))) := rfl
      refine ⟨fun hb => by rw [hre, hb]; rfl, fun hb hz => ?_⟩
      have hno : u.reacquires l.val fr.octets = false := by simp [hre, hb, hz]
      rw [hno]
      exact ⟨fun hk => by rw [rxError_unlocked _ hk], fun hk => by rw [rxError_counts _ hk]⟩
    · obtain ⟨i, hlane, heq⟩ := frameReceive_delivers h he hb hl ha ht hi
      rw [heq]
      have hcnt := rxCounted_cnt u l.val (f.length + 4)
      refine ⟨fun x hx hc => ?_, fun hx => ?_⟩
      · rw [hx]
        have hk := rxStream_plain (u.rxCounted l.val (f.length + 4)) x f i hc
        exact ⟨_, rfl, (hk.lane _ 2 (by decide)).trans hcnt, hk.stream.trans (passed_cnt ..)⟩
      · intro r
        rw [hx]
        dsimp only
        have hk := (toHost_keeps (u.rxCounted l.val (f.length + 4)) (u.rf .eptCfg l.val 20 15) f i).2 l.val 2 (by decide)
        refine ⟨fun hd => ⟨_, rfl, hk.trans hcnt, ?_⟩, fun e hr hd hbm hrun => ?_⟩
        · rw [toHost_drops (s := u.rxCounted l.val (f.length + 4)) hd, hlane]
          exact ⟨rxDropped_cnt .., rxDropped_out ..⟩
        · rw [← rxCounted_ring u l.val (f.length + 4)] at hr hrun
          rw [← rxCounted_bmeUp u l.val (f.length + 4)] at hbm
          obtain ⟨c, hto, hpre⟩ := toHost_fills (d := f) (i := i) hr hd hbm hrun
          have hempty := complete_leaves hr hd hbm c
          rw [hto] at hk ⊢
          by_cases hfit : f.length ≤ lef e.bytes 4 4
          · obtain ⟨m, hm⟩ := complete_data hr hd hbm (hpre.trans (if_pos hfit))
            exact ⟨_, m, rfl, hempty, hk.trans hcnt, fun _ => hm.trans (by rw [rxCounted_out])⟩
          · exact ⟨_, [], rfl, hempty, hk.trans hcnt, fun h => absurd h hfit⟩

end Sys2Proof.Machine
end

section
/-! Settling O59: the election of the train manager and the coupling sequence. -/

namespace Sys2Proof.Machine

/-! ### What messages and events leave of a consist (R299, R317) -/

/-- `t` is `s` after messages and events: the consist's state but for its senders and counts, and the time unit, schedule,
registers and power state are kept. -/
structure State.Told (s t : State) : Prop where
  casc : ∃ a b n, t.casc = { s.casc with senders := a, cnt := b, txCount := n }
  time : t.time = s.time
  sched : t.sched = s.sched
  regs : t.regs = s.regs
  pwr : t.pwr = s.pwr

namespace State.Told

variable {s t u : State}

theorem of_casc (hc : t.casc = s.casc) (ht : t.time = s.time) (hs : t.sched = s.sched) (hr : t.regs = s.regs)
    (hp : t.pwr = s.pwr) : s.Told t := ⟨⟨_, _, _, hc⟩, ht, hs, hr, hp⟩

theorem refl (s : State) : s.Told s := of_casc rfl rfl rfl rfl rfl

theorem trans (h : s.Told t) (g : t.Told u) : s.Told u := by
  obtain ⟨a, b, n, hc⟩ := h.casc
  obtain ⟨a', b', n', gc⟩ := g.casc
  exact ⟨⟨a', b', n', by rw [gc, hc]⟩, g.time.trans h.time, g.sched.trans h.sched, g.regs.trans h.regs,
    g.pwr.trans h.pwr⟩

theorem foldl {α : Type} (l : List α) {f : State → α → State} (h : ∀ (s : State) a, s.Told (f s a)) (s : State) :
    s.Told (l.foldl f s) := by
  induction l generalizing s with
  | nil => exact refl s
  | cons a l ih => exact (h s a).trans (ih _)

theorem sendOwn (s : State) (l : Nat) (f : TxFrame) : s.Told (s.sendOwn l f) := by
  unfold State.sendOwn
  split <;> exact of_casc rfl rfl rfl rfl rfl

theorem sendBiarn (s : State) (k : Nat) (p : List Byte) : s.Told (s.sendBiarn k p) := by
  unfold State.sendBiarn
  split
  · exact refl s
  · have hcount : s.Told (s.onCasc fun c => { c with txCount := c.txCount + 1 }) :=
      ⟨⟨_, _, _, rfl⟩, rfl, rfl, rfl, rfl⟩
    exact hcount.trans (foldl _ (fun _ _ => sendOwn ..) _)

theorem consistEvent (s : State) (k a : Nat) (d : List Byte) : s.Told (s.consistEvent k a d) :=
  of_casc (event_keeps_casc ..) (event_keeps_time ..) (event_keeps_sched ..) (event_keeps_regs ..) (event_keeps_pwr ..)

theorem sendHeartbeat (s : State) : s.Told s.sendHeartbeat := by
  have hfree : s.Told { s with free := s.free + 5 } := of_casc rfl rfl rfl rfl rfl
  exact hfree.trans (sendBiarn ..)

theorem noteSender (s : State) (h : BiarnHdr) : s.Told (s.noteSender h) := ⟨⟨_, _, _, rfl⟩, rfl, rfl, rfl, rfl⟩
theorem casCount (s : State) (k : Nat) : s.Told (s.casCount k) := ⟨⟨_, _, _, rfl⟩, rfl, rfl, rfl, rfl⟩

theorem relay (s : State) (l : Nat) (f : BiarnFrame) (h : BiarnHdr) : s.Told (s.relay l f h) := by
  unfold State.relay
  dsimp only
  split
  · exact refl s
  · exact (foldl _ (fun _ _ => sendOwn ..) _).trans (casCount ..)

theorem now (h : s.Told t) : t.now = s.now := by
  unfold State.now
  rw [h.time]

theorem recByte (h : s.Told t) (o : Nat) : t.recByte o = s.recByte o := by
  obtain ⟨a, b, n, hc⟩ := h.casc
  unfold State.recByte
  rw [hc]

theorem consistId (h : s.Told t) : t.consistId = s.consistId := by
  obtain ⟨a, b, n, hc⟩ := h.casc
  unfold State.consistId State.recLE
  rw [hc]

theorem countedSlots (h : s.Told t) : t.countedSlots = s.countedSlots := by
  obtain ⟨a, b, n, hc⟩ := h.casc
  unfold State.countedSlots State.slotNum
  rw [hc, h.pwr]

end State.Told

/-! ### Frames accepted (R300, R301) -/

/-- The state when an accepted frame acts: its sender is noted, and it is counted and relayed. -/
def State.accept (s : State) (l : Nat) (f : BiarnFrame) : State :=
  ((s.noteSender (biarnHdr f.octets)).casCount 0).relay l f (biarnHdr f.octets)

theorem told_accept (s : State) (l : Nat) (f : BiarnFrame) : s.Told (s.accept l f) :=
  ((State.Told.noteSender ..).trans (.casCount ..)).trans (.relay ..)

/-- A frame of a type that passes every check acts. -/
theorem biarnArrives_accepted {s : State} {f : BiarnFrame} {k : Nat} (h : s.biarnUp = true ∧ isBiarn f.octets = true ∧
    (biarnHdr f.octets).type = k ∧ s.biarnFail f (biarnHdr f.octets) = none) (l : Nat) (act : State → BiarnHdr → State) :
    s.biarnArrives l k f act = act (s.accept l f) (biarnHdr f.octets) := by
  obtain ⟨hu, hb, hk, hn⟩ := h
  unfold State.biarnArrives
  dsimp only
  rw [if_neg (by simp [hu, hb, hk]), hn]
  rfl

/-! ### Election frames (R311) -/

section
variable (s : State) (h : BiarnHdr) (cnt : Nat) (list : List TrainConsist)

theorem trainFull_told : (s.trainFull h).casc = s.casc ∧ bit ((s.trainFull h).rg .cascRoleStatus) 25 = true := by
  have hb := bit_rg_setBit s .cascRoleStatus 0 (b := 25) (by decide)
  unfold State.trainFull State.consistEvent
  rw [event_keeps_casc, State.setBit_casc]
  exact ⟨rfl, by rw [rg_congr (event_keeps_regs ..)]; exact hb⟩

/-- A frame in an election fills the train, or is considered. -/
def State.weigh (s : State) (h : BiarnHdr) (n cnt : Nat) (list : List TrainConsist) : State :=
  if 4 < h.nconsist + n then s.trainFull h else s.consider h cnt list

theorem weigh_full {n : Nat} (hf : 4 < h.nconsist + n) : (s.weigh h n cnt list).casc = s.casc ∧
    bit ((s.weigh h n cnt list).rg .cascRoleStatus) 25 = true := by
  rw [State.weigh, if_pos hf]
  exact trainFull_told s h

/-- The key of a sender. -/
def BiarnHdr.key (h : BiarnHdr) : Byte × Dword := (BitVec.ofNat 8 h.priority, BitVec.ofNat 64 h.sender)

/-- The better of the key heard so far and a sender's. -/
def Casc.bestWith (c : Casc) (h : BiarnHdr) : Byte × Dword :=
  match c.bestKey with
  | some b => if betterKey (h.priority, h.sender) (b.1.toNat, b.2.toNat) then h.key else b
  | none => h.key

theorem bestWith_none {c : Casc} (hb : c.bestKey = none) : c.bestWith h = h.key := by rw [Casc.bestWith, hb]

theorem bestWith_some {c : Casc} {b : Byte × Dword} (hb : c.bestKey = some b) :
    c.bestWith h = if betterKey (h.priority, h.sender) (b.1.toNat, b.2.toNat) then h.key else b := by rw [Casc.bestWith, hb]

theorem consider_casc : ∃ c l, (s.consider h cnt list).casc =
    { s.casc with bestKey := some (s.casc.bestWith h), bestCnt := c, heardList := l } := by
  unfold State.consider
  dsimp only
  rw [State.onCasc_casc]
  cases hb : s.casc.bestKey with
  | none =>
    rw [bestWith_none h hb]
    exact ⟨_, _, rfl⟩
  | some b =>
    rw [bestWith_some h hb, apply_ite some]
    exact ⟨_, _, rfl⟩

theorem weigh_considers {n : Nat} (hf : ¬ 4 < h.nconsist + n) : ∃ c l, (s.weigh h n cnt list).casc =
    { s.casc with bestKey := some (s.casc.bestWith h), bestCnt := c, heardList := l } := by
  rw [State.weigh, if_neg hf]
  exact consider_casc s h cnt list

/-- The manager is one of the train. -/
def State.lists (s : State) (id : Nat) : Bool := s.casc.train.any fun t => t.mgr.toNat = id

/-- CLAIMING has lasted 6 ms. -/
def State.claimLate (s : State) : Prop :=
  match s.casc.claimAt with
  | some a => a + msC 6 ≤ s.now
  | none => True

theorem foreignClaim_leaves (hr : s.casc.role = .claiming) (hl : s.lists h.sender = true ∨ s.claimLate) :
    s.foreignClaim h cnt list = s := by
  unfold State.foreignClaim
  dsimp only
  by_cases hi : s.lists h.sender = true
  · exact if_pos hi
  · refine (if_neg hi).trans ((if_pos (by simp [hr])).trans (if_pos ?_))
    have hlate := hl.resolve_left hi
    unfold State.claimLate at hlate
    revert hlate
    cases s.casc.claimAt with
    | none => exact fun _ => rfl
    | some a => exact fun ha => by simpa using ha

theorem foreignClaim_weighs (hr : s.casc.role = .claiming) (hl : s.lists h.sender = false) (ho : ¬ s.claimLate) :
    s.foreignClaim h cnt list = s.weigh h s.casc.train.length cnt list := by
  unfold State.foreignClaim
  dsimp only
  refine (if_neg (Bool.eq_false_iff.mp hl)).trans ((if_pos (by simp [hr])).trans (if_neg ?_))
  unfold State.claimLate at ho
  revert ho
  cases s.casc.claimAt with
  | none => exact fun h => absurd trivial h
  | some a => exact fun ha => by simpa using ha

theorem foreignClaim_claims (hr : s.casc.role = .trainMgr) (hl : s.lists h.sender = false) :
    s.foreignClaim h cnt list = (s.enterClaiming h.sender).weigh h s.casc.train.length cnt list := by
  unfold State.foreignClaim
  dsimp only
  exact (if_neg (Bool.eq_false_iff.mp hl)).trans ((if_neg (by simp [hr])).trans (if_pos (by simp [hr])))

/-- A consist's manager at t_s. -/
def Casc.claiming (c : Casc) (now : Nat) : Casc :=
  { c with wasTm := c.role = .trainMgr, role := .claiming, claimAt := some now, claimRounds := 1, bestKey := none,
           bestCnt := c.inaugCnt, heardList := [] }

theorem told_enterClaiming (n : Nat) : (s.onCasc fun c => c.claiming s.now).Told (s.enterClaiming n) :=
  (State.Told.consistEvent ..).trans (.sendBiarn ..)
end


/-- What the election reads of `t` is what it reads of `s`. -/
structure State.HearsAs (s t : State) : Prop where
  role : t.casc.role = s.casc.role
  claimAt : t.casc.claimAt = s.casc.claimAt
  bestKey : t.casc.bestKey = s.casc.bestKey
  bestCnt : t.casc.bestCnt = s.casc.bestCnt
  train : t.casc.train.length = s.casc.train.length
  lists : ∀ id, t.lists id = s.lists id
  now : t.now = s.now

theorem State.Told.hearsAs {s t : State} (h : s.Told t) : s.HearsAs t := by
  obtain ⟨a, b, n, hc⟩ := h.casc
  refine ⟨?_, ?_, ?_, ?_, ?_, fun id => ?_, h.now⟩
  · rw [hc]
  · rw [hc]
  · rw [hc]
  · rw [hc]
  · rw [hc]
  · unfold State.lists
    rw [hc]

theorem State.HearsAs.heardConsist {s t : State} (h : s.HearsAs t) (b : BiarnHdr) : s.HearsAs (t.heardConsist b) := by
  refine ⟨h.role, h.claimAt, h.bestKey, h.bestCnt, ?_, fun id => ?_, h.now⟩
  · rw [State.heardConsist, State.onCasc_casc]
    exact List.length_map _ |>.trans h.train
  · rw [← h.lists]
    unfold State.lists State.heardConsist
    rw [State.onCasc_casc]
    dsimp only
    rw [List.any_map]
    congr 1
    funext t
    dsimp only [Function.comp]
    split <;> rfl

section
variable {s v : State} (hv : s.HearsAs v) (h : BiarnHdr) (cnt : Nat) (list : List TrainConsist)
include hv

/-- A train manager that hears an election frame from outside its train claims, and weighs the frame. -/
theorem trainMgr_claims (hr : s.casc.role = .trainMgr) (hl : s.lists h.sender = false) :
    let t := v.foreignClaim h cnt list
    t.casc.role = .claiming ∧ t.casc.claimAt = some s.now ∧ t.casc.claimRounds = 1 ∧ t.casc.wasTm = true ∧
    (4 < h.nconsist + s.casc.train.length → bit (t.rg .cascRoleStatus) 25 = true ∧ t.casc.bestKey = none) ∧
    (¬ 4 < h.nconsist + s.casc.train.length → t.casc.bestKey = some h.key) := by
  rw [← hv.role] at hr
  rw [← hv.lists] at hl
  rw [foreignClaim_claims v h cnt list hr hl, ← hv.train, ← hv.now]
  obtain ⟨a, b, n, hc⟩ := (told_enterClaiming v h.sender).casc
  rw [State.onCasc_casc] at hc
  by_cases hf : 4 < h.nconsist + v.casc.train.length
  · obtain ⟨hk, hb⟩ := weigh_full (v.enterClaiming h.sender) h cnt list hf
    dsimp only
    rw [hk, hc]
    exact ⟨rfl, rfl, rfl, decide_eq_true hr, fun _ => ⟨hb, rfl⟩, fun h => absurd hf h⟩
  · obtain ⟨c, l, hk⟩ := weigh_considers (v.enterClaiming h.sender) h cnt list hf
    dsimp only
    rw [hk, hc]
    exact ⟨rfl, rfl, rfl, decide_eq_true hr, fun h => absurd h hf, fun _ => congrArg some (bestWith_none h rfl)⟩

/-- A manager that claims weighs such a frame within 6 ms. -/
theorem claiming_weighs (hr : s.casc.role = .claiming) : let t := v.foreignClaim h cnt list
    let full := 4 < h.nconsist + s.casc.train.length
    t.casc.role = .claiming ∧ t.casc.claimAt = s.casc.claimAt ∧
    ((s.lists h.sender = true ∨ s.claimLate ∨ full) →
      t.casc.bestKey = s.casc.bestKey ∧ t.casc.bestCnt = s.casc.bestCnt) ∧
    (s.lists h.sender = false → ¬ s.claimLate → full → bit (t.rg .cascRoleStatus) 25 = true) ∧
    (s.lists h.sender = false → ¬ s.claimLate → ¬ full → t.casc.bestKey = some (s.casc.bestWith h)) := by
  have hrv := hv.role.trans hr
  have hlate : v.claimLate ↔ s.claimLate := by
    unfold State.claimLate
    rw [hv.claimAt, hv.now]
  have hbest : v.casc.bestWith h = s.casc.bestWith h := by
    unfold Casc.bestWith
    rw [hv.bestKey]
  rw [← hv.train, ← hv.lists, ← hlate, ← hv.claimAt, ← hv.bestKey, ← hv.bestCnt, ← hbest]
  dsimp only
  by_cases ho : v.lists h.sender = true ∨ v.claimLate
  · rw [foreignClaim_leaves v h cnt list hrv ho]
    exact ⟨hrv, rfl, fun _ => ⟨rfl, rfl⟩, fun hl hc => absurd ho (by simp [hl, hc]),
      fun hl hc => absurd ho (by simp [hl, hc])⟩
  · rw [not_or] at ho
    obtain ⟨hl, hc⟩ := ho
    rw [foreignClaim_weighs v h cnt list hrv (Bool.eq_false_iff.mpr hl) hc]
    by_cases hf : 4 < h.nconsist + v.casc.train.length
    · obtain ⟨hk, hb⟩ := weigh_full v h cnt list hf
      rw [hk]
      exact ⟨hrv, rfl, fun _ => ⟨rfl, rfl⟩, fun _ _ _ => hb, fun _ _ hn => absurd hf hn⟩
    · obtain ⟨c, l, hk⟩ := weigh_considers v h cnt list hf
      rw [hk]
      exact ⟨hrv, rfl, fun h => absurd h (by simp [hl, hc, hf]), fun _ _ h => absurd h hf, fun _ _ _ => rfl⟩
end

section
variable {s : State} {f : BiarnFrame} {k : Nat} (hg : s.biarnUp = true ∧ isBiarn f.octets = true ∧
    (biarnHdr f.octets).type = k ∧ s.biarnFail f (biarnHdr f.octets) = none) (l : Nat)
include hg

theorem claimFrame_arrives (hm : (biarnHdr f.octets).consist ≠ s.consistId) : ∃ v cnt list, s.HearsAs v ∧
    s.biarnArrives l k f State.claimArrives = v.foreignClaim (biarnHdr f.octets) cnt list := by
  have ht := told_accept s l f
  rw [biarnArrives_accepted hg, State.claimArrives, if_neg (by rw [ht.consistId]; exact hm)]
  exact ⟨_, _, _, ht.hearsAs, rfl⟩

/-- A manager of another consist hears a train manager. -/
theorem heartbeat_arrives (hm : (biarnHdr f.octets).consist ≠ s.consistId) (hr : (biarnHdr f.octets).role = 3)
    (hmgr : s.casc.role.manages = true) : ∃ v : State, s.Told v ∧ s.biarnArrives l k f State.heartbeatArrives =
      let t := v.heardConsist (biarnHdr f.octets)
      let list := parseTrain s.now 4 ((biarnHdr f.octets).payload.drop 18)
      if s.casc.role = .deputy then t.followTrain (biarnHdr f.octets) (bef (biarnHdr f.octets).payload 8 2) list
      else t.foreignClaim (biarnHdr f.octets) (bef (biarnHdr f.octets).payload 8 2) list := by
  have ht := told_accept s l f
  have hrole := ht.hearsAs.role
  refine ⟨s.accept l f, ht, ?_⟩
  rw [biarnArrives_accepted hg, State.heartbeatArrives]
  dsimp only
  rw [if_neg (by rw [ht.consistId]; exact hm), if_neg (by simp [hrole, hmgr]), if_neg (by simp [hr]),
    (ht.hearsAs.heardConsist _).role, ht.now]
end

/-! ### Roles and the start of a coupling (R312, R313) -/

theorem now_modInst (s : State) (n : Nat) (f : PtpInst → PtpInst) : (s.modInst n f).now = s.now := rfl

theorem now_of_time {s t : State} (h : t.time = s.time) : t.now = s.now := by
  unfold State.now
  rw [h]

theorem putDom_keeps (s : State) (n : Nat) (v : Word) : (s.putDom n v).casc = s.casc ∧ (s.putDom n v).now = s.now := by
  unfold State.putDom State.turnRoles
  dsimp only
  rw [State.putReg_casc, State.modInst_casc, now_of_time (State.putReg_time ..), now_modInst]
  exact ⟨rfl, rfl⟩

/-- The supervisor's write of a role leaves the consist and the clock. -/
theorem roleWrite_keeps (s : State) (n : Nat) (gm : Bool) (role : Nat) :
    (s.roleWrite n gm role).casc = s.casc ∧ (s.roleWrite n gm role).now = s.now := by
  unfold State.roleWrite
  extract_lets w v
  split
  · exact ⟨State.setBit_casc .., now_of_time (State.setBit_time ..)⟩
  · exact putDom_keeps ..

theorem foldl_roleWrite_keeps (gm : State → Nat → Bool) (role : State → Nat → Nat) (ns : List Nat) (s : State) :
    let t := ns.foldl (fun s n => s.roleWrite n (gm s n) (role s n)) s
    t.casc = s.casc ∧ t.now = s.now := by
  induction ns generalizing s with
  | nil => exact ⟨rfl, rfl⟩
  | cons n ns ih =>
    obtain ⟨hc, hn⟩ := roleWrite_keeps s n (gm s n) (role s n)
    obtain ⟨ic, inow⟩ := ih (s.roleWrite n (gm s n) (role s n))
    exact ⟨ic.trans hc, inow.trans hn⟩

theorem trainRoles_casc (s : State) : s.trainRoles.casc = s.casc := by
  unfold State.trainRoles
  obtain ⟨hc, -⟩ := foldl_roleWrite_keeps (fun s n => (s.recByte 32).testBit n) (fun s n => s.recLE (24 + 2 * n) 2) [0, 1] s
  exact hc

/-- A deputy's GM bits are cleared before its roles are set. -/
def State.gmOff (s : State) : State := [0, 1].foldl (fun s n => s.roleWrite n false (fld (s.rg .timeDomCfg n) 15 0)) s

theorem gmOff_keeps (s : State) : s.gmOff.casc = s.casc ∧ s.gmOff.now = s.now := by
  unfold State.gmOff
  exact foldl_roleWrite_keeps (fun _ _ => false) (fun s n => fld (s.rg .timeDomCfg n) 15 0) [0, 1] s

theorem deputyRoles_eq (s : State) : s.deputyRoles =
    [0, 1].foldl (fun s n => s.roleWrite n (bit (s.rg .timeDomCfg n) 30) (s.recLE (28 + 2 * n) 2)) s.gmOff := by
  rw [State.deputyRoles, State.gmOff]

theorem deputyRoles_keeps (s : State) : s.deputyRoles.casc = s.casc ∧ s.deputyRoles.now = s.now := by
  obtain ⟨hc, hn⟩ := gmOff_keeps s
  rw [deputyRoles_eq, ← hc, ← hn]
  exact foldl_roleWrite_keeps (fun s n => bit (s.rg .timeDomCfg n) 30) (fun s n => s.recLE (28 + 2 * n) 2) [0, 1] s.gmOff

/-- The consist in a coupling sequence whose limit is `till`. -/
def Casc.coupled (c : Casc) (till : Nat) : Casc :=
  { c with coupling := true, coupleEnd := some till, outcome := none, stepAuth := false, readySlots := [] }

theorem startCoupling_casc (s : State) : s.startCoupling.casc = s.casc.coupled (s.now + msC (100 * s.recByte 11)) := rfl
theorem startCoupling_refSince (s : State) : s.startCoupling.time.refSince = 0 := rfl

theorem recByte_congr {s t : State} (h : t.casc = s.casc) (o : Nat) : t.recByte o = s.recByte o := by
  unfold State.recByte
  rw [h]

theorem coupleConsist_casc (s : State) : ∃ a b n, s.coupleConsist.casc =
    { s.casc.coupled (s.now + msC (100 * s.recByte 11)) with senders := a, cnt := b, txCount := n } := by
  have hk := deputyRoles_keeps s
  have ht := State.Told.sendBiarn s.deputyRoles 3
    (beBytes 8 s.deputyRoles.casc.tmId.toNat ++ beBytes 2 s.deputyRoles.casc.inaugCnt.toNat)
  obtain ⟨a, b, n, hc⟩ := ht.casc
  refine ⟨a, b, n, ?_⟩
  rw [State.coupleConsist, startCoupling_casc, ht.now, ht.recByte, hk.2, recByte_congr hk.1, hc, hk.1]
  rfl

theorem told_deputyEvent (s : State) : s.Told s.deputyEvent := .consistEvent ..

/-! ### A train manager's list at a deputy (R312) -/

section
variable {s : State} {h : BiarnHdr} (cnt : Nat) {list : List TrainConsist}

theorem followTrain_own (hi : s.casc.tmId.toNat = h.sender) : ∃ l, (s.followTrain h cnt list).casc =
    { s.casc with inaugCnt := BitVec.ofNat 16 cnt, train := l } := by
  unfold State.followTrain
  dsimp only
  rw [if_pos hi]
  exact ⟨_, rfl⟩

theorem followTrain_leaves (hi : s.casc.tmId.toNat ≠ h.sender) (hl : (list.any fun c => c.id.toNat = s.consistId) = false) :
    s.followTrain h cnt list = s := by
  unfold State.followTrain
  dsimp only
  rw [if_neg hi, if_neg (Bool.eq_false_iff.mp hl)]

/-- A deputy adopts another train manager, and couples. -/
theorem followTrain_adopts (hi : s.casc.tmId.toNat ≠ h.sender)
    (hl : (list.any fun c => c.id.toNat = s.consistId) = true) : let t := s.followTrain h cnt list
    t.casc.role = s.casc.role ∧ t.casc.tmId = BitVec.ofNat 64 h.sender ∧ t.casc.tmHeard = s.now ∧
    t.casc.coupling = true := by
  unfold State.followTrain
  dsimp only
  rw [if_neg hi, if_pos hl]
  generalize hw : (s.onCasc fun c => { c with inaugCnt := BitVec.ofNat 16 cnt, train := _ }).onCasc _ = w
  obtain ⟨a, b, n, hc⟩ := coupleConsist_casc w.deputyEvent
  obtain ⟨a', b', n', he⟩ := (told_deputyEvent w).casc
  rw [hc, he, ← hw]
  exact ⟨rfl, rfl, rfl, rfl⟩
end

/-! ### COUPLE and RELEASE (R314) -/

theorem hearsManager_iff (s : State) (h : BiarnHdr) : s.hearsManager h = true ↔
    s.casc.role = .worker ∧ s.casc.mgrLost = false ∧ h.consist = s.consistId ∧ h.manages = true := by
  simp [State.hearsManager, and_assoc]

theorem State.Told.hearsManager {s t : State} (ht : s.Told t) (h : BiarnHdr) : t.hearsManager h = s.hearsManager h := by
  obtain ⟨a, b, n, hc⟩ := ht.casc
  unfold State.hearsManager
  rw [ht.consistId, hc]

theorem hearsManager_false {s : State} {h : BiarnHdr} (hn : s.casc.role ≠ .worker ∨ s.casc.mgrLost = true ∨
    ¬ h.consist = s.consistId ∨ h.manages = false) : s.hearsManager h = false := by
  rw [Bool.eq_false_iff, Ne, hearsManager_iff]
  rintro ⟨hr, hl, hc, hm⟩
  simp [hr, hl, hc, hm] at hn

theorem coupleArrives_starts {s : State} {h : BiarnHdr} (hh : s.hearsManager h = true) : let t := s.coupleArrives h
    t.casc.coupling = true ∧ t.casc.outcome = none ∧ t.casc.coupleEnd = some (s.now + msC (100 * s.recByte 11)) ∧
    t.casc.tmId = BitVec.ofNat 64 (bef h.payload 0 8) ∧ t.casc.inaugCnt = BitVec.ofNat 16 (bef h.payload 8 2) ∧
    t.time.refSince = 0 := by
  dsimp only
  rw [State.coupleArrives, if_pos hh, startCoupling_casc, startCoupling_refSince, State.onCasc_casc]
  exact ⟨rfl, rfl, rfl, rfl, rfl, rfl⟩

theorem releaseCoupling_ends (s : State) : s.releaseCoupling.sched.couplingHeld = false ∧
    s.releaseCoupling.casc = { s.casc with coupling := false, coupleEnd := none } := ⟨rfl, rfl⟩

/-- A deputy releases its consist. -/
theorem sendRelease_ends (s : State) : s.sendRelease.casc.coupling = false ∧ s.sendRelease.sched.couplingHeld = false ∧
    s.sendRelease.casc.readySlots = s.casc.readySlots ∧ s.sendRelease.casc.outcome = s.casc.outcome := by
  unfold State.sendRelease
  extract_lets n
  have ht := (State.Told.sendBiarn s 5 [BitVec.ofNat 8 n]).trans (.consistEvent _ 5 0 [BitVec.ofNat 8 n])
  obtain ⟨a, b, k, hc⟩ := ht.casc
  generalize (s.sendBiarn 5 [BitVec.ofNat 8 n]).consistEvent 5 0 [BitVec.ofNat 8 n] = v at hc ⊢
  obtain ⟨hs, hk⟩ := releaseCoupling_ends v
  rw [hk, hc]
  exact ⟨rfl, hs, rfl, rfl⟩

/-- Every member that a deputy counts is ready. -/
def State.allReady (s : State) : Prop := s.casc.role = .deputy ∧ ∀ k ∈ s.countedSlots, k ∈ s.casc.readySlots

theorem checkRelease_waits {s : State} (h : s.casc.coupling = false ∨ ¬ s.allReady) : s.checkRelease = s := by
  refine if_neg ?_
  rcases h with h | h
  · simp [h]
  · simp only [State.allReady, not_and_or] at h
    rcases h with h | h
    · simp [h]
    · intro hc
      exact h (by simpa using (Bool.and_eq_true_iff.mp hc).2)

theorem checkRelease_releases {s : State} (hc : s.casc.coupling = true) (h : s.allReady) :
    s.checkRelease = s.sendRelease := by
  obtain ⟨hr, ha⟩ := h
  exact if_pos (by simpa [hc, hr] using ha)

/-- The consist's readiness and the coupling after the check. -/
theorem checkRelease_fields (s : State) : s.checkRelease.casc.readySlots = s.casc.readySlots ∧
    s.checkRelease.casc.outcome = s.casc.outcome ∧
    (s.casc.coupling = true → s.checkRelease.casc.coupling = false → s.checkRelease.sched.couplingHeld = false) ∧
    (s.casc.coupling = true → s.allReady → s.checkRelease.casc.coupling = false ∧
      s.checkRelease.sched.couplingHeld = false) ∧
    (s.casc.coupling = false ∨ ¬ s.allReady → s.checkRelease.casc.coupling = s.casc.coupling) := by
  by_cases h : s.casc.coupling = false ∨ ¬ s.allReady
  · rw [checkRelease_waits h]
    exact ⟨rfl, rfl, fun hc hn => absurd hc (by simp [hn]), fun hc ha => absurd h (by simp [hc, ha]), fun _ => rfl⟩
  · simp only [not_or, Bool.not_eq_false, not_not] at h
    obtain ⟨hc, ha⟩ := h
    rw [checkRelease_releases hc ha]
    obtain ⟨he, hs, hr, ho⟩ := sendRelease_ends s
    exact ⟨hr, ho, fun _ _ => hs, fun _ _ => ⟨he, hs⟩, fun h => absurd h (by simp [hc, ha])⟩

/-! ### The claims and their end (R311, R312) -/

theorem exec_claimRound (s : State) (dt : Nat) : exec (.claimRound dt) s = .next (s.pass dt).claimRound.finish := rfl
theorem exec_claimEnd (s : State) (dt : Nat) : exec (.claimEnd dt) s = .next (s.pass dt).claimEnd.finish := rfl

theorem sendBiarn_casc {s : State} (h : s.biarnUp = true) (k : Nat) (p : List Byte) :
    (s.sendBiarn k p).casc = { s.casc with txCount := s.casc.txCount + 1 } := by
  have hown : ∀ (t : State) l f, (t.sendOwn l f).casc = t.casc := fun t l f => by
    unfold State.sendOwn
    split <;> rfl
  rw [State.sendBiarn, if_neg (by simp [h])]
  exact foldl_keeps State.casc _ _ (fun _ _ => hown ..) _

section
variable {s : State}

theorem notClaiming (h : s.biarnUp = false ∨ s.casc.role ≠ .claiming ∨ s.casc.claimAt = none) {a : Nat}
    (ha : s.casc.claimAt = some a) : ¬ (s.biarnUp = true ∧ s.casc.role = .claiming) := by
  rintro ⟨hu, hr⟩
  simp [hu, hr, ha] at h

theorem claimRound_out (h : s.biarnUp = false ∨ s.casc.role ≠ .claiming ∨ s.casc.claimAt = none) : s.claimRound = s := by
  unfold State.claimRound
  split
  · rfl
  · next a ha =>
    refine if_neg ?_
    simp only [Bool.and_eq_true, decide_eq_true_eq]
    exact fun hc => notClaiming h ha hc.1.1

theorem claimEnd_out (h : s.biarnUp = false ∨ s.casc.role ≠ .claiming ∨ s.casc.claimAt = none) : s.claimEnd = s := by
  unfold State.claimEnd
  split
  · rfl
  · next a ha =>
    refine if_neg ?_
    simp only [Bool.and_eq_true, decide_eq_true_eq]
    exact fun hc => notClaiming h ha hc.1

section
variable {a : Nat} (ha : s.casc.claimAt = some a)
include ha

theorem claimRound_waits (h : 3 ≤ s.casc.claimRounds ∨ s.now < a + msC (2 * s.casc.claimRounds)) : s.claimRound = s := by
  rw [State.claimRound, ha]
  refine if_neg ?_
  simp only [Bool.and_eq_true, decide_eq_true_eq, not_and, not_le]
  exact fun hr => h.resolve_left (Nat.not_le.mpr hr.2)

theorem claimEnd_waits (h : s.now < a + msC 6) : s.claimEnd = s := by
  rw [State.claimEnd, ha]
  exact if_neg (by simp [h])

variable (hu : s.biarnUp = true) (hr : s.casc.role = .claiming)
include hu hr

theorem claimRound_claims (hn : s.casc.claimRounds < 3) (ht : a + msC (2 * s.casc.claimRounds) ≤ s.now) :
    s.claimRound = (s.onCasc fun c => { c with claimRounds := c.claimRounds + 1 }).sendClaim := by
  rw [State.claimRound, ha]
  exact if_pos (by simp [hu, hr, hn, ht])

theorem claimEnd_decides (ht : a + msC 6 ≤ s.now) : s.claimEnd = s.decideClaim := by
  rw [State.claimEnd, ha]
  exact if_pos (by simp [hu, hr, ht])
end

/-- The best key heard, where it beats the module's own. -/
def State.lostTo (s : State) : Option (Byte × Dword) :=
  s.casc.bestKey.filter fun b => betterKey (b.1.toNat, b.2.toNat) s.ownKey

theorem decideClaim_wins (h : s.lostTo = none) : let t := s.decideClaim
    t.casc.role = .trainMgr ∧ t.casc.inaugCnt = s.casc.bestCnt + 1 ∧ t.casc.tmId = BitVec.ofNat 64 s.unitId ∧
    t.casc.train = mergeTrain s.casc.train s.casc.heardList := by
  unfold State.lostTo at h
  unfold State.decideClaim
  dsimp only
  rw [h]
  dsimp only
  generalize hw : s.onCasc _ = w
  obtain ⟨a, b, n, hc⟩ := ((State.Told.sendHeartbeat w.trainRoles).trans (.consistEvent _ 1 _ _)).casc
  rw [hc, trainRoles_casc, ← hw]
  exact ⟨rfl, rfl, rfl, rfl⟩

theorem decideClaim_loses {b : Byte × Dword} (h : s.lostTo = some b) : let t := s.decideClaim
    t.casc.role = .deputy ∧ t.casc.inaugCnt = s.casc.bestCnt ∧ t.casc.tmId = b.2 ∧ t.casc.coupling = true ∧
    t.casc.coupleEnd = some (s.now + msC (100 * s.recByte 11)) := by
  unfold State.lostTo at h
  unfold State.decideClaim
  dsimp only
  rw [h]
  dsimp only
  generalize hw : s.onCasc _ = w
  have hn : w.now = s.now := by rw [← hw]; rfl
  have hb : w.recByte 11 = s.recByte 11 := by rw [← hw]; rfl
  have ht := told_deputyEvent w
  obtain ⟨a, k, n, hc⟩ := coupleConsist_casc w.deputyEvent
  obtain ⟨a', k', n', he⟩ := ht.casc
  rw [hc, ht.now, ht.recByte, hn, hb, he, ← hw]
  exact ⟨rfl, rfl, rfl, rfl, rfl⟩
end

/-! ### The coupling step and the coupling limit (R313) -/

theorem exec_couplingStep (s : State) (dt : Nat) : exec (.couplingStep dt) s = .next (s.pass dt).couplingStep.finish := rfl
theorem exec_couplingLimit (s : State) (dt : Nat) : exec (.couplingLimit dt) s = .next (s.pass dt).couplingLimit.finish := rfl

theorem askHold_casc (s : State) (w : HoldWhy) : (s.askHold w).casc = s.casc ∧
    (s.askHold w).sched.couplingHeld = s.sched.couplingHeld := by
  unfold State.askHold
  split
  · exact ⟨rfl, rfl⟩
  · split <;> exact ⟨rfl, rfl⟩

theorem authStep_casc (s : State) (w : StepCase) (d : Option Int) (o : Option (Nat × Nat)) :
    (s.authStep w d o).casc = s.casc ∧ (s.authStep w d o).sched.couplingHeld = s.sched.couplingHeld ∧
    (s.authStep w d o).time.refSince = s.time.refSince := by
  unfold State.authStep
  extract_lets t
  obtain ⟨hc, hh⟩ := askHold_casc t .step
  obtain ⟨ht, -, -⟩ := askHold_keeps t .step
  rw [State.irqPulse_casc, State.irqPulse_sched, State.irqPulse_time, hc, hh, ht]
  exact ⟨rfl, rfl, rfl⟩

/-- The coupling hold is asked for, and the count of refused samples begins anew. -/
def State.couplingHold (s : State) : State :=
  ((s.onSched fun c => { c with couplingHeld := true }).askHold .coupling).onTime fun t => { t with refSince := 0 }

theorem couplingHold_fields (s : State) : s.couplingHold.sched.couplingHeld = true ∧ s.couplingHold.time.refSince = 0 ∧
    s.couplingHold.now = s.now := by
  obtain ⟨-, hh⟩ := askHold_casc (s.onSched fun c => { c with couplingHeld := true }) .coupling
  obtain ⟨ht, -, -⟩ := askHold_keeps (s.onSched fun c => { c with couplingHeld := true }) .coupling
  unfold State.couplingHold
  exact ⟨hh, rfl, (congrArg (fun t : TimeUnit => t.raw.toNat) ht :)⟩

/-- A coupling step is due. -/
def State.couplingDue (s : State) : Bool :=
  s.biarnUp && s.casc.coupling && s.casc.outcome.isNone && s.time.step.isNone && !s.time.stepped &&
    !s.time.relocked && s.recByte 10 ≤ s.time.refSince

theorem couplingStep_idle {s : State} (h : s.couplingDue = false) : s.couplingStep = s := if_neg (Bool.eq_false_iff.mp h)

theorem couplingStep_steps {s : State} (h : s.couplingDue = true) : let t := s.couplingStep
    t.sched.couplingHeld = true ∧ t.casc.stepAuth = true ∧ t.time.refSince = 0 ∧
    t.time.step = some { why := .coupling, delta := none, authAt := s.now } := by
  have hstep : s.couplingStep = ((s.couplingHold.onCasc fun c => { c with stepAuth := true }).authStep .coupling none
      none).consistEvent 3 0 [BitVec.ofNat 8 s.time.refCnt] := if_pos h
  obtain ⟨hh, hr, hn⟩ := couplingHold_fields s
  obtain ⟨ac, ah, ar⟩ := authStep_casc (s.couplingHold.onCasc fun c => { c with stepAuth := true }) .coupling none none
  obtain ⟨as, -⟩ := authStep_fields (s.couplingHold.onCasc fun c => { c with stepAuth := true }) .coupling none none
  dsimp only
  rw [hstep, State.consistEvent, event_keeps_sched, event_keeps_casc, event_keeps_time, ac, ah, ar, as]
  exact ⟨hh, rfl, hr, congrArg (fun n => some ({ why := .coupling, delta := none, authAt := n } : StepReq)) hn⟩

/-- A module that is ready says so, and where that ends the coupling its hold is released. -/
theorem sendReady_fields {s : State} (o : Nat) (hc : s.casc.coupling = true) :
    (s.sendReady o).casc.outcome = some (BitVec.ofNat 8 o) ∧
    ((s.sendReady o).casc.coupling = false → (s.sendReady o).sched.couplingHeld = false) := by
  unfold State.sendReady
  extract_lets b t
  have ht : t.casc.outcome = b ∧ t.casc.coupling = true := ⟨rfl, hc⟩
  obtain ⟨hto, htc⟩ := ht
  clear_value t
  split
  · obtain ⟨a, k, n, hk⟩ := (State.Told.sendBiarn t 4 [BitVec.ofNat 8 o]).casc
    rw [hk]
    exact ⟨hto, fun h => absurd htc (Bool.eq_false_iff.mp h)⟩
  · obtain ⟨-, hout, hheld, -⟩ :=
      checkRelease_fields (t.onCasc fun c => { c with readySlots := c.readySlots ++ [t.slotNum] })
    exact ⟨hout.trans hto, hheld htc⟩

/-- The coupling limit has come. -/
def State.limitDue (s : State) : Bool := s.biarnUp && s.casc.coupling && s.expired s.casc.coupleEnd

theorem couplingLimit_idle {s : State} (h : s.limitDue = false) : s.couplingLimit = s := if_neg (Bool.eq_false_iff.mp h)

/-- READY is sent at the limit where the module has not been ready before. -/
def State.readyLate (s : State) : State :=
  if s.casc.outcome.isNone then s.sendReady (if s.time.lapsed then 2 else 3) else s

theorem readyLate_fields {s : State} (hc : s.casc.coupling = true) :
    s.readyLate.casc.outcome = (if s.casc.outcome = none then some (if s.time.lapsed then 2#8 else 3#8) else s.casc.outcome) ∧
    (s.readyLate.casc.coupling = false → s.readyLate.sched.couplingHeld = false) := by
  unfold State.readyLate
  cases ho : s.casc.outcome with
  | none =>
    obtain ⟨hs, hh⟩ := sendReady_fields (if s.time.lapsed then 2 else 3) hc
    refine ⟨hs.trans ?_, hh⟩
    cases s.time.lapsed <;> rfl
  | some o => exact ⟨ho, fun h => absurd hc (by simpa using h)⟩

theorem couplingLimit_ends {s : State} (h : s.limitDue = true) : let t := s.couplingLimit
    t.casc.coupling = false ∧ t.sched.couplingHeld = false ∧ t.casc.outcome =
      (if s.casc.outcome = none then some (if s.time.lapsed then 2#8 else 3#8) else s.casc.outcome) := by
  have hl : s.couplingLimit = if !s.readyLate.casc.coupling then s.readyLate
      else if s.readyLate.casc.role = .deputy then s.readyLate.sendRelease else s.readyLate.releaseCoupling := if_pos h
  have hc : s.casc.coupling = true := by
    simp only [State.limitDue, Bool.and_eq_true] at h
    exact h.1.2
  obtain ⟨ho, hh⟩ := readyLate_fields hc
  dsimp only
  rw [hl, ← ho]
  split
  · next hn =>
    have hn : s.readyLate.casc.coupling = false := by simpa using hn
    exact ⟨hn, hh hn, rfl⟩
  · split
    · obtain ⟨he, hs, -, hout⟩ := sendRelease_ends s.readyLate
      exact ⟨he, hs, hout⟩
    · obtain ⟨hs, hk⟩ := releaseCoupling_ends s.readyLate
      rw [hk]
      exact ⟨rfl, hs, rfl⟩

/-! ### READY at a manager (R314) -/

theorem manages_eq (r : CascRole) : (r = .trainMgr → r.manages = true) ∧ (r = .claiming → r.manages = true) ∧
    (r = .deputy → r.manages = true) := by
  cases r <;> decide

section
variable {s v : State} (ht : s.Told v) (h : BiarnHdr)
include ht

theorem readyArrives_ignored (hn : s.casc.role.manages = false ∨ ¬ h.consist = s.consistId) : v.readyArrives h = v := by
  rw [← ht.consistId, ← ht.hearsAs.role] at hn
  exact if_neg (by rcases hn with hn | hn <;> simp [hn])

/-- A manager notes the slot that is ready, and a deputy whose members all are releases its consist. -/
theorem readyArrives_notes (hr : s.casc.role.manages = true) (hm : h.consist = s.consistId) : let t := v.readyArrives h
    let all := s.casc.role = .deputy ∧ ∀ k ∈ s.countedSlots, k ∈ s.casc.readySlots ++ [h.slot]
    t.casc.readySlots = s.casc.readySlots ++ [h.slot] ∧
    (s.casc.coupling = true → all → t.casc.coupling = false ∧ t.sched.couplingHeld = false) ∧
    (s.casc.coupling = false ∨ ¬ all → t.casc.coupling = s.casc.coupling) := by
  have hacts : v.readyArrives h = ((v.consistEvent 4 h.slot (h.payload.take 1)).onCasc fun c =>
      { c with readySlots := c.readySlots ++ [h.slot] }).checkRelease :=
    if_pos (by rw [← ht.consistId] at hm; rw [← ht.hearsAs.role] at hr; simp [hr, hm])
  have hw := ht.trans (.consistEvent v 4 h.slot (h.payload.take 1))
  rw [hacts]
  generalize v.consistEvent 4 h.slot (h.payload.take 1) = w at hw ⊢
  obtain ⟨a, b, n, hc⟩ := hw.casc
  have hcount := hw.countedSlots
  have hslots : (w.onCasc fun c => { c with readySlots := c.readySlots ++ [h.slot] }).casc.readySlots =
      s.casc.readySlots ++ [h.slot] := by rw [State.onCasc_casc, hc]
  have hcoup : (w.onCasc fun c => { c with readySlots := c.readySlots ++ [h.slot] }).casc.coupling = s.casc.coupling := by
    rw [State.onCasc_casc, hc]
  have hall : (w.onCasc fun c => { c with readySlots := c.readySlots ++ [h.slot] }).allReady ↔
      s.casc.role = .deputy ∧ ∀ k ∈ s.countedSlots, k ∈ s.casc.readySlots ++ [h.slot] := by
    unfold State.allReady
    rw [hslots, ← hcount, State.onCasc_casc, hc]
    rfl
  obtain ⟨hk, -, -, hrel, hwait⟩ :=
    checkRelease_fields (w.onCasc fun c => { c with readySlots := c.readySlots ++ [h.slot] })
  rw [hcoup, hall] at hrel hwait
  exact ⟨hk.trans hslots, hrel, hwait⟩
end

/-! ### The instructions of frames that arrive -/

section
variable (s : State) (dt : Nat) (l : Fin 8) (f : BiarnFrame)

theorem exec_claim : exec (.claim dt l f) s =
    .next ((s.pass dt).biarnArrives l.val 2 f State.claimArrives).finish := rfl
theorem exec_heartbeat : exec (.heartbeat dt l f) s =
    .next ((s.pass dt).biarnArrives l.val 1 f State.heartbeatArrives).finish := rfl
theorem exec_couple : exec (.couple dt l f) s =
    .next ((s.pass dt).biarnArrives l.val 3 f State.coupleArrives).finish := rfl
theorem exec_ready : exec (.ready dt l f) s =
    .next ((s.pass dt).biarnArrives l.val 4 f State.readyArrives).finish := rfl
theorem exec_release : exec (.release dt l f) s =
    .next ((s.pass dt).biarnArrives l.val 5 f State.releaseArrives).finish := rfl
end

section
variable {u : State} {f : BiarnFrame}

/-- A deputy that hears a train manager follows it, adopts it, or leaves it. -/
theorem deputy_follows (hg : u.biarnUp = true ∧ isBiarn f.octets = true ∧ (biarnHdr f.octets).type = 1 ∧
    u.biarnFail f (biarnHdr f.octets) = none) (l : Nat) (hm : (biarnHdr f.octets).consist ≠ u.consistId)
    (hr : (biarnHdr f.octets).role = 3) (hd : u.casc.role = .deputy) :
    let h := biarnHdr f.octets
    let list := parseTrain u.now 4 (h.payload.drop 18)
    let t := u.biarnArrives l 1 f State.heartbeatArrives
    t.casc.role = .deputy ∧
    (u.casc.tmId.toNat = h.sender → t.casc.tmId = u.casc.tmId ∧ t.casc.tmHeard = u.now ∧
      t.casc.inaugCnt = BitVec.ofNat 16 (bef h.payload 8 2)) ∧
    (u.casc.tmId.toNat ≠ h.sender → (list.any fun c => c.id.toNat = u.consistId) = true →
      t.casc.tmId = BitVec.ofNat 64 h.sender ∧ t.casc.tmHeard = u.now ∧ t.casc.coupling = true) ∧
    (u.casc.tmId.toNat ≠ h.sender → (list.any fun c => c.id.toNat = u.consistId) = false →
      t.casc.tmId = u.casc.tmId ∧ t.casc.coupling = u.casc.coupling) := by
  obtain ⟨v, hv, hacts⟩ := heartbeat_arrives hg l hm hr ((manages_eq _).2.2 hd)
  intro h list t
  have ht : t = (v.heardConsist h).followTrain h (bef h.payload 8 2) list := hacts.trans (if_pos hd)
  clear_value t
  subst ht
  have hid : (v.heardConsist h).consistId = u.consistId := hv.consistId
  have hnow : (v.heardConsist h).now = u.now := hv.now
  obtain ⟨a, b, n, hc⟩ := hv.casc
  have hw : (v.heardConsist h).casc.role = .deputy ∧ (v.heardConsist h).casc.tmId = u.casc.tmId ∧
      (v.heardConsist h).casc.coupling = u.casc.coupling ∧
      (u.casc.tmId.toNat = h.sender → (v.heardConsist h).casc.tmHeard = u.now) := by
    rw [State.heardConsist, State.onCasc_casc, hc, hv.now]
    exact ⟨hd, rfl, rfl, fun hs => if_pos hs⟩
  obtain ⟨hrole, htm, hcoup, hheard⟩ := hw
  generalize v.heardConsist h = w at *
  rw [← htm, ← hcoup, ← hid, ← hnow]
  rw [← htm, ← hnow] at hheard
  by_cases hs : w.casc.tmId.toNat = h.sender
  · obtain ⟨l, hk⟩ := followTrain_own (bef h.payload 8 2) (list := list) hs
    rw [hk]
    exact ⟨hrole, fun _ => ⟨rfl, hheard hs, rfl⟩, fun hn => absurd hs hn, fun hn => absurd hs hn⟩
  · cases hl : list.any fun c => c.id.toNat = w.consistId with
    | true =>
      obtain ⟨kr, ki, kh, kc⟩ := followTrain_adopts (bef h.payload 8 2) hs hl
      exact ⟨kr.trans hrole, fun hn => absurd hn hs, fun _ _ => ⟨ki, kh, kc⟩, fun _ hn => Bool.noConfusion hn⟩
    | false =>
      rw [followTrain_leaves _ hs hl]
      exact ⟨hrole, fun hn => absurd hn hs, fun _ hn => Bool.noConfusion hn, fun _ _ => ⟨rfl, rfl⟩⟩
end

/-- Settles O59: election frames by `trainMgr_claims` and `claiming_weighs`, a deputy's by `deputy_follows`, the end of
the claims by `decideClaim`'s two cases, and the coupling by `checkRelease_fields` and `couplingLimit_ends`. -/
theorem electionAndCoupling : Obligations.ElectionAndCoupling := by
  unfold Obligations.ElectionAndCoupling
  refine ⟨fun s u dt l f hu => ⟨?election, ?deputy, ?couple, ?ready, ?release⟩, fun s u dt hu => ?claims,
    fun s u dt hu => ?step, fun s u dt hu => ?limit⟩
  case election =>
    intro c hc hg hm h3
    have hacts : u.casc.role.manages = true → u.casc.role ≠ .deputy → ∃ v cnt list, u.HearsAs v ∧
        exec c.2 s = .next (v.foreignClaim (biarnHdr f.octets) cnt list).finish := by
      intro hr hd
      simp only [List.mem_cons, List.not_mem_nil, or_false] at hc
      rcases hc with rfl | rfl
      · obtain ⟨v, cnt, list, hv, ht⟩ := claimFrame_arrives hg l.val hm
        exact ⟨v, cnt, list, hv, by rw [exec_claim, ← hu, ht]⟩
      · obtain ⟨v, hv, ht⟩ := heartbeat_arrives hg l.val hm (h3 rfl) hr
        exact ⟨_, _, _, hv.hearsAs.heardConsist _, by rw [exec_heartbeat, ← hu, ht, if_neg hd]⟩
    refine ⟨fun hr hl => ?_, fun hr => ?_⟩
    · obtain ⟨v, cnt, list, hv, ht⟩ := hacts ((manages_eq _).1 hr) (by simp [hr])
      exact ⟨_, ht, trainMgr_claims hv _ cnt list hr hl⟩
    · obtain ⟨v, cnt, list, hv, ht⟩ := hacts ((manages_eq _).2.1 hr) (by simp [hr])
      obtain ⟨hrole, ha, hkeep, hfull, hbest⟩ := claiming_weighs hv (biarnHdr f.octets) cnt list hr
      exact ⟨_, ht, hrole, ha, hkeep, hfull, fun hl hc hf => ⟨fun hn => (hbest hl hc hf).trans
        (congrArg some (bestWith_none _ hn)), fun b hb => (hbest hl hc hf).trans (congrArg some (bestWith_some _ hb))⟩⟩
  case deputy =>
    intro hg hm hr hd
    rw [exec_heartbeat, ← hu]
    exact ⟨_, rfl, deputy_follows hg l.val hm hr hd⟩
  case couple =>
    intro hg
    have ht := told_accept u l.val f
    have hears := ht.hearsManager (biarnHdr f.octets)
    rw [exec_couple, ← hu, biarnArrives_accepted hg]
    refine ⟨_, rfl, fun hr hl hm hs => ?_, fun hn => ?_⟩
    · have hk := coupleArrives_starts (hears.trans ((hearsManager_iff ..).mpr ⟨hr, hl, hm, hs⟩))
      rw [ht.now, ht.recByte] at hk
      exact hk
    · have hk : (u.accept l.val f).coupleArrives (biarnHdr f.octets) = u.accept l.val f :=
        if_neg (Bool.eq_false_iff.mp (hears.trans (hearsManager_false hn)))
      obtain ⟨a, b, n, hc⟩ := ht.casc
      rw [hk, hc]
      exact ⟨rfl, rfl⟩
  case ready =>
    intro hg
    have ht := told_accept u l.val f
    rw [exec_ready, ← hu, biarnArrives_accepted hg]
    refine ⟨_, rfl, fun hn => ?_, fun hr hm => readyArrives_notes ht _ hr hm⟩
    obtain ⟨a, b, n, hc⟩ := ht.casc
    rw [readyArrives_ignored ht _ hn, hc]
    exact ⟨rfl, rfl⟩
  case release =>
    intro hg
    have ht := told_accept u l.val f
    have hears := ht.hearsManager (biarnHdr f.octets)
    rw [exec_release, ← hu, biarnArrives_accepted hg]
    refine ⟨_, rfl, fun hr hl hm hs => ?_, fun hn => ?_⟩
    · rw [State.releaseArrives, if_pos (hears.trans ((hearsManager_iff ..).mpr ⟨hr, hl, hm, hs⟩))]
      obtain ⟨hh, hc⟩ := releaseCoupling_ends
        ((u.accept l.val f).consistEvent 5 0 ((biarnHdr f.octets).payload.take 1))
      rw [hc]
      exact ⟨rfl, hh⟩
    · rw [State.releaseArrives, if_neg (Bool.eq_false_iff.mp (hears.trans (hearsManager_false hn))), ht.sched]
      obtain ⟨a, b, n, hc⟩ := ht.casc
      rw [hc]
      exact ⟨rfl, rfl⟩
  case claims =>
    rw [exec_claimRound, exec_claimEnd, ← hu]
    refine ⟨fun h => by rw [claimRound_out h, claimEnd_out h]; exact ⟨rfl, rfl⟩, fun a ha =>
      ⟨fun h => by rw [claimRound_waits ha h], fun h => by rw [claimEnd_waits ha h], fun hup hr => ⟨fun hn ht => ?_,
        fun ht => ?_⟩⟩⟩
    · rw [claimRound_claims ha hup hr hn ht]
      refine ⟨_, rfl, ?_⟩
      rw [State.sendClaim, sendBiarn_casc (s := u.onCasc fun c => { c with claimRounds := c.claimRounds + 1 }) hup]
      exact ⟨rfl, rfl⟩
    · rw [claimEnd_decides ha hup hr ht]
      exact ⟨fun h => ⟨_, rfl, decideClaim_wins h⟩, fun b h => ⟨_, rfl, decideClaim_loses h⟩⟩
  case step =>
    intro go
    rw [exec_couplingStep, ← hu]
    exact ⟨fun h => by rw [couplingStep_idle h], fun h => ⟨_, rfl, couplingStep_steps h⟩⟩
  case limit =>
    intro ended
    rw [exec_couplingLimit, ← hu]
    exact ⟨fun h => by rw [couplingLimit_idle h], fun h => ⟨_, rfl, couplingLimit_ends h⟩⟩

end Sys2Proof.Machine
end

section
/-! Settling O31: the matrix boundaries of a bank. -/

namespace Sys2Proof.Machine

/-- The time that a matrix of the image has lasted at `t`, the matrices counted from PHASE (R189). -/
def inMatrix (g : Img) (t : Nat) : Nat := (t + (imgM g - imgPhase g * 65536 % imgM g)) % imgM g

section
variable {g : Img} (hm : 0 < imgM g) (t : Nat)
include hm

theorem inMatrix_lt : inMatrix g t < imgM g := Nat.mod_lt _ hm

theorem lastMatrix_eq : lastMatrix g t = t - inMatrix g t := if_neg hm.ne'

theorem nextMatrix_of_boundary (h : inMatrix g t = 0) : nextMatrix g t = t := by
  have hn : nextMatrix g t = t + (imgM g - inMatrix g t) % imgM g := if_neg hm.ne'
  rw [hn, h, Nat.sub_zero, Nat.mod_self, Nat.add_zero]

theorem nextMatrix_within (h : inMatrix g t ≠ 0) : nextMatrix g t = t + (imgM g - inMatrix g t) := by
  have hn : nextMatrix g t = t + (imgM g - inMatrix g t) % imgM g := if_neg hm.ne'
  rw [hn, Nat.mod_eq_of_lt (by omega)]

/-- The last boundary lies a whole number of matrices from PHASE. -/
theorem lastMatrix_from_phase : ∃ k : Int, lastMatrix g t = imgPhase g * 65536 + k * imgM g := by
  rw [lastMatrix_eq hm]
  unfold inMatrix
  generalize imgM g = m at hm
  refine ⟨((t + (m - imgPhase g * 65536 % m)) / m : Nat) - 1 - (imgPhase g * 65536 / m : Nat), ?_⟩
  have hq := Nat.div_add_mod (t + (m - imgPhase g * 65536 % m)) m
  have hp := Nat.div_add_mod (imgPhase g * 65536) m
  have hlt := Nat.mod_lt (imgPhase g * 65536) hm
  generalize (t + (m - imgPhase g * 65536 % m)) / m = q, (t + (m - imgPhase g * 65536 % m)) % m = a,
    imgPhase g * 65536 / m = b at *
  zify [hlt.le] at hq hp
  linear_combination hp - hq

/-- The next boundary is the last one, or a matrix after it. -/
theorem nextMatrix_from_phase : ∃ k : Int, (nextMatrix g t : Int) = imgPhase g * 65536 + k * imgM g := by
  obtain ⟨k, hk⟩ := lastMatrix_from_phase hm t
  have hlt := inMatrix_lt hm t
  rw [lastMatrix_eq hm] at hk
  by_cases h : inMatrix g t = 0
  · exact ⟨k, by rw [nextMatrix_of_boundary hm t h]; omega⟩
  · refine ⟨k + 1, ?_⟩
    rw [nextMatrix_within hm t h, add_mul]
    omega

theorem nextMatrix_range : t ≤ nextMatrix g t ∧ nextMatrix g t < t + imgM g := by
  have hlt := inMatrix_lt hm t
  by_cases h : inMatrix g t = 0
  · rw [nextMatrix_of_boundary hm t h]; omega
  · rw [nextMatrix_within hm t h]; omega

theorem nextMatrix_mod : nextMatrix g t % imgM g = imgPhase g * 65536 % imgM g := by
  obtain ⟨k, hk⟩ := nextMatrix_from_phase hm t
  zify
  rw [hk, Int.add_mul_emod_self_right]

/-- Between a time and the next boundary lies no instant of the same phase. -/
theorem nextMatrix_first {u : Nat} (hu : t ≤ u) (hp : u % imgM g = imgPhase g * 65536 % imgM g) : nextMatrix g t ≤ u := by
  by_contra hlt
  have hd : imgM g ∣ nextMatrix g t - u :=
    (Nat.modEq_iff_dvd' (by omega)).mp (hp.trans (nextMatrix_mod hm t).symm)
  have := Nat.le_of_dvd (by omega) hd
  have := (nextMatrix_range hm t).2
  omega

theorem inMatrix_of_next (h : nextMatrix g t = t) : inMatrix g t = 0 := by
  by_contra hn
  have := nextMatrix_within hm t hn
  have := inMatrix_lt hm t
  omega

theorem imgRow_pos : 0 < imgRow g := Nat.pos_of_mul_pos_left hm

theorem placeOf_eq : placeOf g t = (lastMatrix g t, inMatrix g t / imgRow g) := by
  unfold placeOf
  dsimp only
  rw [if_neg (imgRow_pos hm).ne', lastMatrix_eq hm, sub_sub_cancel, Int.toNat_natCast]
end

/-- Settles O31: both boundaries by the time that the matrix of `t` has lasted, the row by its division. -/
theorem boundariesOfABank : Obligations.BoundariesOfABank := by
  unfold Obligations.BoundariesOfABank
  intro g t hm
  obtain ⟨hle, hlt⟩ := nextMatrix_range hm t
  have hin := inMatrix_lt hm t
  have hrow := Nat.div_mul_le_self (inMatrix g t) (imgRow g)
  have hnext : inMatrix g t < (inMatrix g t / imgRow g + 1) * imgRow g := by
    rw [mul_comm]; exact Nat.lt_mul_div_succ _ (imgRow_pos hm)
  refine ⟨hle, hlt, nextMatrix_mod hm t, fun u => nextMatrix_first hm t, ?_, ?_, lastMatrix_from_phase hm t, ?_⟩
  · rw [lastMatrix_eq hm]; omega
  · rw [lastMatrix_eq hm]; omega
  · rw [placeOf_eq hm, lastMatrix_eq hm]
    refine ⟨rfl, ?_, ?_, Nat.div_lt_of_lt_mul (by rw [mul_comm]; exact hin), fun h => ?_⟩
    · dsimp only; omega
    · dsimp only; omega
    · rw [inMatrix_of_next hm t h, Nat.zero_div, Nat.cast_zero, sub_zero]
      exact ⟨rfl, rfl⟩

end Sys2Proof.Machine
end

section
/-! Settling O29: BANK_LOAD and the end of its check. -/

namespace Sys2Proof.Machine

/-! ### Copies of memory -/

section
variable {α : Type} {d : Nat → α} {t u : Tab α} {k : Nat}

theorem tget_of_not_listed (h : ∀ p ∈ t, p.1 ≠ k) : tget d t k = d k := by
  induction t with
  | nil => rfl
  | cons p t ih => rw [tget, if_neg (h p (by simp)), ih fun q hq => h q (by simp [hq])]

theorem tget_append_right (h : ∀ p ∈ t, p.1 ≠ k) : tget d (t ++ u) k = tget d u k := by
  induction t with
  | nil => rfl
  | cons p t ih => rw [List.cons_append, tget, if_neg (h p (by simp)), ih fun q hq => h q (by simp [hq])]

theorem tget_append_left (h : ∀ p ∈ u, p.1 ≠ k) : tget d (t ++ u) k = tget d t k := by
  induction t with
  | nil => exact tget_of_not_listed h
  | cons p t ih => rw [List.cons_append, tget, tget, ih]

theorem tget_filter_index (f : Nat → Bool) (hk : f k = true) : tget d (t.filter fun p => f p.1) k = tget d t k := by
  induction t with
  | nil => rfl
  | cons p t ih =>
    by_cases hf : f p.1 = true
    · rw [List.filter_cons_of_pos (p := fun p : Nat × α => f p.1) hf, tget, tget, ih]
    · rw [List.filter_cons_of_neg (p := fun p : Nat × α => f p.1) hf, ih, tget, if_neg fun h : p.1 = k => hf (h ▸ hk)]
end

/-- Entries moved from `a` to `b` read there what they read before. -/
theorem rd_moved {m : Memory} {a : Nat} (b k : Nat) (h : ∀ p ∈ m, a ≤ p.1) :
    rd (m.map fun p => (p.1 - a + b, p.2)) (b + k) = rd m (a + k) := by
  unfold rd
  induction m with
  | nil => rfl
  | cons p m ih =>
    have hp : p.1 - a + b = b + k ↔ p.1 = a + k := by have := h p (by simp); omega
    rw [List.map_cons, tget, tget, ih fun q hq => h q (by simp [hq])]
    simp only [hp]

theorem rd_copyIn_inside (m src : Memory) (b a : Nat) {n k : Nat} (hk : k < n) :
    rd (copyIn m b src a n) (b + k) = rd src (a + k) := by
  unfold copyIn rd
  rw [List.append_assoc, tget_append_right fun p hp => ?below, tget_append_left fun p hp => ?above]
  · exact (rd_moved b k fun p hp => by simp at hp; omega).trans
      (tget_filter_index (fun x => decide (a ≤ x) && decide (x < a + n)) (by simp; omega))
  case below => simp at hp; omega
  case above => simp at hp; omega

theorem rd_copyIn_outside (m src : Memory) (b a : Nat) {n x : Nat} (hx : x < b ∨ b + n ≤ x) :
    rd (copyIn m b src a n) x = rd m x := by
  have hmid : ∀ p ∈ (src.filter fun p => a ≤ p.1 && p.1 < a + n).map fun p => (p.1 - a + b, p.2), p.1 ≠ x := by
    intro p hp
    simp only [List.mem_map, List.mem_filter, Bool.and_eq_true, decide_eq_true_eq] at hp
    obtain ⟨q, ⟨_, hq⟩, rfl⟩ := hp
    dsimp only
    omega
  unfold copyIn rd
  rcases hx with hx | hx
  · rw [List.append_assoc, tget_append_left fun p hp => ?_]
    · exact tget_filter_index (fun y => decide (y < b)) (by simpa using hx)
    · rcases List.mem_append.mp hp with hp | hp
      · exact hmid p hp
      · simp at hp; omega
  · rw [tget_append_right fun p hp => ?_]
    · exact tget_filter_index (fun y => decide (b + n ≤ y)) (by simpa using hx)
    · rcases List.mem_append.mp hp with hp | hp
      · simp at hp; omega
      · exact hmid p hp

/-! ### BANK_LOAD (R201, R202) -/

theorem exec_bankLoad (s : State) (r : Fin 16) : exec (.bankLoad r) s = .next (s.bankLoad r.val).finish := rfl

/-- The image of a load or of a set lies in its bank, which is LOADING for `issuer`. -/
def State.takeImage (s : State) (b : Nat) (src : Memory) (a : Nat) (issuer : Option (Nat × Nat)) (remote : Bool) : State :=
  ({ s with sram := copyIn s.sram (bankBase b) src a 131072 } : State).modBank b fun k =>
    { k with state := .loading, marginStale := false, issuer := issuer, remote := remote }

theorem takeImage_fields (s : State) (b : Nat) (src : Memory) (a : Nat) (issuer : Option (Nat × Nat)) (remote : Bool) :
    let t := s.takeImage b src a issuer remote
    t.bank b = { s.bank b with state := .loading, marginStale := false, issuer := issuer, remote := remote } ∧
    (∀ k < 131072, rd t.sram (bankBase b + k) = rd src (a + k)) ∧ s.sramKept t (bankBase b) 131072 ∧
    (∀ n, n ≠ b → t.bank n = s.bank n) ∧ t.fab = s.fab ∧ t.casc = s.casc ∧ t.sched.run = s.sched.run :=
  ⟨bank_modBank_self .., fun _ hk => rd_copyIn_inside _ _ _ _ hk, fun _ hx => rd_copyIn_outside _ _ _ _ hx,
    fun _ hn => bank_modBank_other _ _ hn, rfl, rfl, rfl⟩

section
variable {s : State} {r : Nat}

theorem bankLoad_none (h : s.readyHead r 0x20 = none) : s.bankLoad r = s := by rw [State.bankLoad, h]

variable {e : Entry} (h : s.readyHead r 0x20 = some e)
include h

theorem bankLoad_busy (hb : (s.bank (byteAt e.bytes 24)).state = .running ∨ (s.bank (byteAt e.bytes 24)).state = .pending) :
    s.bankLoad r = s.finishCmd r e.idx 0x28 false ({ item := 0xFF : BankVerdict }).res := by
  unfold State.bankLoad
  rw [h]
  dsimp only
  rcases hb with hb | hb <;> rw [hb]

theorem bankLoad_waits (hb : (s.bank (byteAt e.bytes 24)).state = .loading) : s.bankLoad r = s := by
  unfold State.bankLoad
  rw [h]
  dsimp only
  rw [hb]

theorem bankLoad_begins (hb : (s.bank (byteAt e.bytes 24)).state = .empty ∨ (s.bank (byteAt e.bytes 24)).state = .valid ∨
    (s.bank (byteAt e.bytes 24)).state = .refused) : s.bankLoad r =
      (s.begin_ r e.idx).takeImage (byteAt e.bytes 24) e.payload 0 (some (r, e.idx)) false := by
  unfold State.bankLoad
  rw [h]
  dsimp only
  rcases hb with hb | hb | hb <;> rw [hb] <;> rfl
end

/-! ### The end of the check (R201) -/

theorem exec_bankLoadChecked (s : State) (dt : Nat) (b : Fin 4) :
    exec (.bankLoadChecked dt b) s = .next ((s.pass dt).bankLoadChecked b.val).finish := rfl

theorem bankChecked_fields (s : State) (b : Nat) : let v := s.checkBank b
    let t := (s.bankChecked b).2
    (t.bank b).issuer = none ∧ t.sram = s.sram ∧ t.fab = s.fab ∧ t.casc = s.casc ∧ (∀ n, n ≠ b → t.bank n = s.bank n) ∧
    (v.status = 0 → (t.bank b).state = .valid ∧ (t.bank b).checkDrift = v.drift) ∧
    (v.status ≠ 0 → (t.bank b).state = .refused) := by
  dsimp only
  unfold State.bankChecked
  generalize s.checkBank b = v
  have hb := bank_modBank_self s b fun k =>
    if v.status = 0 then { k with state := .valid, checkDrift := v.drift, issuer := none } else { k with state := .refused, issuer := none }
  refine ⟨?_, rfl, rfl, rfl, fun n hn => bank_modBank_other _ _ hn, fun h => ?_, fun h => ?_⟩
  · rw [hb]; split <;> rfl
  · rw [hb, if_pos h]; exact ⟨rfl, rfl⟩
  · rw [hb, if_neg h]

section
variable {s : State} {b : Nat}

theorem bankLoadChecked_idle (h : (s.bank b).state ≠ .loading) : s.bankLoadChecked b = s := by
  simp [State.bankLoadChecked, State.loadDone, h]

variable (h : (s.bank b).state = .loading) (hr : (s.bank b).remote = false)
include h hr

theorem bankLoadChecked_issuer {r i : Nat} (hi : (s.bank b).issuer = some (r, i)) : s.bankLoadChecked b =
    (s.bankChecked b).2.finishCmd r i (s.checkBank b).status ((s.checkBank b).status = 0) (s.checkBank b).res := by
  rw [State.bankLoadChecked, if_neg (by simp [hr]), State.loadDone, if_neg (by simp [h, hr]), hi]
  rfl

theorem bankLoadChecked_unissued (hi : (s.bank b).issuer = none) : s.bankLoadChecked b = (s.bankChecked b).2 := by
  simp [State.bankLoadChecked, State.loadDone, h, hr, hi]
end

/-- Settles O29: the head by the `bankLoad_…` lemmas, the bytes of the image by `takeImage_fields`, the end of the check by
`bankChecked_fields`. -/
theorem loadingABank : Obligations.LoadingABank := by
  unfold Obligations.LoadingABank
  refine ⟨fun s r => ⟨fun h => by rw [exec_bankLoad, bankLoad_none h], fun e h => ⟨fun hb => ?_, fun hb => ?_, fun hb => ?_⟩⟩,
    fun s u dt b hu => ⟨fun h => ?_, fun h hr => ?_⟩⟩
  · rw [exec_bankLoad, bankLoad_busy h hb]
  · rw [exec_bankLoad, bankLoad_waits h hb]
  · rw [exec_bankLoad, bankLoad_begins h hb]
    obtain ⟨hbank, hin, hout, hother, hfab, _, hrun⟩ :=
      takeImage_fields (s.begin_ r.val e.idx) (byteAt e.bytes 24) e.payload 0 (some (r.val, e.idx)) false
    exact ⟨_, rfl, by rw [hbank], by rw [hbank], by rw [hbank], fun k hk => by rw [hin k hk, Nat.zero_add], hout, hother, hfab, hrun⟩
  · rw [exec_bankLoadChecked, ← hu, bankLoadChecked_idle h]
  · rw [exec_bankLoadChecked, ← hu]
    obtain ⟨hissuer, hsram, hfab, _, hother, hvalid, hrefused⟩ := bankChecked_fields u b.val
    exact ⟨_, hissuer, hsram, hfab, hother, hvalid, hrefused, fun r i hi => by rw [bankLoadChecked_issuer h hr hi],
      fun hi => by rw [bankLoadChecked_unissued h hr hi]⟩

end Sys2Proof.Machine
end

section
/-! What the operations of the schedule unit leave of the plan (`State.plan`): gates and slots are no part of it, and a bank
that begins changes its own state and the run alone. -/

namespace Sys2Proof.Machine

/-! ### Operations outside the plan -/

@[simp] theorem plan_irqPulse (s : State) (n : Nat) : (s.irqPulse n).plan = s.plan :=
  plan_of_reports (reports_irqPulse ..) (by unfold State.parks; simp)
@[simp] theorem plan_cancelStaging (s : State) : s.cancelStaging.plan = s.plan := rfl
@[simp] theorem plan_dropSlotEvents (s : State) : s.dropSlotEvents.plan = s.plan := rfl
@[simp] theorem plan_addEvent (s : State) (t x : Nat) : (s.addEvent t x).plan = s.plan := by
  unfold State.addEvent; dsimp only; split <;> rfl
@[simp] theorem plan_setGates (s : State) (g : Img) (m : Int) (t : Nat) : (s.setGates g m t).plan = s.plan :=
  plan_foldl _ (fun s l => plan_modLane s l _) s
@[simp] theorem plan_openAll (s : State) : s.openAll.plan = s.plan := plan_foldl _ (fun s l => plan_modLane s l _) s
@[simp] theorem plan_setLevel (s : State) (n : Nat) (on : Bool) (d : Nat) (u : Option Nat) :
    (s.setLevel n on d u).plan = s.plan := by
  unfold State.setLevel
  dsimp only
  split
  · split
    · rfl
    · split <;> rfl
  · rfl

@[simp] theorem plan_planSlots (s : State) (r : Nat) (t : Int) (n a : Nat) : (s.planSlots r t n a).plan = s.plan := by
  refine plan_foldl _ (fun s x => ?_) s
  dsimp only
  split
  · exact plan_addEvent ..
  · rfl

@[simp] theorem plan_planRow (s : State) (t : Nat) : (s.planRow t).plan = s.plan := by
  unfold State.planRow
  split
  · rfl
  · exact plan_planSlots ..

@[simp] theorem plan_cutIfClosed (s : State) (l : Nat) : (s.cutIfClosed l).plan = s.plan := by
  unfold State.cutIfClosed
  split
  · split <;> simp
  · rfl

/-! ### The schedule and the banks in the plan -/

section
variable {s t : State} (h : t.plan = s.plan)
include h

theorem bank_of_plan (b : Nat) : t.bank b = s.bank b := of_plan (·.bank b) (fun _ => rfl) h
theorem tst_of_plan : t.tst = s.tst := of_plan State.tst (fun _ => rfl) h

theorem plan_onSched_congr (f : Sched → Sched) : (t.onSched f).plan = (s.onSched f).plan := by
  have := congrArg (fun s : State => (s.onSched f).plan) h
  exact this

theorem plan_modBank_congr (b : Nat) (f : Bank → Bank) : (t.modBank b f).plan = (s.modBank b f).plan := by
  have := congrArg (fun s : State => (s.modBank b f).plan) h
  exact this
end

theorem bank_congr {s t : State} (h : t.sched.banks = s.sched.banks) (b : Nat) : t.bank b = s.bank b := by
  unfold State.bank; rw [h]

/-! ### A bank that begins (R204, R206) -/

/-- Bank `b` runs from the matrix that began at `m`, entered at `t`. -/
def State.entered (s : State) (b : Nat) (m : Int) (t : Nat) : State :=
  (s.modBank b fun k => { k with state := .running }).onSched fun c => { c with run := some (runFrom (s.bankImg b) b m 0 t) }

@[simp] theorem plan_enterBank (s : State) (b : Nat) (m : Int) (t : Nat) : (s.enterBank b m t).plan = (s.entered b m t).plan := by
  unfold State.enterBank State.entered
  rw [plan_planRow, plan_setGates]

theorem bank_entered_self (s : State) (b : Nat) (m : Int) (t : Nat) :
    (s.entered b m t).bank b = { s.bank b with state := .running } :=
  bank_modBank_self s b fun k => { k with state := .running }

theorem bank_entered_other (s : State) (m : Int) (t : Nat) {b k : Nat} (h : k ≠ b) : (s.entered b m t).bank k = s.bank k :=
  bank_modBank_other s (fun k => { k with state := .running }) h

/-- A bank entered at its matrix boundary stands in row 0. -/
theorem runFrom_boundary (g : Img) (b m : Nat) : let x := runFrom g b m 0 m
    x.bank = b ∧ x.row = 0 ∧ x.matrix = m ∧ x.next = m + imgRow g := by
  refine ⟨rfl, rfl, rfl, ?_⟩
  change ((m : Int) + ((0 + 1) * imgRow g : Nat)).toNat = _
  omega

end Sys2Proof.Machine
end

section
/-! Settling O30: PATTERN_START and the start of its bank. -/

namespace Sys2Proof.Machine

theorem exec_patternStart (s : State) (r : Fin 16) : exec (.patternStart r) s = .next (s.patternStart r.val).shutGates.finish := rfl
theorem exec_bankStart (s : State) (dt : Nat) : exec (.bankStart dt) s = .next (s.pass dt).bankStart.finish := rfl

/-! ### PATTERN_START (R204, R285) -/

/-- What an accepted PATTERN_START asks for. -/
def State.startReq (s : State) (r i b t : Nat) (map : Option Nat) : StartReq :=
  { bank := b, time := t, needMap := map.isSome, ring := r, idx := i,
    boundary := if map.isSome then none else some (nextMatrix (s.bankImg b) (t * 65536)) }

/-- The bank of an accepted PATTERN_START is PENDING, and its start waits. -/
def State.startPending (s : State) (r i b t : Nat) (map : Option Nat) : State :=
  ((s.begin_ r i).modBank b fun k => { k with state := .pending }).onSched fun c => { c with start := some (s.startReq r i b t map) }

theorem startPending_fields (s : State) (r i b t : Nat) (map : Option Nat) : let u := s.startPending r i b t map
    (u.bank b).state = .pending ∧ u.fab = s.fab ∧ u.sched.run = s.sched.run ∧
    u.sched.start = some (s.startReq r i b t map) :=
  ⟨congrArg Bank.state (bank_modBank_self (s.begin_ r i) b fun k => { k with state := .pending }), rfl, rfl, rfl⟩

theorem acceptStart_none (s : State) (r i b t : Nat) : s.acceptStart r i b t none = s.startPending r i b t none := rfl

theorem acceptStart_some (s : State) (r i b t m : Nat) : ∃ c : Change, c.map = m ∧ c.src = .startMap ∧ c.stage = .prep ∧
    (s.acceptStart r i b t (some m)).plan =
      ((s.startPending r i b t (some m)).onFab fun f => { f with waiting := f.waiting ++ [c] }).plan :=
  ⟨_, rfl, rfl, rfl, beginChange_fields (s.startPending r i b t (some m)) _⟩

section
variable {s : State} {r : Nat}

theorem patternStart_none (h : s.readyHead r 0x21 = none) : s.patternStart r = s := by rw [State.patternStart, h]

variable {e : Entry} (h : s.readyHead r 0x21 = some e)
include h

theorem patternStart_waits (hb : (s.bank (byteAt e.bytes 24)).state = .loading) : s.patternStart r = s := by
  rw [State.patternStart, h]; exact if_pos hb

variable (hb : (s.bank (byteAt e.bytes 24)).state ≠ .loading)
include hb

theorem patternStart_active (ha : s.sched.run.isSome = true ∨ s.sched.start.isSome = true) :
    s.patternStart r = s.finishCmd r e.idx 0x2C false := by
  rw [State.patternStart, h]; dsimp only
  rw [if_neg hb, if_pos (by simpa using ha)]

variable (hr : s.sched.run = none) (hs : s.sched.start = none)
include hr hs

theorem patternStart_unloaded (hv : (s.bank (byteAt e.bytes 24)).state ≠ .valid ∨ s.casc.role = .stack) :
    s.patternStart r = s.finishCmd r e.idx 0x2E false := by
  rw [State.patternStart, h]; dsimp only
  rw [if_neg hb, if_neg (by simp [hr, hs]), if_pos (by simpa using hv)]

variable (hv : (s.bank (byteAt e.bytes 24)).state = .valid) (hk : s.casc.role ≠ .stack)
include hv hk

theorem patternStart_badTime (ht : (timeArg e.bytes 32).any s.timeBad = true) :
    s.patternStart r = s.finishCmd r e.idx 0x08 false := by
  rw [State.patternStart, h]; dsimp only
  rw [if_neg hb, if_neg (by simp [hr, hs]), if_neg (by simp [hv, hk]), if_pos ht]

variable (ht : (timeArg e.bytes 32).any s.timeBad = false)
include ht

theorem patternStart_stopped (hm : ((s.startMap (byteAt e.bytes 24)).any fun m => s.applyMask m ≠ 0) = true) :
    s.patternStart r = s.finishCmd r e.idx 0x17 false := by
  rw [State.patternStart, h]; dsimp only
  rw [if_neg hb, if_neg (by simp [hr, hs]), if_neg (by simp [hv, hk]), if_neg (by simp [ht]), if_pos hm]

theorem patternStart_accepts (hm : ((s.startMap (byteAt e.bytes 24)).any fun m => s.applyMask m ≠ 0) = false) :
    s.patternStart r = s.acceptStart r e.idx (byteAt e.bytes 24) ((timeArg e.bytes 32).getD (ceilNs s.nt))
      (s.startMap (byteAt e.bytes 24)) := by
  rw [State.patternStart, h]; dsimp only
  rw [if_neg hb, if_neg (by simp [hr, hs]), if_neg (by simp [hv, hk]), if_neg (by simp [ht]), if_neg (Bool.eq_false_iff.mp hm)]
end

/-- An accepted PATTERN_START, with the map it must bring in force first. -/
theorem acceptStart_fields (s : State) (r i b t : Nat) (map : Option Nat) : let u := s.acceptStart r i b t map
    (u.bank b).state = .pending ∧ u.fab.inForce = s.fab.inForce ∧ u.sched.run = s.sched.run ∧
    u.sched.start = some (s.startReq r i b t map) ∧ (map = none → u.fab = s.fab) ∧
    ∀ m, map = some m → ∃ c : Change, u.fab.waiting = s.fab.waiting ++ [c] ∧ c.map = m ∧ c.src = .startMap ∧ c.stage = .prep := by
  obtain ⟨hbank, hfab, hrun, hstart⟩ := startPending_fields s r i b t map
  cases map with
  | none => exact ⟨hbank, rfl, hrun, hstart, fun _ => rfl, fun m hm => absurd hm (Option.some_ne_none m).symm⟩
  | some m =>
    obtain ⟨c, hmap, hsrc, hstage, hp⟩ := acceptStart_some s r i b t m
    have hs := sched_of_plan hp
    have hf := inForce_of_plan hp
    have hw := waiting_of_plan hp
    rw [State.onFab_sched] at hs
    rw [State.onFab_fab, hfab] at hf hw
    refine ⟨(congrArg Bank.state (bank_congr (congrArg Sched.banks hs) b)).trans hbank, hf, (congrArg Sched.run hs).trans hrun,
      (congrArg Sched.start hs).trans hstart, fun hn => absurd hn (Option.some_ne_none m), fun n hn => ?_⟩
    obtain rfl : m = n := Option.some.inj hn
    exact ⟨c, hw, hmap, hsrc, hstage⟩

/-! ### The start of the bank (R189, R190, R217, R438) -/

/-- The first row of a start is counted, and the hold of a coupling asked for (R214, R217). -/
def State.firstRow (s : State) (m : Int) : State := s.onSched fun c =>
  { c with rowCnt := c.rowCnt + 1, holdReq := if c.couplingHeld then some .coupling else none, holdAt := m.toNat }

theorem bank_firstRow (s : State) (m : Int) (b : Nat) : (s.firstRow m).bank b = s.bank b := rfl

/-- The bank of a PATTERN_START begins, before its command completes. -/
def State.startedBank (s : State) (q : StartReq) (m : Int) (t : Nat) : State :=
  ((((s.endTest true).onSched fun c => { c with start := none }).enterBank q.bank m t).firstRow m).irqPulse 84

theorem startBank_eq (s : State) (q : StartReq) (m : Int) (t b : Nat) :
    s.startBank q m t b = (s.startedBank q m t).finishCmd q.ring q.idx 0 true (boundaryRes b) := by
  unfold State.startBank
  extract_lets tested unasked entered counted asked held
  have hs : s.startedBank q m t = (entered.firstRow m).irqPulse 84 := rfl
  clear_value entered
  rw [hs]
  rfl

theorem plan_startedBank (s : State) (q : StartReq) (m : Int) (t : Nat) : (s.startedBank q m t).plan =
    ((((s.withTest (s.endTest true).tst).onSched fun c => { c with start := none }).entered q.bank m t).firstRow m).plan := by
  unfold State.startedBank
  rw [plan_irqPulse]
  refine (plan_onSched_congr (plan_enterBank ..) _).trans ?_
  have := congrArg (fun s : State => (((s.onSched fun c => { c with start := none }).entered q.bank m t).firstRow m).plan)
    (plan_endTest_eq s true)
  exact this

theorem startedBank_fields (s : State) (q : StartReq) (m : Nat) : let t := s.startedBank q m m
    (∃ x, t.sched.run = some x ∧ x.bank = q.bank ∧ x.row = 0 ∧ x.matrix = m ∧ x.next = m + imgRow (s.bankImg q.bank)) ∧
    (t.bank q.bank).state = .running ∧ t.sched.rowCnt = s.sched.rowCnt + 1 ∧ t.sched.start = none ∧ t.tst.busy = false := by
  have hp := plan_startedBank s q m m
  have hs := sched_of_plan hp
  exact ⟨⟨_, congrArg Sched.run hs, runFrom_boundary ..⟩,
    congrArg Bank.state ((bank_of_plan hp q.bank).trans ((bank_firstRow ..).trans (bank_entered_self ..))),
    congrArg Sched.rowCnt hs, congrArg Sched.start hs, (congrArg SelfTest.busy (tst_of_plan hp)).trans (busy_endTest s true)⟩

section
variable {s : State}

theorem bankStart_starts {q : StartReq} {m : Nat} (hs : s.sched.start = some q) (hr : s.sched.run = none)
    (hb : q.boundary = some m) (hd : s.dueNt m = true) : s.bankStart = s.startBank q m m (ceilNs m) := by
  rw [State.bankStart, hs, hr]
  dsimp only
  rw [hb]
  exact if_pos hd

theorem bankStart_idle (h : s.sched.run.isSome = true ∨ s.sched.start = none ∨ ∃ q, s.sched.start = some q ∧
    (q.boundary = none ∨ ∃ m, q.boundary = some m ∧ s.dueNt m = false)) : s.bankStart = s := by
  unfold State.bankStart
  split
  next q hs hr =>
    rcases h with h | h | ⟨p, hp, h⟩
    · rw [hr] at h; exact absurd h Bool.false_ne_true
    · rw [hs] at h; exact absurd h (Option.some_ne_none q)
    · obtain rfl : q = p := Option.some.inj (hs.symm.trans hp)
      rcases h with h | ⟨m, h, hd⟩
      · rw [h]
      · rw [h]; exact if_neg (Bool.eq_false_iff.mp hd)
  · rfl
end

/-- Settles O30: the checks by the `patternStart_…` lemmas, an accepted start by `acceptStart_fields`, its boundary by
`startedBank_fields`. -/
theorem startingABank : Obligations.StartingABank := by
  unfold Obligations.StartingABank
  refine ⟨fun s r => ⟨fun h => by rw [exec_patternStart, patternStart_none h], fun e h => ⟨fun hb => ?_, fun hb =>
    ⟨fun ha => ?_, fun hr hs => ⟨fun hv => ?_, fun hv hk => ⟨fun ht => ?_, fun ht hm => ?_, fun ht hm => ?_⟩⟩⟩⟩⟩,
    fun s u dt hu => ⟨fun q m hs hr hb hd => ?_, fun h => ?_⟩⟩
  · rw [exec_patternStart, patternStart_waits h hb]
  · rw [exec_patternStart, patternStart_active h hb ha]
  · rw [exec_patternStart, patternStart_unloaded h hb hr hs hv]
  · rw [exec_patternStart, patternStart_badTime h hb hr hs hv hk ht]
  · rw [exec_patternStart, patternStart_stopped h hb hr hs hv hk ht hm]
  · rw [exec_patternStart, patternStart_accepts h hb hr hs hv hk ht hm]
    obtain ⟨hbank, hforce, hrun, hstart, hnone, hsome⟩ := acceptStart_fields s r.val e.idx (byteAt e.bytes 24)
      ((timeArg e.bytes 32).getD (ceilNs s.nt)) (s.startMap (byteAt e.bytes 24))
    exact ⟨_, rfl, hbank, hforce, hrun.trans hr, hstart, hnone, hsome⟩
  · rw [exec_bankStart, ← hu, bankStart_starts hs hr hb hd, startBank_eq]
    exact ⟨_, rfl, startedBank_fields u q m⟩
  · rw [exec_bankStart, ← hu, bankStart_idle h]

end Sys2Proof.Machine
end

section
/-! Settling O33: row boundaries and gate events. -/

namespace Sys2Proof.Machine

theorem exec_rowBoundary (s : State) (dt : Nat) : exec (.rowBoundary dt) s = .next (s.pass dt).rowBoundary.finish := rfl
theorem exec_gateEvent (s : State) (dt : Nat) (l : Fin 8) :
    exec (.gateEvent dt l) s = .next ((s.pass dt).gateEvent l.val).finish := rfl

/-! ### Lanes -/

/-- A change of every lane below `n`. -/
theorem lane_modLanes (f : Nat → Lane → Lane) (n : Nat) (s : State) (l : Nat) :
    ((List.range n).foldl (fun s l => s.modLane l (f l)) s).lane l = if l < n then f l (s.lane l) else s.lane l := by
  induction n with
  | zero => rfl
  | succ n ih =>
    rw [List.range_succ, List.foldl_append, List.foldl_cons, List.foldl_nil]
    by_cases h : l = n
    · subst h; rw [lane_modLane_self, ih, if_neg (Nat.lt_irrefl l), if_pos (Nat.lt_succ_self l)]
    · rw [lane_modLane_other _ _ h, ih]; simp only [show l < n + 1 ↔ l < n by omega]

@[simp] theorem lane_emit (s : State) (o : Output) (l : Nat) : (s.emit o).lane l = s.lane l := rfl

theorem lane_addEvent (s : State) (t x l : Nat) : (s.addEvent t x).lane l = s.lane l := by
  unfold State.addEvent; dsimp only; split <;> rfl

theorem lane_planSlots (s : State) (r : Nat) (t : Int) (n a l : Nat) : (s.planSlots r t n a).lane l = s.lane l := by
  refine foldl_keeps (fun s => s.lane l) _ _ (fun s x => ?_) s
  dsimp only
  split
  · exact lane_addEvent ..
  · rfl

/-- A frame that is cut changes its lane's frames alone. -/
theorem cut_lane (s : State) (l : Nat) : ((s.cut l).lane l).gates = (s.lane l).gates ∧ ((s.cut l).lane l).kind = (s.lane l).kind ∧
    ((s.cut l).lane l).gateIdx = (s.lane l).gateIdx ∧ ∀ k, k ≠ l → (s.cut l).lane k = s.lane k := by
  unfold State.cut
  split
  · exact ⟨rfl, rfl, rfl, fun _ _ => rfl⟩
  · split
    · exact ⟨rfl, rfl, rfl, fun _ _ => rfl⟩
    · simp only [lane_emit, lane_modLane_self, true_and]
      exact fun k hk => lane_modLane_other _ _ hk

theorem cutIfClosed_lane (s : State) (l : Nat) : ((s.cutIfClosed l).lane l).gates = (s.lane l).gates ∧
    ((s.cutIfClosed l).lane l).kind = (s.lane l).kind ∧ ((s.cutIfClosed l).lane l).gateIdx = (s.lane l).gateIdx ∧
    ∀ k, k ≠ l → (s.cutIfClosed l).lane k = s.lane k := by
  unfold State.cutIfClosed
  split
  · split
    · exact cut_lane s l
    · exact ⟨rfl, rfl, rfl, fun _ _ => rfl⟩
  · exact ⟨rfl, rfl, rfl, fun _ _ => rfl⟩

/-! ### Gate events (R195) -/

section
variable {s : State} {l : Nat}

theorem gateEvent_none (h : s.sched.run = none) : s.gateEvent l = s := by rw [State.gateEvent, h]

variable {x : Run} (hx : s.sched.run = some x)
include hx

theorem gateEvent_over (h : (laneGates (s.bankImg x.bank) l)[(s.lane l).gateIdx]? = none) : s.gateEvent l = s := by
  rw [State.gateEvent, hx]; dsimp only; rw [h]

variable {e : Gate} (he : (laneGates (s.bankImg x.bank) l)[(s.lane l).gateIdx]? = some e)
include he

theorem gateEvent_waits (hd : s.dueNt (x.timeOf (entryAt (s.bankImg x.bank) e.row e.off)) = false) : s.gateEvent l = s := by
  rw [State.gateEvent, hx]; dsimp only; rw [he]; exact if_neg (Bool.eq_false_iff.mp hd)

/-- The lane takes the gates and KIND of its entry. -/
theorem gateEvent_due (hd : s.dueNt (x.timeOf (entryAt (s.bankImg x.bank) e.row e.off)) = true) : s.gateEvent l =
    (s.modLane l fun y => { y with gates := BitVec.ofNat 8 e.gates, kind := kindOf e.kind, gateIdx := y.gateIdx + 1 }).cutIfClosed l := by
  rw [State.gateEvent, hx]; dsimp only; rw [he]; exact if_pos hd

theorem gateEvent_fields (hd : s.dueNt (x.timeOf (entryAt (s.bankImg x.bank) e.row e.off)) = true) : let t := s.gateEvent l
    (t.lane l).gates = BitVec.ofNat 8 e.gates ∧ (t.lane l).kind = kindOf e.kind ∧
    (t.lane l).gateIdx = (s.lane l).gateIdx + 1 ∧ t.sched = s.sched ∧ ∀ k, k ≠ l → t.lane k = s.lane k := by
  rw [gateEvent_due hx he hd]
  have hself := lane_modLane_self s l fun y =>
    { y with gates := BitVec.ofNat 8 e.gates, kind := kindOf e.kind, gateIdx := y.gateIdx + 1 }
  obtain ⟨hg, hk, hi, ho⟩ := cutIfClosed_lane (s.modLane l fun y =>
    { y with gates := BitVec.ofNat 8 e.gates, kind := kindOf e.kind, gateIdx := y.gateIdx + 1 }) l
  exact ⟨hg.trans (by rw [hself]), hk.trans (by rw [hself]), hi.trans (by rw [hself]), sched_of_plan (plan_cutIfClosed ..),
    fun k hne => (ho k hne).trans (lane_modLane_other _ _ hne)⟩
end

/-! ### Row boundaries (R189, R213, R217) -/

/-- What a row boundary reads besides the run is in `t` as in `s`. -/
structure State.SameRows (s t : State) : Prop where
  failQuiet : t.sched.failQuiet = s.sched.failQuiet
  fqRows : t.sched.fqRows = s.sched.fqRows
  realign : t.sched.realign = s.sched.realign
  rowCnt : t.sched.rowCnt = s.sched.rowCnt
  drift : t.time.drift = s.time.drift
  fab : t.fab = s.fab

theorem countSkipped_rows (s : State) (n : Nat) : s.SameRows (s.countSkipped n) := by
  unfold State.countSkipped
  dsimp only
  split <;> exact ⟨rfl, rfl, rfl, rfl, rfl, rfl⟩

/-- A lane's gate entries from the first on. -/
def State.restartGates (s : State) (l : Nat) : State := s.modLane l fun x => { x with gateIdx := 0 }

/-- Into row 0 of the next matrix (R189, R195). -/
theorem newMatrix_fields (s : State) (x : Run) (g : Img) : s.SameRows (s.newMatrix x g) ∧
    (s.newMatrix x g).sched.run = some { bank := x.bank, matrix := x.next, row := 0, next := x.next + imgRow g, change := 0 } ∧
    ∀ l < 8, ((s.newMatrix x g).lane l).gateIdx = 0 := by
  unfold State.newMatrix
  extract_lets skipped lanes run
  have hk : s.SameRows skipped := by
    unfold skipped
    split
    · exact countSkipped_rows ..
    · exact ⟨rfl, rfl, rfl, rfl, rfl, rfl⟩
  have hs : lanes.sched = skipped.sched := foldl_keeps State.sched _ State.restartGates (fun _ _ => rfl) _
  have ht : lanes.time = skipped.time := foldl_keeps State.time _ State.restartGates (fun _ _ => rfl) _
  have hf : lanes.fab = skipped.fab := foldl_keeps State.fab _ State.restartGates (fun _ _ => rfl) _
  have hl : ∀ l < 8, (lanes.lane l).gateIdx = 0 := fun l h => by
    rw [show lanes.lane l = _ from lane_modLanes (fun _ x => { x with gateIdx := 0 }) 8 skipped l, if_pos h]
  clear_value lanes
  obtain ⟨h1, h2, h3, h4, h5, h6⟩ := hk
  refine ⟨⟨?_, ?_, ?_, ?_, ?_, ?_⟩, ?_, fun l h => ?_⟩
  · rw [State.irqPulse_sched, State.onSched_sched, hs]; exact h1
  · rw [State.irqPulse_sched, State.onSched_sched, hs]; exact h2
  · rw [State.irqPulse_sched, State.onSched_sched, hs]; exact h3
  · rw [State.irqPulse_sched, State.onSched_sched, hs]; exact h4
  · rw [State.irqPulse_time, State.onSched_time, ht]; exact h5
  · rw [State.irqPulse_fab, State.onSched_fab, hf]; exact h6
  · rw [State.irqPulse_sched, State.onSched_sched]
  · rw [lane_congr (State.irqPulse_ept ..), lane_congr (State.onSched_ept ..)]; exact hl l h

/-- The next row of the running bank. -/
def State.nextRow (s : State) (x : Run) (g : Img) : State :=
  if imgNrows g ≤ x.row + 1 then s.newMatrix x g
  else s.onSched fun c => { c with run := some { x with row := x.row + 1, next := x.next + imgRow g } }

theorem nextRow_fields (s : State) (x : Run) (g : Img) : s.SameRows (s.nextRow x g) ∧
    ∃ y, (s.nextRow x g).sched.run = some y ∧ y.bank = x.bank ∧ y.next = x.next + imgRow g ∧
      (x.row + 1 < imgNrows g → y.row = x.row + 1 ∧ y.matrix = x.matrix ∧ y.change = x.change) ∧
      (imgNrows g ≤ x.row + 1 → y.row = 0 ∧ y.matrix = x.next ∧ y.change = 0 ∧ ∀ l < 8, ((s.nextRow x g).lane l).gateIdx = 0) := by
  unfold State.nextRow
  by_cases h : imgNrows g ≤ x.row + 1
  · simp only [if_pos h]
    obtain ⟨hk, hr, hl⟩ := newMatrix_fields s x g
    exact ⟨hk, _, hr, rfl, rfl, fun hlt => by omega, fun _ => ⟨rfl, rfl, rfl, hl⟩⟩
  · simp only [if_neg h]
    exact ⟨⟨rfl, rfl, rfl, rfl, rfl, rfl⟩, _, rfl, rfl, rfl, fun _ => ⟨rfl, rfl, rfl⟩, fun hle => absurd hle h⟩

/-- Rows under fail-quiet are counted, and re-alignment lasts on while its change has not ended. -/
def State.quietRow (s : State) : State :=
  s.countQuiet.onSched fun c => { c with realign := c.realign && s.countQuiet.realigning }

theorem quietRow_fields (s : State) : s.quietRow.sched.run = s.sched.run ∧ s.quietRow.sched.rowCnt = s.sched.rowCnt ∧
    s.quietRow.ept = s.ept ∧
    s.quietRow.sched.fqRows = (if s.sched.failQuiet && !s.time.drift then s.sched.fqRows + 1 else 0) ∧
    s.quietRow.sched.realign = (s.sched.realign && s.realigning) :=
  ⟨rfl, rfl, rfl, rfl, rfl⟩

theorem rowBoundary_none {s : State} (h : s.sched.run = none) : s.rowBoundary = s := by rw [State.rowBoundary, h]

section
variable {s : State} {x : Run} (hx : s.sched.run = some x)
include hx

theorem rowBoundary_waits (hd : s.dueNt x.next = false) : s.rowBoundary = s := by
  rw [State.rowBoundary, hx]; exact if_pos (by rw [hd]; rfl)

theorem rowBoundary_due (hd : s.dueNt x.next = true) : s.rowBoundary =
    (((s.onSched fun c => { c with rowCnt := c.rowCnt + 1 }).nextRow x (s.bankImg x.bank)).quietRow).planSlots
      (if imgNrows (s.bankImg x.bank) ≤ x.row + 1 then 0 else x.row + 1) x.next (imgRow (s.bankImg x.bank)) x.next := by
  rw [State.rowBoundary, hx]; exact if_neg (by rw [hd]; exact Bool.false_ne_true)

theorem rowBoundary_fields (hd : s.dueNt x.next = true) : let t := s.rowBoundary
    t.sched.rowCnt = s.sched.rowCnt + 1 ∧
    (∃ y, t.sched.run = some y ∧ y.bank = x.bank ∧ y.next = x.next + imgRow (s.bankImg x.bank) ∧
      (x.row + 1 < imgNrows (s.bankImg x.bank) → y.row = x.row + 1 ∧ y.matrix = x.matrix ∧ y.change = x.change) ∧
      (imgNrows (s.bankImg x.bank) ≤ x.row + 1 → y.row = 0 ∧ y.matrix = x.next ∧ y.change = 0 ∧
        ∀ l < 8, (t.lane l).gateIdx = 0)) ∧
    t.sched.fqRows = (if s.sched.failQuiet && !s.time.drift then s.sched.fqRows + 1 else 0) ∧
    t.sched.realign = (s.sched.realign && s.realigning) := by
  rw [rowBoundary_due hx hd]
  dsimp only
  rw [sched_of_plan (plan_planSlots ..)]
  simp only [lane_planSlots]
  obtain ⟨⟨h1, h2, h3, h4, h5, h6⟩, y, hrun, hbank, hnext, hin, hnew⟩ :=
    nextRow_fields (s.onSched fun c => { c with rowCnt := c.rowCnt + 1 }) x (s.bankImg x.bank)
  obtain ⟨qrun, qcnt, qept, qrows, qalign⟩ :=
    quietRow_fields ((s.onSched fun c => { c with rowCnt := c.rowCnt + 1 }).nextRow x (s.bankImg x.bank))
  generalize (s.onSched fun c => { c with rowCnt := c.rowCnt + 1 }).nextRow x (s.bankImg x.bank) = u at *
  have hr : u.realigning = s.realigning := by unfold State.realigning; rw [h6]; rfl
  refine ⟨qcnt.trans h4, ⟨y, qrun.trans hrun, hbank, hnext, hin, fun h => ?_⟩, ?_, ?_⟩
  · obtain ⟨hrow, hmatrix, hchange, hlanes⟩ := hnew h
    exact ⟨hrow, hmatrix, hchange, fun l hl => by rw [lane_congr qept]; exact hlanes l hl⟩
  · rw [qrows, h1, h2, h5]; rfl
  · rw [qalign, h3, hr]; rfl
end

/-- Settles O33: row boundaries by `rowBoundary_fields`, gate events by `gateEvent_fields`. -/
theorem rowsAndGates : Obligations.RowsAndGates := by
  unfold Obligations.RowsAndGates
  intro s u dt hu
  simp only [exec_rowBoundary, exec_gateEvent, ← hu]
  refine ⟨fun h => ⟨by rw [rowBoundary_none h], fun l => by rw [gateEvent_none h]⟩, fun x hx =>
    ⟨fun hd => by rw [rowBoundary_waits hx hd], fun hd => ⟨_, rfl, rowBoundary_fields hx hd⟩, fun l =>
      ⟨fun h => by rw [gateEvent_over hx h], fun e he => ⟨fun hd => by rw [gateEvent_waits hx he hd], fun hd => ?_⟩⟩⟩⟩
  obtain ⟨hgates, hkind, hidx, hsched, hother⟩ := gateEvent_fields hx he hd
  exact ⟨_, rfl, hgates, hkind, hidx, hsched, fun k _ => hother k⟩

end Sys2Proof.Machine
end

section
/-! Settling O32: PATTERN_SWAP, PATTERN_STOP and their boundaries. -/

namespace Sys2Proof.Machine

theorem exec_patternSwap (s : State) (r : Fin 16) : exec (.patternSwap r) s = .next (s.patternSwap r.val).finish := rfl
theorem exec_patternStop (s : State) (r : Fin 16) : exec (.patternStop r) s = .next (s.patternStop r.val).finish := rfl
theorem exec_bankSwap (s : State) (dt : Nat) : exec (.bankSwap dt) s = .next (s.pass dt).bankSwap.finish := rfl
theorem exec_bankEnd (s : State) (dt : Nat) : exec (.bankEnd dt) s = .next (s.pass dt).bankEnd.finish := rfl

/-! ### The schedule without its swap, its run, its quiet times -/

/-- The bank `b` of a schedule. -/
def Sched.bank (c : Sched) (b : Nat) : Bank := tget (fun _ => {}) c.banks b

/-- Bank `b` is VALID again. -/
def Sched.restore (c : Sched) (b : Nat) : Sched := { c with banks := tmod (fun _ => {}) c.banks b fun k => { k with state := .valid } }

theorem bank_sched (s : State) (b : Nat) : s.bank b = s.sched.bank b := rfl

theorem bank_restore_self (c : Sched) (b : Nat) : ((c.restore b).bank b).state = .valid :=
  congrArg Bank.state (tget_tset_self (d := fun _ => ({} : Bank)) (fun _ => {}) c.banks b { c.bank b with state := .valid } rfl)

theorem bank_restore_other (c : Sched) {b k : Nat} (h : k ≠ b) : (c.restore b).bank k = c.bank k := by
  unfold Sched.bank Sched.restore tmod
  dsimp only
  rw [tget_tset_other _ _ _ h]

theorem bank_restore_valid {c : Sched} {k : Nat} (b : Nat) (h : (c.bank k).state = .valid) : ((c.restore b).bank k).state = .valid := by
  by_cases hk : k = b
  · subst hk; exact bank_restore_self ..
  · rw [bank_restore_other _ hk]; exact h

/-- The schedule without the waiting swap (R205). -/
def Sched.unswapped (c : Sched) : Sched :=
  match c.swap with
  | none => c
  | some q => { c.restore q.bank with swap := none }

theorem unswapped_none {c : Sched} (h : c.swap = none) : c.unswapped = c := by rw [Sched.unswapped, h]
theorem unswapped_some {c : Sched} {q : SwapReq} (h : c.swap = some q) : c.unswapped = { c.restore q.bank with swap := none } := by
  rw [Sched.unswapped, h]

theorem unswapped_fields (c : Sched) : c.unswapped.run = c.run ∧ c.unswapped.swap = none ∧ c.unswapped.hold = c.hold ∧
    c.unswapped.failQuiet = c.failQuiet ∧ ∀ k, (c.bank k).state = .valid → (c.unswapped.bank k).state = .valid := by
  cases h : c.swap with
  | none => rw [unswapped_none h]; exact ⟨rfl, h, rfl, rfl, fun _ hk => hk⟩
  | some q => rw [unswapped_some h]; exact ⟨rfl, rfl, rfl, rfl, fun _ hk => bank_restore_valid q.bank hk⟩

/-- A swap cancelled changes the schedule alone, besides what a completion does. -/
theorem cancelSwap_fields (s : State) (t : Nat) : (s.cancelSwap t).sched = s.sched.unswapped ∧ (s.cancelSwap t).fab = s.fab ∧
    (s.cancelSwap t).ept = s.ept := by
  unfold State.cancelSwap
  split
  next h => rw [unswapped_none h]; exact ⟨rfl, rfl, rfl⟩
  next q h =>
    rw [unswapped_some h]
    dsimp only
    split
    · rw [finishCmd_keeps_sched, finishCmd_keeps_fab, finishCmd_keeps_ept]; exact ⟨rfl, rfl, rfl⟩
    · exact ⟨rfl, rfl, rfl⟩

/-- No stop waits. -/
def Sched.unstopped (c : Sched) : Sched := { c with stops := [], stopAt := none }

theorem finishStops_fields (s : State) (t : Nat) : (s.finishStops t).sched = s.sched.unstopped ∧
    (s.finishStops t).fab = s.fab ∧ (s.finishStops t).ept = s.ept := by
  have hf : (s.finishStops t).frame = (s.onSched Sched.unstopped).frame :=
    foldl_keeps State.frame _ _ (fun s p => frame_finishCmd ..) _
  exact ⟨of_frame_sched hf, (of_frame_fab hf).trans rfl, (of_frame_ept hf).trans rfl⟩

/-- Fail-quiet is over (R195). -/
def Sched.heard (c : Sched) : Sched := { c with failQuiet := false, fqRows := 0, fqSkipped := 0 }

theorem frame_endFailQuiet (s : State) (b : Bool) : (s.endFailQuiet b).frame = (s.onSched Sched.heard).frame :=
  (frame_event ..).trans (frame_setLevel ..)

theorem frame_endHold (s : State) : s.endHold.frame = (s.onSched fun c => { c with hold := none }).frame := by
  unfold State.endHold
  split
  next h => rw [← h]; rfl
  · exact frame_event ..

/-! ### The end of the running bank (R208, R216) -/

/-- No hold is in force or asked for, and no re-alignment runs (R216). -/
def Sched.released (c : Sched) : Sched := { c with hold := none, holdReq := none, realign := false }

/-- No bank runs. -/
def Sched.idle (c : Sched) : Sched := { c with run := none }

/-- The schedule once its running bank `b` has ended. -/
def Sched.ended (c : Sched) (b : Nat) : Sched :=
  (if c.failQuiet then (c.idle.restore b).heard else c.idle.restore b).released.unswapped.unstopped

theorem ended_fields (c : Sched) (b : Nat) : (c.ended b).run = none ∧ ((c.ended b).bank b).state = .valid ∧ (c.ended b).stops = [] ∧
    (c.ended b).stopAt = none ∧ (c.ended b).swap = none ∧ (c.ended b).hold = none ∧ (c.ended b).failQuiet = false := by
  have he : ∀ e : Sched, e = (if c.failQuiet then (c.idle.restore b).heard else c.idle.restore b) →
      e.run = none ∧ (e.bank b).state = .valid ∧ e.failQuiet = false := by
    rintro _ rfl
    split
    · exact ⟨rfl, bank_restore_self c b, rfl⟩
    next h => exact ⟨rfl, bank_restore_self c b, Bool.eq_false_iff.mpr h⟩
  unfold Sched.ended
  generalize (if c.failQuiet then (c.idle.restore b).heard else c.idle.restore b) = e at he
  obtain ⟨hrun, hbank, hquiet⟩ := he e rfl
  obtain ⟨h1, h2, h3, h4, h5⟩ := unswapped_fields e.released
  exact ⟨h1.trans hrun, h5 b hbank, rfl, rfl, h2, h3, h4.trans hquiet⟩

theorem lane_openAll (s : State) {l : Nat} (h : l < 8) : (s.openAll.lane l).gates = 0xFF#8 ∧ (s.openAll.lane l).kind = .arbitrating := by
  rw [show s.openAll.lane l = _ from
    lane_modLanes (fun _ x => { x with gates := 0xFF#8, kind := .arbitrating, gateIdx := 0 }) 8 s l, if_pos h]
  exact ⟨rfl, rfl⟩

theorem openAll_fields (s : State) : s.openAll.sched = s.sched ∧ s.openAll.fab = s.fab :=
  ⟨sched_of_plan (plan_openAll s), foldl_keeps State.fab _ (fun (s : State) l => s.modLane l fun x =>
    { x with gates := 0xFF#8, kind := .arbitrating, gateIdx := 0 }) (fun _ _ => rfl) s⟩

theorem dropSlotEvents_fields (s : State) : s.dropSlotEvents.sched = s.sched ∧ s.dropSlotEvents.fab = s.fab ∧
    s.dropSlotEvents.ept.lanes = s.ept.lanes := ⟨rfl, rfl, rfl⟩

theorem endBank_fields {s : State} {x : Run} (hx : s.sched.run = some x) (t : Nat) : (s.endBank t).sched = s.sched.ended x.bank ∧
    (s.endBank t).fab.inForce = s.fab.inForce ∧
    ∀ l < 8, ((s.endBank t).lane l).gates = 0xFF#8 ∧ ((s.endBank t).lane l).kind = .arbitrating := by
  unfold State.endBank
  split
  next h => exact absurd (h.symm.trans hx) (Option.some_ne_none x).symm
  next y hy =>
  obtain rfl : x = y := Option.some.inj (hx.symm.trans hy)
  extract_lets old ended opened quieted released asked unasked c aligned d unarmed e uncast
  have ho : opened.sched = s.sched.idle.restore x.bank := (dropSlotEvents_fields _).1.trans (openAll_fields ended).1
  have hof : opened.fab = s.fab := (dropSlotEvents_fields _).2.1.trans (openAll_fields ended).2
  have hoe : opened.ept.lanes = ended.openAll.ept.lanes := (dropSlotEvents_fields _).2.2
  have hq : quieted.frame = (if opened.sched.failQuiet then opened.onSched Sched.heard else opened).frame := by
    unfold quieted
    split
    · exact frame_endFailQuiet ..
    · rfl
  have hr : released.frame = (quieted.onSched fun c => { c with hold := none }).frame := frame_endHold _
  have hqs : quieted.sched = if opened.sched.failQuiet then opened.sched.heard else opened.sched := by
    rw [of_frame_sched hq]; split <;> rfl
  have hu : uncast.sched = quieted.sched.released ∧ uncast.fab.inForce = s.fab.inForce ∧ uncast.ept.lanes = ended.openAll.ept.lanes := by
    refine ⟨?_, ?_, ?_⟩
    · change { released.sched with holdReq := none, realign := false } = _
      rw [of_frame_sched hr]; rfl
    · change released.fab.inForce = _
      rw [of_frame_fab hr, State.onSched_fab, of_frame_fab hq, ← hof]; split <;> rfl
    · change released.ept.lanes = _
      rw [of_frame_ept hr, State.onSched_ept, of_frame_ept hq, ← hoe]; split <;> rfl
  obtain ⟨hus, huf, hue⟩ := hu
  obtain ⟨h1, h2, h3⟩ := cancelSwap_fields uncast t
  obtain ⟨h4, h5, h6⟩ := finishStops_fields (uncast.cancelSwap t) t
  clear_value uncast
  refine ⟨?_, ?_, fun l hl => ?_⟩
  · rw [h4, h1, hus, hqs, ho]; rfl
  · rw [h5, h2, huf]
  · have hlane : ((uncast.cancelSwap t).finishStops t).lane l = ended.openAll.lane l := by
      unfold State.lane; rw [h6, h3, hue]
    rw [hlane]
    exact lane_openAll ended hl

/-! ### PATTERN_SWAP (R205, R285) -/

theorem swapCheck_idle {s : State} (h : s.sched.run = none) (b : Nat) (t : Option Nat) : (s.swapCheck b t).1 = 0x2D := by
  unfold State.swapCheck
  split
  · rfl
  next x hx => exact absurd (h.symm.trans hx) (Option.some_ne_none x).symm

/-- The first checks of a swap while a bank runs; `q` is what the boundary and the maps decide. -/
theorem swapCheck_running {s : State} {x : Run} (hx : s.sched.run = some x) (b : Nat) (t : Option Nat) : ∃ q, s.swapCheck b t =
    if (s.bank b).state ≠ .valid then (0x2E, 0) else if t.any s.timeBad then (0x08, 0) else q := by
  unfold State.swapCheck
  split
  next h => exact absurd (h.symm.trans hx) (Option.some_ne_none x).symm
  next => exact ⟨_, rfl⟩

section
variable {s : State} (hr : s.sched.run.isSome = true) {b : Nat} {t : Option Nat}
include hr

theorem swapCheck_unloaded (hv : (s.bank b).state ≠ .valid) : (s.swapCheck b t).1 = 0x2E := by
  obtain ⟨x, hx⟩ := Option.isSome_iff_exists.mp hr
  obtain ⟨q, hq⟩ := swapCheck_running hx b t
  rw [hq, if_pos hv]

theorem swapCheck_badTime (hv : (s.bank b).state = .valid) (ht : t.any s.timeBad = true) : (s.swapCheck b t).1 = 0x08 := by
  obtain ⟨x, hx⟩ := Option.isSome_iff_exists.mp hr
  obtain ⟨q, hq⟩ := swapCheck_running hx b t
  rw [hq, if_neg (not_not.mpr hv), if_pos ht]
end

theorem bank_setPending (s : State) (b : Nat) (f : Sched → Sched) (hf : ∀ c, (f c).banks = c.banks) (k : Nat) :
    ((s.onSched f).modBank b fun k => { k with state := .pending }).bank k =
      if k = b then { s.bank k with state := .pending } else s.bank k := by
  have hs : (s.onSched f).bank k = s.bank k := bank_congr (hf s.sched) k
  split
  next h => subst h; rw [bank_modBank_self, hs]
  next h => rw [bank_modBank_other _ _ h, hs]

/-- A swap that waits, in the place of the one that waited (R205). -/
theorem setSwap_fields (s : State) (b t : Nat) (issuer : Option (Nat × Nat)) : let u := s.setSwap b t issuer
    (u.bank b).state = .pending ∧ u.sched.swap = some { bank := b, boundary := t, issuer := issuer } ∧
    (∀ q, s.sched.swap = some q → q.bank ≠ b → (u.bank q.bank).state = .valid) ∧ u.sched.run = s.sched.run ∧ u.fab = s.fab := by
  obtain ⟨hs, hf, _⟩ := cancelSwap_fields s 0
  obtain ⟨hrun, _⟩ := unswapped_fields s.sched
  unfold State.setSwap
  dsimp only
  simp only [bank_setPending _ b (fun c => { c with swap := some { bank := b, boundary := t, issuer := issuer } }) fun _ => rfl,
    if_true]
  refine ⟨trivial, rfl, fun q hq hne => ?_, ?_, hf⟩
  · rw [if_neg hne, bank_sched, hs, unswapped_some hq]
    exact bank_restore_self s.sched q.bank
  · change (s.cancelSwap 0).sched.run = _
    rw [hs, hrun]

section
variable {s : State} {r : Nat}

theorem patternSwap_none (h : s.readyHead r 0x22 = none) : s.patternSwap r = s := by rw [State.patternSwap, h]

variable {e : Entry} (h : s.readyHead r 0x22 = some e)
include h

theorem patternSwap_waits (hb : (s.bank (byteAt e.bytes 24)).state = .loading) : s.patternSwap r = s := by
  rw [State.patternSwap, h]; exact if_pos hb

variable (hb : (s.bank (byteAt e.bytes 24)).state ≠ .loading)
include hb

theorem patternSwap_refused (hv : (s.swapCheck (byteAt e.bytes 24) (timeArg e.bytes 32)).1 ≠ 0) :
    s.patternSwap r = s.finishCmd r e.idx (s.swapCheck (byteAt e.bytes 24) (timeArg e.bytes 32)).1 false := by
  rw [State.patternSwap, h]; dsimp only
  rw [if_neg hb]; exact if_neg hv

theorem patternSwap_accepts (hv : (s.swapCheck (byteAt e.bytes 24) (timeArg e.bytes 32)).1 = 0) : s.patternSwap r =
    (s.begin_ r e.idx).setSwap (byteAt e.bytes 24) (s.swapCheck (byteAt e.bytes 24) (timeArg e.bytes 32)).2 (some (r, e.idx)) := by
  rw [State.patternSwap, h]; dsimp only
  rw [if_neg hb]; exact if_pos hv
end

/-! ### PATTERN_STOP (R208, R285) -/

section
variable {s : State} {r : Nat}

theorem patternStop_none (h : s.readyHead r 0x23 = none) : s.patternStop r = s := by rw [State.patternStop, h]

variable {e : Entry} (h : s.readyHead r 0x23 = some e)
include h

theorem patternStop_idle (hr : s.sched.run = none) : s.patternStop r = s.finishCmd r e.idx 0x2D false := by
  rw [State.patternStop, h]; dsimp only; rw [hr]

theorem patternStop_waits {q : Run} (hr : s.sched.run = some q) : s.patternStop r = (s.begin_ r e.idx).onSched fun c =>
    { c with stops := c.stops ++ [(r, e.idx)],
             stopAt := some (c.stopAt.getD (q.matrix + imgM (s.bankImg q.bank)).toNat) } := by
  rw [State.patternStop, h]; dsimp only; rw [hr]; rfl
end

/-! ### The boundary of a swap (R206) -/

/-- The swapped bank runs, before the swap's completion. -/
def State.swapped (s : State) (x : Run) (q : SwapReq) (m : Int) (t : Nat) : State :=
  let u := ((s.onSched fun c => { c with swap := none }).modBank x.bank fun k => { k with state := .valid }).dropSlotEvents
  let u := ((u.enterBank q.bank m t).keepCast q.bank).cancelStaging.followPolicies
  u.event 13 0 (q.bank + 4 * x.bank) (leBytes 4 u.sched.rowCnt.toNat)

theorem swapNow_eq (s : State) (x : Run) (q : SwapReq) (m : Int) (t b : Nat) : s.swapNow x q m t b =
    match q.issuer with
    | some (a, i) => (s.swapped x q m t).finishCmd a i 0 true (boundaryRes b)
    | none => s.swapped x q m t := rfl

theorem sched_keepCast (s : State) (b : Nat) : (s.keepCast b).cancelStaging.followPolicies.sched = s.sched :=
  (sched_of_plan ((plan_followPolicies _).trans (plan_cancelStaging (s.keepCast b)))).trans rfl

theorem sched_swapped (s : State) (x : Run) (q : SwapReq) (m : Int) (t : Nat) : (s.swapped x q m t).sched =
    (((s.onSched fun c => { c with swap := none }).modBank x.bank fun k => { k with state := .valid }).entered q.bank m t).sched := by
  unfold State.swapped
  extract_lets restored u
  have hu : u.sched = (restored.enterBank q.bank m t).sched := sched_keepCast ..
  rw [event_keeps_sched, hu, sched_of_plan (plan_enterBank ..)]
  rfl

theorem swapped_fields (s : State) (x : Run) (q : SwapReq) (m : Nat) : let t := s.swapped x q m m
    (∃ y, t.sched.run = some y ∧ y.bank = q.bank ∧ y.matrix = m ∧ y.row = 0) ∧ (t.bank q.bank).state = .running ∧
    (x.bank ≠ q.bank → (t.bank x.bank).state = .valid) ∧ t.sched.swap = none ∧ t.sched.rowCnt = s.sched.rowCnt := by
  have hs := sched_swapped s x q m m
  have hb := fun k => bank_congr (congrArg Sched.banks hs) k
  dsimp only
  generalize s.swapped x q m m = t at hs hb
  refine ⟨⟨_, congrArg Sched.run hs, rfl, rfl, rfl⟩, by rw [hb, bank_entered_self], fun hne => ?_,
    congrArg Sched.swap hs, (congrArg Sched.rowCnt hs).trans rfl⟩
  rw [hb, bank_entered_other _ _ _ hne, bank_modBank_self]

section
variable {s : State}

theorem bankSwap_due {x : Run} {q : SwapReq} (hx : s.sched.run = some x) (hq : s.sched.swap = some q)
    (hd : s.dueNt q.boundary = true) (hb : q.boundary < x.next) :
    s.bankSwap = s.swapNow x q q.boundary q.boundary (ceilNs q.boundary) := by
  rw [State.bankSwap, hx, hq]; exact if_pos (by simp [hd, hb])

theorem bankSwap_early {x : Run} {q : SwapReq} (hx : s.sched.run = some x) (hq : s.sched.swap = some q)
    (h : s.dueNt q.boundary = false ∨ x.next ≤ q.boundary) : s.bankSwap = s := by
  rw [State.bankSwap, hx, hq]; exact if_neg (by rcases h with h | h <;> simp [h])

theorem bankSwap_none (h : s.sched.run = none ∨ s.sched.swap = none) : s.bankSwap = s := by
  unfold State.bankSwap
  split
  next x q hx hq => rw [hx, hq] at h; simp at h
  · rfl

theorem bankEnd_due {x : Run} {b : Nat} (hx : s.sched.run = some x) (hs : s.sched.stopAt = some b) (hd : s.dueNt b = true)
    (hb : b < x.next) : s.bankEnd = (s.endBank (ceilNs b)).followPolicies := by
  rw [State.bankEnd, hx, hs]; exact if_pos (by simp [hd, hb])

theorem bankEnd_early {x : Run} {b : Nat} (hx : s.sched.run = some x) (hs : s.sched.stopAt = some b)
    (h : s.dueNt b = false ∨ x.next ≤ b) : s.bankEnd = s := by
  rw [State.bankEnd, hx, hs]; exact if_neg (by rcases h with h | h <;> simp [h])

theorem bankEnd_none (h : s.sched.run = none ∨ s.sched.stopAt = none) : s.bankEnd = s := by
  unfold State.bankEnd
  split
  next x b hx hs => rw [hx, hs] at h; simp at h
  · rfl
end

theorem ept_followPolicies (s : State) : s.followPolicies.ept = s.ept :=
  foldl_keeps State.ept _ _ (fun s h => by obtain ⟨f, hf⟩ := followPolicy_fab_only s h; rw [hf]) s

/-- The running bank ends at the stopping boundary (R208, R216). -/
theorem bankEnd_fields {s : State} {x : Run} {b : Nat} (hx : s.sched.run = some x) (hs : s.sched.stopAt = some b)
    (hd : s.dueNt b = true) (hb : b < x.next) : let t := s.bankEnd
    t.sched.run = none ∧ (t.bank x.bank).state = .valid ∧ t.sched.stops = [] ∧ t.sched.stopAt = none ∧ t.sched.swap = none ∧
    t.sched.hold = none ∧ t.sched.failQuiet = false ∧ t.fab.inForce = s.fab.inForce ∧
    ∀ l < 8, (t.lane l).gates = 0xFF#8 ∧ (t.lane l).kind = .arbitrating := by
  rw [bankEnd_due hx hs hd hb]
  dsimp only
  obtain ⟨hsched, hforce, hlanes⟩ := endBank_fields hx (ceilNs b)
  have hp := plan_followPolicies (s.endBank (ceilNs b))
  obtain ⟨h1, h2, h3, h4, h5, h6, h7⟩ := ended_fields s.sched x.bank
  simp only [bank_sched, sched_of_plan hp, inForce_of_plan hp, lane_congr (ept_followPolicies _), hsched]
  exact ⟨h1, h2, h3, h4, h5, h6, h7, hforce, hlanes⟩

/-- Settles O32: PATTERN_SWAP by `setSwap_fields`, a swap's boundary by `swapped_fields`, a stop's by `bankEnd_fields`. -/
theorem swappingAndStopping : Obligations.SwappingAndStopping := by
  unfold Obligations.SwappingAndStopping
  simp only [exec_patternSwap, exec_patternStop, exec_bankSwap, exec_bankEnd]
  refine ⟨fun s r => ⟨fun h => by rw [patternSwap_none h], fun h => by rw [patternStop_none h], fun e => ⟨fun h => ⟨fun hb => ?_,
      fun hb => ⟨fun hv => ?_, fun hr => swapCheck_idle hr _ _, fun hr hv => swapCheck_unloaded hr hv,
        fun hr hv ht => swapCheck_badTime hr hv ht, fun hv => ?_⟩⟩, fun h => ⟨fun hr => ?_, fun q hr => ?_⟩⟩⟩,
    fun s u dt hu => ?boundaries⟩
  · rw [patternSwap_waits h hb]
  · rw [patternSwap_refused h hb hv]
  · rw [patternSwap_accepts h hb hv]
    exact ⟨_, rfl, setSwap_fields (s.begin_ r.val e.idx) ..⟩
  · rw [patternStop_idle h hr]
  · rw [patternStop_waits h hr]
  case boundaries =>
    rw [← hu]
    refine ⟨fun x q hx hq => ⟨fun hd hb => ⟨u.swapped x q q.boundary q.boundary, fun a i hi => ?_, fun hi => ?_, swapped_fields u x q _⟩,
        fun h => by rw [bankSwap_early hx hq h]⟩, fun h => by rw [bankSwap_none h],
      fun x b hx hs => ⟨fun hd hb => ⟨_, rfl, bankEnd_fields hx hs hd hb⟩, fun h => by rw [bankEnd_early hx hs h]⟩,
      fun h => by rw [bankEnd_none h]⟩
    · rw [bankSwap_due hx hq hd hb, swapNow_eq, hi]
    · rw [bankSwap_due hx hq hd hb, swapNow_eq, hi]

end Sys2Proof.Machine
end

section
/-! What reports leave of the fault sources: a completion or an event fires, and no source changes. -/

namespace Sys2Proof.Machine

/-- The fault collector without the firings that wait. -/
def State.sources (s : State) : Flt := { s.flt with fireQ := [] }

theorem fsrc_of_sources {s t : State} (h : t.sources = s.sources) (n : Nat) : t.fsrc n = s.fsrc n := by
  have hs : t.flt.src = s.flt.src := (congrArg Flt.src h : t.sources.src = s.sources.src)
  unfold State.fsrc; rw [hs]

theorem sources_of_flt {s t : State} (h : t.flt = s.flt) : t.sources = s.sources := by unfold State.sources; rw [h]

@[simp] theorem sources_emit (s : State) (o : Output) : (s.emit o).sources = s.sources := rfl
@[simp] theorem sources_fire (s : State) (n d : Nat) (o : Option Nat) : (s.fire n d o).sources = s.sources := rfl
@[simp] theorem sources_modRing (s : State) (r : Nat) (f : Ring → Ring) : (s.modRing r f).sources = s.sources := rfl
@[simp] theorem sources_modEntry (s : State) (r i : Nat) (f : Entry → Entry) : (s.modEntry r i f).sources = s.sources := rfl
@[simp] theorem sources_acceptHead (s : State) (r i : Nat) (f : Entry → Entry) : (s.acceptHead r i f).sources = s.sources := rfl
@[simp] theorem sources_noteRefusal (s : State) (k : Nat) : (s.noteRefusal k).sources = s.sources := rfl

@[simp] theorem sources_ringMsg (s : State) (r : Nat) : (s.ringMsg r).sources = s.sources := by
  have hm : ∀ v, (s.sendMsix v).sources = s.sources := fun v => by unfold State.sendMsix; split <;> rfl
  unfold State.ringMsg
  dsimp only
  split
  · split
    · rfl
    · split <;> simp [hm]
  · rfl

@[simp] theorem sources_event (s : State) (c b a : Nat) (d : List Byte) (t : Option Nat) (q : Bool) :
    (s.event c b a d t q).sources = s.sources := by
  have hw : ∀ (s : State) r e, (s.writeEvent r e).sources = s.sources := fun s r e => by simp [State.writeEvent]
  have hd : ∀ (s : State) r, (s.dropEvent r q).sources = s.sources := fun s r => by
    unfold State.dropEvent; dsimp only; split <;> rfl
  unfold State.event
  dsimp only
  split
  · split
    · rw [hw]; rfl
    · split
      · rfl
      · rw [hd]; rfl
  · exact hd ..

@[simp] theorem sources_writeAudit (s : State) (e : AuditEntry) (ok : Bool) : (s.writeAudit e ok).sources = s.sources := by
  unfold State.writeAudit State.appendAudit; dsimp only; split <;> rfl

@[simp] theorem sources_holdAudit (s : State) (e : AuditEntry) : (s.holdAudit e).sources = s.sources := by
  unfold State.holdAudit; split <;> rfl

@[simp] theorem sources_setResult (s : State) (q : Nat) (b : Byte) : (s.setResult q b).sources = s.sources := by
  unfold State.setResult; split <;> rfl

@[simp] theorem sources_credCheck (s : State) (b m : List Byte) (f : Role → Bool) : (s.credCheck b m f).2.sources = s.sources := by
  have hc : ∀ k c, (s.useCounter k c).sources = s.sources := fun k c => by unfold State.useCounter; split <;> rfl
  unfold State.credCheck
  dsimp only
  split
  · rfl
  · split
    · rfl
    · split
      · rfl
      · split <;> exact hc ..

@[simp] theorem sources_writeCompletion (s : State) (r : Nat) (e : Entry) (c : Completion) :
    (s.writeCompletion r e c).sources = s.sources := by
  unfold State.writeCompletion
  dsimp only
  split <;> split <;> split <;> simp

@[simp] theorem sources_startHead (s : State) (r : Nat) (e : Entry) (ok : Bool) : (s.startHead r e ok).sources = s.sources := by
  unfold State.startHead
  dsimp only
  split
  · simp
  · split
    · simp
    · split
      · simp
      · generalize hp : (if e.auth.isEmpty = true then ((⟨5, none⟩ : Cred), s) else s.credCheck e.auth _ _) = p
        have h : p.2.sources = s.sources := by rw [← hp]; split <;> simp
        generalize (if p.1.status = 0 && !ok then 0x50 else p.1.status) = st
        split <;> simp [h]

@[simp] theorem sources_complete (s : State) (r i : Nat) (c : Completion) : (s.complete r i c).sources = s.sources := by
  have hs : ∀ n (s : State) r ok, (State.settle n s r ok).sources = s.sources := by
    intro n
    induction n with
    | zero => exact fun _ _ _ => rfl
    | succ n ih =>
      intro s r ok
      unfold State.settle
      split
      · rfl
      · split
        · rfl
        · split
          · rw [ih]; simp
          · split
            · rw [ih]; simp
            · rfl
  exact hs ..

@[simp] theorem sources_finishCmd (s : State) (r i st : Nat) (tk : Bool) (res : List Byte) (k : Nat)
    (pre : Option (Nat × List Byte)) : (s.finishCmd r i st tk res k pre).sources = s.sources := by
  unfold State.finishCmd; split <;> simp

end Sys2Proof.Machine
end

section
/-! Settling O34: fail-quiet and static hold begin and end. -/

namespace Sys2Proof.Machine

theorem exec_failQuietStart (s : State) (dt : Nat) : exec (.failQuietStart dt) s = .next (s.pass dt).failQuietStart.finish := rfl
theorem exec_failQuietEnd (s : State) (dt : Nat) :
    exec (.failQuietEnd dt) s = .next (s.pass dt).failQuietEnd.shutGates.finish := rfl
theorem exec_holdStart (s : State) (dt : Nat) : exec (.holdStart dt) s = .next (s.pass dt).holdStart.shutGates.finish := rfl
theorem exec_holdEnd (s : State) (dt : Nat) : exec (.holdEnd dt) s = .next (s.pass dt).holdEnd.shutGates.finish := rfl

/-! ### A change in preparation leaves registers and fault sources alone -/

theorem flt_followPolicies (s : State) : s.followPolicies.flt = s.flt :=
  foldl_keeps State.flt _ _ (fun s h => by obtain ⟨f, hf⟩ := followPolicy_fab_only s h; rw [hf]) s

theorem regs_followPolicies (s : State) : s.followPolicies.regs = s.regs := foldl_keeps State.regs _ _ regs_followPolicy s

theorem sources_leaveCal (s : State) (c st : Nat) (tk : Bool) : (s.leaveCal c st tk).sources = s.sources := by
  have he : ∀ b, (s.exitCal c b).sources = s.sources := fun b => by unfold State.exitCal; split <;> rfl
  unfold State.leaveCal
  split
  · rfl
  · dsimp only; split <;> simp [he]

theorem sources_beginChange (s : State) (ch : Change) : (s.beginChange ch).sources = s.sources :=
  (sources_of_flt (flt_followPolicies _)).trans (foldl_keeps State.sources _ _ (fun _ _ => sources_leaveCal ..) _)

theorem regs_beginChange (s : State) (ch : Change) : (s.beginChange ch).regs = s.regs :=
  (regs_followPolicies _).trans (foldl_keeps State.regs _ _ (fun _ _ => regs_leaveCal ..) _)

/-! ### Prepared changes given up (R212, R214) -/

/-- No sequencer is armed and no cast-on order stands. -/
def State.disarmed (s : State) : State := s.onFab fun f => { f with armedEntry := none, casts := [] }

theorem plan_goQuiet (s : State) : s.goQuiet.plan = s.disarmed.plan :=
  (plan_followPolicies _).trans (plan_cancelStaging s.disarmed)

theorem regs_goQuiet (s : State) : s.goQuiet.regs = s.regs := regs_followPolicies _

theorem disarmed_of_plan {s t : State} (h : t.plan = s.disarmed.plan) : t.fab.casts = [] ∧ t.fab.armedEntry = none ∧
    t.fab.inForce = s.fab.inForce ∧ t.fab.waiting = s.fab.waiting ∧ t.fab.dirs = s.fab.dirs ∧ t.sched = s.sched :=
  ⟨of_plan (·.fab.casts) (fun _ => rfl) h, of_plan (·.fab.armedEntry) (fun _ => rfl) h, (inForce_of_plan h).trans rfl,
    (waiting_of_plan h).trans rfl, (of_plan (·.fab.dirs) (fun _ => rfl) h).trans rfl, (sched_of_plan h).trans rfl⟩

/-! ### Re-alignment (R213) -/

theorem startRealign_none (s : State) : s.startRealign none = s := rfl

theorem startRealign_some (s : State) (m : Nat) : let t := s.startRealign (some m)
    t.sched = { s.sched with realign := true } ∧ bit (t.rg .schedStatus) 20 = true ∧ t.sources = s.sources ∧
    ∃ c : Change, t.fab.waiting = s.fab.waiting ++ [c] ∧ c.map = m ∧ c.src = .realign ∧ c.stage = .prep := by
  unfold State.startRealign
  extract_lets marked
  have hp := beginChange_fields (marked.setBit .schedStatus 0 20) { map := m, prev := marked.fab.inForce, src := .realign }
  have hs := sched_of_plan hp
  have hw := waiting_of_plan hp
  rw [State.onFab_sched, State.setBit_sched] at hs
  rw [State.onFab_fab, State.setBit_fab] at hw
  refine ⟨hs, ?_, (sources_beginChange ..).trans (sources_of_flt (State.setBit_flt ..)), _, hw, rfl, rfl, rfl⟩
  rw [rg_congr (regs_beginChange ..)]
  exact bit_rg_setBit _ _ _ (by decide)

/-- The end of the last of fail-quiet and hold in `u`, whose re-alignment `m` the schedule of before decides. -/
theorem startRealign_fields {s u : State} (hf : u.fab = s.fab) (m : Option Nat) : let t := u.startRealign m
    t.sched.failQuiet = u.sched.failQuiet ∧ t.sched.fqSkipped = u.sched.fqSkipped ∧ t.sched.hold = u.sched.hold ∧
    t.sources = u.sources ∧ (m = none → t.sched.realign = u.sched.realign ∧ t.fab = s.fab) ∧
    ∀ k, m = some k → t.sched.realign = true ∧ bit (t.rg .schedStatus) 20 = true ∧
      ∃ c : Change, t.fab.waiting = s.fab.waiting ++ [c] ∧ c.map = k ∧ c.src = .realign ∧ c.stage = .prep := by
  cases m with
  | none => exact ⟨rfl, rfl, rfl, rfl, fun _ => ⟨rfl, hf⟩, fun k hk => absurd hk (Option.some_ne_none k).symm⟩
  | some k =>
    obtain ⟨hs, hb, hsrc, c, hw, hc⟩ := startRealign_some u k
    dsimp only
    rw [hs]
    refine ⟨rfl, rfl, rfl, hsrc, fun h => absurd h (Option.some_ne_none k), fun j hj => ⟨rfl, hb, c, ?_, ?_⟩⟩
    · rw [hw, hf]
    · obtain rfl : k = j := Option.some.inj hj
      exact hc

/-! ### Fail-quiet (R195, R212, R213) -/

/-- The state under fail-quiet, its sticky bit set (R212). -/
def State.underFailQuiet (s : State) : State :=
  (s.onSched fun c => { c with failQuiet := true, fqRows := 0, fqSkipped := 0 }).setBit .schedStatus 0 24

section
variable {s : State}

theorem failQuietStart_idle (h : s.sched.run = none ∨ s.sched.failQuiet = true ∨ s.time.drift = false ∨
    ∃ x, s.sched.run = some x ∧ hasExclusive (s.bankImg x.bank) = false) : s.failQuietStart = s := by
  unfold State.failQuietStart
  split
  · rfl
  next y hy =>
    refine if_pos ?_
    rcases h with h | h | h | ⟨x, hx, h⟩
    · exact absurd (h.symm.trans hy) (Option.some_ne_none y).symm
    · simp [h]
    · simp [h]
    · obtain rfl : x = y := Option.some.inj (hx.symm.trans hy)
      simp [h]

theorem failQuietStart_starts {x : Run} (hx : s.sched.run = some x) (hf : s.sched.failQuiet = false) (hd : s.time.drift = true)
    (he : hasExclusive (s.bankImg x.bank) = true) :
    s.failQuietStart = (s.underFailQuiet.goQuiet.setLevel 62 true).event 11 0 0 := by
  rw [State.failQuietStart, hx]
  exact if_neg (by simp [hf, hd, he])

theorem failQuietStart_fields {x : Run} (hx : s.sched.run = some x) (hf : s.sched.failQuiet = false) (hd : s.time.drift = true)
    (he : hasExclusive (s.bankImg x.bank) = true) : let t := s.failQuietStart
    t.sched.failQuiet = true ∧ t.sched.fqRows = 0 ∧ t.sched.fqSkipped = 0 ∧ bit (t.rg .schedStatus) 24 = true ∧
    t.activeSrc 62 = true ∧ t.fab.casts = [] ∧ t.fab.armedEntry = none ∧ t.sched.run = some x ∧ t.fab.inForce = s.fab.inForce := by
  rw [failQuietStart_starts hx hf hd he]
  intro t
  have hp : t.plan = s.underFailQuiet.disarmed.plan := (plan_event ..).trans ((plan_setLevel ..).trans (plan_goQuiet _))
  obtain ⟨hcasts, harmed, hforce, _, _, hsched⟩ := disarmed_of_plan hp
  rw [State.underFailQuiet, State.setBit_sched] at hsched
  rw [State.underFailQuiet, State.setBit_fab] at hforce
  have hregs : t.regs = s.underFailQuiet.regs :=
    (event_keeps_regs ..).trans ((setLevel_keeps_regs ..).trans (regs_goQuiet _))
  have hsrc : (t.fsrc 62).active = true := by
    rw [fsrc_of_sources (sources_event ..)]; exact setLevel_active ..
  refine ⟨congrArg Sched.failQuiet hsched, congrArg Sched.fqRows hsched, congrArg Sched.fqSkipped hsched, ?_, ?_, hcasts, harmed,
    (congrArg Sched.run hsched).trans hx, hforce⟩
  · rw [rg_congr hregs]; exact bit_rg_setBit _ _ _ (by decide)
  · rw [State.activeSrc, hsrc, Bool.true_or]

theorem failQuietEnd_idle (h : s.sched.failQuiet = false ∨ s.sched.fqRows < s.releaseRows) : s.failQuietEnd = s :=
  if_neg (by rcases h with h | h <;> simp [h])

theorem failQuietEnd_ends (hf : s.sched.failQuiet = true) (hr : s.releaseRows ≤ s.sched.fqRows) : s.failQuietEnd =
    (s.endFailQuiet (s.realignNeed s.sched.hold.isNone).isSome).startRealign (s.realignNeed s.sched.hold.isNone) :=
  if_pos (by simp [hf, hr])

theorem endFailQuiet_inactive (b : Bool) : ((s.endFailQuiet b).fsrc 62).active = false := by
  unfold State.endFailQuiet
  rw [fsrc_of_sources (sources_event ..)]
  unfold State.setLevel State.fsrc State.modFsrc tmod
  simp

end

/-! ### Static hold (R214, R216) -/

/-- The hold asked for as `w` is in force, in the place of one in force (R214). -/
def State.held (s : State) (w : HoldWhy) : State :=
  s.onSched fun c => { c with holdReq := none,
                              hold := some { why := w, skipped := (c.hold.getD { why := w }).skipped,
                                             bounds := (c.hold.getD { why := w }).bounds } }

/-- The hold in force, prepared changes given up, and its event. -/
def State.holdTaken (s : State) (w : HoldWhy) : State := (s.held w).goQuiet.event 12 0 w.code

theorem holdTaken_fields (s : State) (w : HoldWhy) : let t := s.holdTaken w
    t.sched = (s.held w).sched ∧ t.fab.armedEntry = none ∧ t.fab.casts = [] ∧ t.fab.inForce = s.fab.inForce ∧
    t.fab.waiting = s.fab.waiting ∧ t.rg .schedCfg = s.rg .schedCfg ∧ ∀ m, t.mapRouted m = s.mapRouted m := by
  intro t
  have hp : t.plan = (s.held w).disarmed.plan := (plan_event ..).trans (plan_goQuiet _)
  obtain ⟨hcasts, harmed, hforce, hwait, hdirs, hsched⟩ := disarmed_of_plan hp
  have hregs : t.regs = s.regs := (event_keeps_regs ..).trans (regs_goQuiet _)
  exact ⟨hsched, harmed, hcasts, hforce, hwait, rg_congr hregs .., fun m => by
    unfold State.mapRouted; rw [dir_congr (s := s) hdirs]⟩

section
variable {s : State}

theorem holdStart_idle (h : s.sched.run = none ∨ s.sched.holdReq = none ∨ ∃ x, s.sched.run = some x ∧ x.matrix < s.sched.holdAt) :
    s.holdStart = s := by
  unfold State.holdStart
  split
  next y w hy hw =>
    rcases h with h | h | ⟨x, hx, h⟩
    · exact absurd (h.symm.trans hy) (Option.some_ne_none y).symm
    · exact absurd (h.symm.trans hw) (Option.some_ne_none w).symm
    · obtain rfl : x = y := Option.some.inj (hx.symm.trans hy)
      exact if_pos h
  · rfl

/-- Whether a hold asked for as `w` puts the change to the inauguration map `m` in preparation (R214). -/
def State.inaugurates (s : State) (w : HoldWhy) (m : Nat) : Bool :=
  w = .coupling && bit (s.rg .schedCfg) 31 && decide (s.fab.inForce ≠ some m) && s.mapRouted m

theorem inaugurates_true {w : HoldWhy} {m : Nat} (hw : w = .coupling) (hb : bit (s.rg .schedCfg) 31 = true)
    (hf : s.fab.inForce ≠ some m) (hr : s.mapRouted m = true) : s.inaugurates w m = true := by
  simp [State.inaugurates, hw, hb, hf, hr]

theorem inaugurates_false {w : HoldWhy} {m : Nat} (h : w = .step ∨ bit (s.rg .schedCfg) 31 = false ∨ s.fab.inForce = some m ∨
    s.mapRouted m = false) : s.inaugurates w m = false := by
  rcases h with h | h | h | h <;> simp [State.inaugurates, h]

theorem inaugurates_holdTaken (w v : HoldWhy) (m : Nat) : (s.holdTaken v).inaugurates w m = s.inaugurates w m := by
  obtain ⟨_, _, _, hforce, _, hcfg, hrouted⟩ := holdTaken_fields s v
  unfold State.inaugurates
  rw [hforce, hcfg, hrouted]

theorem holdStart_takes {x : Run} {w : HoldWhy} (hx : s.sched.run = some x) (hw : s.sched.holdReq = some w)
    (ha : s.sched.holdAt ≤ x.matrix) : s.holdStart =
      if s.inaugurates w (fld (s.rg .schedCfg) 25 16) then (s.holdTaken w).beginChange
        { map := fld (s.rg .schedCfg) 25 16, prev := (s.holdTaken w).fab.inForce, src := .inaug }
      else s.holdTaken w := by
  obtain ⟨_, _, _, _, _, hcfg, _⟩ := holdTaken_fields s w
  rw [← inaugurates_holdTaken w w, ← hcfg, State.holdStart, hx, hw]
  exact if_neg (not_lt.mpr ha)

theorem holdStart_fields {x : Run} {w : HoldWhy} (hx : s.sched.run = some x) (hw : s.sched.holdReq = some w)
    (ha : s.sched.holdAt ≤ x.matrix) : let t := s.holdStart
    t.sched.holdReq = none ∧ (∃ h : Hold, t.sched.hold = some h ∧ h.why = w ∧ h.rows = 0 ∧ h.endDue = false) ∧
    t.fab.armedEntry = none ∧ t.fab.casts = [] ∧
    (s.inaugurates w (fld (s.rg .schedCfg) 25 16) = true → ∃ c : Change, t.fab.waiting = s.fab.waiting ++ [c] ∧
      c.map = fld (s.rg .schedCfg) 25 16 ∧ c.src = .inaug ∧ c.stage = .prep) ∧
    (s.inaugurates w (fld (s.rg .schedCfg) 25 16) = false → t.fab.waiting = s.fab.waiting) := by
  rw [holdStart_takes hx hw ha]
  obtain ⟨hsched, harmed, hcasts, hforce, hwait, _, _⟩ := holdTaken_fields s w
  generalize fld (s.rg .schedCfg) 25 16 = m
  by_cases hi : s.inaugurates w m = true
  · simp only [if_pos hi]
    have hp := beginChange_fields (s.holdTaken w) { map := m, prev := (s.holdTaken w).fab.inForce, src := .inaug }
    have hs := sched_of_plan hp
    have hc := of_plan (·.fab.casts) (fun _ => rfl) hp
    have he := of_plan (·.fab.armedEntry) (fun _ => rfl) hp
    have hv := waiting_of_plan hp
    rw [State.onFab_sched, hsched] at hs
    rw [State.onFab_fab] at hc he hv
    exact ⟨congrArg Sched.holdReq hs, ⟨_, congrArg Sched.hold hs, rfl, rfl, rfl⟩, he.trans harmed, hc.trans hcasts,
      fun _ => ⟨_, hv.trans (congrArg (· ++ _) hwait), rfl, rfl, rfl⟩, fun hf => by simp [hi] at hf⟩
  · simp only [if_neg hi]
    exact ⟨congrArg Sched.holdReq hsched, ⟨_, congrArg Sched.hold hsched, rfl, rfl, rfl⟩, harmed, hcasts,
      fun ht => absurd ht hi, fun _ => hwait⟩

theorem holdEnd_idle (h : s.sched.hold = none ∨ (∃ h : Hold, s.sched.hold = some h ∧ h.endDue = false) ∨ s.holdOver = false) :
    s.holdEnd = s := by
  unfold State.holdEnd
  split
  · rfl
  next k hk =>
    refine if_neg ?_
    rcases h with h | ⟨j, hj, h⟩ | h
    · exact absurd (h.symm.trans hk) (Option.some_ne_none k).symm
    · obtain rfl : j = k := Option.some.inj (hj.symm.trans hk)
      simp [h]
    · simp [h]

theorem holdEnd_ends {h : Hold} (hh : s.sched.hold = some h) (hd : h.endDue = true) (ho : s.holdOver = true) :
    s.holdEnd = s.endHold.startRealign (s.realignNeed (!s.sched.failQuiet)) := by
  rw [State.holdEnd, hh]
  exact if_pos (by simp [hd, ho])
end

/-- Settles O34: fail-quiet starts by `failQuietStart_fields`, a hold by `holdStart_fields`; both end with a re-alignment by
`startRealign_fields`. -/
theorem failQuietAndHold : Obligations.FailQuietAndHold := by
  unfold Obligations.FailQuietAndHold
  intro s u dt hu
  simp only [exec_failQuietStart, exec_failQuietEnd, exec_holdStart, exec_holdEnd, ← hu]
  refine ⟨⟨fun x hx hf hd he => ⟨_, rfl, failQuietStart_fields hx hf hd he⟩, fun h => by rw [failQuietStart_idle h]⟩,
    ⟨fun hf hr => ?_, fun h => by rw [failQuietEnd_idle h]⟩, ⟨fun x w hx hw ha => ?_, fun h => by rw [holdStart_idle h]⟩,
    ⟨fun h hh hd ho => ?_, fun h => by rw [holdEnd_idle h]⟩⟩
  · rw [failQuietEnd_ends hf hr]
    have hframe := frame_endFailQuiet u (u.realignNeed u.sched.hold.isNone).isSome
    have hs := of_frame_sched hframe
    rw [State.onSched_sched] at hs
    obtain ⟨hq, hk, _, hsrc, hnone, hsome⟩ := startRealign_fields ((of_frame_fab hframe).trans (State.onSched_fab ..))
      (u.realignNeed u.sched.hold.isNone)
    exact ⟨_, rfl, hq.trans (congrArg Sched.failQuiet hs), hk.trans (congrArg Sched.fqSkipped hs),
      by rw [fsrc_of_sources hsrc]; exact endFailQuiet_inactive _,
      fun hn => ⟨(hnone hn).1.trans ((congrArg Sched.realign hs).trans rfl), (hnone hn).2⟩, hsome⟩
  · obtain ⟨hreq, hhold, harmed, hcasts, hinaug, hkeep⟩ := holdStart_fields hx hw ha
    exact ⟨_, rfl, hreq, hhold, harmed, hcasts, fun hc hb hf hr => hinaug (inaugurates_true hc hb hf hr),
      fun h => hkeep (inaugurates_false h)⟩
  · rw [holdEnd_ends hh hd ho]
    have hframe := frame_endHold u
    have hs := of_frame_sched hframe
    rw [State.onSched_sched] at hs
    obtain ⟨hq, _, hk, _, hnone, hsome⟩ := startRealign_fields ((of_frame_fab hframe).trans (State.onSched_fab ..))
      (u.realignNeed (!u.sched.failQuiet))
    exact ⟨_, rfl, hk.trans (congrArg Sched.hold hs), hq.trans ((congrArg Sched.failQuiet hs).trans rfl),
      fun hn => ⟨(hnone hn).1.trans ((congrArg Sched.realign hs).trans rfl), (hnone hn).2⟩, hsome⟩

end Sys2Proof.Machine
end

section
/-! Settling O60: the distribution of schedules and ordered swaps. -/

namespace Sys2Proof.Machine

/-! ### What messages, events and completions leave alone -/

/-- What the checks of schedules and maps read: schedule, fabric, SRAM and time, with power and supervisor. -/
def State.site (s : State) : State :=
  { sched := s.sched, fab := s.fab, sram := s.sram, time := s.time, pwr := s.pwr, sup := s.sup }

section
variable {s t : State} (h : t.site = s.site)
include h

theorem of_site {β : Type} (f : State → β) (hf : ∀ s : State, f s.site = f s) : f t = f s :=
  (hf t).symm.trans ((congrArg f h).trans (hf s))

theorem sched_of_site : t.sched = s.sched := of_site h (·.sched) fun _ => rfl
theorem fab_of_site : t.fab = s.fab := of_site h (·.fab) fun _ => rfl
theorem sram_of_site : t.sram = s.sram := of_site h (·.sram) fun _ => rfl
theorem pwr_of_site : t.pwr = s.pwr := of_site h (·.pwr) fun _ => rfl
theorem sup_of_site : t.sup = s.sup := of_site h (·.sup) fun _ => rfl
theorem now_of_site : t.now = s.now := of_site h (·.now) fun _ => rfl
theorem slotNum_of_site : t.slotNum = s.slotNum := of_site h (·.slotNum) fun _ => rfl
theorem bank_of_site (b : Nat) : t.bank b = s.bank b := of_site h (·.bank b) fun _ => rfl
theorem dir_of_site (m : Nat) : t.dir m = s.dir m := of_site h (·.dir m) fun _ => rfl
theorem mapProtected_of_site (m : Nat) : t.mapProtected m = s.mapProtected m := of_site h (·.mapProtected m) fun _ => rfl
theorem swapCheck_of_site (b : Nat) (a : Option Nat) : t.swapCheck b a = s.swapCheck b a := by
  have himg : t.bankImg = s.bankImg := of_site h (·.bankImg) fun _ => rfl
  have hbad : t.timeBad = s.timeBad := of_site h (·.timeBad) fun _ => rfl
  have hnt : t.nt = s.nt := of_site h (·.nt) fun _ => rfl
  unfold State.swapCheck
  rw [sched_of_site h, himg, bank_of_site h, hbad, hnt, fab_of_site h]

theorem biarnUp_of_site (hr : t.casc.role = s.casc.role) : t.biarnUp = s.biarnUp := by
  have hp := pwr_of_site h
  have hs := sup_of_site h
  unfold State.biarnUp State.core State.powered
  rw [hp, hs, hr]
end

theorem site_of_frame {s t : State} (h : t.frame = s.frame) : t.site = s.site := by
  simp only [State.site, of_frame_sched h, of_frame_fab h, of_frame_sram h, of_frame_time h, of_frame_pwr h, of_frame_sup h]

/-- `t` is `s` after messages, events and completions. -/
structure State.Sent (s t : State) : Prop where
  site : t.site = s.site
  casc : ∃ a b n, t.casc = { s.casc with senders := a, cnt := b, txCount := n }

namespace State.Sent

variable {s t u : State}

theorem of_told (h : s.Told t) (ha : t.apart = s.apart) : s.Sent t := by
  refine ⟨?_, h.casc⟩
  have hrest : { t.site with sched := {} } = { s.site with sched := {} } :=
    congrArg (fun x : State => { x.site with sched := {} }) ha
  have := congrArg (fun x : State => { x with sched := t.sched }) hrest
  exact this.trans (congrArg (fun c => { s.site with sched := c }) h.sched)

theorem of_frame (h : t.frame = s.frame) : s.Sent t := ⟨site_of_frame h, _, _, _, of_frame_casc h⟩

theorem refl (s : State) : s.Sent s := of_frame rfl

theorem trans (h : s.Sent t) (g : t.Sent u) : s.Sent u := by
  obtain ⟨a, b, n, hc⟩ := h.casc
  obtain ⟨a', b', n', gc⟩ := g.casc
  exact ⟨g.site.trans h.site, a', b', n', by rw [gc, hc]⟩

theorem foldl {α : Type} (l : List α) {f : State → α → State} (h : ∀ (s : State) a, s.Sent (f s a)) (s : State) :
    s.Sent (l.foldl f s) := by
  induction l generalizing s with
  | nil => exact refl s
  | cons a l ih => exact (h s a).trans (ih _)

theorem sendBiarn (s : State) (k : Nat) (p : List Byte) : s.Sent (s.sendBiarn k p) :=
  of_told (.sendBiarn ..) (apart_sendBiarn ..)

theorem consistEvent (s : State) (k a : Nat) (d : List Byte) : s.Sent (s.consistEvent k a d) :=
  of_told (.consistEvent ..) (apart_consistEvent ..)

theorem sendChunks (s : State) (j : DistJob) (n : Nat) : s.Sent (s.sendChunks j n) := foldl _ (fun _ _ => sendBiarn ..) s

theorem finishCmd (s : State) (r i st : Nat) (taken : Bool) : s.Sent (s.finishCmd r i st taken) :=
  of_frame (frame_finishCmd ..)

theorem accept (s : State) (l : Nat) (f : BiarnFrame) : s.Sent (s.accept l f) := by
  refine of_told (told_accept ..) ?_
  unfold State.accept State.relay
  dsimp only
  split
  · rfl
  · exact apart_foldl _ (fun _ _ => apart_sendOwn ..) _

theorem now (h : s.Sent t) : t.now = s.now := now_of_site h.site
theorem slotNum (h : s.Sent t) : t.slotNum = s.slotNum := slotNum_of_site h.site

theorem biarnUp (h : s.Sent t) : t.biarnUp = s.biarnUp := by
  obtain ⟨a, b, n, hc⟩ := h.casc
  exact biarnUp_of_site h.site (by rw [hc])

theorem consistId (h : s.Sent t) : t.consistId = s.consistId := by
  obtain ⟨a, b, n, hc⟩ := h.casc
  unfold State.consistId State.recLE
  rw [hc]

theorem distOut (h : s.Sent t) : t.casc.distOut = s.casc.distOut := by
  obtain ⟨a, b, n, hc⟩ := h.casc
  rw [hc]

theorem distApply (h : s.Sent t) : t.casc.distApply = s.casc.distApply := by
  obtain ⟨a, b, n, hc⟩ := h.casc
  rw [hc]

end State.Sent

/-! ### A frame accepted (R300, R301) -/

theorem sendOwn_casc (s : State) (l : Nat) (f : TxFrame) : (s.sendOwn l f).casc = s.casc := by
  unfold State.sendOwn
  split <;> rfl

/-- The state when an accepted frame has been noted and counted, before its relay. -/
def State.noted (s : State) (f : BiarnFrame) : State := (s.noteSender (biarnHdr f.octets)).casCount 0

/-- An accepted frame moves the table of senders and the counts of frames alone in the consist's state. -/
theorem accept_casc (s : State) (l : Nat) (f : BiarnFrame) :
    (s.accept l f).casc = (s.noted f).casc ∨ (s.accept l f).casc = ((s.noted f).casCount 1).casc := by
  unfold State.accept State.relay
  dsimp only
  split
  · exact .inl rfl
  · have hk := foldl_keeps State.casc ((s.noted f).biarnLanes.filter (· ≠ l)) (fun (s : State) k => s.sendOwn k
      { octets := withVlan (putBytes f.octets 45 [BitVec.ofNat 8 ((biarnHdr f.octets).ttl - 1)]) f.tag f.vlan, src := .own })
      (fun _ _ => sendOwn_casc ..) (s.noted f)
    right
    unfold State.casCount
    rw [State.onCasc_casc, State.onCasc_casc]
    exact congrArg (fun c : Casc => { c with cnt := tmod (fun _ => 0) c.cnt 1 fun n => satN (n + 1) 0xFFFFFFFF }) hk

theorem accept_txCount (s : State) (l : Nat) (f : BiarnFrame) : (s.accept l f).casc.txCount = s.casc.txCount := by
  rcases accept_casc s l f with h | h <;> rw [h] <;> rfl

theorem accept_counts (s : State) (l : Nat) (f : BiarnFrame) :
    tget (fun _ => 0) (s.accept l f).casc.cnt 0 = min (tget (fun _ => 0) s.casc.cnt 0 + 1) 0xFFFFFFFF := by
  have h0 : tget (fun _ => 0) (s.noted f).casc.cnt 0 = min (tget (fun _ => 0) s.casc.cnt 0 + 1) 0xFFFFFFFF :=
    tget_tset_self _ _ _ _ rfl
  rcases accept_casc s l f with h | h <;> rw [h]
  · exact h0
  · rw [State.casCount, State.onCasc_casc, tmod, tget_tset_other _ _ _ Nat.zero_ne_one, h0]

/-! ### Orders of a manager (R297, R307) -/

theorem exec_consistDistribute (s : State) (r : Fin 16) : exec (.consistDistribute r) s =
    .next (s.consistCfg r.val 1 fun s e => s.distribute r.val e).finish := rfl
theorem exec_consistSwap (s : State) (r : Fin 16) : exec (.consistSwap r) s =
    .next (s.consistCfg r.val 2 fun s e => s.consistSwap r.val e).finish := rfl

section
variable {s : State} {r op : Nat} {act : State → Entry → State}

theorem consistCfg_idle (h : ∀ e, s.readyHead r 0x54 = some e → s.sup.available = true → (rd e.payload 0).toNat ≠ op) :
    s.consistCfg r op act = s := by
  unfold State.consistCfg
  split
  · rfl
  next e he =>
    refine if_pos ?_
    by_cases ha : s.sup.available = true
    · simp [h e he ha]
    · simp [ha]

theorem consistCfg_acts {e : Entry} (h : s.readyHead r 0x54 = some e) (ha : s.sup.available = true)
    (ho : (rd e.payload 0).toNat = op) : s.consistCfg r op act = act s e := by
  rw [State.consistCfg, h]
  exact if_neg (by simp [ha, ho])
end

/-! ### DISTRIBUTE (R307, R308) -/

/-- The job of a slot as DISTRIBUTE opens it. -/
def freshJob (bank : Nat) (set : List Byte) (k : Nat) : DistJob := { slot := k, bank := bank, set := set }

/-- DISTRIBUTE opens the job of a slot and sends its chunks. -/
def State.openJob (bank : Nat) (set : List Byte) (s : State) (k : Nat) : State :=
  (s.onCasc fun c => { c with distOut := c.distOut.filter (·.slot ≠ k) ++ [freshJob bank set k] }).sendChunks
    (freshJob bank set k) 0

section
variable (bank : Nat) (set : List Byte)

theorem openJob_fields (s : State) (k : Nat) : let t := s.openJob bank set k
    t.casc.distOut = s.casc.distOut.filter (·.slot ≠ k) ++ [freshJob bank set k] ∧ t.slotNum = s.slotNum ∧
    t.casc.distApply = s.casc.distApply := by
  have hs := State.Sent.sendChunks
    (s.onCasc fun c => { c with distOut := c.distOut.filter (·.slot ≠ k) ++ [freshJob bank set k] }) (freshJob bank set k) 0
  exact ⟨hs.distOut, hs.slotNum, hs.distApply⟩

/-- A job stays open while those of other slots open, and one of its own slot is the same job. -/
theorem mem_openJobs (l : List Nat) (s : State) {k : Nat} (h : k ∈ l ∨ freshJob bank set k ∈ s.casc.distOut) :
    freshJob bank set k ∈ (l.foldl (State.openJob bank set) s).casc.distOut := by
  induction l generalizing s with
  | nil => exact h.resolve_left List.not_mem_nil
  | cons a l ih =>
    obtain ⟨hout, _, _⟩ := openJob_fields bank set s a
    refine ih _ ?_
    rw [hout]
    by_cases hk : k = a
    · exact .inr (by simp [hk])
    · refine h.imp (fun hl => (List.mem_cons.mp hl).resolve_left hk) fun hj => ?_
      exact List.mem_append_left _ (List.mem_filter.mpr ⟨hj, decide_eq_true hk⟩)
end

/-- The operands of DISTRIBUTE: bank, set and slots. -/
def Entry.distBank (e : Entry) : Nat := byteAt (rdBytes e.payload 0 32) 8
def Entry.distSet (e : Entry) : List Byte := rdBytes e.payload 512 (lef (rdBytes e.payload 0 32) 24 4)
def Entry.distSlots (e : Entry) : List Nat := maskList (lef (rdBytes e.payload 0 32) 4 4) 32

/-- DISTRIBUTE completed and the jobs of the other slots open. -/
def State.opened (s : State) (r : Nat) (e : Entry) : State :=
  (e.distSlots.filter (· ≠ (s.finishCmd r e.idx 0 true).slotNum)).foldl (State.openJob e.distBank e.distSet)
    (s.finishCmd r e.idx 0 true)

section
variable {s : State} {r : Nat} {e : Entry}

theorem opened_fields (s : State) (r : Nat) (e : Entry) : let t := s.opened r e
    t.slotNum = s.slotNum ∧ t.casc.distApply = s.casc.distApply ∧
    ∀ k ∈ e.distSlots, k ≠ s.slotNum → freshJob e.distBank e.distSet k ∈ t.casc.distOut := by
  have hs := State.Sent.finishCmd s r e.idx 0 true
  refine ⟨?_, ?_, fun k hk hn => mem_openJobs _ _ _ _ (.inl (List.mem_filter.mpr ⟨hk, ?_⟩))⟩
  · exact (foldl_keeps State.slotNum _ _ (fun t k => (openJob_fields _ _ t k).2.1) _).trans hs.slotNum
  · exact (foldl_keeps (·.casc.distApply) _ _ (fun t k => (openJob_fields _ _ t k).2.2) _).trans hs.distApply
  · rw [hs.slotNum]
    exact decide_eq_true hn

theorem distribute_refused (h : s.mayOrder = false) : s.distribute r e = s.refuseRole r e 7 := if_pos (by simp [h])

theorem consistSwap_refused (h : s.mayOrder = false) : s.consistSwap r e = s.refuseRole r e 7 := if_pos (by simp [h])

theorem distribute_opens (h : s.mayOrder = true) : s.distribute r e =
    if !((s.opened r e).slotNum ∈ e.distSlots) then s.opened r e
    else if (s.opened r e).casc.distApply then (s.opened r e).onCasc fun c =>
      { c with distOut := c.distOut ++ [freshJob e.distBank e.distSet (s.opened r e).slotNum] }
    else ((s.opened r e).distTake e.distBank e.distSet).distNext := if_neg (by simp [h])

theorem distribute_others (h : s.mayOrder = true) (hn : s.slotNum ∉ e.distSlots) : s.distribute r e = s.opened r e := by
  obtain ⟨hslot, _⟩ := opened_fields s r e
  rw [distribute_opens h]
  exact if_pos (by simp [hslot, hn])

theorem distribute_waits (h : s.mayOrder = true) (hn : s.slotNum ∈ e.distSlots) (ha : s.casc.distApply = true) :
    s.distribute r e = (s.opened r e).onCasc fun c =>
      { c with distOut := c.distOut ++ [freshJob e.distBank e.distSet s.slotNum] } := by
  obtain ⟨hslot, happly, _⟩ := opened_fields s r e
  rw [distribute_opens h, hslot]
  exact (if_neg (by simp [hn])).trans (if_pos (happly.trans ha))

theorem distribute_takes (h : s.mayOrder = true) (hn : s.slotNum ∈ e.distSlots) (ha : s.casc.distApply = false) :
    s.distribute r e = ((s.opened r e).distTake e.distBank e.distSet).distNext := by
  obtain ⟨hslot, happly, _⟩ := opened_fields s r e
  rw [distribute_opens h]
  exact (if_neg (by simp [hslot, hn])).trans (if_neg (by simp [happly, ha]))
end

theorem distTake_fields (s : State) (bank : Nat) (set : List Byte) : let t := s.distTake bank set
    t.casc.distApply = true ∧ t.casc.distLocal = true ∧ t.casc.distIn = wrBytes [] 0 set ∧ t.casc.distBank = bank ∧
    t.casc.distStep = 0 := ⟨rfl, rfl, rfl, rfl, rfl⟩

/-- The claim on DISTRIBUTE of a manager. -/
theorem distribute_claim {s : State} (r : Nat) (e : Entry) (h : s.mayOrder = true) : ∃ t : State,
    ((s.slotNum ∉ e.distSlots ∨ s.casc.distApply = true) → s.distribute r e = t) ∧
    (s.slotNum ∈ e.distSlots → s.casc.distApply = false → s.distribute r e = t.distNext ∧
      t.casc.distApply = true ∧ t.casc.distLocal = true ∧ t.casc.distIn = wrBytes [] 0 e.distSet ∧
      t.casc.distBank = e.distBank ∧ t.casc.distStep = 0) ∧
    (s.slotNum ∈ e.distSlots → s.casc.distApply = true → freshJob e.distBank e.distSet s.slotNum ∈ t.casc.distOut) ∧
    ∀ k ∈ e.distSlots, k ≠ s.slotNum → freshJob e.distBank e.distSet k ∈ t.casc.distOut := by
  obtain ⟨_, _, hjobs⟩ := opened_fields s r e
  by_cases hn : s.slotNum ∈ e.distSlots
  · cases ha : s.casc.distApply with
    | true =>
      exact ⟨_, fun _ => distribute_waits h hn ha, fun _ h => absurd h (by decide),
        fun _ _ => List.mem_append_right _ (List.mem_singleton_self _), fun k hk hne => List.mem_append_left _ (hjobs k hk hne)⟩
    | false =>
      exact ⟨(s.opened r e).distTake e.distBank e.distSet, fun h => (h.elim (absurd hn) (absurd · (by decide))),
        fun _ _ => ⟨distribute_takes h hn ha, distTake_fields ..⟩, fun _ h => absurd h (by decide), hjobs⟩
  · exact ⟨_, fun _ => distribute_others h hn, fun h => absurd h hn, fun h => absurd h hn, hjobs⟩

/-! ### Ordered swaps (R309) -/

theorem sendBiarn_txCount {s : State} (h : s.biarnUp = true) (k : Nat) (p : List Byte) :
    (s.sendBiarn k p).casc.txCount = s.casc.txCount + 1 := by rw [sendBiarn_casc h]

/-- A swap to bank `b` was asked for, with `q` of its check: it waits, or the schedule is left as it was. -/
def Sched.Swapped (b : Nat) (q : Nat × Nat) (c d : Sched) : Prop :=
  (q.1 = 0 → d.swap = some { bank := b, boundary := q.2, issuer := none }) ∧ (q.1 ≠ 0 → d = c)

/-- The time of a SWAP, all ones for at once. -/
def swapTime (t : Nat) : Option Nat := if t = 2 ^ 64 - 1 then none else some t

theorem cancelSwap_rest (s : State) (t : Nat) :
    (s.cancelSwap t).casc = s.casc ∧ (s.cancelSwap t).pwr = s.pwr ∧ (s.cancelSwap t).sup = s.sup := by
  unfold State.cancelSwap
  split
  · exact ⟨rfl, rfl, rfl⟩
  · dsimp only
    split
    · exact ⟨finishCmd_keeps_casc .., finishCmd_keeps_pwr .., finishCmd_keeps_sup ..⟩
    · exact ⟨rfl, rfl, rfl⟩

theorem setSwap_rest (s : State) (b t : Nat) (issuer : Option (Nat × Nat)) : let u := s.setSwap b t issuer
    u.casc = s.casc ∧ u.pwr = s.pwr ∧ u.sup = s.sup := cancelSwap_rest s 0

/-- The state after an order to swap: the swap waits where the check lets it. -/
def State.ordered (s : State) (b t : Nat) : State :=
  if (s.swapCheck b (swapTime t)).1 = 0 then s.setSwap b (s.swapCheck b (swapTime t)).2 none else s

theorem orderSwap_state (s : State) (b t : Nat) : (s.orderSwap b t).2 = s.ordered b t := by
  unfold State.orderSwap State.ordered swapTime
  dsimp only
  generalize s.swapCheck b (if t = 2 ^ 64 - 1 then none else some t) = q
  split <;> rfl

theorem ordered_fields (s : State) (b t : Nat) : let u := s.ordered b t
    s.sched.Swapped b (s.swapCheck b (swapTime t)) u.sched ∧ u.casc = s.casc ∧ u.biarnUp = s.biarnUp := by
  unfold State.ordered
  generalize s.swapCheck b (swapTime t) = q
  dsimp only
  split
  next h =>
    obtain ⟨_, hswap, _⟩ := setSwap_fields s b q.2 none
    obtain ⟨hc, hp, hu⟩ := setSwap_rest s b q.2 none
    refine ⟨⟨fun _ => hswap, fun hn => absurd h hn⟩, hc, ?_⟩
    unfold State.biarnUp State.core State.powered
    rw [hc, hp, hu]
  next h => exact ⟨⟨fun h0 => absurd h0 h, fun _ => rfl⟩, rfl, rfl⟩

section
variable {s v : State} (h : s.Sent v) (b t : Nat)
include h

/-- An order after messages is checked as before them. -/
theorem ordered_sent : s.sched.Swapped b (s.swapCheck b (swapTime t)) (v.ordered b t).sched := by
  obtain ⟨hs, _⟩ := ordered_fields v b t
  rw [swapCheck_of_site h.site, sched_of_site h.site] at hs
  exact hs

theorem ordered_biarnUp (hu : s.biarnUp = true) : (v.ordered b t).biarnUp = true := by
  obtain ⟨_, _, hv⟩ := ordered_fields v b t
  rw [hv, h.biarnUp, hu]
end

section
variable {s : State} {r : Nat} {e : Entry}

theorem consistSwap_badTime (h : s.mayOrder = true) (ht : lef (rdBytes e.payload 0 32) 16 8 < s.ns + 20000000 ∨
    lef (rdBytes e.payload 0 32) 16 8 = 2 ^ 64 - 1 ∨ s.ns + 2 ^ 39 < lef (rdBytes e.payload 0 32) 16 8) :
    s.consistSwap r e = s.finishCmd r e.idx 8 false := by
  unfold State.consistSwap
  dsimp only
  rw [if_neg (by simp [h]), if_pos]
  simp only [Bool.or_eq_true, decide_eq_true_eq]
  rwa [or_assoc, or_left_comm]

/-- An order in time completes, is sent, and is checked in the module itself. -/
theorem consistSwap_orders (h : s.mayOrder = true) (hn : lef (rdBytes e.payload 0 32) 16 8 ≠ 2 ^ 64 - 1)
    (hlo : s.ns + 20000000 ≤ lef (rdBytes e.payload 0 32) 16 8) (hhi : lef (rdBytes e.payload 0 32) 16 8 ≤ s.ns + 2 ^ 39) :
    s.sched.Swapped e.distBank (s.swapCheck e.distBank (some (lef (rdBytes e.payload 0 32) 16 8))) (s.consistSwap r e).sched := by
  have hw := (State.Sent.finishCmd s r e.idx 0 true).trans (.sendBiarn _ 8 (swapPayload
    (byteAt (rdBytes e.payload 0 32) 1) e.distBank (lef (rdBytes e.payload 0 32) 16 8)))
  have hq := ordered_sent hw e.distBank (lef (rdBytes e.payload 0 32) 16 8)
  rw [swapTime, if_neg hn, ← orderSwap_state] at hq
  unfold State.consistSwap
  dsimp only
  rw [if_neg (by simp [h]), if_neg (by simp only [Bool.or_eq_true, decide_eq_true_eq]; omega), State.swapEvent,
    sched_of_site (State.Sent.consistEvent ..).site]
  exact hq
end

section
variable {u v : State} (h : u.Sent v) (hx : v.casc.txCount = u.casc.txCount) (b : BiarnHdr)
include h hx

/-- A SWAP of the consist's manager is answered by a member. -/
theorem swapArrives_own (hup : u.biarnUp = true) (hm : b.consist = u.consistId) (hr : b.manages = true)
    (hl : u.casc.mgrLost = false) : let t := v.swapArrives b
    u.sched.Swapped (byteAt b.payload 1) (u.swapCheck (byteAt b.payload 1) (swapTime (bef b.payload 8 8))) t.sched ∧
    t.casc.txCount = u.casc.txCount + 1 := by
  obtain ⟨_, _, _, hc⟩ := h.casc
  obtain ⟨_, hcasc, _⟩ := ordered_fields v (byteAt b.payload 1) (bef b.payload 8 8)
  unfold State.swapArrives
  dsimp only
  rw [if_pos (by simp [hm, hr, h.consistId]), if_neg (by simp [hc, hl]), State.sendSwapResult,
    sched_of_site (State.Sent.sendBiarn ..).site, orderSwap_state, sendBiarn_txCount (ordered_biarnUp h _ _ hup), hcasc, hx]
  exact ⟨ordered_sent h .., rfl⟩

/-- A SWAP for the whole train is forwarded and answered by a deputy. -/
theorem swapArrives_relay (hup : u.biarnUp = true) (hn : ¬ (b.consist = u.consistId ∧ b.manages = true))
    (hs : byteAt b.payload 0 = 1) (hr : u.casc.role = .deputy) (hi : b.sender = u.casc.tmId.toNat) :
    let t := v.swapArrives b
    u.sched.Swapped (byteAt b.payload 1) (u.swapCheck (byteAt b.payload 1) (swapTime (bef b.payload 8 8))) t.sched ∧
    t.casc.txCount = u.casc.txCount + 2 := by
  obtain ⟨_, _, _, hc⟩ := h.casc
  have hw := h.trans (.sendBiarn v 8 (swapPayload 1 (byteAt b.payload 1) (bef b.payload 8 8)))
  obtain ⟨_, hcasc, _⟩ := ordered_fields (v.sendBiarn 8 (swapPayload 1 (byteAt b.payload 1) (bef b.payload 8 8)))
    (byteAt b.payload 1) (bef b.payload 8 8)
  have hord := ordered_biarnUp hw (byteAt b.payload 1) (bef b.payload 8 8) hup
  unfold State.swapArrives
  dsimp only
  rw [if_neg (by simpa [h.consistId] using hn), if_pos (by simp [hc, hs, hr, hi]), State.sendSwapResult,
    sched_of_site (State.Sent.sendBiarn ..).site, State.swapEvent,
    sched_of_site (State.Sent.consistEvent ..).site, orderSwap_state,
    sendBiarn_txCount ((State.Sent.consistEvent ..).biarnUp.trans hord), State.consistEvent, event_keeps_casc, hcasc,
    sendBiarn_txCount (h.biarnUp.trans hup), hx, BitVec.add_assoc]
  exact ⟨ordered_sent hw .., rfl⟩

/-- Any other SWAP, and one of a manager that is lost, does nothing. -/
theorem swapArrives_ignored (hn : ((b.consist = u.consistId ∧ b.manages = true) ∧ u.casc.mgrLost = true) ∨
    (¬ (b.consist = u.consistId ∧ b.manages = true) ∧
      ¬ (byteAt b.payload 0 = 1 ∧ u.casc.role = .deputy ∧ b.sender = u.casc.tmId.toNat))) : let t := v.swapArrives b
    t.sched = u.sched ∧ t.casc.txCount = u.casc.txCount := by
  obtain ⟨_, _, _, hc⟩ := h.casc
  have hstep : v.swapArrives b = v := by
    rcases hn with ⟨⟨hm, hr⟩, hl⟩ | ⟨hn, hr⟩
    · exact (if_pos (by simp [hm, hr, h.consistId])).trans (if_pos (by simp [hc, hl]))
    · exact (if_neg (by simpa [h.consistId] using hn)).trans (if_neg (by simpa [hc, and_assoc] using hr))
  dsimp only
  rw [hstep]
  exact ⟨sched_of_site h.site, hx⟩
end

/-! ### Results and resends at the manager (R308, R309) -/

theorem distOver_distOut (s : State) (k : Nat) (d : List Byte) :
    (s.distOver k d).casc.distOut = s.casc.distOut.filter (·.slot ≠ k) := by
  rw [State.distOver, (State.Sent.consistEvent ..).distOut]
  rfl

theorem swapResultArrives_sent (s : State) (b : BiarnHdr) :
    s.Sent (s.swapResultArrives b) ∧ (s.swapResultArrives b).casc = s.casc := by
  unfold State.swapResultArrives
  split
  · exact ⟨.consistEvent .., event_keeps_casc ..⟩
  · exact ⟨.refl s, rfl⟩

/-- A job that hears a first missing chunk beyond the last one has made progress. -/
def DistJob.progress (j : DistJob) (m : Nat) : DistJob := if j.missing < m then { j with missing := m, resends := 0 } else j

/-- A job is sent again from the chunk asked for, or ends after three resends. -/
def State.resendJob (s : State) (b : BiarnHdr) (j : DistJob) : State :=
  if 3 ≤ j.resends then s.distOver b.slot [0xFF#8]
  else (s.onCasc fun c =>
    { c with distOut := c.distOut.filter (·.slot ≠ b.slot) ++ [{ j with resends := j.resends + 1 }] }).sendChunks
    { j with resends := j.resends + 1 } (bef b.payload 4 2)

section
variable {u v : State} (h : u.Sent v) (b : BiarnHdr)
include h

theorem resultArrives_ignored (hn : u.casc.role.manages = false ∨ ¬ b.consist = u.consistId ∨
    u.casc.distOut.find? (·.slot = b.slot) = none) : (v.resultArrives b).casc.distOut = u.casc.distOut := by
  obtain ⟨_, _, _, hc⟩ := h.casc
  unfold State.resultArrives
  dsimp only
  rw [h.distOut]
  split
  · exact h.distOut
  next j hj =>
    rw [if_pos (by rw [h.consistId, hc]; rcases hn with hn | hn | hn <;> simp_all)]
    exact h.distOut

variable {j : DistJob} (hr : u.casc.role.manages = true) (hm : b.consist = u.consistId)
  (hj : u.casc.distOut.find? (·.slot = b.slot) = some j)
include hr hm hj

theorem resultArrives_job : v.resultArrives b = if byteAt b.payload 0 = 0 then
    v.distOver b.slot ((b.payload.drop 1).take 2 ++ leBytes 2 (bef b.payload 4 2)) else
    v.resendJob b (j.progress (bef b.payload 4 2)) := by
  obtain ⟨_, _, _, hc⟩ := h.casc
  unfold State.resultArrives
  dsimp only
  rw [h.distOut, hj]
  dsimp only
  rw [if_neg (by rw [h.consistId, hc]; simp [hr, hm])]
  rfl

theorem resultArrives_ends (he : byteAt b.payload 0 = 0 ∨ 3 ≤ (j.progress (bef b.payload 4 2)).resends) :
    (v.resultArrives b).casc.distOut = u.casc.distOut.filter (·.slot ≠ b.slot) := by
  rw [resultArrives_job h b hr hm hj]
  split
  · rw [distOver_distOut, h.distOut]
  next h0 => rw [State.resendJob, if_pos (he.resolve_left h0), distOver_distOut, h.distOut]

theorem resultArrives_resends (h0 : byteAt b.payload 0 ≠ 0) (hl : (j.progress (bef b.payload 4 2)).resends < 3) :
    (v.resultArrives b).casc.distOut = u.casc.distOut.filter (·.slot ≠ b.slot) ++
      [{ j.progress (bef b.payload 4 2) with resends := (j.progress (bef b.payload 4 2)).resends + 1 }] := by
  rw [resultArrives_job h b hr hm hj, if_neg h0, State.resendJob, if_neg (Nat.not_le.mpr hl),
    (State.Sent.sendChunks ..).distOut, State.onCasc_casc, h.distOut]
end

/-! ### Chunks at the target (R308) -/

/-- Chunk `k` of the set that `b` belongs to has been received. -/
def Casc.had (c : Casc) (b : BiarnHdr) (k : Nat) : Prop :=
  (c.distAt.isSome ∧ c.distBank = byteAt b.payload 1 ∧ c.distLast = bef b.payload 4 2 ∧
    ¬ (bef b.payload 2 2 = 0 ∧ 0 ∈ c.distGot)) ∧ k ∈ c.distGot

/-- `b` carries on with the set being received. -/
def Casc.goesOn (c : Casc) (b : BiarnHdr) : Bool :=
  c.distAt.isSome && decide (c.distBank = byteAt b.payload 1) && decide (c.distLast = bef b.payload 4 2) &&
    !(bef b.payload 2 2 = 0 && 0 ∈ c.distGot)

/-- A chunk that does not go on with a set begins one. -/
def Casc.restart (c : Casc) (b : BiarnHdr) : Casc :=
  if c.goesOn b then c else { c with distIn := [], distGot := [], distAsked := 0 }

/-- The chunk is stored, with the time `t` by which the next one comes. -/
def Casc.store (c : Casc) (b : BiarnHdr) (t : Nat) : Casc :=
  { c with distIn := wrBytes c.distIn (chunkSize * bef b.payload 2 2) (b.payload.drop 8),
           distGot := if !(bef b.payload 2 2 ∈ c.distGot) then bef b.payload 2 2 :: c.distGot else c.distGot,
           distAsked := if !(bef b.payload 2 2 ∈ c.distGot) then 0 else c.distAsked, distLast := bef b.payload 4 2,
           distBank := byteAt b.payload 1, distAt := some t }

/-- The state when the set of a chunk is the one being received. -/
def State.restart (s : State) (b : BiarnHdr) : State :=
  if s.casc.goesOn b then s else s.onCasc fun c => { c with distIn := [], distGot := [], distAsked := 0 }

/-- The state with the chunk stored. -/
def State.stored (s : State) (b : BiarnHdr) : State :=
  (s.restart b).onCasc fun c => c.store b ((s.restart b).now + msC 50)

theorem stored_eq (s : State) (b : BiarnHdr) :
    s.stored b = s.onCasc fun c => (c.restart b).store b (s.now + msC 50) := by
  unfold State.stored
  cases hg : s.casc.goesOn b with
  | true =>
    have hs : s.restart b = s := if_pos hg
    have hc : s.casc.restart b = s.casc := if_pos hg
    rw [hs, State.onCasc, State.onCasc, hc]
  | false =>
    have hf : ¬ s.casc.goesOn b = true := by rw [hg]; decide
    have hs : s.restart b = s.onCasc fun c => { c with distIn := [], distGot := [], distAsked := 0 } := if_neg hf
    have hc : s.casc.restart b = { s.casc with distIn := [], distGot := [], distAsked := 0 } := if_neg hf
    have hn : (s.restart b).now = s.now := by rw [hs]; rfl
    rw [hn, hs, State.onCasc, State.onCasc, State.onCasc, hc]

theorem mem_restart (c : Casc) (b : BiarnHdr) (k : Nat) : k ∈ (c.restart b).distGot ↔ c.had b k := by
  unfold Casc.restart Casc.had
  cases hg : c.goesOn b with
  | true =>
    rw [if_pos rfl]
    simp only [Casc.goesOn, Bool.and_eq_true, decide_eq_true_eq, Bool.not_eq_true', Bool.and_eq_false_iff,
      decide_eq_false_iff_not] at hg
    tauto
  | false =>
    rw [if_neg Bool.false_ne_true]
    simp only [List.not_mem_nil, false_iff]
    rintro ⟨⟨h1, h2, h3, h4⟩, _⟩
    simp [Casc.goesOn, h1, h2, h3] at hg
    exact h4 hg

theorem restart_rest (c : Casc) (b : BiarnHdr) : (c.restart b).txCount = c.txCount ∧ (c.restart b).role = c.role := by
  unfold Casc.restart
  split <;> exact ⟨rfl, rfl⟩

theorem restart_goesOn {c : Casc} {b : BiarnHdr} {k : Nat} (h : c.had b k) : c.restart b = c := by
  rw [← mem_restart] at h
  unfold Casc.restart at h ⊢
  split at h <;> simp_all

theorem stored_fields (s : State) (b : BiarnHdr) : let c := (s.stored b).casc
    (∀ k, k ∈ c.distGot ↔ k = bef b.payload 2 2 ∨ s.casc.had b k) ∧ c.distAt = some (s.now + msC 50) ∧
    c.distBank = byteAt b.payload 1 ∧ c.distLast = bef b.payload 4 2 ∧
    rdBytes c.distIn (chunkSize * bef b.payload 2 2) (b.payload.drop 8).length = b.payload.drop 8 ∧
    c.txCount = s.casc.txCount ∧ c.role = s.casc.role := by
  obtain ⟨htx, hrole⟩ := restart_rest s.casc b
  rw [stored_eq]
  refine ⟨fun k => ?_, rfl, rfl, rfl, rdBytes_wrBytes .., htx, hrole⟩
  rw [← mem_restart]
  change k ∈ (if !(bef b.payload 2 2 ∈ (s.casc.restart b).distGot) then bef b.payload 2 2 :: (s.casc.restart b).distGot
    else (s.casc.restart b).distGot) ↔ _
  split
  · exact List.mem_cons
  next hn =>
    simp only [Bool.not_eq_true', decide_eq_false_iff_not, not_not] at hn
    exact ⟨.inr, fun h => h.elim (fun h => h ▸ hn) id⟩

theorem stored_asked (s : State) (b : BiarnHdr) :
    (¬ s.casc.had b (bef b.payload 2 2) → (s.stored b).casc.distAsked = 0) ∧
    (s.casc.had b (bef b.payload 2 2) → (s.stored b).casc.distAsked = s.casc.distAsked) := by
  rw [stored_eq]
  refine ⟨fun h => ?_, fun h => ?_⟩
  · exact if_pos (by rw [← mem_restart] at h; simp [h])
  · refine (if_neg (by rw [← mem_restart] at h; simp [h])).trans ?_
    rw [restart_goesOn h]

theorem stored_biarnUp (s : State) (b : BiarnHdr) : (s.stored b).biarnUp = s.biarnUp := by
  rw [stored_eq]
  exact biarnUp_of_site rfl (restart_rest s.casc b).2

theorem firstMissing_none_iff (s : State) : s.firstMissing = none ↔ ∀ k ≤ s.casc.distLast, k ∈ s.casc.distGot := by
  simp [State.firstMissing]

/-- The target has every chunk once the last one is stored. -/
theorem stored_whole_iff {s : State} {b : BiarnHdr} (hl : bef b.payload 2 2 = bef b.payload 4 2) :
    (s.stored b).firstMissing = none ↔ ∀ k < bef b.payload 4 2, s.casc.had b k := by
  obtain ⟨hgot, _, _, hlast, _⟩ := stored_fields s b
  rw [firstMissing_none_iff, hlast]
  refine ⟨fun h k hk => ((hgot k).mp (h k (Nat.le_of_lt hk))).resolve_left (by omega), fun h k hk => (hgot k).mpr ?_⟩
  rcases Nat.lt_or_eq_of_le hk with hk | hk
  · exact .inr (h k hk)
  · exact .inl (hk.trans hl.symm)

section
variable {s : State} {n : Nat}

theorem askResend_asks (hup : s.biarnUp = true) (ha : s.casc.distAsked < 4) : (s.askResend n).casc =
    { s.casc with distAsked := s.casc.distAsked + 1, distAt := some (s.now + msC 50), txCount := s.casc.txCount + 1 } := by
  have hb : (s.onCasc fun c => { c with distAsked := c.distAsked + 1, distAt := some (s.now + msC 50) }).biarnUp = true := hup
  rw [State.askResend, if_neg (Nat.not_le.mpr ha)]
  exact sendBiarn_casc hb ..

theorem askResend_drops (ha : 4 ≤ s.casc.distAsked) : (s.askResend n).casc =
    { s.casc with distIn := [], distGot := [], distLast := 0, distAt := none, distAsked := 0 } := by
  rw [State.askResend, if_pos ha, State.onCasc_casc]
end

/-- After the last chunk the first missing one is asked for, or the set is applied. -/
def State.lastStored (s : State) : State :=
  match s.firstMissing with
  | some k => s.askResend k
  | none => s.distStart

/-- A chunk from the manager of the consist for the slot of the module. -/
def State.forMe (s : State) (b : BiarnHdr) : Bool :=
  b.consist = s.consistId && b.manages && !s.casc.mgrLost && byteAt b.payload 0 = s.slotNum

section
variable {s : State} {b : BiarnHdr}

theorem chunkArrives_ignored (h : s.forMe b = false) : s.chunkArrives b = s := if_pos (by rw [State.forMe] at h; rw [h]; rfl)

variable (h : s.forMe b = true)
include h

theorem chunkArrives_applying (ha : s.casc.distApply = true) :
    s.chunkArrives b = if bef b.payload 2 2 = bef b.payload 4 2 then s.sendResend 0 else s := by
  unfold State.chunkArrives
  dsimp only
  rw [State.forMe] at h
  rw [h, ha]
  rfl

variable (ha : s.casc.distApply = false)
include ha

theorem chunkArrives_stores : s.chunkArrives b =
    if bef b.payload 2 2 ≠ bef b.payload 4 2 then s.stored b else (s.stored b).lastStored := by
  unfold State.chunkArrives
  dsimp only
  rw [State.forMe] at h
  rw [h, ha]
  rfl
end

/-! ### The end of a set (R308) -/

/-- A set has ended, `o` the one for the module's own slot that waited. -/
def Casc.SetEnded (o : Option DistJob) (c : Casc) : Prop :=
  (o = none → c.distApply = false ∧ c.distIn = [] ∧ c.distStep = 0) ∧
  (∀ j, o = some j → c.distApply = true ∧ c.distIn = wrBytes [] 0 j.set ∧ c.distBank = j.bank ∧ c.distStep = 0)

/-- The set for the module's own slot that waits. -/
def State.waitingSet (s : State) : Option DistJob := s.casc.distOut.find? (·.slot = s.slotNum)

theorem waitingSet_of_site {s t : State} (h : t.site = s.site) (ho : t.casc.distOut = s.casc.distOut) :
    t.waitingSet = s.waitingSet := by
  unfold State.waitingSet
  rw [slotNum_of_site h, ho]

/-- The state when a set has ended, before its result. -/
def State.cleared (s : State) : State :=
  s.onCasc fun c => { c with distApply := false, distLocal := false, distStep := 0, distIn := [], distGot := [],
                             distLast := 0, distAt := none, distAsked := 0 }

/-- Once its result has gone out, a set has ended and the next one is taken up. -/
theorem distWaiting_ends {s v : State} (h : s.cleared.Sent v) :
    v.distWaiting.casc.SetEnded s.waitingSet ∧ v.distWaiting.site = s.site := by
  have hw : v.waitingSet = s.waitingSet := (waitingSet_of_site h.site h.distOut).trans rfl
  obtain ⟨_, _, _, hc⟩ := h.casc
  rw [← hw]
  unfold State.distWaiting State.waitingSet
  split
  next hn =>
    refine ⟨⟨fun _ => ?_, fun j hj => absurd (hn.symm.trans hj) (Option.some_ne_none j).symm⟩, h.site⟩
    rw [hc]
    exact ⟨rfl, rfl, rfl⟩
  next j hj =>
    refine ⟨⟨fun hn => absurd (hj.symm.trans hn) (Option.some_ne_none j), fun k hk => ?_⟩, h.site⟩
    cases Option.some.inj (hj.symm.trans hk)
    exact ⟨rfl, rfl, rfl, rfl⟩

theorem distEnd_ends (s : State) (st item index : Nat) :
    (s.distEnd st item index).casc.SetEnded s.waitingSet ∧ (s.distEnd st item index).site = s.site := by
  unfold State.distEnd
  dsimp only
  split
  · exact distWaiting_ends (.consistEvent ..)
  · exact distWaiting_ends (.sendBiarn ..)

theorem site_onCasc (s : State) (f : Casc → Casc) : (s.onCasc f).site = s.site := rfl
theorem site_setResult (s : State) (q : Nat) (b : Byte) : (s.setResult q b).site = s.site := site_of_frame (frame_setResult ..)

theorem distStepDone_refused (s : State) {st : Nat} (h : st ≠ 0) (item index : Nat) : let t := s.distStepDone st item index
    t.casc.SetEnded s.waitingSet ∧ t.site = s.site := by
  unfold State.distStepDone
  dsimp only
  rw [if_neg h]
  obtain ⟨he, hs⟩ := distEnd_ends (s.setResult s.casc.distSeq (BitVec.ofNat 8 st)) st item index
  rw [waitingSet_of_site (site_setResult ..) (congrArg Casc.distOut (setResult_keeps_casc ..))] at he
  exact ⟨he, hs.trans (site_setResult ..)⟩

theorem distAudit_fields (s : State) (op : Nat) (arg payload : List Byte) : let t := s.distAudit op arg payload
    t.site = s.site ∧ t.casc = { s.casc with distSeq := s.sec.auditSeq } ∧ t.waitingSet = s.waitingSet := by
  have hsite : (s.distAudit op arg payload).site = s.site := by
    unfold State.distAudit
    dsimp only
    rw [site_onCasc]
    exact site_of_frame (frame_writeAudit ..)
  have hcasc : (s.distAudit op arg payload).casc = { s.casc with distSeq := s.sec.auditSeq } := by
    unfold State.distAudit
    dsimp only
    rw [State.onCasc_casc, writeAudit_keeps_casc]
  exact ⟨hsite, hcasc, waitingSet_of_site hsite (by rw [hcasc])⟩

/-- A step that is refused after its audit entry ends the set and touches no map or bank. -/
theorem audited_refused (s : State) (op : Nat) (arg payload : List Byte) {st : Nat} (h : st ≠ 0) (item index : Nat) :
    let t := (s.distAudit op arg payload).distStepDone st item index
    t.casc.SetEnded s.waitingSet ∧ t.site = s.site := by
  obtain ⟨hs, _, hw⟩ := distAudit_fields s op arg payload
  obtain ⟨he, ht⟩ := distStepDone_refused (s.distAudit op arg payload) h item index
  rw [hw] at he
  exact ⟨he, ht.trans hs⟩

/-! ### The bank image of a set (R201, R308) -/

section
variable {s : State}

theorem distBank_refused (h : (s.bank s.casc.distBank).state = .running ∨ (s.bank s.casc.distBank).state = .pending) :
    s.distBank.casc.SetEnded s.waitingSet ∧ s.distBank.site = s.site := by
  have hb := bank_of_site (distAudit_fields s 0x20 [BitVec.ofNat 8 s.casc.distBank]
    (rdBytes s.casc.distIn (64 + 296 * s.distMaps) 131072)).1 s.casc.distBank
  have hd : s.distBank = (s.distAudit 0x20 [BitVec.ofNat 8 s.casc.distBank]
      (rdBytes s.casc.distIn (64 + 296 * s.distMaps) 131072)).distStepDone 0x28 0xFF 0 := by
    unfold State.distBank
    dsimp only
    rcases h with h | h <;> rw [hb, h]
  rw [hd]
  exact audited_refused _ _ _ _ (by decide) _ _

theorem distBank_takes (hr : (s.bank s.casc.distBank).state ≠ .running) (hp : (s.bank s.casc.distBank).state ≠ .pending) :
    let t := s.distBank
    (t.bank s.casc.distBank).state = .loading ∧ (t.bank s.casc.distBank).remote = true ∧
    t.casc.distApply = s.casc.distApply ∧ s.sramKept t (bankBase s.casc.distBank) 131072 ∧
    ∀ k < 131072, rd t.sram (bankBase s.casc.distBank + k) = rd s.casc.distIn (64 + 296 * s.distMaps + k) := by
  obtain ⟨hsite, hcasc, _⟩ := distAudit_fields s 0x20 [BitVec.ofNat 8 s.casc.distBank]
    (rdBytes s.casc.distIn (64 + 296 * s.distMaps) 131072)
  have hd : s.distBank = (s.distAudit 0x20 [BitVec.ofNat 8 s.casc.distBank]
      (rdBytes s.casc.distIn (64 + 296 * s.distMaps) 131072)).takeImage s.casc.distBank s.casc.distIn
        (64 + 296 * s.distMaps) none true := by
    have hb := bank_of_site hsite s.casc.distBank
    have hm : (s.distAudit 0x20 [BitVec.ofNat 8 s.casc.distBank]
        (rdBytes s.casc.distIn (64 + 296 * s.distMaps) 131072)).distMaps = s.distMaps :=
      (congrArg (fun c : Casc => leNat (rdBytes c.distIn 0 4)) hcasc).trans rfl
    unfold State.distBank
    dsimp only
    rw [hb, hm, hcasc]
    split
    next h => exact absurd h hr
    next h => exact absurd h hp
    next => rfl
  obtain ⟨hbank, hin, hout, _, _, hc, _⟩ := takeImage_fields (s.distAudit 0x20 [BitVec.ofNat 8 s.casc.distBank]
    (rdBytes s.casc.distIn (64 + 296 * s.distMaps) 131072)) s.casc.distBank s.casc.distIn (64 + 296 * s.distMaps) none true
  dsimp only
  rw [hd]
  exact ⟨by rw [hbank], by rw [hbank], by rw [hc, hcasc], sramKept_congr (sram_of_site hsite).symm rfl hout, hin⟩
end

/-! ### A map record of a set (R64, R308) -/

/-- BASE of a route word. -/
def routeBaseOf (bw : Nat) : Option Nat := if bits bw 15 15 = 1 then none else some (bits bw 9 0)

theorem connsOk_congr {s t : State} (hs : t.sram = s.sram) (hr : t.casc.role = s.casc.role) (m : Nat) :
    t.connsOk m = s.connsOk m := by
  unfold State.connsOk State.mapConns State.mapByte
  rw [hs, hr]

theorem loadPorts_rest (s : State) (m : Nat) (b : List Byte) : let t := (s.loadPorts m b).2
    t.casc = s.casc ∧ t.fab.routes = s.fab.routes ∧ t.fab.failGen = s.fab.failGen ∧ t.slotNum = s.slotNum := by
  unfold State.loadPorts
  dsimp only
  split <;> exact ⟨rfl, rfl, rfl, rfl⟩

section
variable {s : State} {m bw : Nat}

theorem distRoute_refused (h : ∃ k, routeBaseOf bw = some k ∧ s.mapRouted k = false) :
    (s.distRoute m bw).casc.SetEnded s.waitingSet ∧ (s.distRoute m bw).site = s.site := by
  obtain ⟨k, hk, hr⟩ := h
  obtain ⟨hsite, _⟩ := distAudit_fields s 2 (leBytes 2 m ++ leBytes 2 m ++ leBytes 2 bw) []
  have hd : s.distRoute m bw = (s.distAudit 2 (leBytes 2 m ++ leBytes 2 m ++ leBytes 2 bw) []).distStepDone 0x13 0 0 := by
    unfold State.distRoute
    dsimp only
    rw [routeBaseOf] at hk
    rw [hk, if_pos]
    rw [State.mapRouted] at hr
    rw [Option.any_some, State.mapRouted, dir_of_site hsite, hr]
    rfl
  rw [hd]
  exact audited_refused _ _ _ _ (by decide) _ _

theorem distRoute_routes (h : ∀ k, routeBaseOf bw = some k → s.mapRouted k = true) : let t := s.distRoute m bw
    t.casc.distApply = s.casc.distApply ∧ t.sram = s.sram ∧ ∃ j, t.fab.routes = s.fab.routes ++ [j] ∧ j.src = m ∧ j.dst = m ∧
    j.base = routeBaseOf bw ∧ j.remote = true ∧ j.gen = s.fab.failGen := by
  obtain ⟨hsite, hcasc, _⟩ := distAudit_fields s 2 (leBytes 2 m ++ leBytes 2 m ++ leBytes 2 bw) []
  have hn : ¬ (routeBaseOf bw).any (fun b =>
      !(s.distAudit 2 (leBytes 2 m ++ leBytes 2 m ++ leBytes 2 bw) []).mapRouted b) = true := by
    cases hb : routeBaseOf bw with
    | none => exact Bool.false_ne_true
    | some k =>
      have hk := h k hb
      rw [State.mapRouted] at hk
      rw [Option.any_some, State.mapRouted, dir_of_site hsite, hk]
      exact Bool.false_ne_true
  unfold State.distRoute
  dsimp only
  rw [routeBaseOf] at hn ⊢
  rw [if_neg hn]
  refine ⟨by rw [State.onFab_casc, hcasc], by rw [State.onFab_sram, sram_of_site hsite], _,
    by rw [State.onFab_fab, fab_of_site hsite], rfl, rfl, rfl, rfl, ?_⟩
  exact congrArg Fabric.failGen (fab_of_site hsite)
end

/-! ### The next step of a set (R308) -/

/-- A step of a set is under way: a route computation or the check of a bank. -/
def State.distBusy (s : State) : Bool :=
  s.fab.routes.any (·.remote) || [0, 1, 2, 3].any fun b => (s.bank b).remote && (s.bank b).state = .loading

/-- Offset of the next map record; its map, its route word and its ports. -/
def State.recAt (s : State) : Nat := 64 + 296 * s.casc.distStep
def State.recMap (s : State) : Nat := leNat (rdBytes s.casc.distIn s.recAt 2)
def State.recWord (s : State) : Nat := leNat (rdBytes s.casc.distIn (s.recAt + 2) 2)
def State.recPorts (s : State) : List Byte := rdBytes s.casc.distIn (s.recAt + 8) 288

/-- MAP_LOAD of the next record in the audit log. -/
def State.recAudit (s : State) : State := s.distAudit 1 (leBytes 2 s.recMap) s.recPorts

/-- MAP_LOAD of a record, and where it is LOADED its MAP_ROUTE. -/
def State.loadRecord (s : State) (m bw : Nat) (ports : List Byte) : State :=
  if (s.loadPorts m ports).1 = 0 then ((s.loadPorts m ports).2.distStepDone (s.loadPorts m ports).1 0 0).distRoute m bw
  else (s.loadPorts m ports).2.distStepDone (s.loadPorts m ports).1 0 0

/-- The map or the base of the next record is busy. -/
def State.recWaits (s : State) : Bool := s.mapBusy s.recMap || (routeBaseOf s.recWord).any fun b => s.mapRouting b

section
variable {s : State}

theorem distNext_idle (h : s.casc.distApply = false ∨ s.distBusy = true) : s.distNext = s := by
  refine if_pos ?_
  rcases h with h | h
  · rw [h]; rfl
  · rw [Bool.or_assoc]
    rw [State.distBusy] at h
    rw [h, Bool.or_true]

variable (ha : s.casc.distApply = true) (hb : s.distBusy = false)
include ha hb

theorem distNext_goesOn : s.distNext = if s.distMaps ≤ s.casc.distStep then
    (if (s.bank s.casc.distBank).state = .loading then s else s.distBank)
    else if 1024 ≤ s.recMap || bits s.recWord 14 10 ≠ 0 then s.recAudit.distStepDone 1 0 0
    else if s.recWaits then s
    else if s.recAudit.mapProtected s.recMap then s.recAudit.distStepDone 0x11 0 0
    else s.recAudit.loadRecord s.recMap s.recWord s.recPorts := by
  refine (if_neg ?_).trans rfl
  rw [ha, Bool.or_assoc]
  rw [State.distBusy] at hb
  rw [hb]
  decide

theorem distNext_bank (hm : s.distMaps ≤ s.casc.distStep) :
    s.distNext = if (s.bank s.casc.distBank).state = .loading then s else s.distBank := by
  rw [distNext_goesOn ha hb, if_pos hm]

variable (hm : s.casc.distStep < s.distMaps)
include hm

theorem distNext_bad (hbad : 1024 ≤ s.recMap ∨ bits s.recWord 14 10 ≠ 0) : s.distNext = s.recAudit.distStepDone 1 0 0 := by
  rw [distNext_goesOn ha hb, if_neg (Nat.not_le.mpr hm), if_pos (by simpa using hbad)]

variable (hok : ¬ (1024 ≤ s.recMap ∨ bits s.recWord 14 10 ≠ 0))
include hok

theorem distNext_waits (hw : s.recWaits = true) : s.distNext = s := by
  rw [distNext_goesOn ha hb, if_neg (Nat.not_le.mpr hm), if_neg (by simpa using hok), if_pos hw]

theorem distNext_loads (hw : s.recWaits = false) : s.distNext =
    if s.recAudit.mapProtected s.recMap then s.recAudit.distStepDone 0x11 0 0
    else s.recAudit.loadRecord s.recMap s.recWord s.recPorts := by
  rw [distNext_goesOn ha hb, if_neg (Nat.not_le.mpr hm), if_neg (by simpa using hok), if_neg (by simp [hw])]
end

theorem recAudit_fields (s : State) : s.recAudit.site = s.site ∧ s.recAudit.casc = { s.casc with distSeq := s.sec.auditSeq } ∧
    s.recAudit.waitingSet = s.waitingSet := distAudit_fields ..

section
variable (s : State) (m bw : Nat) (p : List Byte)

theorem loadRecord_invalid (h : (s.putMap m 256 p).connsOk m = false) : let t := s.loadRecord m bw p
    t.casc.SetEnded s.waitingSet ∧ t.sram = (s.putMap m 256 p).sram ∧ t.dir m = {} ∧ t.fab.routes = s.fab.routes := by
  obtain ⟨hsram, _, _, hbad⟩ := loadPorts_fields s m p
  obtain ⟨hst, hdir⟩ := hbad h
  obtain ⟨hcasc, hroutes, _, hslot⟩ := loadPorts_rest s m p
  have hw : (s.loadPorts m p).2.waitingSet = s.waitingSet := by unfold State.waitingSet; rw [hcasc, hslot]
  have hne : (s.loadPorts m p).1 ≠ 0 := by rw [hst]; decide
  obtain ⟨he, hs⟩ := distStepDone_refused (s.loadPorts m p).2 hne 0 0
  rw [State.loadRecord, if_neg hne]
  exact ⟨hw ▸ he, (sram_of_site hs).trans hsram, (dir_of_site hs m).trans hdir,
    (congrArg Fabric.routes (fab_of_site hs)).trans hroutes⟩

/-- The state in which a record has been LOADED, before its MAP_ROUTE. -/
def State.recLoaded : State := (s.loadPorts m p).2.setResult (s.loadPorts m p).2.casc.distSeq 0#8

variable {s m p} (h : (s.putMap m 256 p).connsOk m = true)
include h

theorem loadRecord_routes : s.loadRecord m bw p = (s.recLoaded m p).distRoute m bw := by
  obtain ⟨_, _, hok, _⟩ := loadPorts_fields s m p
  obtain ⟨hst, _⟩ := hok h
  rw [State.loadRecord, if_pos hst, hst]
  rfl

theorem recLoaded_fields : let t := s.recLoaded m p
    t.casc = s.casc ∧ t.sram = (s.putMap m 256 p).sram ∧ t.fab.routes = s.fab.routes ∧ t.fab.failGen = s.fab.failGen ∧
    t.waitingSet = s.waitingSet ∧ t.mapRouted m = false ∧ ∀ k, k ≠ m → t.mapRouted k = s.mapRouted k := by
  obtain ⟨hsram, hother, hok, _⟩ := loadPorts_fields s m p
  obtain ⟨_, hdir, _⟩ := hok h
  obtain ⟨hcasc, hroutes, hgen, hslot⟩ := loadPorts_rest s m p
  have hsite := site_setResult (s.loadPorts m p).2 (s.loadPorts m p).2.casc.distSeq 0#8
  have hc : (s.recLoaded m p).casc = s.casc := (setResult_keeps_casc ..).trans hcasc
  have hfab : (s.recLoaded m p).fab = (s.loadPorts m p).2.fab := fab_of_site hsite
  have hd : ∀ k, (s.recLoaded m p).dir k = (s.loadPorts m p).2.dir k := dir_of_site hsite
  refine ⟨hc, (sram_of_site hsite).trans hsram, by rw [hfab, hroutes], by rw [hfab, hgen], ?_, ?_, fun k hk => ?_⟩
  · unfold State.waitingSet
    rw [hc, (slotNum_of_site hsite : (s.recLoaded m p).slotNum = _), hslot]
  · rw [State.mapRouted, hd, hdir]
    decide
  · rw [State.mapRouted, hd, hother k hk, State.mapRouted]

theorem loadRecord_refused (hk : ∃ k, routeBaseOf bw = some k ∧ (k = m ∨ s.mapRouted k = false)) :
    let t := s.loadRecord m bw p
    t.casc.SetEnded s.waitingSet ∧ t.sram = (s.putMap m 256 p).sram ∧ t.fab.routes = s.fab.routes := by
  obtain ⟨k, hbase, hk⟩ := hk
  obtain ⟨_, hsram, hroutes, _, hwait, hself, hother⟩ := recLoaded_fields h
  obtain ⟨he, hs⟩ := distRoute_refused (s := s.recLoaded m p) (m := m) ⟨k, hbase, by
    by_cases hm : k = m
    · rw [hm, hself]
    · rw [hother k hm, hk.resolve_left hm]⟩
  dsimp only
  rw [loadRecord_routes bw h]
  exact ⟨hwait ▸ he, (sram_of_site hs).trans hsram, (congrArg Fabric.routes (fab_of_site hs)).trans hroutes⟩

theorem loadRecord_starts (hk : ∀ k, routeBaseOf bw = some k → k ≠ m ∧ s.mapRouted k = true) :
    let t := s.loadRecord m bw p
    t.casc.distApply = s.casc.distApply ∧ t.sram = (s.putMap m 256 p).sram ∧ ∃ j, t.fab.routes = s.fab.routes ++ [j] ∧
    j.src = m ∧ j.dst = m ∧ j.base = routeBaseOf bw ∧ j.remote = true ∧ j.gen = s.fab.failGen := by
  obtain ⟨hc, hsram, hroutes, hgen, _, _, hother⟩ := recLoaded_fields h
  have hr := distRoute_routes (s := s.recLoaded m p) (m := m) (bw := bw) fun k hb =>
    (hother k (hk k hb).1).trans (hk k hb).2
  rw [hc, hsram, hroutes, hgen, ← loadRecord_routes bw h] at hr
  exact hr
end

/-! ### The ends of route computations and checks for a set (R51, R66, R201) -/

theorem commitRoute_rest (s : State) (j : RouteJob) : let t := (s.commitRoute j).2.2
    t.casc = s.casc ∧ t.pwr = s.pwr := by
  have hset : ∀ (t : State) m d, (t.setDir m d).casc = t.casc ∧ (t.setDir m d).pwr = t.pwr := fun _ _ _ => ⟨rfl, rfl⟩
  have hput : ∀ (t : State) m o b, (t.putMap m o b).casc = t.casc ∧ (t.putMap m o b).pwr = t.pwr :=
    fun _ _ _ _ => ⟨rfl, rfl⟩
  unfold State.commitRoute
  dsimp only
  generalize route s.fab.failed (j.base.map fun b => s.mapVec b) (s.mapConns j.src) = found
  split
  · exact ⟨rfl, rfl⟩
  · split <;> simp only [hset, hput, and_self]

/-- A map record has been loaded and routed. -/
def State.stepDone (s : State) : State :=
  (s.setResult s.casc.distSeq 0#8).onCasc fun c => { c with distStep := c.distStep + 1 }

theorem stepDone_fields (s : State) :
    s.stepDone.casc = { s.casc with distStep := s.casc.distStep + 1 } ∧ s.stepDone.fab = s.fab := by
  unfold State.stepDone
  rw [State.onCasc_casc, State.onCasc_fab, setResult_keeps_casc, setResult_keeps_fab]
  exact ⟨rfl, rfl⟩

section
variable {s : State} (st : Nat)

theorem distRouted_after (ha : s.casc.distApply = false) : (s.distRouted st).casc = s.casc ∧ (s.distRouted st).fab = s.fab := by
  rw [State.distRouted, if_pos (by rw [ha]; rfl)]
  exact ⟨setResult_keeps_casc .., setResult_keeps_fab ..⟩

variable {st} (ha : s.casc.distApply = true)
include ha

theorem distRouted_refused (h : st ≠ 0) :
    (s.distRouted st).casc.SetEnded s.waitingSet ∧ (s.distRouted st).fab = s.fab := by
  obtain ⟨he, hs⟩ := distStepDone_refused s h 0 0
  unfold State.distRouted
  dsimp only
  rw [if_neg (by rw [ha]; decide), if_neg h]
  exact ⟨he, fab_of_site hs⟩

theorem distRouted_goesOn : s.distRouted 0 = s.stepDone.distNext := by
  unfold State.distRouted
  dsimp only
  rw [if_neg (by rw [ha]; decide), if_pos rfl]
  rfl
end

/-- The state in which the computation of `j` has ended and its result is committed. -/
def State.routed (s : State) (j : RouteJob) (js : List RouteJob) : State :=
  let q := (s.onFab fun f => { f with routes := js }).commitRoute j
  q.2.2.finishCmd j.ring j.idx q.1 (q.1 = 0)
    (q.2.2.dirBytes j.dst ++ leBytes 4 ((s.now - j.since) * 1000 / 1024) ++ [BitVec.ofNat 8 q.2.1])

theorem routed_fields (s : State) (j : RouteJob) (js : List RouteJob) : let t := s.routed j js
    t.casc = s.casc ∧ t.waitingSet = s.waitingSet ∧ t.fab.routes = js ∧
    t.fab = ((s.onFab fun f => { f with routes := js }).commitRoute j).2.2.fab := by
  obtain ⟨hcasc, hpwr⟩ := commitRoute_rest (s.onFab fun f => { f with routes := js }) j
  obtain ⟨_, hroutes, _⟩ := commitRoute_fields (s.onFab fun f => { f with routes := js }) j
  have hc : (s.routed j js).casc = s.casc := (finishCmd_keeps_casc ..).trans hcasc
  have hf : (s.routed j js).fab = ((s.onFab fun f => { f with routes := js }).commitRoute j).2.2.fab := finishCmd_keeps_fab ..
  refine ⟨hc, ?_, by rw [hf, hroutes]; rfl, hf⟩
  unfold State.waitingSet
  have hslot : (s.routed j js).slotNum = s.slotNum :=
    congrArg (·.straps.slotId.toNat) ((finishCmd_keeps_pwr ..).trans hpwr)
  rw [hc, hslot]

theorem routeDone_remote {s : State} {j : RouteJob} {js : List RouteJob} (h : s.fab.routes = j :: js) (hr : j.remote = true)
    (hg : j.gen = s.fab.failGen) :
    s.routeDone = (s.routed j js).distRouted ((s.onFab fun f => { f with routes := js }).commitRoute j).1 := by
  unfold State.routeDone State.routeEnd
  rw [h]
  dsimp only
  rw [if_neg (not_not.mpr hg)]
  dsimp only
  rw [hr]
  rfl

/-- The bank of a set has been checked, and RESULT of its step is programmed. -/
def State.setChecked (s : State) (b : Nat) : State :=
  (s.bankChecked b).2.setResult (s.bankChecked b).2.casc.distSeq (BitVec.ofNat 8 (s.checkBank b).status)

theorem bankChecked_slotNum (s : State) (b : Nat) : (s.bankChecked b).2.slotNum = s.slotNum := by
  unfold State.bankChecked
  generalize s.checkBank b = v
  rfl

theorem setChecked_fields (s : State) (b : Nat) : let t := s.setChecked b
    (t.bank b).state = (if (s.checkBank b).status = 0 then .valid else .refused) ∧ t.casc = s.casc ∧
    t.waitingSet = s.waitingSet := by
  obtain ⟨_, _, _, hcasc, _, hvalid, hrefused⟩ := bankChecked_fields s b
  have hsite : (s.setChecked b).site = (s.bankChecked b).2.site := site_setResult ..
  have hc : (s.setChecked b).casc = s.casc := (setResult_keeps_casc ..).trans hcasc
  have hslot : (s.setChecked b).slotNum = s.slotNum := (slotNum_of_site hsite).trans (bankChecked_slotNum s b)
  refine ⟨?_, hc, by unfold State.waitingSet; rw [hc, hslot]⟩
  rw [bank_of_site hsite]
  split
  next h => exact (hvalid h).1
  next h => exact hrefused h

section
variable {s : State} {b : Nat} (hl : (s.bank b).state = .loading) (hr : (s.bank b).remote = true)
include hl hr

theorem bankLoadChecked_remote : s.bankLoadChecked b = if !(s.setChecked b).casc.distApply then s.setChecked b
    else (s.setChecked b).distEnd (s.checkBank b).status (s.checkBank b).item (s.checkBank b).index := by
  unfold State.bankLoadChecked
  dsimp only
  rw [if_pos (by simp [hl, hr])]
  rfl

theorem bankLoadChecked_set : let t := s.bankLoadChecked b
    (t.bank b).state = (if (s.checkBank b).status = 0 then .valid else .refused) ∧
    (s.casc.distApply = false → t.casc = s.casc) ∧ (s.casc.distApply = true → t.casc.SetEnded s.waitingSet) := by
  obtain ⟨hstate, hc, hw⟩ := setChecked_fields s b
  dsimp only
  rw [bankLoadChecked_remote hl hr, hc]
  cases ha : s.casc.distApply with
  | false =>
    rw [if_pos (by decide)]
    exact ⟨hstate, fun _ => hc, fun h => absurd h Bool.false_ne_true⟩
  | true =>
    obtain ⟨he, hs⟩ := distEnd_ends (s.setChecked b) (s.checkBank b).status (s.checkBank b).item (s.checkBank b).index
    rw [if_neg (by decide), bank_of_site hs, hstate, ← hw]
    exact ⟨rfl, fun h => absurd h.symm Bool.false_ne_true, fun _ => he⟩
end

/-! ### 50 ms without a chunk (R308) -/

theorem exec_distResendTimeout (s : State) (dt : Nat) :
    exec (.distResendTimeout dt) s = .next (s.pass dt).resendTimeout.finish := rfl

section
variable {s : State}

theorem resendTimeout_applying (ha : s.casc.distApply = true) : s.resendTimeout = s.distNext := if_pos ha

theorem resendTimeout_idle (ha : s.casc.distApply = false) (hb : (s.biarnUp && s.expired s.casc.distAt) = false) :
    s.resendTimeout = s := by
  rw [State.resendTimeout, if_neg (by simp [ha]), if_neg (by simp [hb])]

theorem resendTimeout_asks (ha : s.casc.distApply = false) (hb : (s.biarnUp && s.expired s.casc.distAt) = true) :
    s.resendTimeout = s.askResend (s.firstMissing.getD 0) := by
  rw [State.resendTimeout, if_neg (by simp [ha]), if_pos hb]
end

/-! ### Chunks, as they change what the target had when the frame came -/

theorem exec_distData (s : State) (dt : Nat) (l : Fin 8) (f : BiarnFrame) : exec (.distData dt l f) s =
    .next ((s.pass dt).biarnArrives l.val 6 f State.chunkArrives).finish := rfl
theorem exec_distResult (s : State) (dt : Nat) (l : Fin 8) (f : BiarnFrame) : exec (.distResult dt l f) s =
    .next ((s.pass dt).biarnArrives l.val 7 f State.resultArrives).finish := rfl
theorem exec_swap (s : State) (dt : Nat) (l : Fin 8) (f : BiarnFrame) : exec (.swap dt l f) s =
    .next ((s.pass dt).biarnArrives l.val 8 f State.swapArrives).finish := rfl
theorem exec_swapResult (s : State) (dt : Nat) (l : Fin 8) (f : BiarnFrame) : exec (.swapResult dt l f) s =
    .next ((s.pass dt).biarnArrives l.val 9 f State.swapResultArrives).finish := rfl

theorem forMe_iff (s : State) (b : BiarnHdr) : s.forMe b = true ↔
    b.consist = s.consistId ∧ b.manages = true ∧ s.casc.mgrLost = false ∧ byteAt b.payload 0 = s.slotNum := by
  simp [State.forMe, and_assoc]

section
variable {u v : State} (h : u.Sent v) {b : BiarnHdr}
include h

theorem forMe_sent : v.forMe b = u.forMe b := by
  obtain ⟨_, _, _, hc⟩ := h.casc
  unfold State.forMe
  rw [h.consistId, h.slotNum, hc]

theorem had_sent (k : Nat) : v.casc.had b k ↔ u.casc.had b k := by
  obtain ⟨_, _, _, hc⟩ := h.casc
  rw [hc]
  rfl

theorem chunk_ignored (hx : v.casc.txCount = u.casc.txCount) (hn : u.forMe b = false) : let t := v.chunkArrives b
    t.casc.distIn = u.casc.distIn ∧ t.casc.distGot = u.casc.distGot ∧ t.casc.txCount = u.casc.txCount := by
  obtain ⟨_, _, _, hc⟩ := h.casc
  dsimp only
  rw [chunkArrives_ignored ((forMe_sent h).trans hn), hx, hc]
  exact ⟨rfl, rfl, rfl⟩

variable (hm : u.forMe b = true)
include hm

theorem chunk_applying (hx : v.casc.txCount = u.casc.txCount) (hup : u.biarnUp = true)
    (ha : u.casc.distApply = true) : let t := v.chunkArrives b
    t.casc.distIn = u.casc.distIn ∧ t.casc.distApply = true ∧
    t.casc.txCount = u.casc.txCount + (if bef b.payload 2 2 = bef b.payload 4 2 then 1 else 0) := by
  obtain ⟨_, _, _, hc⟩ := h.casc
  have hin : v.casc.distIn = u.casc.distIn := by rw [hc]
  dsimp only
  rw [chunkArrives_applying ((forMe_sent h).trans hm) (h.distApply.trans ha), ← ha, ← hin, ← h.distApply, ← hx]
  split
  · rw [State.sendResend, sendBiarn_casc (h.biarnUp.trans hup)]
    exact ⟨rfl, rfl, rfl⟩
  · exact ⟨rfl, rfl, (BitVec.add_zero _).symm⟩

variable (ha : u.casc.distApply = false)
include ha

theorem chunk_stored (hx : v.casc.txCount = u.casc.txCount)
    (hn : bef b.payload 2 2 ≠ bef b.payload 4 2) : let t := v.chunkArrives b
    bef b.payload 2 2 ∈ t.casc.distGot ∧ (∀ k, k ≠ bef b.payload 2 2 → (k ∈ t.casc.distGot ↔ u.casc.had b k)) ∧
    t.casc.distAt = some (u.now + msC 50) ∧ t.casc.distBank = byteAt b.payload 1 ∧ t.casc.distLast = bef b.payload 4 2 ∧
    rdBytes t.casc.distIn (chunkSize * bef b.payload 2 2) (b.payload.drop 8).length = b.payload.drop 8 ∧
    t.casc.txCount = u.casc.txCount := by
  obtain ⟨hgot, hat, hbank, hlast, hin, htx, _⟩ := stored_fields v b
  dsimp only
  rw [chunkArrives_stores ((forMe_sent h).trans hm) (h.distApply.trans ha), if_pos hn]
  refine ⟨(hgot _).mpr (.inl rfl), fun k hk => ?_, by rw [hat, h.now], hbank, hlast, hin, htx.trans hx⟩
  rw [hgot, had_sent h, or_iff_right hk]

variable (hn : bef b.payload 2 2 = bef b.payload 4 2)
include hn

theorem chunk_whole (hw : ∀ k < bef b.payload 4 2, u.casc.had b k) : ∃ t : State, v.chunkArrives b = t.distStart ∧
    t.casc.distBank = byteAt b.payload 1 ∧
    rdBytes t.casc.distIn (chunkSize * bef b.payload 2 2) (b.payload.drop 8).length = b.payload.drop 8 := by
  obtain ⟨_, _, hbank, _, hin, _⟩ := stored_fields v b
  refine ⟨v.stored b, ?_, hbank, hin⟩
  rw [chunkArrives_stores ((forMe_sent h).trans hm) (h.distApply.trans ha), if_neg (not_not.mpr hn), State.lastStored,
    (stored_whole_iff hn).mpr fun k hk => (had_sent h k).mpr (hw k hk)]

/-- A set with a chunk missing is asked for again. -/
theorem chunk_misses (hw : ∃ k < bef b.payload 4 2, ¬ u.casc.had b k) : ∃ k, v.chunkArrives b = (v.stored b).askResend k := by
  obtain ⟨k, hk, hmiss⟩ := hw
  have hnone : (v.stored b).firstMissing ≠ none := fun hf => hmiss ((had_sent h k).mp ((stored_whole_iff hn).mp hf k hk))
  obtain ⟨i, hi⟩ := Option.ne_none_iff_exists'.mp hnone
  refine ⟨i, ?_⟩
  rw [chunkArrives_stores ((forMe_sent h).trans hm) (h.distApply.trans ha), if_neg (not_not.mpr hn), State.lastStored, hi]

theorem chunk_asks (hx : v.casc.txCount = u.casc.txCount) (hw : ∃ k < bef b.payload 4 2, ¬ u.casc.had b k)
    (hup : u.biarnUp = true) : let t := v.chunkArrives b
    (¬ u.casc.had b (bef b.payload 2 2) → t.casc.distAsked = 1 ∧ bef b.payload 2 2 ∈ t.casc.distGot ∧
      t.casc.distAt = some (u.now + msC 50) ∧ t.casc.txCount = u.casc.txCount + 1) ∧
    (u.casc.had b (bef b.payload 2 2) → u.casc.distAsked < 4 → t.casc.distAsked = u.casc.distAsked + 1 ∧
      t.casc.txCount = u.casc.txCount + 1) ∧
    (u.casc.had b (bef b.payload 2 2) → 4 ≤ u.casc.distAsked → t.casc.distAt = none ∧ t.casc.distGot = [] ∧
      t.casc.distIn = []) := by
  obtain ⟨_, _, _, hc⟩ := h.casc
  have hasked : v.casc.distAsked = u.casc.distAsked := by rw [hc]
  obtain ⟨hgot, _, _, _, _, htx, _⟩ := stored_fields v b
  obtain ⟨hfresh, hold⟩ := stored_asked v b
  rw [had_sent h] at hfresh hold
  have hsup : (v.stored b).biarnUp = true := (stored_biarnUp v b).trans (h.biarnUp.trans hup)
  have hnow : (v.stored b).now = u.now := by rw [stored_eq]; exact h.now
  obtain ⟨k, hk⟩ := chunk_misses h hm ha hn hw
  dsimp only
  rw [hk]
  refine ⟨fun hnew => ?_, fun hh hlt => ?_, fun hh hge => ?_⟩
  · have h0 := hfresh hnew
    rw [askResend_asks hsup (by omega)]
    exact ⟨by rw [h0], (hgot _).mpr (.inl rfl), by rw [hnow], by rw [htx, hx]⟩
  · have h0 := (hold hh).trans hasked
    rw [askResend_asks hsup (by omega)]
    exact ⟨by rw [h0], by rw [htx, hx]⟩
  · have h0 := (hold hh).trans hasked
    rw [askResend_drops (by omega)]
    exact ⟨rfl, rfl, rfl⟩
end

/-! ### The next step of a set, as it changes the maps -/

section
variable {s : State} (ha : s.casc.distApply = true) (hb : s.distBusy = false) (hm : s.casc.distStep < s.distMaps)
  (hok : ¬ (1024 ≤ s.recMap ∨ bits s.recWord 14 10 ≠ 0))
include ha hb hm

theorem distNext_badRecord (hbad : 1024 ≤ s.recMap ∨ bits s.recWord 14 10 ≠ 0) :
    s.distNext.casc.SetEnded s.waitingSet ∧ s.distNext.site = s.site := by
  rw [distNext_bad ha hb hm hbad]
  exact audited_refused _ _ _ _ (by decide) _ _

include hok

theorem distNext_protected (hw : s.recWaits = false) (hp : s.mapProtected s.recMap = true) :
    s.distNext.casc.SetEnded s.waitingSet ∧ s.distNext.site = s.site := by
  obtain ⟨hsite, _⟩ := recAudit_fields s
  rw [distNext_loads ha hb hm hok hw, if_pos ((mapProtected_of_site hsite _).trans hp)]
  exact audited_refused _ _ _ _ (by decide) _ _

theorem distNext_record (hw : s.recWaits = false) (hp : s.mapProtected s.recMap = false) :
    s.distNext = s.recAudit.loadRecord s.recMap s.recWord s.recPorts := by
  obtain ⟨hsite, _⟩ := recAudit_fields s
  rw [distNext_loads ha hb hm hok hw, if_neg (by simp [mapProtected_of_site hsite, hp])]
end

/-- A record put after its audit entry is the same in SRAM. -/
theorem recAudit_putMap (s : State) :
    (s.recAudit.putMap s.recMap 256 s.recPorts).sram = (s.putMap s.recMap 256 s.recPorts).sram ∧
    (s.recAudit.putMap s.recMap 256 s.recPorts).connsOk s.recMap = (s.putMap s.recMap 256 s.recPorts).connsOk s.recMap := by
  obtain ⟨hsite, hcasc, _⟩ := recAudit_fields s
  have hsram : (s.recAudit.putMap s.recMap 256 s.recPorts).sram = (s.putMap s.recMap 256 s.recPorts).sram := by
    unfold State.putMap
    dsimp only
    rw [sram_of_site hsite]
  exact ⟨hsram, connsOk_congr hsram ((congrArg Casc.role hcasc).trans rfl) _⟩

/-- The claim on a map record that is neither bad nor busy nor protected. -/
theorem loadRecord_claim (s : State) : let t := s.recAudit.loadRecord s.recMap s.recWord s.recPorts
    let loaded := s.putMap s.recMap 256 s.recPorts
    t.sram = loaded.sram ∧
    (loaded.connsOk s.recMap = false → t.casc.SetEnded s.waitingSet ∧ t.dir s.recMap = {} ∧ t.fab.routes = s.fab.routes) ∧
    (loaded.connsOk s.recMap = true →
      ((∃ k, routeBaseOf s.recWord = some k ∧ (k = s.recMap ∨ s.mapRouted k = false)) →
        t.casc.SetEnded s.waitingSet ∧ t.fab.routes = s.fab.routes) ∧
      ((∀ k, routeBaseOf s.recWord = some k → k ≠ s.recMap ∧ s.mapRouted k = true) → t.casc.distApply = s.casc.distApply ∧
        ∃ j, t.fab.routes = s.fab.routes ++ [j] ∧ j.src = s.recMap ∧ j.dst = s.recMap ∧ j.base = routeBaseOf s.recWord ∧
        j.remote = true ∧ j.gen = s.fab.failGen)) := by
  obtain ⟨hsite, hcasc, hw⟩ := recAudit_fields s
  obtain ⟨hsram, hconns⟩ := recAudit_putMap s
  have hfab := fab_of_site hsite
  have hrouted : ∀ k, s.recAudit.mapRouted k = s.mapRouted k := fun k => by
    unfold State.mapRouted; rw [dir_of_site hsite]
  have happly : s.recAudit.casc.distApply = s.casc.distApply := by rw [hcasc]
  dsimp only
  rw [← hsram, ← hconns, ← hw, ← hfab, ← happly]
  simp only [← hrouted]
  cases hc : (s.recAudit.putMap s.recMap 256 s.recPorts).connsOk s.recMap with
  | false =>
    obtain ⟨he, hs, hd, hr⟩ := loadRecord_invalid s.recAudit s.recMap s.recWord s.recPorts hc
    exact ⟨hs, fun _ => ⟨he, hd, hr⟩, fun h => absurd h Bool.false_ne_true⟩
  | true =>
    by_cases hk : ∃ k, routeBaseOf s.recWord = some k ∧ (k = s.recMap ∨ s.recAudit.mapRouted k = false)
    · obtain ⟨he, hs, hr⟩ := loadRecord_refused s.recWord hc hk
      refine ⟨hs, fun h => absurd h.symm Bool.false_ne_true, fun _ => ⟨fun _ => ⟨he, hr⟩, fun hall => ?_⟩⟩
      obtain ⟨k, hbase, hbad⟩ := hk
      obtain ⟨hne, hrt⟩ := hall k hbase
      exact absurd hbad (by simp [hne, hrt])
    · have hall : ∀ k, routeBaseOf s.recWord = some k → k ≠ s.recMap ∧ s.recAudit.mapRouted k = true := fun k hbase =>
        ⟨fun he => hk ⟨k, hbase, .inl he⟩, Bool.eq_true_of_not_eq_false fun hf => hk ⟨k, hbase, .inr hf⟩⟩
      obtain ⟨hap, hs, hj⟩ := loadRecord_starts s.recWord hc hall
      exact ⟨hs, fun h => absurd h.symm Bool.false_ne_true, fun _ => ⟨fun h => absurd h hk, fun _ => ⟨hap, hj⟩⟩⟩

/-- Settles O60: the orders of a manager by `distribute_claim` and the `consistSwap_…` lemmas, the frames by the lemmas on
`State.Sent` and what `State.accept` leaves, the steps of a set by `distBank_…` and `loadRecord_claim`, its end by
`distEnd_ends`. -/
theorem distributionAndSwaps : Obligations.DistributionAndSwaps := by
  unfold Obligations.DistributionAndSwaps
  refine ⟨fun s r => ⟨fun h => by rw [exec_consistDistribute, consistCfg_idle h], fun h => by
    rw [exec_consistSwap, consistCfg_idle h]⟩, fun s r e h ha => ⟨fun ho hd => ?_, fun ho hd => ?distribute, fun ho hd => ?_,
      fun ho hd => ⟨fun ht => ?_, fun hn hlo hhi => ?_⟩⟩, fun s u dt l f hu => ⟨?other, ?chunk, ?result, ?swap, ?answer⟩,
    fun s u dt hu => ?timeout, fun s => ⟨?idle, ?bank, ?record⟩, fun s u dt hu => ⟨?again, ?routed, ?checked⟩⟩
  · rw [exec_consistDistribute, consistCfg_acts h ha ho, distribute_refused hd]
  case distribute =>
    obtain ⟨t, hout, htake, hown, hjobs⟩ := distribute_claim r.val e hd
    rw [exec_consistDistribute, consistCfg_acts h ha ho]
    refine ⟨t, fun hn => by rw [hout hn], fun hn hf => ?_, fun hn hap => ⟨_, hown hn hap, rfl, rfl, rfl⟩,
      fun k hk hne => ⟨_, hjobs k hk hne, rfl, rfl, rfl, rfl⟩⟩
    obtain ⟨hstep, hrest⟩ := htake hn hf
    exact ⟨by rw [hstep], hrest⟩
  · rw [exec_consistSwap, consistCfg_acts h ha ho, consistSwap_refused hd]
  · rw [exec_consistSwap, consistCfg_acts h ha ho, consistSwap_badTime hd ht]
  · rw [exec_consistSwap, consistCfg_acts h ha ho]
    obtain ⟨hswap, hkept⟩ := consistSwap_orders (r := r.val) hd hn hlo hhi
    refine ⟨_, rfl, fun b hb => ?_, hkept⟩
    have hq : s.swapCheck e.distBank (some (lef (rdBytes e.payload 0 32) 16 8)) = (0, b) := hb
    rw [hq] at hswap
    exact hswap rfl
  case other =>
    intro hg hn
    rw [exec_distData, ← hu, biarnArrives_accepted hg]
    refine ⟨_, rfl, chunk_ignored (.accept u l.val f) (accept_txCount ..) (Bool.eq_false_iff.mpr fun hm => ?_)⟩
    obtain ⟨h1, h2, h3, h4⟩ := (forMe_iff ..).mp hm
    simp [h1, h2, h3, h4] at hn
  case chunk =>
    intro hg h1 h2 h3 h4
    have hs := State.Sent.accept u l.val f
    have hx := accept_txCount u l.val f
    have hm := (forMe_iff u _).mpr ⟨h1, h2, h3, h4⟩
    rw [exec_distData, ← hu, biarnArrives_accepted hg]
    refine ⟨fun ha => ⟨_, rfl, chunk_applying hs hm hx hg.1 ha⟩, fun ha hn => ⟨_, rfl, chunk_stored hs hm ha hx hn⟩,
      fun ha hn hw => ?_, fun ha hn hw => ?_⟩
    · obtain ⟨t, ht, hrest⟩ := chunk_whole hs hm ha hn hw
      exact ⟨t, by rw [ht], hrest⟩
    · obtain ⟨hnew, hmore, hdrop⟩ := chunk_asks hs hm ha hn hx hw hg.1
      exact ⟨fun hh => ⟨_, rfl, hnew hh⟩, fun hh hlt => ⟨_, rfl, hmore hh hlt⟩, fun hh hge => ⟨_, rfl, hdrop hh hge⟩⟩
  case result =>
    intro hg
    have hs := State.Sent.accept u l.val f
    rw [exec_distResult, ← hu, biarnArrives_accepted hg]
    exact ⟨_, rfl, resultArrives_ignored hs _, fun j hr hm hj =>
      ⟨resultArrives_ends hs _ hr hm hj, resultArrives_resends hs _ hr hm hj⟩⟩
  case swap =>
    intro hg
    have hs := State.Sent.accept u l.val f
    have hx := accept_txCount u l.val f
    rw [exec_swap, ← hu, biarnArrives_accepted hg]
    refine ⟨_, rfl, fun hown => ?_, swapArrives_ignored hs hx _⟩
    rcases hown with ⟨⟨hm, hr⟩, hl⟩ | ⟨hn, h0, hr, hi⟩
    · obtain ⟨⟨hswap, hkept⟩, htx⟩ := swapArrives_own hs hx _ hg.1 hm hr hl
      exact ⟨hswap, hkept, by rw [if_pos ⟨hm, hr⟩]; exact htx⟩
    · obtain ⟨⟨hswap, hkept⟩, htx⟩ := swapArrives_relay hs hx _ hg.1 hn h0 hr hi
      exact ⟨hswap, hkept, by rw [if_neg hn]; exact htx⟩
  case answer =>
    intro hg
    have hs := State.Sent.accept u l.val f
    obtain ⟨_, _, _, hc⟩ := hs.casc
    obtain ⟨ht, hcasc⟩ := swapResultArrives_sent (u.accept l.val f) (biarnHdr f.octets)
    rw [exec_swapResult, ← hu, biarnArrives_accepted hg]
    exact ⟨_, rfl, sched_of_site (hs.trans ht).site, by rw [hcasc, accept_counts], by rw [hcasc, hc]⟩
  case timeout =>
    rw [exec_distResendTimeout, ← hu]
    refine ⟨fun ha => by rw [resendTimeout_applying ha], fun ha hb => by rw [resendTimeout_idle ha hb], fun ha hb => ?_⟩
    rw [resendTimeout_asks ha hb]
    refine ⟨fun hlt => ⟨_, rfl, ?_⟩, fun hge => ⟨_, rfl, ?_⟩⟩
    · rw [askResend_asks (Bool.and_eq_true_iff.mp hb).1 hlt]
      exact ⟨rfl, rfl, rfl⟩
    · rw [askResend_drops hge]
      exact ⟨rfl, rfl, rfl, rfl⟩
  case idle => exact distNext_idle
  case bank =>
    intro ha hb hm
    rw [distNext_bank ha hb hm]
    refine ⟨fun hl => if_pos hl, fun hrun => ?_, fun hl hr hp => ?_⟩
    · obtain ⟨he, hs⟩ := distBank_refused hrun
      rw [if_neg (by rcases hrun with h | h <;> rw [h] <;> decide)]
      exact ⟨he, sram_of_site hs, sched_of_site hs⟩
    · obtain ⟨hstate, hrem, hap, hout, hin⟩ := distBank_takes hr hp
      rw [if_neg hl]
      exact ⟨hstate, hrem, hap.trans ha, hout, hin⟩
  case record =>
    intro ha hb hm
    have hwait : s.recWaits = true ↔
        s.mapBusy s.recMap = true ∨ ∃ k, routeBaseOf s.recWord = some k ∧ s.mapRouting k = true := by
      rw [State.recWaits, Bool.or_eq_true, Option.any_eq_true]
    refine ⟨fun hbad => ?_, fun hok hw => distNext_waits ha hb hm hok (hwait.mpr hw), fun hok hw hp => ?_,
      fun hok hw hp => ?_⟩
    · obtain ⟨he, hs⟩ := distNext_badRecord ha hb hm hbad
      exact ⟨he, sram_of_site hs, fab_of_site hs⟩
    · obtain ⟨he, hs⟩ := distNext_protected ha hb hm hok (Bool.eq_false_iff.mpr (mt hwait.mp hw)) hp
      exact ⟨he, sram_of_site hs, fab_of_site hs⟩
    · rw [distNext_record ha hb hm hok (Bool.eq_false_iff.mpr (mt hwait.mp hw)) hp]
      obtain ⟨hsram, hinvalid, hvalid⟩ := loadRecord_claim s
      refine ⟨hsram, hinvalid, fun hc => ⟨(hvalid hc).1, fun hk => ?_⟩⟩
      obtain ⟨hap, hj⟩ := (hvalid hc).2 hk
      exact ⟨hap.trans ha, hj⟩
  case again =>
    intro j js hj hg
    rw [exec_routeDone, ← hu, routeDone_again hj hg]
  case routed =>
    intro j js hj hr hg
    obtain ⟨hcasc, hw, hroutes, hfab⟩ := routed_fields u j js
    rw [exec_routeDone, ← hu, routeDone_remote hj hr hg]
    refine ⟨fun ha => ?_, fun ha hst => ?_, fun ha hst => ?_⟩
    · obtain ⟨hc, hf⟩ := distRouted_after (s := u.routed j js)
        ((u.onFab fun f => { f with routes := js }).commitRoute j).1 (by rw [hcasc, ha])
      exact ⟨_, rfl, hc.trans hcasc, by rw [hf, hroutes]⟩
    · obtain ⟨he, hf⟩ := distRouted_refused (s := u.routed j js) (by rw [hcasc, ha]) hst
      rw [hw] at he
      exact ⟨_, rfl, he, by rw [hf, hroutes]⟩
    · rw [hst, distRouted_goesOn (s := u.routed j js) (by rw [hcasc, ha])]
      obtain ⟨hc, hf⟩ := stepDone_fields (u.routed j js)
      exact ⟨_, rfl, by rw [hc, hcasc], hf.trans hfab⟩
  case checked =>
    intro b hl hr
    rw [exec_bankLoadChecked, ← hu]
    exact ⟨_, rfl, bankLoadChecked_set hl hr⟩

end Sys2Proof.Machine
end
